-- ==== Sys2Proof/Word.lean ====
section
/-! DEFINITION. The word types of the module: bytes, 64-bit words and 256-bit bundles. -/
namespace Sys2Proof

/-- A byte, the unit of device memory, host memory and messages. -/
abbrev Byte := BitVec 8

/-- A 64-bit word: a scalar register, a CSR, a register access. -/
abbrev Word := BitVec 64

/-- The number of a logical kite, K0–K255 (R13). -/
abbrev KiteId := Fin 256

end Sys2Proof
end

