-- ==== Sys2Proof/Machine/Bits.lean ====
section
/-! DEFINITION. Bit fields, byte order and the counters of the register descriptions. Bit 0 is the least
significant bit and a range [hi:lo] includes both ends (R5); multi-byte values are little-endian but for
Yaphor headers, which are big-endian (R6). -/
namespace Sys2Proof.Machine

/-- Bits [lo + w − 1 : lo] of a number. -/
def bits (x lo w : Nat) : Nat := x / 2 ^ lo % 2 ^ w

/-- Bit `i` of a number. -/
def bit (x i : Nat) : Bool := x / 2 ^ i % 2 == 1

/-- A Boolean as the number 0 or 1. -/
def b2n (b : Bool) : Nat := if b then 1 else 0

/-- The sign-extended value of the low `w` bits. -/
def sext (w x : Nat) : Int :=
  if x % 2 ^ w < 2 ^ (w - 1) then (x % 2 ^ w : Nat) else (x % 2 ^ w : Nat) - (2 ^ w : Nat)

/-- An integer modulo 2^w. -/
def wrapI (w : Nat) (x : Int) : Nat := (x % ((2 ^ w : Nat) : Int)).toNat

/-- A counter of `w` bits that saturates. -/
def satAdd (w x n : Nat) : Nat := min (x + n) (2 ^ w - 1)

/-- A counter of `w` bits that wraps. -/
def wrapAdd (w x n : Nat) : Nat := (x + n) % 2 ^ w

/-- The number held by bytes in little-endian order (R6). -/
def leNat : List Byte → Nat
  | [] => 0
  | b :: rest => b.toNat + 256 * leNat rest

/-- The low `n` bytes of a number, little-endian. -/
def leBytes : Nat → Nat → List Byte
  | 0, _ => []
  | n + 1, x => BitVec.ofNat 8 x :: leBytes n (x / 256)

/-- The number held by bytes in big-endian order (R6, R322). -/
def beNat (l : List Byte) : Nat := leNat l.reverse

/-- The low `n` bytes of a number, big-endian. -/
def beBytes (n x : Nat) : List Byte := (leBytes n x).reverse

/-- `n` bytes of a list from offset `o`, zero past its end. -/
def sliceBytes (l : List Byte) (o n : Nat) : List Byte :=
  (List.range n).map fun i => l.getD (o + i) 0

/-- The little-endian number in `n` bytes at offset `o`. -/
def fieldLe (l : List Byte) (o n : Nat) : Nat := leNat (sliceBytes l o n)

/-- The big-endian number in `n` bytes at offset `o`. -/
def fieldBe (l : List Byte) (o n : Nat) : Nat := beNat (sliceBytes l o n)

/-- ⌈a ÷ b⌉. -/
def ceilDiv (a b : Nat) : Nat := (a + b - 1) / b

/-- log₂ of the least power of two that is at least `n`. -/
def ceilLog2 (n : Nat) : Nat := if n ≤ 1 then 0 else Nat.log2 (n - 1) + 1

/-- Whether `n` is a power of two. -/
def isPow2 (n : Nat) : Bool := n != 0 && 2 ^ Nat.log2 n == n

/-- Put an element before the first one it does not come after. -/
def sortIns {α : Type} (le : α → α → Bool) (x : α) : List α → List α
  | [] => [x]
  | y :: rest => if le x y then x :: y :: rest else y :: sortIns le x rest

/-- Sort a list; equals keep their order. -/
def sortBy {α : Type} (le : α → α → Bool) (l : List α) : List α := l.foldr (sortIns le) []

/-- Split a list into pieces of `n` (structural on a fuel of the list's length). -/
def chunksFuel {α : Type} : Nat → Nat → List α → List (List α)
  | 0, _, _ => []
  | f + 1, n, l => if l.isEmpty then [] else l.take n :: chunksFuel f n (l.drop n)

/-- Split a list into pieces of `n`, the last one shorter. -/
def chunksOf {α : Type} (n : Nat) (l : List α) : List (List α) := chunksFuel l.length n l

/-- The ASCII bytes of a string. -/
def asciiBytes (t : String) : List Byte := t.toList.map fun c => BitVec.ofNat 8 c.toNat

end Sys2Proof.Machine
end

