-- ==== Sys2Proof/Machine/Keccak.lean ====
section
/-! DEFINITION. SHAKE256 with 256 bits of output (FIPS 202), which the manual names for model digests, prefix keys, page,
image and measurement digests (R213, R268, R270, R326, R405, R413, R416). A digest is kept as a number, little-endian over
its bytes. PRESUMED: the algorithm is FIPS 202's, which the manual takes from outside. -/
namespace Sys2Proof.Machine

/-- A state of Keccak-f[1600]: 25 lanes, lane (x, y) in place x + 5y. -/
abbrev Sponge := List (BitVec 64)

/-- The lane in column x and row y, both modulo 5. -/
def Sponge.at_ (a : Sponge) (x y : Nat) : BitVec 64 := a.getD (x % 5 + 5 * (y % 5)) 0

/-- A state from the value of each lane by its place. -/
def Sponge.make (f : Nat → BitVec 64) : Sponge := (List.range 25).map f

/-- Parity of column x. -/
def Sponge.parity (a : Sponge) (x : Nat) : BitVec 64 := (List.range 5).foldl (fun p y => p ^^^ a.at_ x y) 0

/-- θ: each lane takes in the parity of the column before it and the rotated parity of the one after it. -/
def Sponge.theta (a : Sponge) : Sponge :=
  let p := (List.range 5).map a.parity
  Sponge.make fun i => a.getD i 0 ^^^ (p.getD ((i + 4) % 5) 0 ^^^ (p.getD ((i + 1) % 5) 0).rotateLeft 1)

/-- The walk of ρ and π: after `t` moves from lane (1, 0), the place reached, and the rotation of the lane that leaves it;
each entry is (place left, place entered, rotation). On a fuel of the moves left. -/
def pathFrom : Nat → Nat → Nat → Nat → List (Nat × Nat × Nat)
  | 0, _, _, _ => []
  | n + 1, t, x, y =>
    let y' := (2 * x + 3 * y) % 5
    (x + 5 * y, y + 5 * y', (t + 1) * (t + 2) / 2 % 64) :: pathFrom n (t + 1) y y'

/-- ρ and π: lane (0, 0) stays, and the other 24 each move one place along the walk, rotated. -/
def Sponge.rhoPi (a : Sponge) : Sponge :=
  (pathFrom 24 0 1 0).foldl (fun b m => b.set m.2.1 ((a.getD m.1 0).rotateLeft m.2.2)) a

/-- χ: each lane is flipped where the next lane of its row is 0 and the one after it is 1. -/
def Sponge.chi (a : Sponge) : Sponge :=
  Sponge.make fun i => a.getD i 0 ^^^ (a.at_ (i + 2) (i / 5) &&& ~~~(a.at_ (i + 1) (i / 5)))

/-- One shift of ι's register of eight bits, with feedback into bits 0, 4, 5 and 6. -/
def iotaShift (r : Nat) : Nat := if r < 128 then 2 * r else 2 * r - 256 ^^^ 0x71

/-- The constant of a round and the register after it: seven bits of the register go to the bits one below a power of two. -/
def iotaConst (r : Nat) : Nat × Nat :=
  (List.range 7).foldl (fun s j => (s.1 + (if bit s.2 0 then 2 ^ (2 ^ j - 1) else 0), iotaShift s.2)) (0, r)

/-- `n` rounds, on from the register of ι. -/
def keccakRounds : Nat → Nat → Sponge → Sponge
  | 0, _, a => a
  | n + 1, r, a =>
    let c := iotaConst r
    let b := a.theta.rhoPi.chi
    keccakRounds n c.2 (b.set 0 (b.getD 0 0 ^^^ BitVec.ofNat 64 c.1))

/-- Keccak-f[1600]: 24 rounds. -/
def keccakF (a : Sponge) : Sponge := keccakRounds 24 1 a

/-- XOR a block of 136 bytes into the state and permute. -/
def absorb (a : Sponge) (block : List Byte) : Sponge :=
  let w := (chunksOf 8 block).map fun l => BitVec.ofNat 64 (leNat l)
  keccakF (a.zipIdx.map fun (v, i) => v ^^^ w.getD i 0)

/-- Message with the suffix 1111 and the padding 10*1. -/
def shakePad (m : List Byte) : List Byte :=
  let r := 136 - m.length % 136
  if r = 1 then m ++ [0x9F] else m ++ [0x1F] ++ List.replicate (r - 2) 0 ++ [0x80]

/-- SHAKE256 with 32 bytes of output. -/
def shake256 (m : List Byte) : List Byte :=
  let a := (chunksOf 136 (shakePad m)).foldl absorb (List.replicate 25 0)
  (a.take 4).flatMap fun v => leBytes 8 v.toNat

/-- SHA3-384 (FIPS 202): blocks of 104 bytes, suffix 01, 48 bytes of output. -/
def sha3x384 (m : List Byte) : List Byte :=
  let r := 104 - m.length % 104
  let p := if r = 1 then m ++ [0x86] else m ++ [0x06] ++ List.replicate (r - 2) 0 ++ [0x80]
  let a := (chunksOf 104 p).foldl absorb (List.replicate 25 0)
  (a.take 6).flatMap fun v => leBytes 8 v.toNat

/-- The digest as a number. -/
def digest (m : List Byte) : Nat := leNat (shake256 m)

end Sys2Proof.Machine
end

