-- ==== Sys2Proof/Config.lean ====
section
/-! DEFINITION. What the manual leaves open. Every constant here is opaque: nothing can compute it, and a statement that
holds with it holds for every value (R10). Each is a function of the place, or of a plain counter of the state, so that
one undefined value is one value. -/
namespace Sys2Proof.Config

/-- Contents of an undefined scratchpad row: kite, row, number of wakes of its bank (R441, R149). -/
opaque freeRow (kite row gen : Nat) : Nat

/-- Contents of an undefined vector register: kite, register, number of launches (R215). -/
opaque freeVec (kite reg gen : Nat) : Nat

/-- Contents of an undefined accumulator: kite, set (1 for B), container index (R72). -/
opaque freeAcc (kite set n : Nat) : BitVec 40

/-- A byte of a KV page row that nothing has written since its page was made, copied or compacted (R254, R267, R277): its
address, and the counter of the state when it became undefined. -/
opaque freeKv (addr gen : Nat) : BitVec 8

/-- Contents of an undefined bundle of program memory (§8.8). -/
opaque freeBundle (kite addr : Nat) : BitVec 256

/-- A staged program memory word never written since reset (§8.10). -/
opaque freeStage (kite w : Nat) : BitVec 64

/-- Contents of an undefined chain memory word (§6.8). -/
opaque freeChainWord (kite i : Nat) : BitVec 128

/-- A byte that the manual leaves open, by its use (0 an entry of a submission queue that host memory does not give, 1 the
nonce of a CHALLENGE) and a counter of the state. -/
opaque freeByte (kind n : Nat) : BitVec 8

/-- The first output token of a request: the model program's result, which the manual gives no path to the scheduler for.
R42 lets nothing enter it but the model (by its digest), the variant (by its digest, 0 for none) and the token sequence,
a tree's parents among it. -/
opaque firstToken (model variant : Nat) (tokens parents : List Nat) : BitVec 32

/-- The FP32 score that a query row of a scoring layer's head gives a key position (R58, R264), by model, variant, tokens and
parents as above: −∞ where the head's mask hides it. The rows lie in the model program's own memory. -/
opaque scoreOf (model variant : Nat) (tokens parents : List Nat) (layer head query key : Nat) : BitVec 32

/-- The last node of a tree's accepted path, modulo their number: the model program's choice (R266, R267). -/
opaque acceptedNode (model variant : Nat) (tokens parents : List Nat) : Nat

/-- Bytes of a hedged ML-DSA-65 signature (FIPS 204; R327, R415) with the private key of a public key, under a context string,
over a message; the counter of the state stands for the hedge. -/
opaque signature (key context message : List (BitVec 8)) (n : Nat) : List (BitVec 8)

/-- Result of an ML-DSA-65 verification (FIPS 204; R405, R413) under a public key and a context string, which the manual takes
from outside. -/
opaque verify (key context message signature : List (BitVec 8)) : Bool

/-- Any other undefined or implementation-chosen number, by a kind and a counter. -/
opaque freeNat (kind n : Nat) : Nat

/-- By how many ns, up to 16, a domain's copy of the timebase is read after an event (R281, R385). -/
opaque stampLag (n : Nat) : Nat

/-- The placement of a user train of another module as its module would answer it: module, first kite and count of its runs
(R208), for which Table 15.4 has no answer that carries it. -/
opaque remotePlace (mod unit : Nat) : List (Nat × Nat × Nat)

/-- SHAKE256-256 digest of the firmware public key, held in ROM (R405). -/
opaque romKeyDigest : Nat

/-- SHAKE256-256 digest of the ROM (Table 18.8). -/
opaque romDigest : Nat

/-- SHAKE256-256 digest of a flash record whose bytes the manual does not lay out (Table 18.8), by its kind (0 identity,
1 floor, 2 margin) and write count. -/
opaque recordDigest (kind count : Nat) : Nat

end Sys2Proof.Config
end

