-- ==== Sys2Proof/Machine/Num.lean ====
section
/-! DEFINITION. Number formats and conversions (file 02, R25–R41): the formats of Table 2.1, exact values, and the
one rounding rule. A finite value is held exactly, as a sign, a whole number and a power of two. -/
namespace Sys2Proof.Machine

/-- The number formats of Table 2.1 (R25, R26). -/
inductive Fmt where
  | fp32 | bf16 | fp16 | e4m3 | e5m2 | mxE4m3 | mxE5m2 | mxfp4 | int8 | mxint8 | w2t | w2q | w1 | acc40 | int32
  deriving DecidableEq, Repr

/-- The format of a 4-bit code; 0xF is reserved (R25). -/
def Fmt.ofCode : Nat → Option Fmt
  | 0 => some .fp32 | 1 => some .bf16 | 2 => some .fp16 | 3 => some .e4m3 | 4 => some .e5m2
  | 5 => some .mxE4m3 | 6 => some .mxE5m2 | 7 => some .mxfp4 | 8 => some .int8 | 9 => some .mxint8
  | 10 => some .w2t | 11 => some .w2q | 12 => some .w1 | 13 => some .acc40 | 14 => some .int32
  | _ => none

/-- The code of a format (Table 2.1). -/
def Fmt.code : Fmt → Nat
  | .fp32 => 0 | .bf16 => 1 | .fp16 => 2 | .e4m3 => 3 | .e5m2 => 4 | .mxE4m3 => 5 | .mxE5m2 => 6
  | .mxfp4 => 7 | .int8 => 8 | .mxint8 => 9 | .w2t => 10 | .w2q => 11 | .w1 => 12 | .acc40 => 13 | .int32 => 14

/-- Element width in bits (Table 2.1). -/
def Fmt.width : Fmt → Nat
  | .fp32 => 32 | .bf16 => 16 | .fp16 => 16 | .e4m3 => 8 | .e5m2 => 8 | .mxE4m3 => 8 | .mxE5m2 => 8
  | .mxfp4 => 4 | .int8 => 8 | .mxint8 => 8 | .w2t => 2 | .w2q => 2 | .w1 => 1 | .acc40 => 40 | .int32 => 32

/-- Formats with one E8M0 scale for each 32 elements (R32). -/
def Fmt.isMx : Fmt → Bool
  | .mxE4m3 | .mxE5m2 | .mxfp4 | .mxint8 => true
  | _ => false

/-- Formats with one BF16 scale for each 64 elements (R34). -/
def Fmt.isLow : Fmt → Bool
  | .w2t | .w2q | .w1 => true
  | _ => false

/-- An exact value: NaN, an infinity, or (−1)^neg × m × 2^e, whose zero keeps its sign. -/
inductive Val where
  | nan
  | inf (neg : Bool)
  | fin (neg : Bool) (m : Nat) (e : Int)
  deriving DecidableEq, Repr

/-- +0. -/
def Val.zero : Val := .fin false 0 0

/-- Sign bit of a value; NaN counts as positive, since no NaN sign carries into a result (R28). -/
def Val.neg : Val → Bool
  | .nan => false
  | .inf n => n
  | .fin n _ _ => n

/-- Whether a value is a zero of either sign. -/
def Val.isZero : Val → Bool
  | .fin _ m _ => m == 0
  | _ => false

/-- Whether a value is NaN. -/
def Val.isNan : Val → Bool
  | .nan => true
  | _ => false

/-- The value of an integer. -/
def Val.ofInt (i : Int) : Val := .fin (decide (i < 0)) i.natAbs 0

/-- A finite value as a signed whole number of units 2^u, for u at or below its exponent. -/
def scaled (neg : Bool) (m : Nat) (e u : Int) : Int :=
  let x : Int := ((m * 2 ^ (e - u).toNat : Nat) : Int)
  if neg then -x else x

/-- Multiply by 2^k, exactly. -/
def Val.scale (k : Int) : Val → Val
  | .fin n m e => .fin n m (e + k)
  | v => v

/-- Sign inversion. -/
def Val.negate : Val → Val
  | .nan => .nan
  | .inf n => .inf (!n)
  | .fin n m e => .fin (!n) m e

/-- The exact sum, with the IEEE 754 rules for infinities and for the sign of an exact zero sum (R44). -/
def Val.add : Val → Val → Val
  | .nan, _ => .nan
  | _, .nan => .nan
  | .inf a, .inf b => if a == b then .inf a else .nan
  | .inf a, _ => .inf a
  | _, .inf b => .inf b
  | .fin n1 m1 e1, .fin n2 m2 e2 =>
    let u := min e1 e2
    let s := scaled n1 m1 e1 u + scaled n2 m2 e2 u
    if s = 0 then .fin (n1 && n2 && m1 == 0 && m2 == 0) 0 0
    else .fin (decide (s < 0)) s.natAbs u

/-- The exact product (R47), with 0 × ±Inf NaN. -/
def Val.mul : Val → Val → Val
  | .nan, _ => .nan
  | _, .nan => .nan
  | .inf a, .inf b => .inf (a != b)
  | .inf a, .fin n m _ => if m = 0 then .nan else .inf (a != n)
  | .fin n m _, .inf b => if m = 0 then .nan else .inf (n != b)
  | .fin n1 m1 e1, .fin n2 m2 e2 => .fin (n1 != n2) (m1 * m2) (e1 + e2)

/-- Numeric order of two finite values, as the sign of their difference. -/
def cmpFin (n1 : Bool) (m1 : Nat) (e1 : Int) (n2 : Bool) (m2 : Nat) (e2 : Int) : Int :=
  let u := min e1 e2
  scaled n1 m1 e1 u - scaled n2 m2 e2 u

/-- Less than; false where either is NaN (file 05, §5.3). The zeros are equal. -/
def Val.lt : Val → Val → Bool
  | .nan, _ => false
  | _, .nan => false
  | .inf a, .inf b => a && !b
  | .inf a, .fin _ _ _ => a
  | .fin _ _ _, .inf b => !b
  | .fin n1 m1 e1, .fin n2 m2 e2 => decide (cmpFin n1 m1 e1 n2 m2 e2 < 0)

/-- Numeric equality; false where either is NaN. -/
def Val.eqv : Val → Val → Bool
  | .nan, _ => false
  | _, .nan => false
  | .inf a, .inf b => a == b
  | .inf _, .fin _ _ _ => false
  | .fin _ _ _, .inf _ => false
  | .fin n1 m1 e1, .fin n2 m2 e2 => decide (cmpFin n1 m1 e1 n2 m2 e2 = 0)

/-- max_nan (R45): NaN if either is NaN, else the larger, and +0 of the two zeros. -/
def Val.maxNan (a b : Val) : Val :=
  if a.isNan || b.isNan then .nan
  else if a.lt b then b
  else if b.lt a then a
  else if a.neg then b else a

/-- The mirror of max_nan (R45): its choice between the two zeros is −0. -/
def Val.minNan (a b : Val) : Val :=
  if a.isNan || b.isNan then .nan
  else if a.lt b then a
  else if b.lt a then b
  else if a.neg then a else b

/-! ### Binary layouts -/

/-- How a floating-point layout uses its top exponent. -/
inductive TopExp where
  | ieee     -- infinities and NaN
  | e4m3     -- one NaN pattern, no infinity
  | finite   -- neither
  deriving DecidableEq, Repr

/-- A floating-point layout: exponent and fraction widths, bias, use of the top exponent (Tables 2.2, 2.3, 2.5). -/
structure Layout where
  eb : Nat
  fb : Nat
  bias : Int
  top : TopExp
  deriving DecidableEq, Repr

def layFp32 : Layout := ⟨8, 23, 127, .ieee⟩
def layBf16 : Layout := ⟨8, 7, 127, .ieee⟩
def layFp16 : Layout := ⟨5, 10, 15, .ieee⟩
def layE4m3 : Layout := ⟨4, 3, 7, .e4m3⟩
def layE5m2 : Layout := ⟨5, 2, 15, .ieee⟩
def layE2m1 : Layout := ⟨2, 1, 1, .finite⟩
def layAcc40 : Layout := ⟨9, 30, 255, .ieee⟩
/-- The wide-mode piece E8M3 (§2.7). -/
def layE8m3 : Layout := ⟨8, 3, 127, .ieee⟩

/-- The value of an encoding (R27–R29, R35). -/
def Layout.decode (l : Layout) (x : Nat) : Val :=
  let s := bit x (l.eb + l.fb)
  let e := bits x l.fb l.eb
  let f := bits x 0 l.fb
  if l.top = .ieee ∧ e = 2 ^ l.eb - 1 then (if f = 0 then .inf s else .nan)
  else if l.top = .e4m3 ∧ e = 2 ^ l.eb - 1 ∧ f = 2 ^ l.fb - 1 then .nan
  else if e = 0 then .fin s f (1 - l.bias - l.fb)
  else .fin s (2 ^ l.fb + f) ((e : Int) - l.bias - l.fb)

/-- Exponent of the least unit of a layout: that of its subnormals. -/
def Layout.umin (l : Layout) : Int := 1 - l.bias - l.fb

/-- Round half to even a quotient `num ÷ den`. -/
def rneDiv (num den : Nat) : Nat :=
  let q := num / den
  let r := num % den
  if 2 * r < den then q else if den < 2 * r then q + 1 else if q % 2 = 0 then q else q + 1

/-- num × 2^k ÷ den, as a numerator and a denominator. -/
def shiftQ (num den : Nat) (k : Int) : Nat × Nat :=
  if 0 ≤ k then (num * 2 ^ k.toNat, den) else (num, den * 2 ^ (-k).toNat)

/-- The exponent E with 2^E ≤ (num ÷ den) × 2^e < 2^(E+1), for num and den above 0. -/
def topExp (num den : Nat) (e : Int) : Int :=
  let l : Int := (Nat.log2 num : Int) - (Nat.log2 den : Int)
  let (a, b) := shiftQ num den (-l)
  if b ≤ a then l + e else l - 1 + e

/-- Round (num ÷ den) × 2^e to `fb` + 1 significant bits, no unit below 2^umin, ties to even: the magnitude is
`q` × 2^`u` (first point of R37, with no upper bound on the exponent). -/
def rneMag (fb : Nat) (umin : Int) (num den : Nat) (e : Int) : Nat × Int :=
  if num = 0 then (0, umin)
  else
    let u := max (topExp num den e - fb) umin
    let (a, b) := shiftQ num den (e - u)
    (rneDiv a b, u)

/-- Encode a magnitude q × 2^u that rneMag gave, or none when it exceeds the largest finite value. -/
def Layout.encodeMag (l : Layout) (q : Nat) (u : Int) : Option Nat :=
  let (q, u) := if q = 2 ^ (l.fb + 1) then (2 ^ l.fb, u + 1) else (q, u)
  if q < 2 ^ l.fb then some q
  else
    let ef := u + l.fb + l.bias
    let x := ef.toNat * 2 ^ l.fb + (q - 2 ^ l.fb)
    let lim := match l.top with
      | .ieee => (2 ^ l.eb - 1) * 2 ^ l.fb
      | .e4m3 => 2 ^ (l.eb + l.fb) - 1
      | .finite => 2 ^ (l.eb + l.fb)
    if x < lim then some x else none

/-- The sign bit of a layout at its place. -/
def Layout.signBit (l : Layout) (neg : Bool) : Nat := if neg then 2 ^ (l.eb + l.fb) else 0

/-- The canonical NaN of a layout (Tables 2.2, 2.3, 2.5; R28). E2M1 has none and gets +0. -/
def Layout.nan (l : Layout) : Nat :=
  match l.top with
  | .ieee => if l.fb = 2 then 2 ^ (l.eb + l.fb) - 1
             else (2 ^ l.eb - 1) * 2 ^ l.fb + 2 ^ (l.fb - 1)
  | .e4m3 => 2 ^ (l.eb + l.fb) - 1
  | .finite => 0

/-- Infinity of a layout; the canonical NaN where it has none (Table 2.7). -/
def Layout.infEnc (l : Layout) (neg : Bool) : Nat :=
  match l.top with
  | .ieee => l.signBit neg + (2 ^ l.eb - 1) * 2 ^ l.fb
  | .e4m3 => l.nan
  | .finite => l.signBit neg + (2 ^ (l.eb + l.fb) - 1)

/-- The largest finite magnitude of a layout. -/
def Layout.maxFin (l : Layout) : Nat :=
  match l.top with
  | .ieee => (2 ^ l.eb - 1) * 2 ^ l.fb - 1
  | .e4m3 => 2 ^ (l.eb + l.fb) - 2
  | .finite => 2 ^ (l.eb + l.fb) - 1

/-- Whether a finite overflow of the layout saturates (E4M3, E5M2, E2M1; Table 2.7). -/
def Layout.saturates (l : Layout) : Bool := l.top != .ieee || l.fb == 2

/-- rne_to of an exact rational magnitude (R37, Table 2.7). -/
def Layout.roundQ (l : Layout) (neg : Bool) (num den : Nat) (e : Int) : Nat :=
  let (q, u) := rneMag l.fb l.umin num den e
  match l.encodeMag q u with
  | some x => l.signBit neg + x
  | none => if l.saturates then l.signBit neg + l.maxFin else l.infEnc neg

/-- rne_to for a floating-point layout (R37). -/
def Layout.round (l : Layout) : Val → Nat
  | .nan => l.nan
  | .inf n => l.infEnc n
  | .fin n m e => l.roundQ n m 1 e

/-- Round a value to a whole number, ties to even. -/
def rneInt (neg : Bool) (m : Nat) (e : Int) : Int :=
  let (a, b) := shiftQ m 1 e
  let q : Int := rneDiv a b
  if neg then -q else q

/-- rne_to for a two's-complement integer of `w` bits, saturating between `lo` and `hi` (Table 2.7). -/
def roundInt (w : Nat) (lo hi : Int) : Val → Nat
  | .nan => 0
  | .inf n => wrapI w (if n then lo else hi)
  | .fin n m e => wrapI w (max lo (min hi (rneInt n m e)))

/-- The floating-point layout of a format's element, if it has one. -/
def Fmt.layout : Fmt → Option Layout
  | .fp32 => some layFp32 | .bf16 => some layBf16 | .fp16 => some layFp16
  | .e4m3 => some layE4m3 | .e5m2 => some layE5m2 | .mxE4m3 => some layE4m3 | .mxE5m2 => some layE5m2
  | .mxfp4 => some layE2m1 | .acc40 => some layAcc40
  | _ => none

/-- Element value of an encoding, without scale (R27–R30, R33, R35; Table 2.4). -/
def Fmt.decode (f : Fmt) (x : Nat) : Val :=
  match f.layout with
  | some l => l.decode x
  | none =>
    match f with
    | .int8 => .ofInt (sext 8 x)
    | .int32 => .ofInt (sext 32 x)
    | .mxint8 => (Val.ofInt (sext 8 x)).scale (-6)
    | .w2t => match x % 4 with
      | 1 => .fin false 1 0
      | 3 => .fin true 1 0
      | _ => .zero
    | .w2q => match x % 4 with
      | 0 => .fin true 3 (-1)
      | 1 => .fin true 1 (-1)
      | 2 => .fin false 1 (-1)
      | _ => .fin false 3 (-1)
    | .w1 => if x % 2 = 0 then .fin true 1 0 else .fin false 1 0
    | _ => .zero

/-- The factor of an E8M0 scale code: 2^(c − 127), and NaN for 0xFF (R32). -/
def e8m0 (c : Nat) : Val := if c % 256 = 255 then .nan else .fin false 1 ((c % 256 : Nat) - 127)

/-- Value of an MX element with its block scale (R32). -/
def mxVal (f : Fmt) (x c : Nat) : Val := (f.decode x).mul (e8m0 c)

/-- Value of a low-bit weight with its BF16 group scale (R34). -/
def groupVal (f : Fmt) (x g : Nat) : Val := (f.decode x).mul (layBf16.decode g)

/-- Level rounding of a value to W2T, W2Q or W1 (R41, Table 2.10). `lt` and `gt` compare |v| with a threshold; the
exact quotient of R111 and a plain value both come through here as a rational magnitude num ÷ den × 2^e. -/
def levelQ (f : Fmt) (neg : Bool) (num den : Nat) (e : Int) : Nat :=
  let (a, b) := shiftQ num den e
  match f with
  | .w2t => if b < 2 * a then (if neg then 3 else 1) else 0
  | .w2q => if b < a then (if neg then 0 else 3) else (if neg then 1 else 2)
  | _ => if neg then 0 else 1

/-- Level rounding of any value (Table 2.10). -/
def level (f : Fmt) : Val → Nat
  | .nan => match f with
    | .w2t => 0
    | .w2q => 2
    | _ => 1
  | .inf n => levelQ f n 4 1 0
  | .fin n m e => levelQ f n m 1 e

/-- rne_to for every unscaled destination, and level rounding for the low-bit ones (R37, R39, R41). MX
destinations take a whole block (R40): see `quantMx`. -/
def Fmt.encode (f : Fmt) (v : Val) : Nat :=
  match f.layout with
  | some l => l.round v
  | none =>
    match f with
    | .int8 => roundInt 8 (-128) 127 v
    | .int32 => roundInt 32 (-2147483648) 2147483647 v
    | .mxint8 => roundInt 8 (-127) 127 (v.scale 6)
    | _ => level f v

/-- An identity conversion returns the bits unchanged, except that a NaN becomes canonical (R39). -/
def Fmt.canon (f : Fmt) (x : Nat) : Nat :=
  match f.layout with
  | some l => if (l.decode x).isNan then l.nan else x % 2 ^ f.width
  | none => x % 2 ^ f.width

/-- The exponent m of R40 for an MX element format. -/
def Fmt.mxExp : Fmt → Int
  | .mxE4m3 => 8
  | .mxE5m2 => 15
  | .mxfp4 => 2
  | _ => 0

/-- Magnitude of a value; NaN and infinities are handled before. -/
def Val.abs : Val → Val
  | .fin _ m e => .fin false m e
  | .inf _ => .inf false
  | .nan => .nan

/-- The larger magnitude of two finite values. -/
def maxMag (a b : Val) : Val := if a.lt b then b else a

/-- The exponent of the largest magnitude of a block, or none where that is zero. -/
def Val.topExp : Val → Option Int
  | .fin _ m e => if m = 0 then none else some (Sys2Proof.Machine.topExp m 1 e)
  | _ => none

/-- Conversion of one block into an MX format (R40): the scale code and the element encodings. -/
def quantMx (f : Fmt) (xs : List Val) : Nat × List Nat :=
  if xs.any (fun v => match v with
    | .fin _ _ _ => false
    | _ => true) then (255, xs.map fun _ => 0)
  else
    let amax := xs.foldl (fun a v => maxMag a v.abs) .zero
    let s : Int := match amax.topExp with
      | none => -127
      | some e => max (-127) (min 127 (e - f.mxExp))
    ((s + 127).toNat, xs.map fun v => f.encode (v.scale (-s)))

/-- cvt(src, dst, x) of a value already read from its source (R38, R39): every rule but the identity cells and the
MX block rule. -/
def cvtVal (dst : Fmt) (v : Val) : Nat := dst.encode v

/-- The pieces of a wide-mode operand (R36): piece i stands for its value times 2^(−4i). The pieces are given as
exact values of q[i], from the exponent e of the operand. -/
def splitPieces (f : Fmt) (v : Val) : List Val :=
  let n := if f = .bf16 then 2 else 3
  match v with
  | .nan => .nan :: List.replicate (n - 1) .zero
  | .inf s => .inf s :: List.replicate (n - 1) (.fin s 0 0)
  | .fin s m e =>
    let e0 : Int := if f = .bf16 then -126 else -14
    let ex : Int := if m = 0 then e0 else max e0 (Sys2Proof.Machine.topExp m 1 e)
    (List.range n).map fun (i : Nat) =>
      -- bits of |x| in units of the grid 2^(ex − 3 − 4i), its four bits above the next coarser grid
      let g := ex - 3 - 4 * (i : Int)
      let (a, b) := shiftQ m 1 (e - g)
      .fin s (a / b % 16) (g + 4 * (i : Int))

end Sys2Proof.Machine
end

