-- ==== Sys2Proof/Machine/Canon.lean ====
section
/-! DEFINITION. Canonical arithmetic (file 03, R42–R63): matrix accumulation, the aligned binary tree, the correctly
rounded special functions, and the attention tile state. -/
namespace Sys2Proof.Machine

/-! ### Matrix accumulation (R47–R50) -/

/-- The exact sum of the present products of one K-group and pass (R48): `none` where no product is present. The fold
of the exact additions gives −0 only when every present product is −0. -/
def groupSum (ts : List (Option Val)) : Option Val :=
  ts.foldl (fun acc t =>
    match acc, t with
    | acc, none => acc
    | none, some v => some v
    | some a, some v => some (a.add v)) none

/-- One group update of an accumulator: a single rounding to ACC40, and none where the group is absent (R48). -/
def accUpdate (acc : Nat) (g : Option Val) : Nat :=
  match g with
  | none => acc
  | some v => layAcc40.round ((layAcc40.decode acc).add v)

/-- The product that pass `p` forms of two wide-mode operands, given as their pieces (R50): in passes 2 and 3 a
product with a zero piece is absent. -/
def passProduct (p : Nat) (a b : List Val) : Option Val :=
  let piece (l : List Val) (i : Nat) : Val := (l.getD i .zero).scale (-(4 * (i : Int)))
  match p with
  | 1 => some ((piece a 0).mul (piece b 0))
  | 2 => if (piece a 1).isZero || (piece b 0).isZero then none else some ((piece a 1).mul (piece b 0))
  | _ => if (piece a 0).isZero || (piece b 1).isZero then none else some ((piece a 0).mul (piece b 1))

/-! ### Elementary operations and the tree (R44–R46, R53–R56) -/

/-- FP32 of an exact value: rne_fp32 (R38). -/
def rneFp32 (v : Val) : Nat := layFp32.round v

/-- Value of FP32 bits. -/
def fp32 (x : Nat) : Val := layFp32.decode x

/-- rne_fp32(x + y) on FP32 bits (R44). -/
def addFp32 (x y : Nat) : Nat := rneFp32 ((fp32 x).add (fp32 y))

/-- rne_fp32(x × y) on FP32 bits (R44). -/
def mulFp32 (x y : Nat) : Nat := rneFp32 ((fp32 x).mul (fp32 y))

/-- rne_fp32(x × y + z), one rounding (R44). -/
def fmaFp32 (x y z : Nat) : Nat := rneFp32 (((fp32 x).mul (fp32 y)).add (fp32 z))

/-- rne_fp32(x − y) on FP32 bits. -/
def subFp32 (x y : Nat) : Nat := rneFp32 ((fp32 x).add (fp32 y).negate)

/-- max_nan on FP32 bits (R45), a NaN becoming canonical (R28). -/
def maxFp32 (x y : Nat) : Nat := rneFp32 ((fp32 x).maxNan (fp32 y))

/-- The mirror of max_nan on FP32 bits (R45). -/
def minFp32 (x y : Nat) : Nat := rneFp32 ((fp32 x).minNan (fp32 y))

/-- A node of the tree (R54): two present children are combined, a single one passes, none is absent. -/
def treeNode {α : Type} (c : α → α → α) : Option α → Option α → Option α
  | some a, some b => some (c a b)
  | some a, none => some a
  | none, b => b

/-- One level of the aligned binary tree: neighbours are paired, and a last one without partner passes (R54). -/
def treeLevel {α : Type} (c : α → α → α) : List (Option α) → List (Option α)
  | a :: b :: rest => treeNode c a b :: treeLevel c rest
  | l => l

/-- Levels of the tree until one node is left, on a fuel. -/
def treeFuel {α : Type} (c : α → α → α) : Nat → List (Option α) → Option α
  | 0, l => l.headD none
  | f + 1, l => match l with
    | [] => none
    | [x] => x
    | _ => treeFuel c f (treeLevel c l)

/-- Reduction by the aligned binary tree (R54), over leaves of which some may be absent. -/
def treeReduce {α : Type} (c : α → α → α) (l : List (Option α)) : Option α := treeFuel c l.length l

/-- tree_sum() of FP32 leaves (R53, R54): +0 of none. -/
def treeSum (l : List Nat) : Nat := (treeReduce addFp32 (l.map some)).getD 0

/-- Index of the maximum or minimum (R46): the lowest that holds the result of R45, or the lowest NaN. -/
def argBest (best : Val → Val → Val) (l : List Val) : Nat :=
  match l.findIdx? Val.isNan with
  | some i => i
  | none =>
    match l with
    | [] => 0
    | v :: rest =>
      let m := rest.foldl best v
      -- +0 and −0 are told apart, as max_nan tells them apart
      (l.findIdx? fun x => x.eqv m && x.neg == m.neg).getD 0

/-! ### Special functions (R57, Table 3.3)

The exact ones (reciprocal, square roots) use whole-number division and roots with a sticky bit. The others are evaluated
in fixed point with 384 fraction bits, far more than any FP32 argument needs for its rounding to be decided; the
value is rounded at both ends of its error interval, and the two agree. -/

/-- The functions of Table 3.3, in its order; SFN's FN code plus 1 is the row. -/
inductive SfuFn where
  | exp2 | log2 | rcp | rsqrt | sqrt | sinpi | cospi | tanh | logi | erf
  deriving DecidableEq, Repr

/-- Function of an FN code 0–9. -/
def SfuFn.ofCode : Nat → Option SfuFn
  | 0 => some .exp2 | 1 => some .log2 | 2 => some .rcp | 3 => some .rsqrt | 4 => some .sqrt
  | 5 => some .sinpi | 6 => some .cospi | 7 => some .tanh | 8 => some .logi | 9 => some .erf
  | _ => none

/-- Latency in cycles (Table 5.5). -/
def SfuFn.latency : SfuFn → Nat
  | .exp2 => 6 | .log2 => 8 | .rcp => 6 | .rsqrt => 6 | .sqrt => 6
  | .sinpi => 10 | .cospi => 10 | .tanh => 12 | .logi => 12 | .erf => 14

/-- Fraction bits of the fixed-point evaluation. -/
def fixP : Nat := 384

/-- 1 in fixed point. -/
def fix1 : Nat := 2 ^ fixP

/-- Bound on the error of a fixed-point evaluation, in units of its last place. -/
def fixErr : Nat := 2 ^ 40

/-- Product in fixed point. -/
def fixMul (a b : Nat) : Nat := a * b / fix1

/-- Quotient in fixed point. -/
def fixDiv (a b : Nat) : Nat := a * fix1 / b

/-- Σ term(k) for an odd power series: `t` is z^(2k+1), each divided by `2k + 1`; `sgn` alternates the signs. -/
def oddSeries (alt : Bool) (z2 : Nat) : Nat → Nat → Nat → Int
  | 0, _, _ => 0
  | f + 1, k, t =>
    let x : Int := (t / (2 * k + 1) : Nat)
    (if alt && k % 2 == 1 then -x else x) + oddSeries alt z2 f (k + 1) (fixMul t z2)

/-- atanh z = Σ z^(2k+1) ÷ (2k+1), for z at most 1/3. -/
def fixAtanh (z : Nat) : Nat := (oddSeries false (fixMul z z) 130 0 z).toNat

/-- atan(1 ÷ n). -/
def fixAtanInv (n : Nat) : Nat := (oddSeries true (fix1 / (n * n)) 130 0 (fix1 / n)).toNat

/-- ln 2 = 2 atanh(1/3). -/
def fixLn2 : Nat := 2 * fixAtanh (fix1 / 3)

/-- π = 16 atan(1/5) − 4 atan(1/239). -/
def fixPi : Nat := 16 * fixAtanInv 5 - 4 * fixAtanInv 239

/-- Taylor series of e^r from its term k (already z^k ÷ k!). -/
def expSeries (r : Nat) : Nat → Nat → Nat → Nat
  | 0, _, _ => 0
  | f + 1, k, t => t + expSeries r f (k + 1) (fixMul t r / (k + 1))

/-- e^r for r in [0, 1). -/
def fixExp (r : Nat) : Nat := expSeries r 100 0 fix1

/-- 2^f for f in [0, 1). -/
def fixExp2 (f : Nat) : Nat := fixExp (fixMul f fixLn2)

/-- Taylor series of sin y. -/
def sinSeries (y2 : Nat) : Nat → Nat → Nat → Int
  | 0, _, _ => 0
  | f + 1, k, t =>
    let x : Int := (t : Nat)
    (if k % 2 = 1 then -x else x) + sinSeries y2 f (k + 1) (fixMul t y2 / ((2 * k + 2) * (2 * k + 3)))

/-- sin(π u) for u in [0, 1/2]. -/
def fixSinPi (u : Nat) : Nat :=
  let y := fixMul fixPi u
  (sinSeries (fixMul y y) 60 0 y).toNat

/-- Σ (−1)^k x^(2k+1) ÷ (k! (2k+1)). -/
def erfSeries (x2 : Nat) : Nat → Nat → Nat → Int
  | 0, _, _ => 0
  | f + 1, k, t =>
    let x : Int := (t / (2 * k + 1) : Nat)
    (if k % 2 = 1 then -x else x) + erfSeries x2 f (k + 1) (fixMul t x2 / (k + 1))

/-- The whole square root, bit by bit from bit `i` − 1 down. -/
def isqrtBits (n : Nat) : Nat → Nat → Nat
  | 0, r => r
  | i + 1, r => let c := r + 2 ^ i; isqrtBits n i (if c * c ≤ n then c else r)

/-- ⌊√n⌋. -/
def isqrt (n : Nat) : Nat := isqrtBits n (Nat.log2 n / 2 + 1) 0

/-- e^(−y) for a fixed-point y in [0, 2^8), as a fixed-point number in (0, 1]. -/
def fixExpNeg (y : Nat) : Nat :=
  -- e^(−y) = 2^(−w), w = y ÷ ln 2 = n + f; for f above 0, 2^(−w) = 2^(1 − f) ÷ 2^(n + 1)
  let w := fixDiv y fixLn2
  let n := w / fix1
  let f := w % fix1
  if f = 0 then fix1 / 2 ^ n else fixExp2 (fix1 - f) / 2 ^ (n + 1)

/-- erf x for a fixed-point x in [0, 4). -/
def fixErf (x : Nat) : Nat :=
  let s := (erfSeries (fixMul x x) 200 0 x).toNat
  fixDiv (2 * s) (isqrt (fixPi * fix1))

/-- Round a fixed-point magnitude times 2^k to FP32: both ends of its error interval round alike. -/
def roundFix (neg : Bool) (v : Nat) (k : Int) : Nat :=
  let lo := layFp32.roundQ neg (v - fixErr) 1 (k - fixP)
  let hi := layFp32.roundQ neg (v + fixErr) 1 (k - fixP)
  if lo = hi then lo else layFp32.roundQ neg v 1 (k - fixP)

/-- |x| of a finite value in fixed point, exact for every FP32 argument below 2^8. -/
def fixOf (m : Nat) (e : Int) : Nat := let (a, b) := shiftQ m 1 (e + fixP); a / b

/-- 2^x of a finite, non-zero x (R57). -/
def sfuExp2 (neg : Bool) (m : Nat) (e : Int) : Nat :=
  if 8 ≤ topExp m 1 e then (if neg then 0 else layFp32.infEnc false)
  else
    let x := fixOf m e
    let n : Int := if neg then -(((x + fix1 - 1) / fix1 : Nat) : Int) else ((x / fix1 : Nat) : Int)
    let f : Nat := if neg then (fix1 - x % fix1) % fix1 else x % fix1
    if f = 0 then layFp32.roundQ false 1 1 n else roundFix false (fixExp2 f) n

/-- log₂ of a positive finite x. -/
def sfuLog2 (m : Nat) (e : Int) : Nat :=
  let l := Nat.log2 m
  let n : Int := e + l
  if m = 2 ^ l then layFp32.round (.ofInt n)
  else
    let z := (m - 2 ^ l) * fix1 / (m + 2 ^ l)
    let v : Int := n * (fix1 : Nat) + (fixDiv (2 * fixAtanh z) fixLn2 : Nat)
    roundFix (decide (v < 0)) v.natAbs 0

/-- sin(π r) for r in [0, 2) in fixed point, with the sign `neg` applied; the whole multiples are exact. -/
def sinPiOf (neg : Bool) (r : Nat) : Nat :=
  let neg' := neg != decide (fix1 ≤ r)
  let u0 := r % fix1
  let u := if 2 * u0 > fix1 then fix1 - u0 else u0
  if 2 * u = fix1 then layFp32.round (.fin neg' 1 0) else roundFix neg' (fixSinPi u) 0

/-- sin(π x) of a finite, non-zero x: zero of x's sign at whole numbers (Table 3.3). -/
def sfuSinPi (neg : Bool) (m : Nat) (e : Int) : Nat :=
  let r := fixOf m e % (2 * fix1)
  if r % fix1 = 0 then layFp32.signBit neg else sinPiOf neg r

/-- cos(π x) of a finite, non-zero x: +0 at a whole number and a half. -/
def sfuCosPi (m : Nat) (e : Int) : Nat :=
  let r := (fixOf m e + fix1 / 2) % (2 * fix1)
  if r % fix1 = 0 then 0 else sinPiOf false r

/-- tanh of a finite, non-zero x. -/
def sfuTanh (neg : Bool) (m : Nat) (e : Int) : Nat :=
  if 6 ≤ topExp m 1 e then layFp32.round (.fin neg 1 0)
  else
    let q := fixExpNeg (2 * fixOf m e)
    roundFix neg (fixDiv (fix1 - q) (fix1 + q)) 0

/-- 1 ÷ (1 + e^(−x)) of a finite, non-zero x. -/
def sfuLogi (neg : Bool) (m : Nat) (e : Int) : Nat :=
  if 7 ≤ topExp m 1 e then (if neg then 0 else layFp32.round (.fin false 1 0))
  else
    let q := fixExpNeg (fixOf m e)
    roundFix false (fixDiv (if neg then q else fix1) (fix1 + q)) 0

/-- erf of a finite, non-zero x. -/
def sfuErf (neg : Bool) (m : Nat) (e : Int) : Nat :=
  if 2 ≤ topExp m 1 e then layFp32.round (.fin neg 1 0)
  else roundFix neg (fixErf (fixOf m e)) 0

/-- √x of a positive finite x, exactly rounded by a sticky bit. -/
def sfuSqrt (m : Nat) (e : Int) : Nat :=
  let (m, e) := if e % 2 = 0 then (m, e) else (2 * m, e - 1)
  let n := m * 2 ^ 80
  let q := isqrt n
  layFp32.roundQ false (2 * q + b2n (q * q != n)) 1 (e / 2 - 41)

/-- 1 ÷ √x of a positive finite x, exactly rounded by a sticky bit. -/
def sfuRsqrt (m : Nat) (e : Int) : Nat :=
  let (m, e) := if e % 2 = 0 then (m, e) else (2 * m, e - 1)
  let n := 2 ^ 160
  let q := isqrt (n / m)
  layFp32.roundQ false (2 * q + b2n (q * q * m != n)) 1 (-(e / 2) - 81)

/-- A function of Table 3.3 on an FP32 argument, as FP32 bits (R57). -/
def sfu (f : SfuFn) (x : Nat) : Nat :=
  let nan := layFp32.nan
  let inf := layFp32.infEnc false
  let one := layFp32.round (.fin false 1 0)
  match f, fp32 x with
  | _, .nan => nan
  | .exp2, .inf n => if n then 0 else inf
  | .exp2, .fin n m e => if m = 0 then one else sfuExp2 n m e
  | .log2, .inf n => if n then nan else inf
  | .log2, .fin n m e => if m = 0 then layFp32.infEnc true else if n then nan else sfuLog2 m e
  | .rcp, .inf n => layFp32.signBit n
  | .rcp, .fin n m e => if m = 0 then layFp32.infEnc n else layFp32.roundQ n 1 m (-e)
  | .rsqrt, .inf n => if n then nan else 0
  | .rsqrt, .fin n m e => if m = 0 then layFp32.infEnc n else if n then nan else sfuRsqrt m e
  | .sqrt, .inf n => if n then nan else inf
  | .sqrt, .fin n m e => if m = 0 then layFp32.signBit n else if n then nan else sfuSqrt m e
  | .sinpi, .inf _ => nan
  | .sinpi, .fin n m e => if m = 0 then layFp32.signBit n else sfuSinPi n m e
  | .cospi, .inf _ => nan
  | .cospi, .fin _ m e => if m = 0 then one else sfuCosPi m e
  | .tanh, .inf n => layFp32.round (.fin n 1 0)
  | .tanh, .fin n m e => if m = 0 then layFp32.signBit n else sfuTanh n m e
  | .logi, .inf n => if n then 0 else one
  | .logi, .fin n m e => if m = 0 then layFp32.round (.fin false 1 (-1)) else sfuLogi n m e
  | .erf, .inf n => layFp32.round (.fin n 1 0)
  | .erf, .fin n m e => if m = 0 then layFp32.signBit n else sfuErf n m e

/-! ### Attention (R58–R62) -/

/-- The state of one key tile for one query row; `none` is the empty state. -/
structure TileState where
  m : Nat
  l : Nat
  o : List Nat
  deriving DecidableEq, Repr

/-- tile_state (R58): `a` holds the ACC40 scores, `masked` the mask, `pf` the weight format with its shift σ, `v` the
value rows (ACC40-exact values per column). -/
def tileState (a : List Nat) (masked : List Bool) (c : Nat) (pf : Fmt) (σ : Int) (v : List (List Val)) (d : Nat) :
    Option TileState :=
  let negInf := layFp32.infEnc true
  let s := (a.zip masked).map fun (x, mk) =>
    if mk then negInf else rneFp32 ((layAcc40.decode x).mul (fp32 c))
  let m := s.foldl maxFp32 negInf
  if m = negInf then none
  else
    let p := s.map fun x => sfu .exp2 (subFp32 x m)
    let w := p.map fun x => pf.encode ((fp32 x).scale σ)
    let l := treeSum p
    let o := (List.range d).map fun j =>
      let ts := ((w.zip masked).zip v).map fun ((x, mk), row) =>
        if mk then none else some ((pf.decode x).mul (row.getD j .zero))
      let acc := (chunksOf 32 ts).foldl (fun acc g => accUpdate acc (groupSum g)) 0
      rneFp32 ((layAcc40.decode acc).scale (-σ))
    some ⟨m, l, o⟩

/-- tree_merge of two present tile states (R60). -/
def mergeStates (t1 t2 : TileState) : TileState :=
  let m := maxFp32 t1.m t2.m
  let f1 := sfu .exp2 (subFp32 t1.m m)
  let f2 := sfu .exp2 (subFp32 t2.m m)
  let comb (x y : Nat) : Nat := rneFp32 ((fp32 (mulFp32 x f1)).add ((fp32 y).mul (fp32 f2)))
  ⟨m, comb t1.l t2.l, (t1.o.zip t2.o).map fun (x, y) => comb x y⟩

/-- tree_merge over tile index (R60): an empty child acts as an absent one. -/
def treeMerge (ts : List (Option TileState)) : Option TileState := treeReduce mergeStates ts

/-- The attention output of a row (R61): +0 throughout for an empty root, else o × (1 ÷ l) in FP32. -/
def attnOut (root : Option TileState) (d : Nat) (out : Fmt) : List Nat :=
  match root with
  | none => List.replicate d (out.encode .zero)
  | some t =>
    let r := sfu .rcp t.l
    t.o.map fun x => if out = .fp32 then mulFp32 x r else out.encode (fp32 (mulFp32 x r))

/-- The maximum and the sum of a row over one key tile, from its scores (R58); `none` where all are masked. -/
def scoreState (s : List Nat) : Option TileState :=
  let m := s.foldl maxFp32 (layFp32.infEnc true)
  if m = layFp32.infEnc true then none else some ⟨m, treeSum (s.map fun x => sfu .exp2 (subFp32 x m)), []⟩

/-- The leaf weights of a row of scores (R264): those of a row whose every position is masked are +0. -/
def rowLeaves (s : List Nat) : List Nat :=
  match treeMerge ((chunksOf 128 s).map scoreState) with
  | none => s.map fun _ => 0
  | some t => s.map fun x => mulFp32 (sfu .exp2 (subFp32 x t.m)) (sfu .rcp t.l)

end Sys2Proof.Machine
end

