-- ==== Sys2Proof/Machine/Map.lean ====
section
/-! DEFINITION. Sparse tables keyed by number: the form in which the state holds everything that has many
like parts (memories, kites, bridles, ports, request slots). A table is a list of pairs with rising keys. -/
namespace Sys2Proof.Machine

/-- A sparse table. Its canonical form is strictly rising keys (`mapWf`). -/
abbrev Map (α : Type) := List (Nat × α)

/-- The entry of key `k`, if the table lists one. -/
def mapGet {α : Type} : Map α → Nat → Option α
  | [], _ => none
  | (j, v) :: rest, k => if j = k then some v else mapGet rest k

/-- Put `v` under key `k`, keeping the keys rising. -/
def mapSet {α : Type} : Map α → Nat → α → Map α
  | [], k, v => [(k, v)]
  | (j, w) :: rest, k, v =>
    if k < j then (k, v) :: (j, w) :: rest
    else if j = k then (k, v) :: rest
    else (j, w) :: mapSet rest k v

/-- Take key `k` out. -/
def mapDel {α : Type} : Map α → Nat → Map α
  | [], _ => []
  | (j, w) :: rest, k => if j = k then rest else (j, w) :: mapDel rest k

/-- The entry of key `k`, or `d` where the table lists none. -/
def mapGetD {α : Type} (m : Map α) (k : Nat) (d : α) : α := (mapGet m k).getD d

/-- Apply `f` to the entry of key `k` (to `d` where there is none) and store the result. -/
def mapUpd {α : Type} (m : Map α) (k : Nat) (d : α) (f : α → α) : Map α :=
  mapSet m k (f (mapGetD m k d))

/-- Canonical form: strictly rising keys. -/
def mapWf {α : Type} : Map α → Bool
  | [] => true
  | [_] => true
  | (j, _) :: (k, w) :: rest => decide (j < k) && mapWf ((k, w) :: rest)

/-- The keys of a table. -/
def mapKeys {α : Type} (m : Map α) : List Nat := m.map (·.1)

end Sys2Proof.Machine
end

