-- ==== Sys2Proof/Machine/Event.lean ====
section
/-! DEFINITION. Logged events: their classes (Table 19.1), the units that log them (Table 19.2) and the EVENT
encoding (Table 19.3). -/
namespace Sys2Proof.Machine

/-- The class of an event (Table 19.1); its code is the constructor's place. -/
inductive EvClass where
  | c | d | u | f | s | v
  deriving DecidableEq, Repr

/-- Code of a class (Table 19.1). -/
def EvClass.code : EvClass → Nat
  | .c => 0 | .d => 1 | .u => 2 | .f => 3 | .s => 4 | .v => 5

/-- Class of a code. -/
def EvClass.ofCode : Nat → EvClass
  | 0 => .c | 1 => .d | 2 => .u | 3 => .f | 4 => .s | _ => .v

/-- An event as it enters the log (R419): everything of Table 19.2 but TIME, SEQ and COUNT. -/
structure Ev where
  cls : EvClass
  unit : Nat
  event : Nat
  loc : Nat := 0xFFFF
  slot : Nat := 0xFFFF
  info : Nat := 0
  deriving DecidableEq, Repr

/-! UNIT codes of Table 19.2. -/
def uKite : Nat := 0
def uMem : Nat := 1
def uSch : Nat := 2
def uXpt : Nat := 3
def uPort : Nat := 4
def uHost : Nat := 5
def uPwr : Nat := 6
def uBoot : Nat := 7

/-! Named events of Table 19.3. -/
def evSwapHold : Nat := 0x001
def evSeedRefused : Nat := 0x002
def evMqOverflow : Nat := 0x003
def evFeedStarved : Nat := 0x004
def evVcountBad : Nat := 0x005
def evVbusy : Nat := 0x006
def evChainStall : Nat := 0x007
def evSpadConflict : Nat := 0x008
def evBankOffWrite : Nat := 0x009
def evBankOffRead : Nat := 0x00A
def evReelBad : Nat := 0x00B
def evReelBusy : Nat := 0x00C
def evAnchorLate : Nat := 0x00D
def evAnchorTimeout : Nat := 0x00E
def evBridleRange : Nat := 0x00F
def evWaitRefused : Nat := 0x010
def evPtProtected : Nat := 0x011
def evMigrateAbandoned : Nat := 0x012
def evRetireUnrecorded : Nat := 0x013
def evKvWpWrite : Nat := 0x014
def evCostMismatch : Nat := 0x015
def evOverrun : Nat := 0x016
def evExportLost : Nat := 0x017
def evTbUnlocked : Nat := 0x018
def evPowerHigh : Nat := 0x019
def evThermalWarn : Nat := 0x01A
def evAgeingLow : Nat := 0x01B
def evMarginDue : Nat := 0x01C
def evProfileDefault : Nat := 0x01D
def evHostBadreg : Nat := 0x01E
def evBdpProtected : Nat := 0x01F
def evBdpRange : Nat := 0x020
def evRegLocked : Nat := 0x021
def evRegIgnored : Nat := 0x022

/-- EVENT of an exception, by its code of Table 8.8. -/
def evExc (code : Nat) : Nat := 0x1000 + code
/-- EVENT of a move status, by its code of Table 8.5. -/
def evMove (code : Nat) : Nat := 0x2000 + code
/-- EVENT of a hazard, by its code of Table 8.7. -/
def evHazard (code : Nat) : Nat := 0x3000 + code
/-- EVENT of a memory error: place 0 scratchpad, 1 HBM, 2 loft, 3 page frame table; kind 0 corrected, 1
uncorrectable, 2 poisoned read. -/
def evMem (place kind : Nat) : Nat := 0x4000 + place * 0x100 + kind
/-- EVENT of a partner violation: table 0 for 14.7, 1 for 15.6, 2 for 16.7, 3 for 16.8, and its row from 1. -/
def evPartner (table row : Nat) : Nat := 0x5000 + table * 0x100 + row
/-- EVENT of a thermal event: 0 emergency entered, 1 critical. -/
def evThermal (kind : Nat) : Nat := 0x6000 + kind

/-- An event of a logical kite. -/
def Ev.kite (cls : EvClass) (event k : Nat) (info : Nat := 0) : Ev := ⟨cls, uKite, event, k, 0xFFFF, info⟩

end Sys2Proof.Machine
end

