-- ==== Sys2Proof/Syntax.lean ====
section
/-! DEFINITION. The commands of the block: one constructor of `Instr` per row of the table of operations and events,
with its operands. A slot instruction carries the fields of its format (Tables 9.1, 9.5, 9.8, 9.9, 4.8, 4.9, 6.5), the
reserved ones among them, so that every encoding of a listed opcode, an illegal one too (R176), is a command. -/
namespace Sys2Proof

/-! ### C-slot formats (Table 9.1) -/

/-- Format CR. -/
structure CR where
  sd : BitVec 5
  sa : BitVec 5
  sb : BitVec 5
  fl : BitVec 3
  rsv : BitVec 8
  deriving DecidableEq, Repr

/-- Format CI. -/
structure CI where
  sd : BitVec 5
  sa : BitVec 5
  imm : BitVec 16
  deriving DecidableEq, Repr

/-- Format CL. -/
structure CL where
  sd : BitVec 5
  imm : BitVec 21
  deriving DecidableEq, Repr

/-- Format CH. -/
structure CH where
  sd : BitVec 5
  rsv : BitVec 3
  h : BitVec 2
  imm : BitVec 16
  deriving DecidableEq, Repr

/-- Format CC. -/
structure CC where
  fd : BitVec 3
  sa : BitVec 5
  sb : BitVec 5
  cond : BitVec 3
  rsv : BitVec 10
  deriving DecidableEq, Repr

/-- Format CCI. -/
structure CCI where
  fd : BitVec 3
  sa : BitVec 5
  cond : BitVec 3
  imm : BitVec 15
  deriving DecidableEq, Repr

/-- Format CM. -/
structure CM where
  sr : BitVec 5
  sbase : BitVec 5
  size : BitVec 2
  sign : BitVec 1
  imm : BitVec 13
  deriving DecidableEq, Repr

/-- Format CS. -/
structure CS where
  sr : BitVec 5
  off : BitVec 13
  rsv : BitVec 8
  deriving DecidableEq, Repr

/-- Format CB with the extension word of BRB (R179, R186). -/
structure CB where
  csrc : BitVec 1
  inv : BitVec 1
  reg : BitVec 5
  offj : BitVec 13
  rsv : BitVec 6
  len : BitVec 16
  rsvx : BitVec 3
  offt : BitVec 13
  deriving DecidableEq, Repr

/-- Format CP with the extension word of LOOP (R179, R186). -/
structure CP where
  csrc : BitVec 1
  body : BitVec 13
  rsv : BitVec 12
  ext : BitVec 32
  deriving DecidableEq, Repr

/-- Format CZ. -/
structure CZ where
  rsv : BitVec 26
  deriving DecidableEq, Repr

/-! ### M-slot formats (Tables 4.8, 4.9, 9.4) -/

/-- MSET (Table 4.8). -/
structure MSetF where
  arr : BitVec 3
  fmta : BitVec 4
  fmtb : BitVec 4
  passes : BitVec 2
  ktail : BitVec 7
  rows : BitVec 10
  cols : BitVec 10
  rsv : BitVec 18
  deriving DecidableEq, Repr

/-- MFEED (Table 4.9). -/
structure MFeedF where
  abase : BitVec 14
  bbase : BitVec 14
  kt : BitVec 8
  ora : BitVec 1
  orb : BitVec 1
  zero : BitVec 1
  psel : BitVec 2
  srca : BitVec 1
  srcb : BitVec 1
  gstr : BitVec 10
  tail : BitVec 1
  rsv : BitVec 4
  deriving DecidableEq, Repr

/-- MSWAP (R84). -/
structure MSwapF where
  rsv : BitVec 58
  deriving DecidableEq, Repr

/-- MSEED (Table 9.4). -/
structure MSeedF where
  row : BitVec 14
  rsv : BitVec 44
  deriving DecidableEq, Repr

/-- MZERO (Table 9.4). -/
structure MZeroF where
  set : BitVec 1
  rsv : BitVec 57
  deriving DecidableEq, Repr

/-! ### V-slot formats (Tables 9.5, 6.5) -/

/-- Format VA. -/
structure VA where
  vd : BitVec 5
  va : BitVec 5
  vb : BitVec 5
  bmode : BitVec 2
  fmt : BitVec 4
  logb : BitVec 4
  vc : BitVec 5
  rsv : BitVec 15
  cns : BitVec 1
  nel : BitVec 12
  deriving DecidableEq, Repr

/-- Format VK. -/
structure VK where
  vd : BitVec 5
  vs : BitVec 5
  sfmt : BitVec 4
  dfmt : BitVec 4
  exp : BitVec 8
  rsv : BitVec 19
  cns : BitVec 1
  nel : BitVec 12
  deriving DecidableEq, Repr

/-- Format VF. -/
structure VF where
  vd : BitVec 5
  va : BitVec 5
  rsv : BitVec 35
  cns : BitVec 1
  nel : BitVec 12
  deriving DecidableEq, Repr

/-- Format VH. -/
structure VH where
  vd : BitVec 5
  va : BitVec 5
  vb : BitVec 5
  pat : BitVec 3
  fmt : BitVec 4
  parm : BitVec 12
  rsv : BitVec 11
  cns : BitVec 1
  nel : BitVec 12
  deriving DecidableEq, Repr

/-- Format VT. -/
structure VT where
  vd : BitVec 5
  va : BitVec 5
  form : BitVec 1
  top : BitVec 2
  lg1 : BitVec 4
  lg2 : BitVec 4
  lm : BitVec 13
  rsv : BitVec 11
  low : BitVec 13
  deriving DecidableEq, Repr

/-- Format VQ. -/
structure VQ where
  vd : BitVec 5
  g : BitVec 3
  i0 : BitVec 9
  j0 : BitVec 9
  ni : BitVec 9
  nj : BitVec 9
  order : BitVec 1
  fmt : BitVec 2
  scl : BitVec 1
  sc : BitVec 5
  last : BitVec 1
  rsv : BitVec 4
  deriving DecidableEq, Repr

/-- Format VU. -/
structure VU where
  sd : BitVec 5
  va : BitVec 5
  kind : BitVec 3
  rsv : BitVec 32
  cns : BitVec 1
  nel : BitVec 12
  deriving DecidableEq, Repr

/-- Format VM. -/
structure VM where
  vr : BitVec 5
  pair : BitVec 1
  w : BitVec 3
  rs : BitVec 1
  sb : BitVec 5
  row : BitVec 14
  rsv : BitVec 16
  cns : BitVec 1
  nel : BitVec 12
  deriving DecidableEq, Repr

/-- Format VX, the fields of VCHAIN (Table 6.5). -/
structure VX where
  ch : BitVec 6
  tr : BitVec 10
  tc : BitVec 10
  sr : BitVec 10
  order : BitVec 1
  last : BitVec 1
  nt : BitVec 8
  sp : BitVec 5
  rsv : BitVec 7
  deriving DecidableEq, Repr

/-! ### D-slot formats (Table 9.8, R195) -/

/-- DMOV and DPAGE. -/
structure DM where
  ch : BitVec 2
  dir : BitVec 1
  sm : BitVec 5
  ss : BitVec 5
  spr : BitVec 1
  row : BitVec 14
  nrows : BitVec 14
  rsv : BitVec 3
  bv : BitVec 1
  sb : BitVec 5
  rsv2 : BitVec 7
  deriving DecidableEq, Repr

/-- DSEND. -/
structure DS where
  ch : BitVec 2
  spr : BitVec 1
  row : BitVec 14
  nrows : BitVec 14
  sd : BitVec 5
  rsv : BitVec 9
  bv : BitVec 1
  sb : BitVec 5
  rsv2 : BitVec 7
  deriving DecidableEq, Repr

/-- DEXPORT. -/
structure DX where
  ch : BitVec 2
  ss : BitVec 5
  layer : BitVec 7
  head : BitVec 4
  kind : BitVec 1
  tmap : BitVec 14
  ntok : BitVec 12
  bv : BitVec 1
  sb : BitVec 5
  rsv2 : BitVec 7
  deriving DecidableEq, Repr

/-- DFILL. -/
structure DF where
  ch : BitVec 2
  sv : BitVec 5
  row : BitVec 14
  nrows : BitVec 14
  rsv : BitVec 10
  bv : BitVec 1
  sb : BitVec 5
  rsv2 : BitVec 7
  deriving DecidableEq, Repr

/-- DCOPY. -/
structure DC where
  ch : BitVec 2
  dir : BitVec 1
  srow : BitVec 14
  drow : BitVec 14
  nrows : BitVec 14
  bv : BitVec 1
  sb : BitVec 5
  rsv2 : BitVec 7
  deriving DecidableEq, Repr

/-! ### S-slot formats (Table 9.9) -/

/-- SIG. -/
structure SSig where
  sb : BitVec 5
  areg : BitVec 1
  sa : BitVec 5
  rsv : BitVec 2
  amt : BitVec 16
  deriving DecidableEq, Repr

/-- WAIT and ARRIVE. -/
structure SWait where
  sb : BitVec 5
  fd : BitVec 3
  mreg : BitVec 1
  tf : BitVec 5
  min : BitVec 15
  deriving DecidableEq, Repr

/-- WAITR. -/
structure SWaitr where
  reel : BitVec 5
  fd : BitVec 3
  kind : BitVec 1
  st : BitVec 5
  thr : BitVec 15
  deriving DecidableEq, Repr

/-- FENCE and TICKWAIT. -/
structure SZ where
  rsv : BitVec 29
  deriving DecidableEq, Repr

/-! ### Operands of the device's other commands -/

/-- A submission entry (Table 16.4), its fields in order. -/
structure Sqe where
  opc : BitVec 8
  flags : BitVec 8
  cid : BitVec 16
  model : BitVec 16
  variant : BitVec 16
  ptr : BitVec 64
  ntok : BitVec 32
  target : BitVec 8
  logp : BitVec 8
  l0 : BitVec 8
  nlx : BitVec 8
  deadline : BitVec 64
  firstpos : BitVec 32
  we : BitVec 16
  rsv : BitVec 16
  theta : BitVec 32
  auxlen : BitVec 32
  aux : BitVec 64
  rsv2 : BitVec 64
  deriving DecidableEq, Repr

/-- Where a Yaphor message came from: a port and, on Ethernet, the IP source address (IPv4 in the low 32 bits); over
Lerbo, the source module. -/
structure YRx where
  port : Fin 96
  lerbo : Bool
  src : BitVec 128
  deriving DecidableEq, Repr

/-- The transport of a complete received Lerbo message (Table 15.3, R350): its port, header fields, and what its flits
carried. `flits`: its flits that no FLIT has told of; `cred`: the credit they return, by channel; `corr`, `unc`: the codewords of
their groups that were corrected or uncorrectable and that no other flit has told of; `flitOk`: no reserved KIND or field and no
PLEN above 240; `lenOk`: MLEN at most 9,216 and matching the flits, which begin with MSG_FIRST. -/
structure LRx where
  port : Fin 96
  vc : BitVec 2
  dst : BitVec 20
  src : BitVec 20
  ttl : BitVec 8
  flits : Nat
  aack : BitVec 12
  cred : List Nat
  corr : Nat
  unc : Nat
  flitOk : Bool
  lenOk : Bool
  deriving DecidableEq, Repr

/-- Fields of a WRITE (Table 15.4), but its rows. -/
structure LWrite where
  tag : BitVec 64
  kite : BitVec 16
  dest : BitVec 16
  first : BitVec 16
  rows : BitVec 16
  total : BitVec 16
  bridle : BitVec 32
  rsv : BitVec 16
  deriving DecidableEq, Repr

/-- What a CTRL flit carries beside its payload (Table 15.3): its FSEQ, AACK, and the credit it returns. -/
structure CtrlF where
  fseq : BitVec 12
  aack : BitVec 12
  cred : BitVec 14
  credVc : BitVec 2
  deriving DecidableEq, Repr

/-- A HELLO (R341, R347): its flit's fields, and its payload, the peer's module ID and its buffer for each channel. -/
structure HelloF where
  ctrl : CtrlF
  id : BitVec 20
  buf0 : BitVec 14
  buf1 : BitVec 14
  buf2 : BitVec 14
  buf3 : BitVec 14
  deriving DecidableEq, Repr

/-- A REPLAY (R348): its flit's fields, and the FSEQ to resend from. -/
structure ReplayF where
  ctrl : CtrlF
  fseq : BitVec 12
  deriving DecidableEq, Repr

/-- A flit that completes no message: its 256 bytes (Table 15.3), whether it lies in an uncorrectable codeword, and the
codewords of its group that were corrected or uncorrectable and that no earlier flit of the group has told of (R343). -/
structure FlitF where
  bytes : List Byte
  uncorr : Bool
  corr : Nat
  unc : Nat
  deriving DecidableEq, Repr

/-- What the receiver's PCS tells with an Ethernet frame: whether its FCS is good, and the codewords corrected and
uncorrectable since the frame before it (R342). -/
structure FrameF where
  fcs : Bool
  corr : Nat
  unc : Nat
  deriving DecidableEq, Repr

/-- What a PTP exchange gives the servo (R359): its domain and transport, and the measured offset in ns. -/
structure PtpF where
  domain : BitVec 8
  transport : BitVec 2
  offset : Int
  deriving DecidableEq, Repr

/-- One sample of every sensor (R391, R394): hottest junction and HBM stack of each compute die, I/O die, loft, path slack
of each die in ps, input power in W, supply in units of 10 mV and 10 mA. -/
structure Sensors where
  tj0 : Nat
  tj1 : Nat
  tj2 : Nat
  tj3 : Nat
  hbm0 : Nat
  hbm1 : Nat
  hbm2 : Nat
  hbm3 : Nat
  io : Nat
  loft : Nat
  slack0 : Nat
  slack1 : Nat
  slack2 : Nat
  slack3 : Nat
  power : Nat
  vin : Nat
  iin : Nat
  deriving DecidableEq, Repr

/-- What a start finds outside the flash records (R404, R402, R229, R88): the pins at stage 1, whether the sealed key
unseals, a stack or controller whose memory is not ready, a kite that fails its self-test with its code, and a stage over
its limit. -/
structure BootEnv where
  recoveryN : Bool
  profileSel : BitVec 2
  unseals : Bool
  memFail : Option (BitVec 8)
  testFail : Option (BitVec 8 × BitVec 8)
  slow : Option (Fin 4)
  deriving DecidableEq, Repr

/-- An SPDM request (R415): the two parameters of its header, offset and length of GET_CERTIFICATE, the nonce, and the
algorithm sets of NEGOTIATE_ALGORITHMS. -/
structure SpdmF where
  version : BitVec 8
  p1 : BitVec 8
  p2 : BitVec 8
  off : BitVec 16
  len : BitVec 16
  nonce : BitVec 256
  asym : BitVec 64
  hash : BitVec 32
  deriving DecidableEq, Repr

/-- The commands of the block, in the order of the table. `k` is the logical kite, `q` the queue, `p` the port, `s` the
request slot (or stream) a command acts on. -/
inductive Instr where
  /-- ADD (R182). -/
  | add (k : Fin 256) (f : CR)
  /-- SUB (R182). -/
  | sub (k : Fin 256) (f : CR)
  /-- AND (R182). -/
  | and (k : Fin 256) (f : CR)
  /-- OR (R182). -/
  | or (k : Fin 256) (f : CR)
  /-- XOR (R182). -/
  | xor (k : Fin 256) (f : CR)
  /-- SHL (R182). -/
  | shl (k : Fin 256) (f : CR)
  /-- SHR (R182). -/
  | shr (k : Fin 256) (f : CR)
  /-- SRA (R182). -/
  | sra (k : Fin 256) (f : CR)
  /-- MUL (R182). -/
  | mul (k : Fin 256) (f : CR)
  /-- SEL (R182). -/
  | sel (k : Fin 256) (f : CR)
  /-- MOV (R182). -/
  | mov (k : Fin 256) (f : CR)
  /-- ADDI (R182). -/
  | addi (k : Fin 256) (f : CI)
  /-- ANDI (R182). -/
  | andi (k : Fin 256) (f : CI)
  /-- ORI (R182). -/
  | ori (k : Fin 256) (f : CI)
  /-- XORI (R182). -/
  | xori (k : Fin 256) (f : CI)
  /-- SHLI (R182). -/
  | shli (k : Fin 256) (f : CI)
  /-- SHRI (R182). -/
  | shri (k : Fin 256) (f : CI)
  /-- SRAI (R182). -/
  | srai (k : Fin 256) (f : CI)
  /-- MULI (R182). -/
  | muli (k : Fin 256) (f : CI)
  /-- LI (R182). -/
  | li (k : Fin 256) (f : CL)
  /-- LIH (R182). -/
  | lih (k : Fin 256) (f : CH)
  /-- CMP (R183). -/
  | cmp (k : Fin 256) (f : CC)
  /-- CMPI (R183). -/
  | cmpi (k : Fin 256) (f : CCI)
  /-- LD (R184). -/
  | ld (k : Fin 256) (f : CM)
  /-- ST (R184). -/
  | st (k : Fin 256) (f : CM)
  /-- CSRR (R185). -/
  | csrr (k : Fin 256) (f : CS)
  /-- CSRW (R185). -/
  | csrw (k : Fin 256) (f : CS)
  /-- BRB (R164). -/
  | brb (k : Fin 256) (f : CB)
  /-- BRB_JOIN (R164). -/
  | brbJoin (k : Fin 256)
  /-- LOOP (R165). -/
  | loop (k : Fin 256) (f : CP)
  /-- LOOP_PAD_END (R165). -/
  | loopPadEnd (k : Fin 256)
  /-- STEPEND (R160). -/
  | stepend (k : Fin 256) (f : CZ)
  /-- HALT (R154). -/
  | halt (k : Fin 256) (f : CZ)
  /-- MSET (R82). -/
  | mset (k : Fin 256) (f : MSetF)
  /-- MFEED (R75). -/
  | mfeed (k : Fin 256) (f : MFeedF)
  /-- PASS_LAST_UPDATE (R76). -/
  | passLastUpdate (k : Fin 256)
  /-- DEFLATION (R80). -/
  | deflation (k : Fin 256)
  /-- MSWAP (R73). -/
  | mswap (k : Fin 256) (f : MSwapF)
  /-- MSEED (R74). -/
  | mseed (k : Fin 256) (f : MSeedF)
  /-- MSEED_COMPLETE (R74). -/
  | mseedComplete (k : Fin 256)
  /-- MZERO (R74). -/
  | mzero (k : Fin 256) (f : MZeroF)
  /-- TEST_DRAIN (R86). -/
  | testDrain (k : Fin 256) (v : BitVec 64)
  /-- TEST_DRAIN_DONE (R86). -/
  | testDrainDone (k : Fin 256)
  /-- VADD (R94). -/
  | vadd (k : Fin 256) (f : VA)
  /-- VSUB (R94). -/
  | vsub (k : Fin 256) (f : VA)
  /-- VMUL (R94). -/
  | vmul (k : Fin 256) (f : VA)
  /-- VFMA (R94). -/
  | vfma (k : Fin 256) (f : VA)
  /-- VMIN (R45). -/
  | vmin (k : Fin 256) (f : VA)
  /-- VMAX (R45). -/
  | vmax (k : Fin 256) (f : VA)
  /-- VNEG (R188). -/
  | vneg (k : Fin 256) (f : VA)
  /-- VABS (R188). -/
  | vabs (k : Fin 256) (f : VA)
  /-- VCEQ (R188). -/
  | vceq (k : Fin 256) (f : VA)
  /-- VCNE (R188). -/
  | vcne (k : Fin 256) (f : VA)
  /-- VCLT (R188). -/
  | vclt (k : Fin 256) (f : VA)
  /-- VCLE (R188). -/
  | vcle (k : Fin 256) (f : VA)
  /-- VCGT (R188). -/
  | vcgt (k : Fin 256) (f : VA)
  /-- VCGE (R188). -/
  | vcge (k : Fin 256) (f : VA)
  /-- VSEL (R188). -/
  | vsel (k : Fin 256) (f : VA)
  /-- VAND (R188). -/
  | vand (k : Fin 256) (f : VA)
  /-- VOR (R188). -/
  | vor (k : Fin 256) (f : VA)
  /-- VXOR (R188). -/
  | vxor (k : Fin 256) (f : VA)
  /-- VSHL (R188). -/
  | vshl (k : Fin 256) (f : VA)
  /-- VSHR (R188). -/
  | vshr (k : Fin 256) (f : VA)
  /-- VSRA (R188). -/
  | vsra (k : Fin 256) (f : VA)
  /-- CVT (R95). -/
  | cvt (k : Fin 256) (f : VK)
  /-- VEXP2 (R102). -/
  | vexp2 (k : Fin 256) (f : VF)
  /-- VLOG2 (R102). -/
  | vlog2 (k : Fin 256) (f : VF)
  /-- VRCP (R102). -/
  | vrcp (k : Fin 256) (f : VF)
  /-- VRSQRT (R102). -/
  | vrsqrt (k : Fin 256) (f : VF)
  /-- VSQRT (R102). -/
  | vsqrt (k : Fin 256) (f : VF)
  /-- VSINPI (R102). -/
  | vsinpi (k : Fin 256) (f : VF)
  /-- VCOSPI (R102). -/
  | vcospi (k : Fin 256) (f : VF)
  /-- VTANH (R102). -/
  | vtanh (k : Fin 256) (f : VF)
  /-- VLOGI (R102). -/
  | vlogi (k : Fin 256) (f : VF)
  /-- VERF (R102). -/
  | verf (k : Fin 256) (f : VF)
  /-- VSHUF (R98). -/
  | vshuf (k : Fin 256) (f : VH)
  /-- VTREE (R99). -/
  | vtree (k : Fin 256) (f : VT)
  /-- VACC (R96). -/
  | vacc (k : Fin 256) (f : VQ)
  /-- VSUM (R101). -/
  | vsum (k : Fin 256) (f : VU)
  /-- VLD (R193). -/
  | vld (k : Fin 256) (f : VM)
  /-- VST (R193). -/
  | vst (k : Fin 256) (f : VM)
  /-- VCHAIN (R118). -/
  | vchain (k : Fin 256) (f : VX)
  /-- CHAIN_END (R119). -/
  | chainEnd (k : Fin 256)
  /-- DMOV (R196). -/
  | dmov (k : Fin 256) (f : DM)
  /-- DPAGE (R196). -/
  | dpage (k : Fin 256) (f : DM)
  /-- DSEND (R197). -/
  | dsend (k : Fin 256) (f : DS)
  /-- DEXPORT (R198). -/
  | dexport (k : Fin 256) (f : DX)
  /-- DFILL (R138). -/
  | dfill (k : Fin 256) (f : DF)
  /-- DCOPY (R139). -/
  | dcopy (k : Fin 256) (f : DC)
  /-- MOVE_COMPLETE (R168). -/
  | moveComplete (k : Fin 256) (ch : Fin 4)
  /-- SIG (R200). -/
  | sig (k : Fin 256) (f : SSig)
  /-- WAIT (R156). -/
  | wait (k : Fin 256) (f : SWait)
  /-- ARRIVE (R158). -/
  | arrive (k : Fin 256) (f : SWait)
  /-- WAITR (R202). -/
  | waitr (k : Fin 256) (f : SWaitr)
  /-- FENCE (R161). -/
  | fence (k : Fin 256) (f : SZ)
  /-- TICKWAIT (R159). -/
  | tickwait (k : Fin 256) (f : SZ)
  /-- PLANNED_RELEASE (R156). -/
  | plannedRelease (k : Fin 256)
  /-- BRIDLE_NOTICE (R156). -/
  | bridleNotice (k : Fin 256)
  /-- ANCHOR_TIMEOUT (R156). -/
  | anchorTimeout (k : Fin 256)
  /-- HALT_REQ (R442). -/
  | haltReq (k : Fin 256)
  /-- RESUME (R442). -/
  | resume (k : Fin 256)
  /-- PMEM_DATA_WRITE (R153). -/
  | pmemDataWrite (k : Fin 256) (w : Fin 4) (v : BitVec 64)
  /-- PMEM_DATA_READ (R153). -/
  | pmemDataRead (k : Fin 256) (w : Fin 4)
  /-- CHAINMEM_WRITE (R104). -/
  | chainmemWrite (k : Fin 256) (off : BitVec 15) (v : BitVec 64)
  /-- REEL_CFG_WRITE (R146). -/
  | reelCfgWrite (k : Fin 256) (r : Fin 32) (v : BitVec 64)
  /-- OFF_REQ (R147). -/
  | offReq (k : Fin 256) (mask : BitVec 16)
  /-- ON_REQ (R149). -/
  | onReq (k : Fin 256) (mask : BitVec 16)
  /-- BANK_POWER_OFF (R147). -/
  | bankPowerOff (k : Fin 256) (b : Fin 16)
  /-- BANK_CLOSE_TIMEOUT (R147). -/
  | bankCloseTimeout (k : Fin 256) (b : Fin 16)
  /-- BANK_WAKE_DONE (R149). -/
  | bankWakeDone (k : Fin 256) (b : Fin 16)
  /-- REPAIR (R137). -/
  | repair (k : Fin 256)
  /-- DEFINE (R208). -/
  | define
  /-- DELETE (R209). -/
  | delete (unit : BitVec 32)
  /-- LAUNCH (R214). -/
  | launch
  /-- LAUNCH_GO (R214). -/
  | launchGo
  /-- UNIT_CMD_TIMEOUT (R208). -/
  | unitCmdTimeout
  /-- HALT_UNIT (R217). -/
  | haltUnit (unit : BitVec 32)
  /-- BRIDLE_EVALUATION (R219). -/
  | bridleEvaluation (b : BitVec 16) (fab : Nat)
  /-- WAIT_EXPIRY (R220). -/
  | waitExpiry (b : BitVec 16) (k : Fin 256) (fab : Nat)
  /-- BRD_COUNT_WRITE (R443). -/
  | brdCountWrite (b : BitVec 16) (v : BitVec 32)
  /-- BRD_ADD (R443). -/
  | brdAdd (b : BitVec 16) (v : BitVec 32)
  /-- ALLOC (R237). -/
  | alloc
  /-- MAP (R447). -/
  | map
  /-- UNMAP (R239). -/
  | unmap
  /-- INCREF (R239). -/
  | incref
  /-- DECREF (R239). -/
  | decref
  /-- DROPSPACE (R449). -/
  | dropspace
  /-- MIGRATE (R242). -/
  | migrate
  /-- MIGRATE_COPY_DONE (R242). -/
  | migrateCopyDone (frame : BitVec 48)
  /-- STEP_BOUNDARY (R240). -/
  | stepBoundary
  /-- EPOCH_RETIRE (R241). -/
  | epochRetire
  /-- PATROL_SCRUB (R246). -/
  | patrolScrub (tier : Fin 2) (mib : Nat)
  /-- HBM_PHY_CALIBRATION (R308). -/
  | hbmPhyCalibration (h : Fin 8)
  /-- LOFT_CALIBRATION (R308). -/
  | loftCalibration (c : Fin 12)
  /-- LOFT_WEAR_LEVELLING (R308). -/
  | loftWearLevelling (frame : BitVec 48)
  /-- PAGE_COPY_DONE (R277). -/
  | pageCopyDone
  /-- INSERT (R275). -/
  | insert
  /-- REMOVE (R271). -/
  | remove
  /-- FLUSH (R271). -/
  | flush
  /-- RUN_WRITE (R280). -/
  | runWrite (run : Bool)
  /-- TICK_START (R285). -/
  | tickStart (j : Nat)
  /-- STEP_GO (R159). -/
  | stepGo
  /-- PLAN_FREEZE (R286). -/
  | planFreeze (j : Nat)
  /-- ADMISSION_ROUND (R293). -/
  | admissionRound (r : Nat)
  /-- STEP_CUT (R305). -/
  | stepCut (j : Nat)
  /-- EXPORT_DEADLINE (R299). -/
  | exportDeadline (s : Fin 8192)
  /-- SQ_TAIL_DOORBELL (R375). -/
  | sqTailDoorbell (q : Fin 64) (bytes : Nat) (v : BitVec 32)
  /-- CQ_HEAD_DOORBELL (R375). -/
  | cqHeadDoorbell (q : Fin 64) (bytes : Nat) (v : BitVec 32)
  /-- PREFILL (R297). -/
  | prefill (q : Fin 64) (e : Sqe)
  /-- CANCEL (R372). -/
  | cancel (q : Fin 64) (e : Sqe)
  /-- LOAD_MODEL (R414). -/
  | loadModel (q : Fin 64) (e : Sqe)
  /-- MODEL_LOAD_DONE (R444). -/
  | modelLoadDone (m : Fin 16)
  /-- UNLOAD_MODEL (R373). -/
  | unloadModel (q : Fin 64) (e : Sqe)
  /-- INSTALL_VARIANT (R373). -/
  | installVariant (q : Fin 64) (e : Sqe)
  /-- VARIANT_INSTALL_DONE (R444). -/
  | variantInstallDone (v : BitVec 12)
  /-- REMOVE_VARIANT (R269). -/
  | removeVariant (q : Fin 64) (e : Sqe)
  /-- QCFG_WRITE (R366). -/
  | qcfgWrite (q : Fin 64) (v : BitVec 64)
  /-- QUEUE_BASE_WRITE (R366). -/
  | queueBaseWrite (q : Fin 64) (cq : Bool) (v : BitVec 64)
  /-- QUEUE_DISABLE_DONE (R367). -/
  | queueDisableDone (q : Fin 64)
  /-- INTERRUPT_TIMEOUT (R378). -/
  | interruptTimeout (q : Fin 64)
  /-- BDP_ADDR_WRITE (R376). -/
  | bdpAddrWrite (v : BitVec 64)
  /-- BDP_WRITE (R377). -/
  | bdpWrite (o : BitVec 24) (data : List Byte)
  /-- BDP_READ (R377). -/
  | bdpRead (o : BitVec 24) (n : Nat)
  /-- PCIE_LINK_DOWN (R365). -/
  | pcieLinkDown
  /-- REGISTER_WRITE (R9). -/
  | registerWrite (off : BitVec 26) (half : Bool) (v : BitVec 64)
  /-- TARGET_WRITE (R317). -/
  | targetWrite (t : Fin 256) (w : Fin 8) (v : BitVec 64)
  /-- PAGE_DATA (R324). -/
  | pageData (s : Fin 8192)
  /-- MANIFEST (R326). -/
  | manifest (s : Fin 8192)
  /-- ACK (R331). -/
  | ack (rx : YRx) (msg : List Byte)
  /-- NAK (R328). -/
  | nak (rx : YRx) (msg : List Byte)
  /-- CREDIT (R324). -/
  | credit (rx : YRx) (msg : List Byte)
  /-- RETRANSMIT_TIMEOUT (R330). -/
  | retransmitTimeout (s : Fin 8192)
  /-- RATE_INCREASE (R332). -/
  | rateIncrease (s : Fin 8192)
  /-- SEALED_TIMEOUT (R329). -/
  | sealedTimeout (s : Fin 8192)
  /-- YAPHOR (R337). -/
  | yaphor (r : LRx) (ctx : BitVec 16) (rsv : BitVec 16) (msg : List Byte)
  /-- UNIT_REQ (R350). -/
  | unitReq (r : LRx) (tag : BitVec 64) (cmd : BitVec 8) (rsv : BitVec 56) (desc : List Byte)
  /-- UNIT_RSP (R350). -/
  | unitRsp (r : LRx) (tag : BitVec 64) (status : BitVec 8) (rsv : BitVec 56)
  /-- WRITE (R351). -/
  | write (r : LRx) (f : LWrite) (rows : List Byte)
  /-- WRITE_DONE (R351). -/
  | writeDone (r : LRx) (tag : BitVec 64) (status : BitVec 8) (rsv : BitVec 56)
  /-- STEP_DESC (R312). -/
  | stepDesc (r : LRx) (tick : BitVec 64) (off : BitVec 32) (data : List Byte)
  /-- SCHED_CTL_START (R311). -/
  | schedCtlStart (r : LRx) (tick : BitVec 64) (t0 : BitVec 64) (cfg : BitVec 64) (rsv : BitVec 56)
  /-- SCHED_CTL_BOUNDARY (R312). -/
  | schedCtlBoundary (r : LRx) (tick : BitVec 64) (rsv : BitVec 56)
  /-- SCHED_CTL_STOP (R314). -/
  | schedCtlStop (r : LRx) (tick : BitVec 64) (rsv : BitVec 56)
  /-- STEP_DONE (R313). -/
  | stepDone (r : LRx) (tick : BitVec 64) (last : BitVec 32) (holds : BitVec 32)
  /-- SIGNAL (R223). -/
  | signal (r : LRx) (bridle : BitVec 32) (amt : BitVec 32)
  /-- LERBO_FORWARD (R353). -/
  | lerboForward (r : LRx) (mtype : BitVec 8) (body : List Byte)
  /-- HELLO (R341). -/
  | hello (p : Fin 96) (f : HelloF)
  /-- REPLAY (R348). -/
  | replay (p : Fin 96) (f : ReplayF)
  /-- REPLAY_RETRY (R348). -/
  | replayRetry (p : Fin 96)
  /-- AACK_TIMEOUT (R342). -/
  | aackTimeout (p : Fin 96)
  /-- LANE_LOCK_LOSS (R342). -/
  | laneLockLoss (p : Fin 96)
  /-- RETRAIN_TIMEOUT (R342). -/
  | retrainTimeout (p : Fin 96)
  /-- TRAINING_TIMEOUT (R341). -/
  | trainingTimeout (p : Fin 96)
  /-- DOWN_RETRY (R341). -/
  | downRetry (p : Fin 96)
  /-- PLL_LOCK_LOSS (R340). -/
  | pllLockLoss (q : Fin 24)
  /-- PCFG_WRITE (R339). -/
  | pcfgWrite (p : Fin 96) (v : BitVec 64)
  /-- UNQUAR (R361). -/
  | unquar (p : Fin 96)
  /-- ETHERNET_FRAME (R357). -/
  | ethernetFrame (p : Fin 96) (f : FrameF) (frame : List Byte)
  /-- PFC (R358). -/
  | pfc (p : Fin 96) (en : BitVec 8) (quanta : BitVec 128)
  /-- PTP_MESSAGE (R359). -/
  | ptpMessage (p : Fin 96) (m : PtpF)
  /-- PPS (R430). -/
  | pps (width : Nat)
  /-- TIMEBASE_SOURCE_TIMEOUT (R386). -/
  | timebaseSourceTimeout
  /-- TB_SET (R387). -/
  | tbSet (v : BitVec 64)
  /-- WAKE_REQUEST (R384). -/
  | wakeRequest (d : Fin 100)
  /-- SENSOR_SAMPLE (R391). -/
  | sensorSample (x : Sensors)
  /-- MARGIN_PLAN_STEP (R395). -/
  | marginPlanStep
  /-- MARGIN_PLAN_SAVE (R395). -/
  | marginPlanSave
  /-- MSTEP_ARM (R397). -/
  | mstepArm (arm : Bool)
  /-- TXCFG_WRITE (R425). -/
  | txcfgWrite (v : BitVec 64)
  /-- LOG_TAIL_WRITE (R421). -/
  | logTailWrite (v : BitVec 32)
  /-- PERST (R435). -/
  | perst (level : Bool) (ns : Nat)
  /-- MODULE_RESET (R404). -/
  | moduleReset (env : BootEnv)
  /-- BOOT_STAGE_TIMEOUT (R404). -/
  | bootStageTimeout (stage : Fin 4)
  /-- PWR_GOOD_RISE (R434). -/
  | pwrGoodRise
  /-- POWER_LOSS (R434). -/
  | powerLoss
  /-- COMPONENT (R411). -/
  | component (dev : Bool)
  /-- PROFILES (R409). -/
  | profiles
  /-- RESET (R417). -/
  | reset
  /-- PROFILE_NEXT_WRITE (R409). -/
  | profileNextWrite (v : BitVec 64)
  /-- GET_VERSION (R415). -/
  | getVersion (f : SpdmF)
  /-- GET_CAPABILITIES (R415). -/
  | getCapabilities (f : SpdmF)
  /-- NEGOTIATE_ALGORITHMS (R415). -/
  | negotiateAlgorithms (f : SpdmF)
  /-- GET_DIGESTS (R415). -/
  | getDigests (f : SpdmF)
  /-- GET_CERTIFICATE (R415). -/
  | getCertificate (f : SpdmF)
  /-- CHALLENGE (R415). -/
  | challenge (f : SpdmF)
  /-- GET_MEASUREMENTS (R416). -/
  | getMeasurements (f : SpdmF)
  /-- PLDM_SENSOR_REQUEST (R426). -/
  | pldmSensorRequest (id : BitVec 16)
  /-- FLIT (R348). -/
  | flit (p : Fin 96) (f : FlitF)
  /-- EQUALISATION_DONE (R341). -/
  | equalisationDone (p : Fin 96) (lock : Bool)
  /-- UPDATE_DONE (R411). -/
  | updateDone (ok : Bool)
  /-- D3HOT (R380). -/
  | d3hot (enter : Bool)
  deriving DecidableEq, Repr

end Sys2Proof
end

