-- ==== Sys2Proof/Machine/KiteState.lean ====
section
/-! DEFINITION. The state of one logical kite: keel, matrix engine, vector engine, chain memory, scratchpad, reels, banks
and move engine (files 04 to 09). Times marked "local" count the kite's own cycles, which stand still in a hold;
vector times stand still in every hold but a SWAP_HOLD (R73, R162); "cycle" alone counts every arithmetic cycle.
A scratchpad row is a number of 4,096 bits and a vector register one of 131,072 bits, little-endian (R6, R89). -/
namespace Sys2Proof.Machine

/-- What the keel does (KTE.KSTAT.STATE, but for the holds, which `Kite.hold` names). -/
inductive KSt where
  | halted
  | issuing
  | anchor
  | tickwait
  | padding
  | exc
  deriving DecidableEq, Repr

/-- The hold causes of Table 8.3, highest first. -/
inductive HoldCause where
  | anchorLate | swapHold | feedStarved | spadNarrow | spadWide | chainStall | dqFull | thermal
  deriving DecidableEq, Repr

/-- The exceptions of Table 8.8. -/
inductive Exc where
  | illegal | brbOverlen | brbAnchor | loopOver | loopAnchor | nestDepth | pcRange | scalarAddr | csrAddr
  | stependTwice | hzHalt
  deriving DecidableEq, Repr

/-- Code of an exception (Table 8.8). -/
def Exc.code : Exc → Nat
  | .illegal => 1 | .brbOverlen => 2 | .brbAnchor => 3 | .loopOver => 4 | .loopAnchor => 5 | .nestDepth => 6
  | .pcRange => 7 | .scalarAddr => 8 | .csrAddr => 9 | .stependTwice => 10 | .hzHalt => 11

/-- An open BRB arm or LOOP body (R164, R165). Times are local. -/
inductive Frame where
  /-- BRB of bundle `at_` issued at `t0`: the arm runs up to, and not including, `armEnd`; bundle `join` follows at t0 + len + 1. -/
  | brb (at_ t0 len armEnd join : Nat)
  /-- LOOP: the body runs from `start` to `last`; `left` iterations remain, the present one included; `pad` is the
  padding after the last one, `reg` marks a register count. Once `padEnd` is set, the keel pads to its end. -/
  | loop (start last left pad : Nat) (reg : Bool) (padEnd : Option Nat)
  deriving DecidableEq, Repr

/-- What an anchor waits for (R156). -/
inductive AnchorOn where
  /-- The notice of a bridle's home. -/
  | bridle (b : Nat)
  /-- A reel's fill, or its room, of at least `thr` rows (R145, R202). -/
  | reel (r : Nat) (room : Bool) (thr : Nat)
  /-- A refused wait (R212): nothing can satisfy it, and it releases at p. -/
  | refused
  deriving DecidableEq, Repr

/-- An outstanding WAIT, ARRIVE or WAITR (R156). `p` is local; `late` counts the hold cycles after p. -/
structure Anchor where
  on : AnchorOn
  fd : Nat
  p : Nat
  tmo : Nat
  late : Nat
  got : Bool
  deriving DecidableEq, Repr

/-- The matrix set-up of MSET (Table 4.8), with KTAIL's 0 read as 128. -/
structure MCfg where
  arr : Nat := 0
  fa : Fmt := .e4m3
  fb : Fmt := .e4m3
  passes : Nat := 1
  ktail : Nat := 128
  rows : Nat := 128
  cols : Nat := 128
  deriving DecidableEq, Repr

/-- One feeder of a pass: element rows and scale rows read so far, and the tiles staged (tile index to rows in order;
element rows first, then scale rows). -/
structure Feeder where
  elem : Nat := 0
  scale : Nat := 0
  elems : Map (List Nat) := []
  scales : Map (List Nat) := []
  deriving DecidableEq, Repr

/-- A pass (R75, R76): the set-up captured at issue, the MFEED's fields and bundle address, its local times and its
feeders. -/
structure Pass where
  cfg : MCfg
  feed : MFeedF
  pc : Nat
  issue : Nat
  r0 : Nat
  e0 : Nat
  cyc : Nat
  queued : Bool
  infl : Option Nat
  updates : Nat := 0
  fa : Feeder := {}
  fb : Feeder := {}
  deriving DecidableEq, Repr

/-- One accumulator set: its contents by container index (R440). Unlisted containers hold +0 after a zeroing, and
undefined values otherwise. -/
structure AccSet where
  zeroed : Bool := false
  cells : Map Nat := []
  deriving DecidableEq, Repr

/-- An MSEED in progress (R74): local issue cycle, set named, first row, containers read so far, bundle address. -/
structure Seed where
  issue : Nat
  set : Bool
  row : Nat
  cells : List Nat
  pc : Nat
  deriving DecidableEq, Repr

/-- A test drain in progress (R86): the cycle it began, the set, the first row and the rows written so far. -/
structure Drain where
  start : Nat
  set : Bool
  row : Nat
  next : Nat
  deriving DecidableEq, Repr

/-- The element-wise operations of format VA, in the order of their opcodes (Table 9.6). -/
inductive AluFn where
  | add | sub | mul | fma | min | max | neg | abs | ceq | cne | clt | cle | cgt | cge | sel
  | and | or | xor | shl | shr | sra
  deriving DecidableEq, Repr

/-- What a vector unit runs. -/
inductive VKind where
  | alu (fn : AluFn) (f : VA)
  | cvt (f : VK)
  | sfn (fn : SfuFn) (f : VF)
  | shuf (f : VH)
  | tree (f : VT)
  | acc (f : VQ)
  | sum (f : VU)
  | ld (f : VM)
  | st (f : VM)
  deriving DecidableEq, Repr

/-- An instruction running on a vector unit: its issue cycle on the vector clock, count, occupancy, the scalar read at
issue (the second operand of BMODE 1, the factor of VACC, the first row of VLD and VST), and its bundle address. -/
structure VRun where
  kind : VKind
  t0 : Nat
  n : Nat
  occ : Nat
  sc : Nat
  pc : Nat
  deriving DecidableEq, Repr

/-- A vector register write due at the end of vector cycle `due` − 1: `len` bits at bit `lo`, by the instruction issued in
vector cycle `iss`. -/
structure VWrite where
  iss : Nat
  due : Nat
  reg : Nat
  lo : Nat
  len : Nat
  val : Nat
  deriving DecidableEq, Repr

/-- A scalar or flag register. -/
inductive SReg where
  | s (n : Nat)
  | f (n : Nat)
  deriving DecidableEq, Repr

/-- A scalar or flag write readable from cycle `due`, on the vector clock for VSUM's (R101) and local otherwise. -/
structure SWrite where
  due : Nat
  vec : Bool
  reg : SReg
  val : Word
  deriving DecidableEq, Repr

/-- Unit of a chain stage (Table 6.4). -/
inductive VUnit where
  | alu | sfu | mem
  deriving DecidableEq, Repr

/-- One stage of one slice, placed by R118: stage number from 1, slice and tile from 0, start on the vector clock. -/
structure StageRun where
  stage : Nat
  slice : Nat
  tile : Nat
  start : Nat
  occ : Nat
  deriving DecidableEq, Repr

/-- A running VCHAIN (R118): the captured program, its fields and bases, and the stage runs still to do. `stats` holds
the nodes of the STAT stages, by stage × 512 + tile row, in tile order; `rowsOut` collects the KVAPP rows of a slice. -/
structure ChainRun where
  f : VX
  t0 : Nat
  header : Nat
  stages : List Nat
  bases : List Nat
  runs : List StageRun
  tEnd : Nat
  stats : Map (List Nat)
  /-- Bundle address of the VCHAIN. -/
  pc : Nat
  deriving DecidableEq, Repr

/-- What a move descriptor does (Tables 8.4, 9.7). A reel source or destination is named by `some r`. -/
inductive MoveKind where
  /-- DMOV: `out` for scratchpad to memory; first address and stride in bytes. -/
  | mem (out : Bool) (addr stride : Nat)
  /-- DPAGE: the same at the physical addresses its rows translate to in the epoch of the step (R196). -/
  | page (out : Bool) (pas : List Nat)
  /-- DSEND and SEND to kite `dst` of this module: a row, or a reel. -/
  | send (dst : Nat) (row : Nat) (reel : Option Nat)
  /-- DSEND and SEND to kite `dst` of module `modId`, under a tag; `brd` is the completion bridle the destination signals. -/
  | remote (modId dst : Nat) (row : Nat) (reel : Option Nat) (tag : Nat) (brd : Option Nat)
  /-- DEXPORT and EXPORT: stream handle, layer, head, kind, token map row and token rows. -/
  | note (handle layer head kind tmap ntok : Nat)
  | fill (val : Nat)
  /-- DCOPY: destination row, and DIR. -/
  | copy (drow : Nat) (desc : Bool)
  /-- KVAPP rows: physical addresses with their bytes (R113). -/
  | kv (rows : List (Nat × List Byte))
  deriving DecidableEq, Repr

/-- A KVAPP row (R113, R251): slot, position, layer, head, kind, its bytes as a number and their count. -/
structure KvRow where
  slot : Nat
  pos : Nat
  layer : Nat
  head : Nat
  kind : Nat
  val : Nat
  len : Nat
  deriving DecidableEq, Repr

/-- What is posted on a move channel, before it is checked, resolved and bounded: by the D slot (Table 9.8) and by the
chain stages KVAPP, SEND and EXPORT. Rows are scratchpad rows; a reel is `some r`; `sm` and `ss` are whole scalars. -/
inductive Raw where
  | mem (out : Bool) (sm ss : Word) (row : Nat) (reel : Option Nat) (nrows : Nat)
  | page (out : Bool) (sm ss : Word) (row : Nat) (reel : Option Nat) (nrows : Nat)
  | send (sd : Word) (row : Nat) (reel : Option Nat) (nrows : Nat)
  | note (handle layer head kind tmap ntok : Nat)
  | fill (val row nrows : Nat)
  | copy (desc : Bool) (srow drow nrows : Nat)
  | kv (rows : List KvRow)
  deriving DecidableEq, Repr

/-- A posting: its channel, its completion bridle, a unit-relative address, and the bundle address it comes from. -/
structure Post where
  ch : Nat
  raw : Raw
  bridle : Option Nat
  pc : Nat
  deriving DecidableEq, Repr

/-- A queued descriptor (R167–R171): its kind, first scratchpad row (or reel) and row count, issue cycle, the end of
its bound, its cycles per row, its planned completion, the status so far and the first row it concerns; the completion
bridle the source signals, as module × 2^16 + physical bridle; the next row, rows sent and not yet written at their
destination, consecutive cycles the next access has lost its bank, and what has been read and waits to be used (a row of a
DCOPY, the rows of a WRITE, the token map of a notice); its bundle address; and whether the destination has signalled the
completion bridle. Times are arithmetic cycles. -/
structure Desc where
  kind : MoveKind
  row : Nat
  reel : Option Nat
  nrows : Nat
  issue : Nat
  bound : Nat
  pace : Nat
  complete : Nat
  status : Nat
  first : Nat
  bridle : Option Nat
  next : Nat
  left : Nat
  waits : Nat
  buf : Option Nat
  pc : Nat
  told : Bool
  deriving DecidableEq, Repr

/-- A move channel (KTE.MVSTAT): its queue, oldest first, and its counts. -/
structure Chan where
  queue : List Desc := []
  status : Nat := 0
  errcnt : Nat := 0
  done : Nat := 0
  deriving DecidableEq, Repr

/-- A row write waiting on the inbound path (R134): row or reel, value, and where its completion is accounted. -/
structure Inbound where
  row : Nat
  reel : Option Nat
  val : Nat
  waits : Nat
  /-- Source kite and channel of a send of this module. -/
  src : Option (Nat × Nat)
  /-- Source module, tag and completion bridle of a remote write (R351). -/
  tag : Option (Nat × Nat × Option Nat)
  /-- Chunks to be written with poison check bits (Table 8.5). -/
  poison : Nat
  deriving DecidableEq, Repr

/-- Power state of a bank (Table 7.5), with the cycle it entered a timed state. -/
inductive BankSt where
  | on
  | closing (since : Nat)
  | off
  | waking (since : Nat)
  deriving DecidableEq, Repr

/-- A bank: its state, and how often it has been woken (its rows are undefined anew each time, R149). -/
structure Bank where
  st : BankSt := .on
  gen : Nat := 0
  deriving DecidableEq, Repr

/-- A reel (R141). -/
structure Reel where
  base : Nat := 0
  logsz : Nat := 0
  en : Bool := false
  head : Nat := 0
  tail : Nat := 0
  deriving DecidableEq, Repr

/-- A narrow access that lost its bank and is made in the held cycle (R132). -/
inductive Narrow where
  /-- Keel load: register, byte address, size code, sign, local cycle of the access, bundle address. -/
  | ld (sr addr size : Nat) (sign : Bool) (t pc : Nat)
  /-- Keel store: byte address, size code, value, local cycle, bundle address. -/
  | st (addr size : Nat) (val : Word) (t pc : Nat)
  /-- Vector memory access of chunk `c` of the running instruction, or of a stage run of the chain; what is stored was read
  from its register in the chunk's own cycle (R91). -/
  | vec (run : VRun) (c val : Nat)
  | stage (run : StageRun) (c val : Nat)
  /-- A row of a token map or of a mask table that a stage of the chain reads. -/
  | map (row : Nat)
  deriving DecidableEq, Repr

/-- A pending access of the keel to its own window (R185): reads sample at the end of their issue cycle, writes
take effect at the end of the second cycle after it. -/
structure CsrOp where
  due : Nat
  off : Nat
  wr : Bool
  val : Word
  sr : Nat
  deriving DecidableEq, Repr

/-- A signal waiting to leave the kite: unit-relative bridle, amount, and the local and vector cycles at whose end it
may leave (R161, Table 8.2). -/
structure SigOut where
  rel : Nat
  amt : Nat
  notT : Nat
  notTv : Nat
  deriving DecidableEq, Repr

/-- The state of a logical kite. -/
structure Kite where
  -- keel (files 08, 09)
  st : KSt := .halted
  pc : Nat := 0
  ipc : Nat := 0
  frames : List Frame := []
  lag : Nat := 0
  lagV : Nat := 0
  hold : Option HoldCause := none
  /-- Whether the vector units stand in the present cycle (R92, R121, R132). -/
  vStop : Bool := false
  byReq : Bool := false
  /-- HALT, a halt request and a HALT-mode hazard act at the end of the cycle. -/
  haltEnd : Bool := false
  reqEnd : Bool := false
  haltAt : Nat := 0
  excCode : Nat := 0
  excSlot : Nat := 0
  excPc : Nat := 0
  excValid : Bool := false
  hTotal : Nat := 0
  hAnchor : Nat := 0
  hQfull : Nat := 0
  hThermal : Nat := 0
  hTimeout : Nat := 0
  stepCycles : Nat := 0
  stepHolds : Nat := 0
  goCycle : Nat := 0
  goLag : Nat := 0
  stepDone : Bool := false
  /-- Whether a THERMAL hold was counted since the go (R303). -/
  stepTh : Bool := false
  hzEn : Bool := false
  hzMode : Bool := false
  hzCode : Nat := 0
  hzPc : Nat := 0
  hzSlot : Nat := 0
  hzCount : Nat := 0
  hzStop : Bool := false
  pmem : Map Nat := []
  pmAddr : Nat := 0
  pmStage : Map Nat := []
  unit : Nat := 0
  knum : Nat := 0
  sregs : Map Word := []
  fregs : Map Bool := []
  sq : List SWrite := []
  csr : List CsrOp := []
  anchor : Option Anchor := none
  fenceT : Nat := 0
  fenceTv : Nat := 0
  sigs : List SigOut := []
  -- keel scalar accesses to the scratchpad, due in a local cycle
  narrow : List Narrow := []
  retry : List Narrow := []
  -- matrix engine (file 04)
  mcfg : MCfg := {}
  /-- An MSET's set-up, in force from the end of its issue cycle (Table 4.5). -/
  mcfgNext : Option MCfg := none
  setB : Bool := false
  relA : Bool := true
  relB : Bool := true
  accA : AccSet := {}
  accB : AccSet := {}
  passes : List Pass := []
  lastEntry : Option Nat := none
  prevEntry : Option Nat := none
  pairs : Nat := 0
  swapPend : Bool := false
  zeroPend : Option Bool := none
  seed : Option Seed := none
  drain : Option Drain := none
  mtSet : Bool := false
  mtRow : Nat := 0
  mPasses : Nat := 0
  mOverflow : Nat := 0
  mEntry : Nat := 0
  mInflate : Nat := 0
  mSwap : Nat := 0
  mStarve : Nat := 0
  -- vector engine (file 05) and chains (file 06)
  vregs : Map Nat := []
  vGen : Nat := 0
  vq : List VWrite := []
  vAlu : Option VRun := none
  vSfu : Option VRun := none
  vMem : Option VRun := none
  vSumAcc : List Nat := []
  vDiscard : Nat := 0
  vCountBad : Nat := 0
  vOps : Nat := 0
  vSfuOps : Nat := 0
  chainMem : Map Nat := []
  chain : Option ChainRun := none
  cCh : Nat := 0
  cTile : Nat := 0
  cChains : Nat := 0
  cStall : Nat := 0
  cKvfail : Nat := 0
  -- scratchpad, reels and banks (file 07)
  rows : Map Nat := []
  /-- Chunks of a row that report an uncorrectable error when read, as a mask of 16 bits. -/
  bad : Map Nat := []
  /-- Chunks of a row that hold a correctable bit error, as a mask of 16 bits. -/
  soft : Map Nat := []
  repairQ : List Nat := []
  /-- A repair whose row has been read in the cycle before, and one whose second bank cycle is the present one (R137). -/
  repairing : Option Nat := none
  repaired : Option Nat := none
  eccCorr : Nat := 0
  eccUncorr : Nat := 0
  eccLost : Nat := 0
  confN : Nat := 0
  confW : Nat := 0
  bankOff : Nat := 0
  reelBad : Nat := 0
  banks : Map Bank := []
  pwrBusy : Nat := 0
  pwrAbort : Nat := 0
  reels : Map Reel := []
  -- move engine (§8.6)
  chans : Map Chan := []
  inb : List Inbound := []
  /-- Bounds not yet passed (R169): the bound's end, and rows in the HBM, loft and send groups. -/
  paced : List (Nat × Nat × Nat × Nat) := []
  dqWait : List Post := []
  /-- Postings of the present cycle's chain stages. -/
  posts : List Post := []
  -- events raised by the command in progress, moved to the error log when the kite is put back
  evs : List Ev := []
  deriving DecidableEq, Repr

end Sys2Proof.Machine
end

