-- ==== Sys2Proof/Machine/KiteOps.lean ====
section
/-! DEFINITION. The named operations over one kite: its clocks, registers, hazard reports and exceptions, scratchpad rows
with their check bits, banks and reels. `k` is the kite's logical number, which only names it in events and in
undefined values. -/
namespace Sys2Proof.Machine

/-! ### Clocks (R162, R73) -/

/-- The kite's local cycle during arithmetic cycle `cyc`. -/
def Kite.t (kt : Kite) (cyc : Nat) : Nat := cyc - kt.lag

/-- The kite's vector cycle during arithmetic cycle `cyc`. -/
def Kite.tv (kt : Kite) (cyc : Nat) : Nat := cyc - kt.lagV

/-- Whether the keel is stopped: halted or stopped by an exception (R153). -/
def Kite.stopped (kt : Kite) : Bool := kt.st == .halted || kt.st == .exc

/-- Whether the keel issues in the present cycle. -/
def Kite.issues (kt : Kite) : Bool := kt.st == .issuing && kt.hold.isNone

/-! ### Events -/

/-- Log an event of this kite. -/
def Kite.event (kt : Kite) (k : Nat) (cls : EvClass) (ev : Nat) (info : Nat := 0) : Kite :=
  { kt with evs := kt.evs ++ [Ev.kite cls ev k info] }

/-- Stop by an exception (R175): code, slot and bundle address are recorded and a class U event is logged. -/
def Kite.raise (kt : Kite) (k : Nat) (e : Exc) (slot pc : Nat) : Kite :=
  { kt with
    st := .exc, anchor := none, byReq := false, haltEnd := false, reqEnd := false
    excCode := e.code, excSlot := slot, excPc := pc % 8192, excValid := true
    evs := kt.evs ++ [Ev.kite .u (evExc e.code) k (pc % 8192)] }

/-- A hazard report (R174) about the instruction of bundle `pc`: recorded and logged while the checker is on; in mode HALT
the keel stops at the end of the cycle. -/
def Kite.hazardAt (kt : Kite) (k pc code slot : Nat) : Kite :=
  if kt.hzEn then
    { kt with
      hzCode := code, hzPc := pc, hzSlot := slot, hzCount := satAdd 32 kt.hzCount 1
      hzStop := kt.hzStop || kt.hzMode
      evs := kt.evs ++ [Ev.kite .s (evHazard code) k (pc + slot * 2 ^ 16)] }
  else kt

/-- A hazard report about the bundle that issues. -/
def Kite.hazard (kt : Kite) (k code slot : Nat) : Kite := kt.hazardAt k kt.ipc code slot

/-- A hazard report about bundle `pc` where `b` holds. -/
def Kite.hazardAtIf (kt : Kite) (b : Bool) (k pc code slot : Nat) : Kite :=
  if b then kt.hazardAt k pc code slot else kt

/-- A hazard report where `b` holds. -/
def Kite.hazardIf (kt : Kite) (b : Bool) (k code slot : Nat) : Kite :=
  if b then kt.hazard k code slot else kt

/-! ### Scalar and flag registers -/

/-- Scalar register n. -/
def Kite.sreg (kt : Kite) (n : Nat) : Word := mapGetD kt.sregs n 0

/-- Flag register n. -/
def Kite.freg (kt : Kite) (n : Nat) : Bool := mapGetD kt.fregs n false

/-- Scalar register a 5-bit field names (R180). -/
def Kite.s (kt : Kite) (f : BitVec 5) : Word := kt.sreg f.toNat

/-- Bits [31:0] of the scalar register a field names. -/
def Kite.s32 (kt : Kite) (f : BitVec 5) : Nat := (kt.s f).toNat % 2 ^ 32

/-- Set a scalar or flag register at once. -/
def Kite.setReg (kt : Kite) (r : SReg) (v : Word) : Kite :=
  match r with
  | .s n => { kt with sregs := mapSet kt.sregs n v }
  | .f n => { kt with fregs := mapSet kt.fregs n (v != 0) }

/-- Whether a write of register `r` is still to come: a queued one, a load or a read of the window that has yet to be made,
or a VSUM that runs. -/
def Kite.regPending (kt : Kite) (r : SReg) : Bool :=
  kt.sq.any (fun w => w.reg == r)
    || (kt.narrow ++ kt.retry).any (fun x => match x with
      | .ld sr _ _ _ _ _ => r == .s sr
      | _ => false)
    || kt.csr.any (fun o => !o.wr && r == .s o.sr)
    || (!kt.vSumAcc.isEmpty && match kt.vAlu with
      | some v => (match v.kind with
        | .sum f => r == .s f.sd.toNat
        | _ => false)
      | none => false)

/-- Queue a register write readable from local cycle `due` (R152). -/
def Kite.writeAt (kt : Kite) (r : SReg) (due : Nat) (v : Word) : Kite :=
  { kt with sq := kt.sq ++ [⟨due, false, r, v⟩] }

/-- The arithmetic cycle from which a queued write is readable, if no hold comes. -/
def Kite.dueCyc (kt : Kite) (due : Nat) (vec : Bool) : Nat := due + if vec then kt.lagV else kt.lag

/-- Whether a queued write of register `r` takes effect at the same time (HZ_WAW). -/
def Kite.sqClash (kt : Kite) (r : SReg) (due : Nat) (vec : Bool) : Bool :=
  kt.sq.any fun w => w.reg == r && kt.dueCyc w.due w.vec == kt.dueCyc due vec

/-- Queue a register write of slot C of bundle `pc`, with its hazard report: two writes of one register at one time
(HZ_WAW). -/
def Kite.resultAt (kt : Kite) (k pc : Nat) (r : SReg) (due : Nat) (v : Word) : Kite :=
  (kt.hazardAtIf (kt.sqClash r due false) k pc 3 0).writeAt r due v

/-- Queue a register write of the bundle that issues. -/
def Kite.result (kt : Kite) (k : Nat) (r : SReg) (due : Nat) (v : Word) : Kite := kt.resultAt k kt.ipc r due v

/-- Report a read of a register before its latency (HZ_SREG). -/
def Kite.readHaz (kt : Kite) (k slot : Nat) (rs : List SReg) : Kite :=
  rs.foldl (fun kt r => kt.hazardIf (kt.regPending r) k 1 slot) kt

/-- Apply the register writes that take effect at the end of local cycle `t` and vector cycle `tv`, in order of issue
and slot (R152). -/
def Kite.applyWrites (kt : Kite) (t tv : Nat) (vecRuns : Bool) (locRuns : Bool) : Kite :=
  let due (w : SWrite) : Bool :=
    if w.vec then vecRuns && w.due ≤ tv + 1 else locRuns && w.due ≤ t + 1
  let kt' := kt.sq.foldl (fun kt w => if due w then kt.setReg w.reg w.val else kt) kt
  { kt' with sq := kt.sq.filter fun w => !due w }

/-! ### Vector registers (R89) -/

/-- `x` with the `len` bits from `lo` replaced by those of `v`. -/
def setBits (x lo len v : Nat) : Nat :=
  x / 2 ^ (lo + len) * 2 ^ (lo + len) + v % 2 ^ len * 2 ^ lo + x % 2 ^ lo

/-- The 131,072 bits of vector register n: 0 at reset, undefined after a launch (R215). -/
def Kite.vreg (kt : Kite) (k n : Nat) : Nat :=
  (mapGet kt.vregs n).getD (if kt.vGen = 0 then 0 else Config.freeVec k n kt.vGen % 2 ^ 131072)

/-- Element i of a register, of width w (R89). -/
def Kite.velem (kt : Kite) (k n w i : Nat) : Nat := bits (kt.vreg k n) (i * w) w

/-- Store bits in a vector register at once. -/
def Kite.vset (kt : Kite) (k n lo len v : Nat) : Kite :=
  { kt with vregs := mapSet kt.vregs n (setBits (kt.vreg k n) lo len v) }

/-- Whether a vector register write takes effect by the end of vector cycle `tv`. -/
def VWrite.isDue (w : VWrite) (tv : Nat) : Bool := decide (w.due ≤ tv + 1)

/-- Apply the vector register writes that take effect at the end of vector cycle `tv` (R91), those of later instructions
last (R152). -/
def Kite.applyVec (kt : Kite) (k tv : Nat) : Kite :=
  let now := sortBy (fun a b => decide (a.iss ≤ b.iss)) (kt.vq.filter fun w => w.isDue tv)
  let kt' := now.foldl (fun kt w => kt.vset k w.reg w.lo w.len w.val) kt
  { kt' with vq := kt.vq.filter fun w => !w.isDue tv }

/-- Pack elements of width `w`, the first one lowest (R31, R89). -/
def packElems (w : Nat) : List Nat → Nat
  | [] => 0
  | x :: rest => x % 2 ^ w + 2 ^ w * packElems w rest

/-! ### Scratchpad rows (R128–R137, R441) -/

/-- Rows of the scratchpad (KTE.SPAD_GEOM). -/
def spadRows : Nat := 16384

/-- Bytes of the scratchpad. -/
def spadBytes : Nat := 8388608

/-- Bits of a row. -/
def rowBits : Nat := 4096

/-- A row number, wrapped from the last row to row 0 (R83, R140). -/
def wrapRow (r : Nat) : Nat := r % spadRows

/-- Bank of a row (R128). -/
def bankOf (r : Nat) : Nat := r % 16

/-- A bank's record. -/
def Kite.bank (kt : Kite) (b : Nat) : Bank := mapGetD kt.banks b {}

/-- Whether accesses to a bank are served: ON or CLOSING (Table 7.5). -/
def Kite.bankLive (kt : Kite) (b : Nat) : Bool :=
  match (kt.bank b).st with
  | .on => true
  | .closing _ => true
  | _ => false

/-- The stored contents of a row, undefined until written (R441, R149). -/
def Kite.rowRaw (kt : Kite) (k r : Nat) : Nat :=
  (mapGet kt.rows r).getD (Config.freeRow k r (kt.bank (bankOf r)).gen % 2 ^ rowBits)

/-- The contents that an access of a row finds: zeros in a bank that is off or waking (R148). -/
def Kite.rowSeen (kt : Kite) (k r : Nat) : Nat := if kt.bankLive (bankOf r) then kt.rowRaw k r else 0

/-- Queue a corrected row for repair, or count it as lost (R137). -/
def Kite.queueRepair (kt : Kite) (r : Nat) : Kite :=
  if kt.repairQ.contains r then kt
  else if kt.repairQ.length < 16 then { kt with repairQ := kt.repairQ ++ [r] }
  else { kt with eccLost := satAdd 16 kt.eccLost 1 }

/-- Log the corrected chunks of a read, one event for each (R135). -/
def Kite.logSoft (kt : Kite) (k m : Nat) : Kite :=
  (List.range 16).foldl (fun kt i =>
    if bit m i then { kt with eccCorr := satAdd 32 kt.eccCorr 1, evs := kt.evs ++ [Ev.kite .c (evMem 0 0) k] } else kt) kt

/-- Log the uncorrectable chunks of a read (R136): INFO holds the row, the chunk at bit 16 and the reading port at
bit 24. -/
def Kite.logBad (kt : Kite) (k r m port : Nat) : Kite :=
  (List.range 16).foldl (fun kt i =>
    if bit m i then
      { kt with
        eccUncorr := satAdd 8 kt.eccUncorr 1
        evs := kt.evs ++ [Ev.kite .u (evMem 0 1) k (r + i * 2 ^ 16 + port * 2 ^ 24)] } else kt) kt

/-- Read a row through a port (R135, R136, R148): its contents, corrected, and the kite with what the read logs. -/
def Kite.readRow (kt : Kite) (k r port : Nat) : Nat × Kite :=
  if kt.bankLive (bankOf r) then
    let soft := mapGetD kt.soft r 0
    let bad := mapGetD kt.bad r 0
    let kt := if soft = 0 then kt else (kt.logSoft k soft).queueRepair r
    let kt := if bad = 0 then kt else kt.logBad k r bad port
    (kt.rowRaw k r, kt)
  else
    (0, { kt with bankOff := satAdd 16 kt.bankOff 1, evs := kt.evs ++ [Ev.kite .s evBankOffRead k r] })

/-- Write a whole row (R129): fresh check bits, with the chunks of `poison` written with poison check bits; dropped and
logged at a bank that is off or waking (R148). The Boolean says whether it was written. -/
def Kite.writeRow (kt : Kite) (k r v : Nat) (poison : Nat := 0) : Bool × Kite :=
  if kt.bankLive (bankOf r) then
    (true, { kt with
      rows := mapSet kt.rows r (v % 2 ^ rowBits)
      bad := if poison = 0 then mapDel kt.bad r else mapSet kt.bad r poison
      soft := mapDel kt.soft r
      repairQ := kt.repairQ.filter fun x => x != r
      repairing := if kt.repairing = some r then none else kt.repairing
      repaired := if kt.repaired = some r then none else kt.repaired })
  else
    (false, { kt with bankOff := satAdd 16 kt.bankOff 1, evs := kt.evs ++ [Ev.kite .s evBankOffWrite k r] })

/-- A keel store of `n` bytes at scratchpad byte `a`: the chunk's check bits are recomputed, the other bytes stay
(R129, R441). -/
def Kite.storeBytes (kt : Kite) (k a n v : Nat) : Kite :=
  let r := a / 512
  if kt.bankLive (bankOf r) then
    let c := a % 512 / 32
    { kt with
      rows := mapSet kt.rows r (setBits (kt.rowRaw k r) (a % 512 * 8) (n * 8) v)
      bad := match mapGet kt.bad r with
        | none => kt.bad
        | some m => if bit m c then (if m = 2 ^ c then mapDel kt.bad r else mapSet kt.bad r (m - 2 ^ c)) else kt.bad
      soft := match mapGet kt.soft r with
        | none => kt.soft
        | some m => if bit m c then (if m = 2 ^ c then mapDel kt.soft r else mapSet kt.soft r (m - 2 ^ c)) else kt.soft
      repairQ := kt.repairQ.filter fun x => x != r
      repairing := if kt.repairing = some r then none else kt.repairing
      repaired := if kt.repaired = some r then none else kt.repaired }
  else
    { kt with bankOff := satAdd 16 kt.bankOff 1, evs := kt.evs ++ [Ev.kite .s evBankOffWrite k r] }

/-! ### Reels (R141–R144) -/

/-- A reel's record. -/
def Kite.reel (kt : Kite) (r : Nat) : Reel := mapGetD kt.reels r {}

/-- Rows a reel holds (R141). -/
def Reel.fill (r : Reel) : Nat := (r.head + 2 ^ 32 - r.tail) % 2 ^ 32

/-- Size of a reel in rows. -/
def Reel.size (r : Reel) : Nat := 2 ^ r.logsz

/-- Rows a reel has room for (R141). -/
def Reel.room (r : Reel) : Nat := r.size - r.fill

/-- Scratchpad row of reel count `n` (R141). -/
def Reel.rowOf (r : Reel) (n : Nat) : Nat := r.base + n % r.size

/-- Advance HEAD by one row written. -/
def Kite.reelPush (kt : Kite) (r : Nat) : Kite :=
  { kt with reels := mapUpd kt.reels r {} fun x => { x with head := wrapAdd 32 x.head 1 } }

/-- Advance TAIL by one row read. -/
def Kite.reelPop (kt : Kite) (r : Nat) (n : Nat := 1) : Kite :=
  { kt with reels := mapUpd kt.reels r {} fun x => { x with tail := wrapAdd 32 x.tail n } }

/-! ### Move channels -/

/-- A channel's record. -/
def Kite.chan (kt : Kite) (c : Nat) : Chan := mapGetD kt.chans c {}

/-- Every uncompleted descriptor of the kite. -/
def Kite.descs (kt : Kite) : List Desc := (kt.chans.map fun c => c.2.queue).flatten

/-- Whether a kind reads its kite's scratchpad side, and does not write it. -/
def MoveKind.reads : MoveKind → Bool
  | .mem out _ _ => out
  | .page out _ => out
  | .send _ _ _ => true
  | .remote _ _ _ _ _ _ => true
  | .note _ _ _ _ _ _ => true
  | _ => false

/-- The rows that the next `n` accesses of a reel take, after `ahead` others: from TAIL for reads, from HEAD for writes. -/
def Reel.rowsFrom (r : Reel) (reads : Bool) (ahead n : Nat) : List Nat :=
  (List.range (min n r.size)).map fun i => wrapRow (r.rowOf ((if reads then r.tail else r.head) + ahead + i))

/-- Rows of reel `r` that descriptors of the kite issued before cycle `t` have still to access in one way. -/
def Kite.reelAhead (kt : Kite) (r : Nat) (reads : Bool) (t : Nat) : Nat :=
  (kt.descs.map fun d => if d.reel == some r && d.kind.reads == reads && decide (d.issue < t) then d.nrows - d.next else 0).foldl (· + ·) 0

/-- Scratchpad rows a descriptor still names (R147, R173): the rows its kite reads or writes. -/
def Desc.rowsNamed (d : Desc) (kt : Kite) : List Nat :=
  match d.kind with
  | .kv _ => []
  | .copy drow _ => (List.range d.nrows).map (fun i => wrapRow (d.row + i)) ++
      (List.range d.nrows).map (fun i => wrapRow (drow + i))
  | _ =>
    match d.reel with
    | some r => (kt.reel r).rowsFrom d.kind.reads (kt.reelAhead r d.kind.reads d.issue) (d.nrows - d.next)
    | none => (List.range d.nrows).map fun i => wrapRow (d.row + i)

/-- Whether an uncompleted descriptor of this kite names row r (HZ_MOVE_RACE). -/
def Kite.moveNames (kt : Kite) (r : Nat) : Bool :=
  kt.hzEn && kt.descs.any fun d => (d.rowsNamed kt).contains r

/-- Scratchpad rows a descriptor writes. -/
def Desc.rowsWritten (d : Desc) (kt : Kite) : List Nat :=
  match d.kind with
  | .copy drow _ => (List.range d.nrows).map fun i => wrapRow (drow + i)
  | _ => if d.kind.reads then [] else d.rowsNamed kt

/-- Whether a move under way writes row r: an uncompleted descriptor of this kite, or a row on the inbound path (Table 6.7). -/
def Kite.moveWrites (kt : Kite) (r : Nat) : Bool :=
  kt.hzEn && (kt.descs.any (fun d => (d.rowsWritten kt).contains r) || kt.inb.any fun i => i.reel.isNone && wrapRow i.row == r)

/-- Whether an outstanding descriptor of this kite names bank b (R147). -/
def Kite.bankNamed (kt : Kite) (b : Nat) : Bool :=
  kt.descs.any fun d => (d.rowsNamed kt).any fun r => bankOf r == b

end Sys2Proof.Machine
end

