-- ==== Sys2Proof/Machine/Flags.lean ====
section
/-! DEFINITION. The relations that set a flag register: the compare conditions of Table 9.3 (R183). -/
namespace Sys2Proof.Machine

/-- Whether SA COND SB holds (Table 9.3). -/
def condHolds (cond : BitVec 3) (a b : Word) : Bool :=
  match cond.toNat with
  | 0 => a == b
  | 1 => a != b
  | 2 => a.slt b
  | 3 => a.sle b
  | 4 => a.ult b
  | 5 => a.ule b
  | 6 => (fp32 (a.toNat % 2 ^ 32)).lt (fp32 (b.toNat % 2 ^ 32))
  | _ =>
    let x := fp32 (a.toNat % 2 ^ 32)
    let y := fp32 (b.toNat % 2 ^ 32)
    x.lt y || x.eqv y

/-- The value a compare writes to its flag register, as the register queue holds it. -/
def flagWord (b : Bool) : Word := if b then 1 else 0

end Sys2Proof.Machine
end

