-- ==== Sys2Proof/Machine/Operands.lean ====
section
/-! DEFINITION. The operand forms of slot instructions: immediates, scalar memory addresses, vector element counts
(R90, R181), second operands (R94), row counts and bridle operands (R195, R200, R201). -/
namespace Sys2Proof.Machine

/-- ILLEGAL where `bad` holds (R176). -/
def illegalIf (bad : Bool) : Option Exc := if bad then some .illegal else none

/-- The first exception of two checks. -/
def orExc (a b : Option Exc) : Option Exc :=
  match a with
  | some e => some e
  | none => b

/-- Scratchpad byte address of LD and ST, before the low SIZE bits are ignored (R184). -/
def memAddr (kt : Kite) (f : CM) : Nat := (kt.s f.sbase + f.imm.signExtend 64).toNat

/-- Bytes moved by a SIZE code (R184). -/
def sizeBytes (size : BitVec 2) : Nat := 2 ^ size.toNat

/-- The count of a V slot: NEL's 0 is 4,096; with CNS = 1 the value of a scalar register (R181). -/
def countOf (kt : Kite) (cns : BitVec 1) (nel : BitVec 12) : Nat :=
  if cns = 0 then (if nel = 0 then 4096 else nel.toNat) else (kt.sreg (nel.toNat % 32)).toNat

/-- Whether the CNS and NEL fields are well formed: NEL[11:5] is 0 where CNS = 1 (R181). -/
def countForm (cns : BitVec 1) (nel : BitVec 12) : Bool := cns = 0 || nel.toNat < 32

/-- Whether a register count is in range (R90). -/
def countOk (n : Nat) : Bool := 1 ≤ n && n ≤ 4096

/-- A count field whose 0 stands for `top` (R191, R195, R198, Tables 4.9, 6.5). -/
def zeroAs (top x : Nat) : Nat := if x = 0 then top else x

/-- Rows of a D-slot instruction: 0 encodes 16,384 (R195). -/
def rowsOf (n : BitVec 14) : Nat := zeroAs 16384 n.toNat

/-- The completion bridle of a D-slot instruction: a unit-relative address (R195). -/
def bridleOf (kt : Kite) (bv : BitVec 1) (sb : BitVec 5) : Option Nat :=
  if bv = 1 then some (kt.s32 sb) else none

/-- MIN and TMO of WAIT and ARRIVE (R201). -/
def waitTimes (kt : Kite) (f : SWait) : Nat × Nat :=
  if f.mreg = 0 then (f.min.toNat, if f.tf = 0 then 0 else 2 ^ (f.tf.toNat + 4))
  else let v := (kt.s f.tf).toNat; (v % 2 ^ 24, v / 2 ^ 32)

/-- MIN and TMO of WAITR, always from a register (R202). -/
def waitrTimes (kt : Kite) (f : SWaitr) : Nat × Nat :=
  let v := (kt.s f.st).toNat
  (v % 2 ^ 24, v / 2 ^ 32)

end Sys2Proof.Machine
end

