-- ==== Sys2Proof/Machine/Matrix.lean ====
section
/-! DEFINITION. The matrix engine of one kite (file 04): the checks and effects of the M slot, feeders, group updates,
seeding, zeroing, swapping, the ramp and the test drain. Times are local cycles, which stand still in a hold (R78). -/
namespace Sys2Proof.Machine

/-! ### Arrangements and formats (Tables 4.1, 4.2, 4.4) -/

/-- Products, output rows and output columns of an arrangement; 7 is reserved (Table 4.2). -/
def arrShape : Nat → Option (Nat × Nat × Nat)
  | 0 => some (1, 128, 128)
  | 1 => some (1, 64, 256)
  | 2 => some (1, 256, 64)
  | 3 => some (1, 32, 512)
  | 4 => some (1, 512, 32)
  | 5 => some (2, 128, 64)
  | 6 => some (4, 64, 64)
  | _ => none

/-- Shape of the arrangement in force. -/
def MCfg.shape (c : MCfg) : Nat × Nat × Nat := (arrShape c.arr).getD (1, 128, 128)

/-- The 8-bit operand formats that pair with low-bit weights (Table 4.1). -/
def eightBit : Fmt → Bool
  | .e4m3 | .e5m2 | .int8 | .mxE4m3 | .mxE5m2 | .mxint8 => true
  | _ => false

/-- Wide-mode formats. -/
def wideFmt : Fmt → Bool
  | .bf16 | .fp16 => true
  | _ => false

/-- Accepted format pairs (Table 4.1). -/
def pairOk (a b : Fmt) : Bool :=
  match a, b with
  | .e4m3, .e4m3 | .e4m3, .e5m2 | .e5m2, .e4m3 | .e5m2, .e5m2 => true
  | .mxE4m3, .mxE4m3 | .mxE4m3, .mxE5m2 | .mxE5m2, .mxE4m3 | .mxE5m2, .mxE5m2 => true
  | .int8, .int8 | .mxint8, .mxint8 | .mxfp4, .mxfp4 => true
  | .mxE4m3, .mxfp4 | .mxE5m2, .mxfp4 => true
  | .bf16, .bf16 | .fp16, .fp16 => true
  | a, b => eightBit a && b.isLow

/-- MSET's set-up, or none where a field excludes it (R65–R67, Table 4.8). -/
def msetCfg (f : MSetF) : Option MCfg :=
  match arrShape f.arr.toNat, Fmt.ofCode f.fmta.toNat, Fmt.ofCode f.fmtb.toNat with
  | some (_, xa, xb), some a, some b =>
    let p := f.passes.toNat
    if f.rsv = 0 && pairOk a b && p != 0 && (wideFmt a || p == 1)
        && f.ktail.toNat ≤ 128 && f.rows != 0 && f.rows.toNat ≤ xa && f.cols != 0 && f.cols.toNat ≤ xb then
      some ⟨f.arr.toNat, a, b, p, zeroAs 128 f.ktail.toNat, f.rows.toNat, f.cols.toNat⟩
    else none
  | _, _, _ => none

/-- Cycles of a 128-K tile of a cell (Table 4.1). -/
def MCfg.cellTile (c : MCfg) : Nat :=
  if c.fb.isLow then 32 else if c.fa = .mxfp4 && c.fb = .mxfp4 then 64 else 128

/-- Element rows of one group's operand tile over X indices (R68). -/
def tileRows (f : Fmt) (x : Nat) : Nat := ceilDiv (x * 128 * f.width) 4096

/-- Scale rows of one group's operand tile (R68). -/
def tileScales (f : Fmt) (x : Nat) : Nat := if f.isMx || f.isLow then ceilDiv (x * 4) 512 else 0

/-- T_tile (R69, Table 4.4). -/
def MCfg.tTile (c : MCfg) : Nat :=
  let (_, xa, xb) := c.shape
  max c.cellTile (ceilDiv (max (tileRows c.fa xa) (tileRows c.fb xb)) 2)

/-- The cycle of its tile in which K position k enters: in the feeder-bound case four on every even cycle (R69). -/
def MCfg.entryOf (c : MCfg) (k : Nat) : Nat := k * c.cellTile / 128 * (c.tTile / c.cellTile)

/-- T_lead (R75): half the element rows of the first tile of the larger operand, every group's rows together. -/
def MCfg.tLead (c : MCfg) : Nat :=
  let (g, xa, xb) := c.shape
  ceilDiv (g * max (tileRows c.fa xa) (tileRows c.fb xb)) 2

/-- Tiles of an MFEED, and the wide-mode passes it runs, in order (R81, Table 4.9). -/
def feedTiles (f : MFeedF) : Nat := zeroAs 256 f.kt.toNat

def feedPasses (c : MCfg) (f : MFeedF) : List Nat :=
  if f.psel = 0 then (List.range c.passes).map (· + 1) else [f.psel.toNat]

/-- K-groups of the tail tile (R70). -/
def tailGroups (c : MCfg) (f : MFeedF) : Nat := if f.tail = 1 then ceilDiv c.ktail 32 else 4

/-- Entry cycles of a pass: C of R76. -/
def passCycles (c : MCfg) (f : MFeedF) : Nat :=
  let gc := c.tTile / 4
  (feedPasses c f).length * ((feedTiles f - 1) * c.tTile + tailGroups c f * gc)

/-! ### Checks of the M slot -/

/-- MFEED's checks (R81, R83, R146, Table 4.9): they depend on the set-up in force. -/
def chkMfeed (kt : Kite) (f : MFeedF) : Option Exc :=
  let wide := wideFmt kt.mcfg.fa
  illegalIf (f.rsv != 0
    || (f.psel != 0 && !wide) || kt.mcfg.passes < f.psel.toNat
    || (f.gstr != 0 && kt.mcfg.arr != 5 && kt.mcfg.arr != 6)
    || (f.srca == 1 && (32 ≤ f.abase.toNat || !(kt.reel f.abase.toNat).en))
    || (f.srcb == 1 && (32 ≤ f.bbase.toNat || !(kt.reel f.bbase.toNat).en)))

/-! ### Accumulator sets (R72–R74, R440) -/

/-- A set's record: B is `true`. -/
def Kite.accSet (kt : Kite) (b : Bool) : AccSet := if b then kt.accB else kt.accA

/-- ACC40 bits of container n of a set. -/
def Kite.acc (kt : Kite) (k : Nat) (b : Bool) (n : Nat) : Nat :=
  let s := kt.accSet b
  (mapGet s.cells n).getD (if s.zeroed then 0 else (Config.freeAcc k (b2n b) n).toNat)

/-- Replace a set's record. -/
def Kite.setAcc (kt : Kite) (b : Bool) (s : AccSet) : Kite := if b then { kt with accB := s } else { kt with accA := s }

/-- Whether a set is released (R73). -/
def Kite.released (kt : Kite) (b : Bool) : Bool := if b then kt.relB else kt.relA

/-- Mark a set released or not. -/
def Kite.setReleased (kt : Kite) (b v : Bool) : Kite := if b then { kt with relB := v } else { kt with relA := v }

/-- Container index of coordinate (g, i, j) (R440). -/
def container (c : MCfg) (g i j : Nat) : Nat :=
  let (_, xa, xb) := c.shape
  g * (xa * xb) + i * xb + j

/-- The MSWAP that takes effect: roles exchanged, and the set made shadow unreleased (R72, R73). -/
def swapSets (kt : Kite) : Kite :=
  { (kt.setReleased kt.setB false) with setB := !kt.setB, swapPend := false }

/-! ### Passes (R75–R80) -/

/-- First entry cycle of a pass's last tile. -/
def Pass.lastTile (p : Pass) : Nat := p.e0 + p.cyc - tailGroups p.cfg p.feed * (p.cfg.tTile / 4)

/-- Last entry cycle of a pass. -/
def Pass.lastEntry (p : Pass) : Nat := p.e0 + p.cyc - 1

/-- Cycle of a pass's last update (R76). -/
def Pass.lastUpdate (p : Pass) : Nat := p.e0 + p.cyc + 5

/-- Whether an MFEED is already queued in local cycle `t` (R77). -/
def Kite.mQueued (kt : Kite) (t : Nat) : Bool := kt.passes.any fun p => p.queued && decide (t < p.e0)

/-- The pass that an MFEED issued in local cycle t starts (R75, R80). -/
def newPass (kt : Kite) (t : Nat) (f : MFeedF) : Pass :=
  let c := kt.mcfg
  let entering := match kt.lastEntry with
    | some l => decide (t ≤ l)
    | none => false
  let prev := kt.passes.getLast?
  let r0 := match entering, prev with
    | true, some p => max (t + 1) p.lastTile
    | _, _ => t + 1
  let e := max (r0 + 1 + c.tLead) (match kt.lastEntry with
    | some l => l + 1
    | none => 0)
  let infl : Option Nat := match kt.lastEntry with
    | none => some t
    | some l => if e ≤ l + 256 then none else some (max t (l + 286))
  let e0 := match infl with
    | some s => max e (s + 32)
    | none => e
  { cfg := c, feed := f, pc := kt.ipc, issue := t, r0 := r0, e0 := e0, cyc := passCycles c f, queued := entering, infl := infl }

/-- MFEED: the pass is placed by R75, or discarded where one is already queued (R77). -/
def effMfeed (k t : Nat) (f : MFeedF) (kt : Kite) : Kite :=
  if kt.mQueued t then
    { (kt.event k .s evMqOverflow) with mOverflow := satAdd 16 kt.mOverflow 1 }
  else
    let p := newPass kt t f
    { kt with passes := kt.passes ++ [p], lastEntry := some p.lastEntry }

/-- Whether some pass has updates of the active set still to make (Table 4.10). -/
def Kite.updatesDue (kt : Kite) (t : Nat) : Bool := kt.passes.any fun p => decide (t ≤ p.lastUpdate)

/-- Cycle of group update u: 6 after the last entry cycle of the group (R76). -/
def Pass.updateCycle (p : Pass) (u : Nat) : Nat := p.e0 + (u + 1) * (p.cfg.tTile / 4) - 1 + 6

/-- Whether a drain reads the shadow set in the present cycle: a VACC that runs, or a chain with a DRAIN left. -/
def Kite.drains (kt : Kite) (tv : Nat) : Bool :=
  (match kt.vAlu with
   | some r => match r.kind with
     | .acc _ => decide (tv < r.t0 + r.occ)
     | _ => false
   | none => false) ||
  (match kt.chain with
   | some c => c.runs.any fun r => r.stage == 1 && bits (c.stages.getD 0 0) 122 6 == 1
   | none => false)

/-- MSWAP: takes effect at the end of this cycle, or of the one in which the release arrives (R73). It is early for a pass
that has made an update and has others to make (Table 4.10). -/
def effMswap (k t : Nat) (kt : Kite) : Kite :=
  { (kt.hazardIf (kt.passes.any fun p => decide (p.updateCycle 0 ≤ t && t < p.lastUpdate)) k 4 1) with swapPend := true }

/-- MZERO: the named set is zeroed at the end of this cycle (R74). -/
def effMzero (k t tv : Nat) (f : MZeroF) (kt : Kite) : Kite :=
  let shadow := f.set = 1
  let kt' := kt.hazardIf (!shadow && kt.updatesDue (t + 1)) k 5 1
  let kt' := kt'.hazardIf (shadow && kt'.drains tv) k 6 1
  { kt' with zeroPend := some (kt'.setB != shadow) }

/-- MSEED: seeds the set that is shadow at the end of this cycle, or is refused (R74). -/
def effMseed (k t tv : Nat) (f : MSeedF) (kt : Kite) : Kite :=
  if kt.seed.isSome || !kt.released (!kt.setB) then kt.event k .s evSeedRefused
  else
    let kt' := kt.hazardIf (kt.drains tv) k 6 1
    { kt' with seed := some ⟨t, !kt'.setB, f.row.toNat, [], kt'.ipc⟩ }

/-- Whether the bundle that issues in local cycle `t` zeroes or seeds the shadow set (Table 4.10). -/
def Kite.shadowNow (kt : Kite) (t : Nat) : Bool :=
  kt.zeroPend == some (!kt.setB) || match kt.seed with
  | some s => s.issue == t && s.set == !kt.setB
  | none => false

/-! ### Feeders (R68–R71, R79) -/

/-- Format, output extent, first row or reel, and orientation of a pass's A (`false`) or B operand. -/
def Pass.operand (p : Pass) (b : Bool) : Fmt × Nat × Nat × Bool × Bool :=
  let (_, xa, xb) := p.cfg.shape
  if b then (p.cfg.fb, xb, p.feed.bbase.toNat, p.feed.orb == 1, p.feed.srcb == 1)
  else (p.cfg.fa, xa, p.feed.abase.toNat, p.feed.ora == 1, p.feed.srca == 1)

/-- Groups of a pass. -/
def Pass.groups (p : Pass) : Nat := p.cfg.shape.1

/-- Tiles a pass enters, every wide-mode pass counted. -/
def Pass.tiles (p : Pass) : Nat := (feedPasses p.cfg p.feed).length * feedTiles p.feed

/-- First cycle in which the rows of tile n may be read: r0 for the first, the entry of the tile before for the others
(R69). Only the last tile of each wide-mode pass is short. -/
def Pass.tileEntry (p : Pass) (n : Nat) : Nat :=
  let kt := feedTiles p.feed
  let len := (kt - 1) * p.cfg.tTile + tailGroups p.cfg p.feed * (p.cfg.tTile / 4)
  p.e0 + n / kt * len + n % kt * p.cfg.tTile

def Pass.window (p : Pass) (n : Nat) : Nat := if n = 0 then p.r0 else p.tileEntry (n - 1)

/-- First K position held by element row i of one group's tile: 0 for an index-major tile (R68). -/
def firstK (kMajor : Bool) (f : Fmt) (x i : Nat) : Nat := if kMajor then i * 4096 / (x * f.width) else 0

/-- The cycle in which element row i (over all groups) of tile n is due for entry. -/
def Pass.rowDue (p : Pass) (b : Bool) (n i : Nat) : Nat :=
  let (f, x, _, km, _) := p.operand b
  p.tileEntry n + p.cfg.entryOf (firstK km f x (i % tileRows f x))

/-- Scratchpad row of item `i` of tile n: element rows of all groups first, then scale rows (`scale`), from row
addresses (R68, R83). -/
def Pass.itemRow (p : Pass) (b : Bool) (n i : Nat) (scale : Bool) : Nat :=
  let (f, x, base, _, _) := p.operand b
  let e := tileRows f x
  let s := tileScales f x
  let per := if scale then s else e
  let g := i / per
  wrapRow (base + g * p.feed.gstr.toNat + n % feedTiles p.feed * (e + s) + (if scale then e else 0) + i % per)

/-- Element rows and scale rows of one tile, all groups together. -/
def Pass.perTile (p : Pass) (b : Bool) : Nat × Nat :=
  let (f, x, _, _, _) := p.operand b
  (p.groups * tileRows f x, p.groups * tileScales f x)

/-- The feeder's record. -/
def Pass.feeder (p : Pass) (b : Bool) : Feeder := if b then p.fb else p.fa

/-- Whether the rows of tile n may be read in local cycle `t` (R69). -/
def Pass.open_ (p : Pass) (n t : Nat) : Bool := n < p.tiles && decide (p.window n ≤ t)

/-- The items a feeder takes from a reel in one cycle, from its counts of element rows and scale rows on: strictly in the
order in which the reel supplies them (group by group, element rows before scale rows, every wide-mode pass anew), at
most `ne` element rows and `ns` scale rows. On a fuel of three. -/
def Pass.reelItems (p : Pass) (b : Bool) (t : Nat) : Nat → Nat → Nat → Nat → Nat → List (Bool × Nat × Nat)
  | 0, _, _, _, _ => []
  | fuel + 1, el, sc, ne, ns =>
    let (f, x, _, _, _) := p.operand b
    let (e, s) := p.perTile b
    let isElem := s = 0 || el < (sc / tileScales f x + 1) * tileRows f x
    if isElem then
      if ne = 0 || !p.open_ (el / e) t then []
      else (false, el / e, el % e) :: p.reelItems b t fuel (el + 1) sc (ne - 1) ns
    else if ns = 0 || !p.open_ (sc / s) t then []
    else (true, sc / s, sc % s) :: p.reelItems b t fuel el (sc + 1) ne (ns - 1)

/-- The items the feeder reads in local cycle `t`, as (scale, tile, item): at most two element rows and one scale row,
in sequence (R69). -/
def Pass.wants (p : Pass) (b : Bool) (t : Nat) : List (Bool × Nat × Nat) :=
  let fd := p.feeder b
  let (e, s) := p.perTile b
  if (p.operand b).2.2.2.2 then p.reelItems b t 3 fd.elem fd.scale 2 1
  else
    let one (scale : Bool) (per idx : Nat) : List (Bool × Nat × Nat) :=
      if per = 0 || !p.open_ (idx / per) t then [] else [(scale, idx / per, idx % per)]
    let first := one false e fd.elem
    -- the second element row of a cycle belongs to the same tile window
    let second := if first.isEmpty then [] else one false e (fd.elem + 1)
    first ++ second ++ one true s fd.scale

/-- The cycle in which an item is due for entry. -/
def Pass.itemDue (p : Pass) (b : Bool) (w : Bool × Nat × Nat) : Nat :=
  if w.1 then p.tileEntry w.2.1 else p.rowDue b w.2.1 w.2.2

/-- Whether a feeder lacks a row that is due for entry in local cycle `t` (R133, R79). -/
def Pass.late (p : Pass) (b : Bool) (t : Nat) : Bool :=
  let fd := p.feeder b
  let (e, s) := p.perTile b
  (e != 0 && decide (fd.elem < e * p.tiles) && decide (p.rowDue b (fd.elem / e) (fd.elem % e) ≤ t)) ||
  (s != 0 && decide (fd.scale < s * p.tiles) && decide (p.tileEntry (fd.scale / s) ≤ t))

/-- What a feeder reads in local cycle `t`: the first pass that has rows to read, by its place, and its items. -/
def Kite.feedItems (kt : Kite) (b : Bool) (t : Nat) : Option (Nat × List (Bool × Nat × Nat)) :=
  (kt.passes.zipIdx.map fun (p, i) => (i, p.wants b t)).find? fun x => !x.2.isEmpty

/-- The reel that a feeder reads in local cycle `t`, with the rows it needs there. -/
def Kite.feedReel (kt : Kite) (t : Nat) (b : Bool) : Option (Nat × Nat) :=
  (kt.feedItems b t).bind fun (i, ws) => (kt.passes[i]?).bind fun p =>
    let (_, _, base, _, isReel) := p.operand b
    if isReel then some (base, ws.length) else none

/-- Whether the feeders starve in local cycle `t` (R79): a reel holds fewer rows than they must read from it. -/
def Kite.feedStarved (kt : Kite) (t : Nat) : Bool :=
  let l := [false, true].filterMap (kt.feedReel t)
  l.any fun (r, _) => decide ((kt.reel r).fill < ((l.filter fun x => x.1 == r).map (·.2)).foldl (· + ·) 0)

/-- Rows of reel `r` that can still be read in the present cycle, `snap` being the kite at its start (R142). -/
def Kite.reelAvail (kt snap : Kite) (r : Nat) : Nat :=
  let n := ((snap.reel r).head + 2 ^ 32 - (kt.reel r).tail) % 2 ^ 32
  if n ≤ (kt.reel r).size then n else 0

/-- Rows of reel `r` that can still be written in the present cycle (R142). -/
def Kite.reelSpace (kt snap : Kite) (r : Nat) : Nat :=
  (kt.reel r).size - ((kt.reel r).head + 2 ^ 32 - (snap.reel r).tail) % 2 ^ 32

/-- Scratchpad row of a wanted item: a reel supplies its rows at TAIL (R142, R143). -/
def Pass.wantRow (kt : Kite) (p : Pass) (b : Bool) (w : Bool × Nat × Nat) : Nat :=
  let (_, _, base, _, isReel) := p.operand b
  if isReel then wrapRow ((kt.reel base).rowOf (kt.reel base).tail) else p.itemRow b w.2.1 w.2.2 w.1

/-- Take a row into the feeder's staging. -/
def Feeder.take (fd : Feeder) (scale : Bool) (n v : Nat) : Feeder :=
  if scale then { fd with scale := fd.scale + 1, scales := mapUpd fd.scales n [] (· ++ [v]) }
  else { fd with elem := fd.elem + 1, elems := mapUpd fd.elems n [] (· ++ [v]) }

/-- One feeder read that is served: row contents, ECC, staging, and the reel's TAIL. -/
def feedRead (k : Nat) (b : Bool) (pi : Nat) (w : Bool × Nat × Nat) (kt : Kite) : Kite :=
  match kt.passes[pi]? with
  | none => kt
  | some p =>
    let (_, _, base, _, isReel) := p.operand b
    let (v, kt') := kt.readRow k (p.wantRow kt b w) (if b then 1 else 0)
    let upd (fd : Feeder) : Feeder := fd.take w.1 w.2.1 v
    let p' := if b then { p with fb := upd p.fb } else { p with fa := upd p.fa }
    let kt'' := { kt' with passes := kt'.passes.set pi p' }
    if isReel then kt''.reelPop base else kt''

/-! ### Group updates (R48, R64, R70, R76) -/

/-- The K-groups of a pass, in order: wide-mode pass, tile index over all passes, group within the tile. -/
def Pass.groupOf (p : Pass) (u : Nat) : Nat × Nat × Nat :=
  let per := (feedTiles p.feed - 1) * 4 + tailGroups p.cfg p.feed
  let ip := u / per
  let r := u % per
  ((feedPasses p.cfg p.feed).getD ip 1, ip * feedTiles p.feed + r / 4, r % 4)

/-- Number of group updates of a pass. -/
def Pass.groupCount (p : Pass) : Nat :=
  (feedPasses p.cfg p.feed).length * ((feedTiles p.feed - 1) * 4 + tailGroups p.cfg p.feed)

/-- A staged element's bits, and its scale bits, for group g, index x, K position k of the tile (R68). -/
def stagedElem (f : Fmt) (x : Nat) (km : Bool) (rows : List Nat) (g i k : Nat) : Nat :=
  let e := tileRows f x
  let off := if km then (k * x + i) * f.width else (i * 128 + k) * f.width
  bits (rows.getD (g * e + off / 4096) 0) (off % 4096) f.width

/-- Byte of the staged scale rows of group g. -/
def stagedByte (s : Nat) (rows : List Nat) (g off : Nat) : Nat := bits (rows.getD (g * s + off / 512) 0) (off % 512 * 8) 8

/-- The value of a staged operand element with its scales (R47). -/
def stagedVal (f : Fmt) (x : Nat) (km : Bool) (fd : Feeder) (n g i k : Nat) : Val :=
  let raw := stagedElem f x km (mapGetD fd.elems n []) g i k
  let s := tileScales f x
  let sc := mapGetD fd.scales n []
  if f.isMx then mxVal f raw (stagedByte s sc g (i * 4 + k / 32))
  else if f.isLow then
    let h := k / 64
    groupVal f raw (stagedByte s sc g (i * 4 + 2 * h) + 256 * stagedByte s sc g (i * 4 + 2 * h + 1))
  else f.decode raw

/-- Present K positions of a tile (R70). -/
def Pass.presentK (p : Pass) (n : Nat) : Nat :=
  if p.feed.tail = 1 && n % feedTiles p.feed == feedTiles p.feed - 1 then p.cfg.ktail else 128

/-- The exact sum of group update u for output (g, i, j) (R48, R50). -/
def Pass.sumOf (p : Pass) (u g i j : Nat) : Option Val :=
  let (wp, n, kg) := p.groupOf u
  let (_, xa, xb) := p.cfg.shape
  let wide := wideFmt p.cfg.fa
  groupSum ((List.range 32).map fun d =>
    let k := kg * 32 + d
    if k < p.presentK n then
      let a := stagedVal p.cfg.fa xa (p.feed.ora == 1) p.fa n g i k
      let b := stagedVal p.cfg.fb xb (p.feed.orb == 1) p.fb n g j k
      if wide then passProduct wp (splitPieces p.cfg.fa a) (splitPieces p.cfg.fb b) else some (a.mul b)
    else none)

/-- The enabled coordinates of a pass (R67). -/
def Pass.cells (p : Pass) : List (Nat × Nat × Nat) :=
  (List.range p.groups).flatMap fun g => (List.range p.cfg.rows).flatMap fun i =>
    (List.range p.cfg.cols).map fun j => (g, i, j)

/-- Make group update u of a pass on the active set (R48, R72, R74). -/
def groupUpdate (k : Nat) (p : Pass) (u : Nat) (kt : Kite) : Kite :=
  p.cells.foldl (fun kt (g, i, j) =>
    let n := container p.cfg g i j
    let old := if u = 0 && p.feed.zero == 1 then 0 else kt.acc k kt.setB n
    let s := kt.accSet kt.setB
    kt.setAcc kt.setB { s with cells := mapSet s.cells n (accUpdate old (p.sumOf u g i j)) }) kt

/-- The group updates, other than a pass's last, that fall in local cycle `t`; staged tiles that are done are dropped. -/
def matrixUpdates (k t : Nat) (kt : Kite) : Kite :=
  (List.range kt.passes.length).foldl (fun kt pi =>
    match kt.passes[pi]? with
    | none => kt
    | some p =>
      let u := p.updates
      if u + 1 < p.groupCount && p.updateCycle u = t then
        let kt := groupUpdate k p u kt
        let n := (p.groupOf (u + 1)).2.1
        let drop (fd : Feeder) : Feeder :=
          { fd with elems := fd.elems.filter fun x => decide (n ≤ x.1), scales := fd.scales.filter fun x => decide (n ≤ x.1) }
        { kt with passes := kt.passes.set pi { p with updates := u + 1, fa := drop p.fa, fb := drop p.fb } }
      else kt) kt

/-- Whether a pass makes its last update in local cycle `t`. -/
def Kite.lastUpdateDue (kt : Kite) (t : Nat) : Bool := kt.passes.any fun p => p.lastUpdate == t

/-- PASS_LAST_UPDATE: the last group update of each pass due in local cycle `t`; the pass is counted and ends (R76). -/
def passesEnd (k t : Nat) (kt : Kite) : Kite :=
  let due := kt.passes.filter fun p => p.lastUpdate == t
  let kt' := due.foldl (fun kt p => { (groupUpdate k p (p.groupCount - 1) kt) with mPasses := wrapAdd 48 kt.mPasses 1 }) kt
  { kt' with passes := kt'.passes.filter fun p => p.lastUpdate != t }

/-! ### Ramp (R80) -/

/-- The local cycles at whose ends DEFLATION switches a pair off, after last entry `l`: L + 257 + 4(7 − p). -/
def deflationDue (l t : Nat) : Bool := decide (l + 257 ≤ t && t ≤ l + 285) && (t - l - 257) % 4 == 0

/-- Pairs that stay on after the end of local cycle `t` of a deflation that follows last entry `l`. -/
def deflatedPairs (l t : Nat) : Nat := 7 - (t - l - 257) / 4

/-- KTE.MSTAT.RAMP: 0 deflated, 1 inflating, 2 full activity, 3 deflating. -/
def Kite.ramp (kt : Kite) (t : Nat) : Nat :=
  if kt.passes.any (fun p => match p.infl with
    | some s => decide (s ≤ t && t < s + 32)
    | none => false) then 1
  else if kt.pairs = 0 then 0
  else if kt.passes.any (fun p => match p.infl with
    | some s => decide (s + 32 ≤ t)
    | none => false) then 2
  else match kt.prevEntry with
    | some l => if l + 257 ≤ t then 3 else 2
    | none => 2

/-- Whether DEFLATION switches a pair off at the end of local cycle `t`. -/
def Kite.deflates (kt : Kite) (t : Nat) : Bool :=
  match kt.prevEntry with
  | some l => kt.pairs != 0 && deflationDue l t
  | none => false

/-- DEFLATION: the pairs that stay on (R80). -/
def deflate (t : Nat) (kt : Kite) : Kite :=
  match kt.prevEntry with
  | some l => if deflationDue l t then { kt with pairs := min kt.pairs (deflatedPairs l t) } else kt
  | none => kt

/-- The switch-ons of local cycle `t`, and the counts of inflations begun and of entry cycles (R80, §4.11). -/
def rampCycle (t : Nat) (kt : Kite) : Kite :=
  let kt := kt.passes.foldl (fun kt p => match p.infl with
    | some s =>
      let kt := if s = t then { kt with mInflate := wrapAdd 16 kt.mInflate 1 } else kt
      if s ≤ t && t < s + 32 then { kt with pairs := (t - s) / 4 + 1 } else kt
    | none => kt) kt
  if kt.passes.any fun p => decide (p.e0 ≤ t && t ≤ p.lastEntry) then
    { kt with mEntry := wrapAdd 48 kt.mEntry 1, prevEntry := some t } else kt

/-- Whether a feeder of a pass in flight has yet to read row r (HZ_FEED_WRITE); evaluated while the checker is on. A feeder
that reads a reel has the reel's present rows to read. -/
def Kite.feedToRead (kt : Kite) (r : Nat) : Bool :=
  kt.hzEn && kt.passes.any fun p => [false, true].any fun b =>
    let fd := p.feeder b
    let (e, s) := p.perTile b
    let (_, _, base, _, isReel) := p.operand b
    if isReel then
      ((kt.reel base).rowsFrom true 0 (min (kt.reel base).fill ((e + s) * p.tiles - fd.elem - fd.scale))).contains r
    else
      (List.range (e * p.tiles)).any (fun i => fd.elem ≤ i && p.itemRow b (i / e) (i % e) false == r) ||
       (List.range (s * p.tiles)).any (fun i => fd.scale ≤ i && p.itemRow b (i / s) (i % s) true == r)

/-! ### Seeding and draining (R74, R86) -/

/-- The 64 ACC40 containers of a row (R35, R74). -/
def rowAccs (v : Nat) : List Nat := (List.range 64).map fun i => bits v (i * 64) 40

/-- The row that an MSEED reads in local cycle `t`: one row per cycle, from the cycle after issue. -/
def Kite.seedRow (kt : Kite) (t : Nat) : Option Nat :=
  match kt.seed with
  | some s => if s.issue < t && s.cells.length < 16384 then some (wrapRow (s.row + s.cells.length / 64)) else none
  | none => none

/-- Whether an MSEED lacks, at the start of local cycle `t`, a row that an earlier cycle should have read. -/
def Kite.seedLate (kt : Kite) (t : Nat) : Bool :=
  match kt.seed with
  | some s => decide (s.cells.length < 64 * min 256 (t - s.issue - 1))
  | none => false

/-- MSEED reads a row, through the row feeder (R74). -/
def seedRead (k row : Nat) (kt : Kite) : Kite :=
  match kt.seed with
  | none => kt
  | some s =>
    let (v, kt') := kt.readRow k row 0
    { kt' with seed := some { s with cells := s.cells ++ rowAccs v } }

/-- Whether an MSEED has read its last row, which ends it (R74). -/
def Kite.seedDue (kt : Kite) : Bool :=
  match kt.seed with
  | some s => decide (16384 ≤ s.cells.length)
  | none => false

/-- MSEED_COMPLETE in vector cycle `tv`: the seed replaces the whole contents of its set (R74); a drain that reads the set in
that cycle is a hazard (Table 4.10). -/
def seedEnd (k tv : Nat) (kt : Kite) : Kite :=
  match kt.seed with
  | some s =>
    if 16384 ≤ s.cells.length then
      let kt := kt.hazardAtIf (kt.drains tv && s.set == !kt.setB) k s.pc 6 1
      { (kt.setAcc s.set ⟨false, s.cells.zipIdx.map fun (v, n) => (n, v)⟩) with seed := none }
    else kt
  | none => kt

/-- The end-of-cycle changes of the engine, in their order: the set-up of an MSET, zeroing, then the swap where its shadow set is released. -/
def setsEnd (k t : Nat) (zeroRuns : Bool) (kt : Kite) : Kite :=
  let kt := { kt with mcfg := kt.mcfgNext.getD kt.mcfg, mcfgNext := none }
  let kt := match kt.zeroPend, zeroRuns with
    | some b, true => { (kt.setAcc b ⟨true, []⟩) with zeroPend := none }
    | _, _ => kt
  if kt.swapPend && kt.released (!kt.setB) then
    swapSets (kt.hazardIf (match kt.seed with
      | some s => decide (t < s.issue + 256)
      | none => false) k 6 1)
  else kt

/-- A row of 64 containers of a set, as the test drain writes it (R86, R74). -/
def drainRow (k : Nat) (kt : Kite) (b : Bool) (r : Nat) : Nat :=
  packElems 64 ((List.range 64).map fun i => kt.acc k b (r * 64 + i))

/-- A test drain writes its next row (R86). -/
def drainWrite (k : Nat) (kt : Kite) : Kite :=
  match kt.drain with
  | none => kt
  | some d =>
    { (kt.writeRow k (wrapRow (d.row + d.next)) (drainRow k kt d.set d.next)).2 with drain := some { d with next := d.next + 1 } }

/-- Rows that a test drain writes in arithmetic cycle `cyc`: four in each of the 64 cycles after its start (R86). -/
def Kite.drainRows (kt : Kite) (cyc : Nat) : List Nat :=
  match kt.drain with
  | none => []
  | some d => if d.start < cyc then (List.range (min 4 (256 - d.next))).map fun i => wrapRow (d.row + d.next + i) else []

/-- Whether a test drain has written its 256 rows. -/
def Kite.drainDue (kt : Kite) : Bool :=
  match kt.drain with
  | some d => decide (256 ≤ d.next)
  | none => false

/-- TEST_DRAIN_DONE: the rows of the named set stand in the scratchpad (R86). -/
def drainEnd (kt : Kite) : Kite := if kt.drainDue then { kt with drain := none } else kt

end Sys2Proof.Machine
end

