-- ==== Sys2Proof/Machine/Vector.lean ====
section
/-! DEFINITION. The vector engine of one kite (file 05): checks at issue, units and their timing, and what each chunk of
each instruction reads and writes. Times are on the vector clock. -/
namespace Sys2Proof.Machine

/-! ### Formats, rates and latencies (Tables 5.1, 5.5, 9.6) -/

/-- Whether a function is a comparison. -/
def AluFn.isCmp : AluFn → Bool
  | .ceq | .cne | .clt | .cle | .cgt | .cge => true
  | _ => false

/-- Formats an element-wise operation accepts (Table 9.6). -/
def aluFmtOk (fn : AluFn) (f : Fmt) : Bool :=
  match fn with
  | .and | .or | .xor | .shl | .shr | .sra => f == .int32
  | .fma | .min | .max | .neg | .abs => f == .fp32 || f == .bf16 || f == .fp16
  | _ => f == .fp32 || f == .bf16 || f == .fp16 || f == .int32

/-- Whether a format has 16-bit elements that run at 512 per cycle. -/
def half (f : Fmt) : Bool := f == .bf16 || f == .fp16

/-- Elements per cycle of an element-wise operation (Table 5.1). -/
def aluRate (fn : AluFn) (f : Fmt) : Nat :=
  if half f && !fn.isCmp && fn != .sel then 512 else 256

/-- Latency of an element-wise operation (Table 5.1). -/
def aluLat (f : Fmt) : Nat := if f = .int32 then 2 else 4

/-- Elements per cycle and latency of a conversion (Table 5.1). -/
def cvtRate (s d : Fmt) : Nat := if d.isMx then 256 else if s.width ≤ 16 && d.width ≤ 16 then 512 else 256

def cvtLat (d : Fmt) : Nat := if d.isMx then 6 else 4

/-- Elements per cycle and latency of a shuffle (Table 5.1); distance counts for XOR. -/
def shufRate (pat : Nat) : Nat := if pat = 6 then 64 else 256

def shufLat (pat parm : Nat) : Nat :=
  if pat = 6 then 6 else if pat = 2 then 3 else if pat = 0 && 5 ≤ parm then 3 else 2

/-- Element width of VLD and VST's W codes (R193). -/
def vmWidth (w : Nat) : Nat := if w ≤ 5 then 32 / 2 ^ w else 32

/-- The unit an instruction runs on (Table 5.1). -/
def VKind.unit : VKind → VUnit
  | .sfn _ _ => .sfu
  | .ld _ => .mem
  | .st _ => .mem
  | _ => .alu

/-- Format of an operation's FMT field. -/
def fmtOf (x : BitVec 4) : Fmt := (Fmt.ofCode x.toNat).getD .fp32

/-- Result latency λ of a vector instruction (Tables 5.1, 5.5). -/
def VKind.lat : VKind → Nat
  | .alu _ f => aluLat (fmtOf f.fmt)
  | .cvt f => cvtLat (fmtOf f.dfmt)
  | .sfn fn _ => fn.latency
  | .shuf f => shufLat f.pat.toNat f.parm.toNat
  | .tree _ => 5
  | .acc _ => 5
  | .sum _ => 6
  | .ld _ => 3
  | .st _ => 1

/-- Outputs of a block-form VTREE: (NB ÷ 2) × B. -/
def treeOuts (f : VT) : Nat := 2 ^ (f.lg2.toNat - 1) * 2 ^ f.lg1.toNat

/-- Occupancy of an instruction of n elements (R91, Table 5.1). -/
def VKind.occ (n : Nat) : VKind → Nat
  | .alu fn f => ceilDiv n (aluRate fn (fmtOf f.fmt))
  | .cvt f => ceilDiv n (cvtRate (fmtOf f.sfmt) (fmtOf f.dfmt))
  | .sfn _ _ => ceilDiv n 64
  | .shuf f => ceilDiv n (shufRate f.pat.toNat)
  | .tree f => if f.form = 1 then ceilDiv (treeOuts f) 256 else ceilDiv n 256
  | .acc _ => ceilDiv n 256
  | .sum _ => ceilDiv n 256
  | .ld f => if f.pair = 1 then n / 64 else n * vmWidth f.w.toNat / 4096
  | .st f => if f.pair = 1 then n / 64 else n * vmWidth f.w.toNat / 4096

/-! ### Checks at issue (R89–R101, R188–R194) -/

/-- Illegal encodings of the element-wise operations, but for the count (R188, R94). `n` is the immediate count, where
there is one. -/
def chkVa (fn : AluFn) (f : VA) : Option Exc :=
  let usesC := fn == .fma || fn == .sel
  let unary := fn == .neg || fn == .abs
  let b := 2 ^ f.logb.toNat
  let n := if f.nel = 0 then 4096 else f.nel.toNat
  illegalIf (f.rsv != 0 || !countForm f.cns f.nel
    || (match Fmt.ofCode f.fmt.toNat with
        | some x => !aluFmtOk fn x
        | none => true)
    || (f.vc != 0 && !usesC)
    || (unary && (f.vb != 0 || f.bmode != 0 || f.logb != 0))
    || (if 2 ≤ f.bmode.toNat then f.logb == 0 || 11 < f.logb.toNat || (f.cns == 0 && n % b != 0) else f.logb != 0))

/-- CVT's illegal encodings (R189, R89, R95). -/
def chkCvt (f : VK) : Option Exc :=
  illegalIf (f.rsv != 0 || !countForm f.cns f.nel
    || (match Fmt.ofCode f.sfmt.toNat, Fmt.ofCode f.dfmt.toNat with
        | some s, some d =>
          s == .acc40 || d == .acc40 || (s.isMx && f.vs == 31) || (d.isMx && f.vd == 31)
            || (d.isMx && f.cns == 0 && f.nel.toNat % 32 != 0)
        | _, _ => true))

/-- The SFU's illegal encodings. -/
def chkVf (f : VF) : Option Exc := illegalIf (f.rsv != 0 || !countForm f.cns f.nel)

/-- Formats VSHUF accepts (R190). -/
def shufFmt (x : Nat) : Bool := x == 0 || x == 1 || x == 2 || x == 3 || x == 4 || x == 8 || x == 14

/-- VSHUF's illegal encodings (R190, R98). -/
def chkVshuf (f : VH) : Option Exc :=
  let p := f.pat.toNat
  let n := if f.nel = 0 then 4096 else f.nel.toNat
  illegalIf (f.rsv != 0 || !countForm f.cns f.nel || p == 7 || !shufFmt f.fmt.toNat
    || (p != 6 && f.vb != 0)
    || ((p == 0 || p == 3 || p == 4 || p == 5) && 11 < f.parm.toNat)
    || (p == 6 && f.parm != 0)
    || (p == 5 && f.cns == 0 && n % 2 ^ f.parm.toNat != 0))

/-- VTREE's illegal encodings (R194). -/
def chkVtree (f : VT) : Option Exc :=
  let lg1 := f.lg1.toNat
  let lg2 := f.lg2.toNat
  let lm := f.lm.toNat
  let cns : BitVec 1 := f.low.extractLsb' 12 1
  let nel : BitVec 12 := f.low.extractLsb' 0 12
  let n := if nel = 0 then 4096 else nel.toNat
  illegalIf (f.rsv != 0 || f.top == 3 || lg2 == 0 || 12 < lg2 || lm == 0 || 2 ^ lg2 < lm
    || (if f.form = 0 then lg2 ≤ lg1 || !countForm cns nel || (cns == 0 && n % 2 ^ lg2 != 0)
        else 11 < lg1 || 4096 < 2 ^ lg1 * 2 ^ lg2 || cns != 0 || 4096 < nel.toNat + treeOuts f))

/-- NI and NJ of VACC: 0 encodes 512 (R191). -/
def vaccDims (f : VQ) : Nat × Nat := (zeroAs 512 f.ni.toNat, zeroAs 512 f.nj.toNat)

/-- VACC's illegal encodings, by the arrangement in force (R191, R96, R97). -/
def chkVacc (kt : Kite) (f : VQ) : Option Exc :=
  let (g, xa, xb) := kt.mcfg.shape
  let (ni, nj) := vaccDims f
  illegalIf (f.rsv != 0 || 3 < f.g.toNat || g ≤ f.g.toNat || 4096 < ni * nj || xa < f.i0.toNat + ni
    || xb < f.j0.toNat + nj || (f.scl == 0 && f.sc != 0) || (f.fmt == 3 && (f.scl == 1 || f.vd == 31)))

/-- VSUM's illegal encodings (R192). -/
def chkVsum (f : VU) : Option Exc := illegalIf (f.rsv != 0 || f.kind == 7 || !countForm f.cns f.nel)

/-- Whether a count moves whole rows (R193). -/
def vmCountOk (f : VM) (n : Nat) : Bool :=
  if f.pair = 1 then n % 64 == 0 else n * vmWidth f.w.toNat % 4096 == 0

/-- VLD's and VST's illegal encodings (R193, R89). -/
def chkVm (f : VM) : Option Exc :=
  let n := if f.nel = 0 then 4096 else f.nel.toNat
  illegalIf (f.rsv != 0 || 5 < f.w.toNat || !countForm f.cns f.nel || (f.pair == 1 && (f.w != 0 || f.vr == 31))
    || (f.rs == 0 && f.sb != 0) || (f.cns == 0 && !vmCountOk f n))

/-- The element count of an instruction at issue. -/
def VKind.count (kt : Kite) : VKind → Nat
  | .alu _ f => countOf kt f.cns f.nel
  | .cvt f => countOf kt f.cns f.nel
  | .sfn _ f => countOf kt f.cns f.nel
  | .shuf f => countOf kt f.cns f.nel
  | .tree f =>
    if f.form = 1 then 2 ^ f.lg1.toNat * 2 ^ f.lg2.toNat
    else countOf kt (f.low.extractLsb' 12 1) (f.low.extractLsb' 0 12)
  | .acc f => (vaccDims f).1 * (vaccDims f).2
  | .sum f => countOf kt f.cns f.nel
  | .ld f => countOf kt f.cns f.nel
  | .st f => countOf kt f.cns f.nel

/-- Whether a count is accepted at issue; if not, the instruction is refused as VCOUNT_BAD (R90, R189, R193, R194). -/
def VKind.countAccepted (n : Nat) : VKind → Bool
  | .cvt f => countOk n && (!(fmtOf f.dfmt).isMx || n % 32 == 0)
  | .tree f => countOk n && (f.form == 1 || n % 2 ^ f.lg2.toNat == 0)
  | .ld f => countOk n && vmCountOk f n
  | .st f => countOk n && vmCountOk f n
  | _ => countOk n

/-- The scalar an instruction reads at issue: second operand, factor or first row. -/
def VKind.scalar (kt : Kite) : VKind → Nat
  | .alu _ f => if f.bmode = 1 then (kt.s f.vb).toNat else 0
  | .acc f => if f.scl = 1 then kt.s32 f.sc else 0
  | .ld f => if f.rs = 1 then wrapRow (f.row.toNat + (kt.s f.sb).toNat % 16384) else f.row.toNat
  | .st f => if f.rs = 1 then wrapRow (f.row.toNat + (kt.s f.sb).toNat % 16384) else f.row.toNat
  | _ => 0

/-! ### Units (R91, R92) -/

/-- The instruction running on a unit. -/
def Kite.vrun (kt : Kite) : VUnit → Option VRun
  | .alu => kt.vAlu
  | .sfu => kt.vSfu
  | .mem => kt.vMem

/-- Whether a unit is busy in vector cycle `tv`: an instruction occupies it, or a chain occupies all three (R119). -/
def Kite.vbusy (kt : Kite) (u : VUnit) (tv : Nat) : Bool :=
  kt.chain.isSome ||
  match kt.vrun u with
  | some r => decide (tv < r.t0 + r.occ)
  | none => false

/-- A register count that is not a multiple of B, in STRETCH and REPEAT, is an illegal encoding too (R94); a slot that names a
busy unit is not looked at for its count (R92). -/
def chkVaCount (kt : Kite) (cyc : Nat) (f : VA) : Option Exc :=
  let n := countOf kt f.cns f.nel
  illegalIf (!kt.vbusy .alu (kt.tv cyc) && 2 ≤ f.bmode.toNat && countOk n && n % 2 ^ f.logb.toNat != 0)

/-- TRANSPOSE needs a count that is a multiple of B (Table 5.3), from a register too. -/
def chkVshufCount (kt : Kite) (cyc : Nat) (f : VH) : Option Exc :=
  let n := countOf kt f.cns f.nel
  illegalIf (!kt.vbusy .alu (kt.tv cyc) && f.pat == 5 && countOk n && n % 2 ^ f.parm.toNat != 0)

/-- Put a run on its unit. -/
def Kite.setVrun (kt : Kite) (r : VRun) : Kite :=
  match r.kind.unit with
  | .alu => { kt with vAlu := some r }
  | .sfu => { kt with vSfu := some r }
  | .mem => { kt with vMem := some r }

/-- Discard a V slot that names a busy unit (R92). -/
def vbusyDiscard (k : Nat) (kt : Kite) : Kite :=
  { ((kt.event k .s evVbusy).hazard k 10 2) with vDiscard := satAdd 32 kt.vDiscard 1 }

/-- Vector registers an instruction reads and writes (HZ_VREG). -/
def VKind.reads : VKind → List Nat
  | .alu fn f =>
    [f.va.toNat] ++ (if f.bmode = 1 || fn == .neg || fn == .abs then [] else [f.vb.toNat])
      ++ (if fn == .fma || fn == .sel then [f.vc.toNat] else [])
  | .cvt f => if (fmtOf f.sfmt).isMx then [f.vs.toNat, f.vs.toNat + 1] else [f.vs.toNat]
  | .sfn _ f => [f.va.toNat]
  | .shuf f => if f.pat = 6 then [f.va.toNat, f.vb.toNat] else [f.va.toNat]
  | .tree f => [f.va.toNat]
  | .acc _ => []
  | .sum f => [f.va.toNat]
  | .ld _ => []
  | .st f => if f.pair = 1 then [f.vr.toNat, f.vr.toNat + 1] else [f.vr.toNat]

/-- Scalar registers an instruction reads at issue. -/
def VKind.sreads : VKind → List SReg
  | .alu _ f => if f.bmode = 1 then [.s f.vb.toNat] else []
  | .acc f => if f.scl = 1 then [.s f.sc.toNat] else []
  | .ld f => if f.rs = 1 then [.s f.sb.toNat] else []
  | .st f => if f.rs = 1 then [.s f.sb.toNat] else []
  | _ => []

/-- Whether an instruction reads the shadow set. -/
def VKind.isAcc : VKind → Bool
  | .acc _ => true
  | _ => false

/-- Issue a vector instruction in vector cycle `tv`: discarded at a busy unit, refused for its count, or run (R90–R92). A VACC
beside an MZERO or MSEED of its set is a hazard (Table 4.10). -/
def issueV (k tv : Nat) (v : VKind) (kt : Kite) : Kite :=
  if kt.vbusy v.unit tv then vbusyDiscard k kt
  else
    let n := v.count kt
    if v.countAccepted n then
      let kt := (kt.readHaz k 2 v.sreads).hazardIf (v.isAcc && kt.shadowNow (kt.t (tv + kt.lagV))) k 6 1
      kt.setVrun ⟨v, tv, n, v.occ n, v.scalar kt, kt.ipc⟩
    else { (kt.event k .s evVcountBad) with vCountBad := satAdd 16 kt.vCountBad 1 }

/-! ### Elements -/

/-- A result element of a format: FP formats become canonical NaN, INT32 stay as bits. -/
def fpOp (f : Fmt) (op : Val → Val → Val) (a b : Nat) : Nat := f.encode (op (f.decode a) (f.decode b))

/-- Sign-bit mask of a format. -/
def signMask (f : Fmt) : Nat := 2 ^ (f.width - 1)

/-- Comparisons write 1 or 0; every comparison with NaN is false, except "not equal" (§5.3). -/
def cmpElem (fn : AluFn) (f : Fmt) (a b : Nat) : Nat :=
  let x := f.decode a
  let y := f.decode b
  b2n (match fn with
    | .ceq => x.eqv y
    | .cne => !x.eqv y
    | .clt => x.lt y
    | .cle => x.lt y || x.eqv y
    | .cgt => y.lt x
    | _ => y.lt x || x.eqv y)

/-- One element of an element-wise operation (Table 9.6, R44, R45, §5.3). -/
def aluElem (fn : AluFn) (f : Fmt) (a b c : Nat) : Nat :=
  match fn with
  | .add => if f = .int32 then (a + b) % 2 ^ 32 else fpOp f Val.add a b
  | .sub => if f = .int32 then (a + 2 ^ 32 - b % 2 ^ 32) % 2 ^ 32 else fpOp f (fun x y => x.add y.negate) a b
  | .mul => if f = .int32 then a * b % 2 ^ 32 else fpOp f Val.mul a b
  | .fma => f.encode (((f.decode a).mul (f.decode b)).add (f.decode c))
  | .min => fpOp f Val.minNan a b
  | .max => fpOp f Val.maxNan a b
  | .neg => if (f.decode a).isNan then f.canon a else (a + signMask f) % 2 ^ f.width
  | .abs => if (f.decode a).isNan then f.canon a else a % signMask f
  | .sel => f.canon (if a % 2 ^ 32 ≠ 0 then b else c)
  | .and => a &&& b
  | .or => a ||| b
  | .xor => a ^^^ b
  | .shl => a * 2 ^ (b % 32) % 2 ^ 32
  | .shr => a / 2 ^ (b % 32)
  | .sra => wrapI 32 (sext 32 a / ((2 ^ (b % 32) : Nat) : Int))
  | fn => cmpElem fn f a b

/-- The second operand of element i (Table 5.2). -/
def secondElem (kt : Kite) (k : Nat) (f : VA) (w sc i : Nat) : Nat :=
  match f.bmode.toNat with
  | 0 => kt.velem k f.vb.toNat w i
  | 1 => sc % 2 ^ w
  | 2 => kt.velem k f.vb.toNat w (i / 2 ^ f.logb.toNat)
  | _ => kt.velem k f.vb.toNat w (i % 2 ^ f.logb.toNat)

/-- Element i of an element-wise instruction. VSEL's selector is INT32 (R188). -/
def aluAt (kt : Kite) (k : Nat) (fn : AluFn) (f : VA) (sc i : Nat) : Nat :=
  let x := fmtOf f.fmt
  let a := kt.velem k f.va.toNat (if fn = .sel then 32 else x.width) i
  let b := if fn = .neg || fn = .abs then 0 else secondElem kt k f x.width sc i
  let c := if fn = .fma || fn = .sel then kt.velem k f.vc.toNat x.width i else 0
  aluElem fn x a b c

/-- cvt of one element with its factor 2^EXP (R95, R189): bits unchanged but for NaN where the formats are equal and EXP
is 0. -/
def cvtElem (s d : Fmt) (e : Int) (x : Nat) (v : Val) : Nat :=
  if s = d && e = 0 then s.canon x else d.encode (v.scale e)

/-- Value of element i of a CVT source: MX elements with the scales of the next register, low-bit codes as code values
(R95). -/
def cvtSource (kt : Kite) (k reg : Nat) (s : Fmt) (i : Nat) : Val :=
  let x := kt.velem k reg s.width i
  if s.isMx then mxVal s x (kt.velem k (reg + 1) 8 (i / 32)) else s.decode x

/-- Element i of a shuffle (Table 5.3); sources at or above n give +0. -/
def shufAt (kt : Kite) (k : Nat) (f : VH) (n i : Nat) : Nat :=
  let x := fmtOf f.fmt
  let p := f.parm.toNat
  let src : Option Nat := match f.pat.toNat with
    | 0 => some (i ^^^ 2 ^ p)
    | 1 => some ((i + p) % n)
    | 2 => some p
    | 3 => some (i % 2 ^ p)
    | 4 => some (i / 2 ^ p)
    | 5 => some (i % 2 ^ p * (n / 2 ^ p) + i / 2 ^ p)
    | _ => let j := sext 32 (kt.velem k f.vb.toNat 32 i)
           if j < 0 then none else some j.toNat
  match src with
  | some j => if j < n then x.canon (kt.velem k f.va.toNat x.width j) else 0
  | none => 0

/-- combine() of a tree operation (R45, §5.6). -/
def treeOp (top : Nat) : Nat → Nat → Nat :=
  match top with
  | 0 => addFp32
  | 1 => maxFp32
  | _ => minFp32

/-- Element i of the lane form (R99). -/
def laneAt (kt : Kite) (k : Nat) (f : VT) (i : Nat) : Nat :=
  let d := 2 ^ f.lg1.toNat
  let s := 2 ^ f.lg2.toNat
  let l := f.lm.toNat
  let p := i ^^^ d
  let lo := min i p
  let hi := max i p
  let x (j : Nat) : Nat := kt.velem k f.va.toNat 32 j
  let pl := decide ((lo - lo % d) % s < l)
  let ph := decide ((hi - hi % d) % s < l)
  if pl && ph then treeOp f.top.toNat (x lo) (x hi)
  else if pl then Fmt.fp32.canon (x lo) else if ph then Fmt.fp32.canon (x hi) else 0

/-- Output i of the block form (R100). -/
def blockAt (kt : Kite) (k : Nat) (f : VT) (i : Nat) : Nat :=
  let b := 2 ^ f.lg1.toNat
  let m := f.lm.toNat
  let kk := i / b
  let e := i % b
  let x (j : Nat) : Nat := kt.velem k f.va.toNat 32 j
  if 2 * kk + 1 < m then treeOp f.top.toNat (x (2 * kk * b + e)) (x ((2 * kk + 1) * b + e))
  else if 2 * kk < m then Fmt.fp32.canon (x (2 * kk * b + e)) else 0

/-- The ACC40 bits of element i of a VACC block (R96). -/
def vaccRaw (kt : Kite) (k : Nat) (f : VQ) (i : Nat) : Nat :=
  let (ni, nj) := vaccDims f
  let (r, c) := if f.order = 0 then (i / nj, i % nj) else (i % ni, i / ni)
  kt.acc k (!kt.setB) (container kt.mcfg f.g.toNat (f.i0.toNat + r) (f.j0.toNat + c))

/-- Format of a VACC's result; code 3 is RAW. -/
def vaccFmt (f : VQ) : Fmt := match f.fmt.toNat with
  | 1 => .bf16
  | 2 => .fp16
  | _ => .fp32

/-- Element i of a VACC, scaled and rounded once (R97). -/
def vaccAt (kt : Kite) (k : Nat) (f : VQ) (sc i : Nat) : Nat :=
  let a := layAcc40.decode (vaccRaw kt k f i)
  (vaccFmt f).encode (if f.scl = 1 then a.mul (fp32 sc) else a)

/-- The value of a VSUM over elements read in full (R101). -/
def vsumVal (kind : Nat) (xs : List Nat) : Nat :=
  match kind with
  | 0 => (xs.map fp32).foldl Val.maxNan (.inf true) |> rneFp32
  | 1 => (xs.map fp32).foldl Val.minNan (.inf false) |> rneFp32
  | 2 => argBest Val.maxNan (xs.map fp32)
  | 3 => argBest Val.minNan (xs.map fp32)
  | 4 => b2n (xs.any (· != 0))
  | 5 => b2n (xs.all (· != 0))
  | _ => (xs.filter (· != 0)).length

/-! ### Chunks (R91) -/

/-- The elements of chunk c of a run at rate e: first and count. -/
def chunkSpan (n e c : Nat) : Nat × Nat := (c * e, min e (n - c * e))

/-- Write of consecutive elements of width w by the instruction issued at `iss`. -/
def elemWrite (iss due reg w first : Nat) (xs : List Nat) : VWrite :=
  ⟨iss, due, reg, first * w, xs.length * w, packElems w xs⟩

/-- Queue vector register writes of bundle `pc`, with the report of two writes to one register in one cycle (HZ_WAW). -/
def Kite.queueV (kt : Kite) (k pc : Nat) (ws : List VWrite) : Kite :=
  let kt := kt.hazardAtIf (kt.hzEn && ws.any fun w => kt.vq.any fun x => x.reg == w.reg && x.due == w.due && x.iss != w.iss) k pc 3 2
  { kt with vq := kt.vq ++ ws }

/-- The register writes of chunk c of a running ALU or SFU instruction, read in vector cycle `tv` (R91). -/
def vchunk (k tv : Nat) (r : VRun) (c : Nat) (kt : Kite) : List VWrite :=
  let due := tv + r.kind.lat
  match r.kind with
  | .alu fn f =>
    let x := fmtOf f.fmt
    let (i0, m) := chunkSpan r.n (aluRate fn x) c
    [elemWrite r.t0 due f.vd.toNat (if fn.isCmp then 32 else x.width) i0
      ((List.range m).map fun i => aluAt kt k fn f r.sc (i0 + i))]
  | .cvt f =>
    let s := fmtOf f.sfmt
    let d := fmtOf f.dfmt
    let e := f.exp.toInt
    let (i0, m) := chunkSpan r.n (cvtRate s d) c
    if d.isMx then
      let qs := (chunksOf 32 ((List.range m).map fun i => (cvtSource kt k f.vs.toNat s (i0 + i)).scale e)).map (quantMx d)
      -- an MX format converted to itself with EXP = 0 keeps its bits (R39)
      if s = d && e = 0 then
        [elemWrite r.t0 due f.vd.toNat d.width i0 ((List.range m).map fun i => d.canon (kt.velem k f.vs.toNat s.width (i0 + i))),
         elemWrite r.t0 due (f.vd.toNat + 1) 8 (i0 / 32) ((List.range (m / 32)).map fun b => kt.velem k (f.vs.toNat + 1) 8 (i0 / 32 + b))]
      else
        [elemWrite r.t0 due f.vd.toNat d.width i0 (qs.flatMap (·.2)), elemWrite r.t0 due (f.vd.toNat + 1) 8 (i0 / 32) (qs.map (·.1))]
    else
      [elemWrite r.t0 due f.vd.toNat d.width i0
        ((List.range m).map fun i => cvtElem s d e (kt.velem k f.vs.toNat s.width (i0 + i)) (cvtSource kt k f.vs.toNat s (i0 + i)))]
  | .sfn fn f =>
    let (i0, m) := chunkSpan r.n 64 c
    [elemWrite r.t0 due f.vd.toNat 32 i0 ((List.range m).map fun i => sfu fn (kt.velem k f.va.toNat 32 (i0 + i)))]
  | .shuf f =>
    let (i0, m) := chunkSpan r.n (shufRate f.pat.toNat) c
    [elemWrite r.t0 due f.vd.toNat (fmtOf f.fmt).width i0 ((List.range m).map fun i => shufAt kt k f r.n (i0 + i))]
  | .tree f =>
    if f.form = 1 then
      let (i0, m) := chunkSpan (treeOuts f) 256 c
      [elemWrite r.t0 due f.vd.toNat 32 (f.low.toNat % 4096 + i0) ((List.range m).map fun i => blockAt kt k f (i0 + i))]
    else
      let (i0, m) := chunkSpan r.n 256 c
      [elemWrite r.t0 due f.vd.toNat 32 i0 ((List.range m).map fun i => laneAt kt k f (i0 + i))]
  | .acc f =>
    let (i0, m) := chunkSpan r.n 256 c
    if f.fmt = 3 then
      [elemWrite r.t0 due f.vd.toNat 32 i0 ((List.range m).map fun i => vaccRaw kt k f (i0 + i) % 2 ^ 32),
       elemWrite r.t0 due (f.vd.toNat + 1) 32 i0 ((List.range m).map fun i => vaccRaw kt k f (i0 + i) / 2 ^ 32)]
    else
      [elemWrite r.t0 due f.vd.toNat (vaccFmt f).width i0 ((List.range m).map fun i => vaccAt kt k f r.sc (i0 + i))]
  | .sum _ => []
  | .ld _ => []
  | .st _ => []

/-- The scratchpad row of chunk c of a VLD or VST (R193). -/
def vmRow (r : VRun) (c : Nat) : Nat := wrapRow (r.sc + c)

/-- The 4,096 bits that a VST of a pair writes as its row c: element i of Vn and of Vn+1 side by side (§5.2). -/
def pairRow (kt : Kite) (k reg c : Nat) : Nat :=
  packElems 64 ((List.range 64).map fun i =>
    kt.velem k reg 32 (c * 64 + i) + 2 ^ 32 * kt.velem k (reg + 1) 32 (c * 64 + i))

/-- What chunk c of a VST stores, read from its registers in the chunk's own cycle (R91). -/
def vmValue (kt : Kite) (k : Nat) (r : VRun) (c : Nat) : Nat :=
  match r.kind with
  | .st f => if f.pair = 1 then pairRow kt k f.vr.toNat c else bits (kt.vreg k f.vr.toNat) (c * 4096) 4096
  | _ => 0

/-- The row access of chunk c of a vector memory instruction, made in vector cycle `tv`; `v` is what a VST stores. Port 4 is
the vector memory unit. -/
def vmAccess (k tv : Nat) (r : VRun) (c v : Nat) (kt : Kite) : Kite :=
  match r.kind with
  | .ld f =>
    let (v, kt) := kt.readRow k (vmRow r c) 4
    let due := tv + 3
    let ws : List VWrite :=
      if f.pair = 1 then
        [elemWrite r.t0 due f.vr.toNat 32 (c * 64) ((List.range 64).map fun i => bits v (i * 64) 32),
         elemWrite r.t0 due (f.vr.toNat + 1) 32 (c * 64) ((List.range 64).map fun i => bits v (i * 64 + 32) 32)]
      else [⟨r.t0, due, f.vr.toNat, c * 4096, 4096, v⟩]
    kt.queueV k r.pc ws
  | .st _ => ((kt.hazardAtIf (kt.feedToRead (vmRow r c)) k r.pc 7 2).writeRow k (vmRow r c) v).2
  | _ => kt

/-- Elements a VSUM reads in one chunk are kept in the run of the unit; its scalar is written once all are read. The
elements are those of the cycle in which each chunk is read. -/
def vsumChunk (k tv : Nat) (r : VRun) (c : Nat) (kt : Kite) : Kite :=
  match r.kind with
  | .sum f =>
    let (i0, m) := chunkSpan r.n 256 c
    let acc := kt.vSumAcc ++ (List.range m).map fun i => kt.velem k f.va.toNat 32 (i0 + i)
    if c + 1 = r.occ then
      let kt := kt.hazardAtIf (kt.sqClash (.s f.sd.toNat) (tv + 7) true) k r.pc 3 2
      { kt with
        vSumAcc := []
        sq := kt.sq ++ [⟨tv + 7, true, .s f.sd.toNat, BitVec.ofNat 64 (vsumVal f.kind.toNat acc)⟩] }
    else { kt with vSumAcc := acc }
  | _ => kt

/-- A LAST VACC releases the set it read at the end of its last occupied cycle (R97, R73); already released, it has no
effect and is a hazard (Table 4.10). -/
def vaccRelease (k tv : Nat) (r : VRun) (kt : Kite) : Kite :=
  match r.kind with
  | .acc f =>
    if f.last = 1 && tv + 1 = r.t0 + r.occ then
      (kt.hazardAtIf (kt.released (!kt.setB)) k r.pc 8 2).setReleased (!kt.setB) true
    else kt
  | _ => kt

/-- Whether chunk c of a run reads bits that the pending write `w` covers (HZ_VREG): its own elements where the operation
works element by element, and any place of the register otherwise. -/
def VRun.chunkReads (r : VRun) (w : VWrite) (c : Nat) : Bool :=
  let span (e width : Nat) : Bool := decide (c * e * width < w.lo + w.len && w.lo < (c + 1) * e * width)
  match r.kind with
  | .alu fn f => if 2 ≤ f.bmode.toNat && w.reg == f.vb.toNat then true else span (aluRate fn (fmtOf f.fmt)) (fmtOf f.fmt).width
  | .cvt f => if w.reg == f.vs.toNat then span (cvtRate (fmtOf f.sfmt) (fmtOf f.dfmt)) (fmtOf f.sfmt).width else true
  | .sfn _ _ => span 64 32
  | .sum _ => span 256 32
  | .st f => if f.pair = 1 then span 64 32 else span 4096 1
  | _ => true

/-- Whether chunk c of a run, made in vector cycle `tv`, reads a register before a write to it has landed (HZ_VREG). -/
def VRun.readsEarly (r : VRun) (kt : Kite) (tv c : Nat) : Bool :=
  kt.hzEn && r.kind.reads.any fun g => kt.vq.any fun w => w.reg == g && decide (tv < w.due) && r.chunkReads w c

/-- The ALU's and the SFU's work of vector cycle `tv`: every chunk reads the registers as they stand, and its writes are
queued. -/
def vectorCycle (k tv : Nat) (kt : Kite) : Kite :=
  let one (u : Option VRun) (kt : Kite) : Kite :=
    match u with
    | none => kt
    | some r =>
      if r.t0 ≤ tv && tv < r.t0 + r.occ then
        let c := tv - r.t0
        let ws := vchunk k tv r c kt
        vsumChunk k tv r c ((kt.hazardAtIf (r.readsEarly kt tv c) k r.pc 2 2).queueV k r.pc ws)
      else kt
  let kt := one kt.vSfu (one kt.vAlu kt)
  let busy (u : VUnit) : Bool := kt.vbusy u tv
  { kt with
    vOps := if busy .alu then wrapAdd 48 kt.vOps 1 else kt.vOps
    vSfuOps := if busy .sfu then wrapAdd 48 kt.vSfuOps 1 else kt.vSfuOps }

/-- The row access the vector memory unit makes in vector cycle `tv`: run, chunk and row. -/
def Kite.vmWants (kt : Kite) (tv : Nat) : Option (VRun × Nat × Nat) :=
  match kt.vMem with
  | none => none
  | some r => if r.t0 ≤ tv && tv < r.t0 + r.occ then some (r, tv - r.t0, vmRow r (tv - r.t0)) else none

end Sys2Proof.Machine
end

