-- ==== Sys2Proof/Machine/Chain.lean ====
section
/-! DEFINITION. Chains (file 06): chain memory words, the checks of R122–R124, the placement of stages by R118 and what each
stage does with each chunk of each slice. Times are on the vector clock. -/
namespace Sys2Proof

/-! ### Shapes of a VCHAIN (R103, Table 6.5) -/

def VX.trN (f : VX) : Nat := f.tr.toNat
def VX.tcN (f : VX) : Nat := f.tc.toNat
def VX.srN (f : VX) : Nat := f.sr.toNat
/-- Elements of a slice. -/
def VX.n (f : VX) : Nat := f.srN * f.tcN
/-- Slices of a tile. -/
def VX.slices (f : VX) : Nat := f.trN / f.srN
/-- Tiles: 0 encodes 256. -/
def VX.tiles (f : VX) : Nat := Machine.zeroAs 256 f.nt.toNat
/-- Row and column, within the slice, of element e (R103). -/
def VX.coord (f : VX) (e : Nat) : Nat × Nat :=
  if f.order = 0 then (e / f.tcN, e % f.tcN) else (e % f.srN, e / f.srN)
/-- Element of row r and column c of a slice. -/
def VX.elem (f : VX) (r c : Nat) : Nat := if f.order = 0 then r * f.tcN + c else c * f.srN + r

end Sys2Proof

namespace Sys2Proof.Machine

/-! ### Chain words (Tables 6.2, 6.3) -/

/-- Word i of a kite's chain memory, 32 words of 128 bits to a program (R104). -/
def Kite.chainWord (kt : Kite) (k i : Nat) : Nat := (mapGet kt.chainMem i).getD (Config.freeChainWord k i).toNat

def hdrStages (h : Nat) : Nat := bits h 0 5
def hdrBase (h : Nat) : Nat := bits h 5 5
def hdrWindow (h : Nat) : Nat := bits h 10 6

def stOp (w : Nat) : Nat := bits w 122 6
def stFmtCode (w : Nat) : Nat := bits w 118 4
def stFmt (w : Nat) : Fmt := (Fmt.ofCode (stFmtCode w)).getD .fp32
/-- SRCA with 0 read as the chain source, stage 1 (Table 6.3). -/
def stA (w : Nat) : Nat := let a := bits w 114 4; if a = 0 then 1 else a
def stB (w : Nat) : Nat := let b := bits w 110 4; if b = 0 then 1 else b
def stMode (w : Nat) : Nat := bits w 108 2
def stVc (w : Nat) : Nat := bits w 103 5
def stLogb (w : Nat) : Nat := bits w 99 4
def stBase (w : Nat) : Nat := bits w 96 2
def stImm (w : Nat) : Nat := bits w 64 32
/-- The mask mode of MASK: the manual names FN without its bits; PAR[17:14], above the row field, holds it here. -/
def stMaskFn (w : Nat) : Nat := bits w 14 4
/-- Stage names by opcode (Table 6.4). -/
def isDrain (w : Nat) : Bool := stOp w == 1
def isLoad (w : Nat) : Bool := stOp w == 2
def isArith (w : Nat) : Bool := stOp w == 3
def isSfn (w : Nat) : Bool := stOp w == 4
def isCvt (w : Nat) : Bool := stOp w == 5
def isQuant (w : Nat) : Bool := stOp w == 6
def isMask (w : Nat) : Bool := stOp w == 7
def isStat (w : Nat) : Bool := stOp w == 8
def isStore (w : Nat) : Bool := stOp w == 9
def isKvapp (w : Nat) : Bool := stOp w == 10
def isSend (w : Nat) : Bool := stOp w == 11
def isExport (w : Nat) : Bool := stOp w == 12

/-- Registers a stage's output takes: r(s) of R122. -/
def stRegs (w : Nat) : Nat :=
  if isStore w || isKvapp w || isSend w || isExport w || isStat w then 0
  else if isQuant w || (isDrain w && stFmt w == .acc40) then 2 else 1

/-- Word of stage s, from 1. -/
def stageW (stages : List Nat) (s : Nat) : Nat := stages.getD (s - 1) 0

/-- The format a stage's input declares. -/
def inFmt (stages : List Nat) (w : Nat) : Fmt := stFmt (stageW stages (stA w))

/-- Container width of a format in registers and rows: ACC40 in 64-bit containers (R35). -/
def contWidth (f : Fmt) : Nat := if f = .acc40 then 64 else f.width

/-- Scale bits of n elements in a register (R89). -/
def scaleBits (f : Fmt) (n : Nat) : Nat := if f.isMx then ceilDiv n 32 * 8 else if f.isLow then ceilDiv n 64 * 16 else 0

/-- Rows of a slice of n elements: element rows and scale rows, each in whole rows (R109). -/
def sliceRows (f : Fmt) (n : Nat) : Nat × Nat := (ceilDiv (n * contWidth f) 4096, ceilDiv (scaleBits f n) 4096)

/-- Unit of a stage (Table 6.4). -/
def stUnit (w : Nat) : VUnit :=
  if isSfn w then .sfu else if isLoad w || isStore w || isKvapp w || isSend w || isExport w then .mem else .alu

/-- Special function of an SFN stage. -/
def stSfn (w : Nat) : SfuFn := (SfuFn.ofCode (bits w 0 4)).getD .exp2

/-- Elements per cycle of an ALU or SFU stage. -/
def stRate (stages : List Nat) (w : Nat) : Nat :=
  if isSfn w then 64
  else if isArith w then (if half (stFmt w) then 512 else 256)
  else if isCvt w then cvtRate (inFmt stages w) (stFmt w)
  else 256

/-- Occupancy of a stage per slice (Table 6.4). -/
def stOcc (f : VX) (stages : List Nat) (w : Nat) : Nat :=
  if isLoad w then (sliceRows (stFmt w) f.n).1 + (sliceRows (stFmt w) f.n).2
  else if isStore w || isSend w then
    (sliceRows (inFmt stages w) f.n).1 + (sliceRows (inFmt stages w) f.n).2
  else if isKvapp w then (sliceRows (inFmt stages w) f.n).1
  else if isExport w then 1
  else if isStat w then ceilDiv f.n 256 + Nat.log2 f.tcN
  else ceilDiv f.n (stRate stages w)

/-- Latency of a stage (Table 6.4). -/
def stLat (w : Nat) : Nat :=
  if isDrain w then 5 else if isLoad w then 3
  else if isArith w then (if stFmt w = .int32 then 2 else 4)
  else if isSfn w then (stSfn w).latency
  else if isCvt w then 4 else if isQuant w then 6 else if isMask w then 2 else if isStat w then 5 else 1

/-- Input stages of a stage: none for a source. -/
def stInputs (w : Nat) : List Nat :=
  if isDrain w || isLoad w then []
  else if isArith w && stMode w == 0 then [stA w, stB w] else [stA w]

/-! ### Acceptance (R122–R124) -/

/-- off(s) of R122. -/
def stOff (stages : List Nat) (s : Nat) : Nat := ((stages.take (s - 1)).map fun w => 2 * stRegs w).foldl (· + ·) 0

/-- The reel a stage names, if it names one. -/
def stReel (w : Nat) : Option Nat :=
  if isSend w then some (stImm w % 32)
  else if (isLoad w || isStore w) && bit w 14 then some (stImm w % 32) else none

/-- Formats a CVT stage may declare: unscaled ones but ACC40 (Table 6.4). -/
def unscaled (f : Fmt) : Bool :=
  match f with
  | .fp32 | .bf16 | .fp16 | .e4m3 | .e5m2 | .int8 | .int32 => true
  | _ => false

/-- Whether a stage declares a format it allows, and reads one it can (Table 6.4, R107). -/
def stFmtOk (stages : List Nat) (w : Nat) : Bool :=
  let f := stFmt w
  let i := inFmt stages w
  if stFmtCode w = 15 then false
  else if isExport w then true
  else if isDrain w then f == .fp32 || half f || (f == .acc40 && !bit w 0)
  else if isLoad w then true
  else if isArith w then
    (f == .fp32 || half f || f == .int32) && i == f && (stMode w != 0 || stFmt (stageW stages (stB w)) == f)
  else if isSfn w then f == .fp32 && i == .fp32
  else if isMask w || isStat w then f == .fp32
  else if isCvt w then unscaled f && i != .acc40
  else if isQuant w then f.isMx || f.isLow
  else f == i

/-- The sound use of a stage's inputs: an earlier stage with an output; EXPORT names a KVAPP (R116, R124). -/
def stInputsOk (stages : List Nat) (s : Nat) : Bool :=
  let w := stageW stages s
  (stInputs w).all fun k => decide (k < s) &&
    (if isExport w then isKvapp (stageW stages k) else stRegs (stageW stages k) != 0)

/-- Whether a stage uses its VC register. -/
def stUsesVc (w : Nat) : Bool := isMask w || isStat w || (isArith w && 2 ≤ stMode w)

/-- One stage's shape and value checks (R108–R117, R122, R124). -/
def stShapeOk (kt : Kite) (f : VX) (h : Nat) (stages : List Nat) (s : Nat) : Bool :=
  let w := stageW stages s
  let n := f.n
  let b := 2 ^ stLogb w
  let vb := hdrBase h
  1 ≤ stOp w && stOp w ≤ 12 && !bit w 98
  && (isDrain w == (s == 1 && isDrain w)) && (s != 1 || isDrain w || isLoad w)
  && stFmtOk stages w && stInputsOk stages s
  && (!isArith w || (decide (bits w 0 3 ≤ 4) && (stMode w < 2 || (1 ≤ stLogb w && stLogb w ≤ 11 && n % b == 0))))
  && (!isSfn w || decide (bits w 0 4 ≤ 9))
  && (!isMask w || decide (stMaskFn w ≤ 3))
  && (!isStat w || isPow2 f.tcN)
  && (!(isQuant w && (stFmt w).isMx) || (n % 32 == 0 && f.tcN % 32 == 0))
  && (!(isLoad w) || n * contWidth (stFmt w) % 4096 == 0)
  && (!(isStore w || isSend w) || n * contWidth (inFmt stages w) % 4096 == 0)
  && (!stUsesVc w || stVc w < vb || vb + hdrWindow h ≤ stVc w)
  && (match stReel w with
      | none => true
      | some r =>
        let rows := stOcc f stages w
        (kt.reel r).en && decide ((if isSend w then f.slices * rows else 2 * rows) ≤ (kt.reel r).size))

/-- Whether a VCHAIN is accepted (R117, R122–R124). -/
def chainOk (kt : Kite) (f : VX) (h : Nat) (stages : List Nat) : Bool :=
  let (g, xa, xb) := kt.mcfg.shape
  let drain := isDrain (stageW stages 1)
  1 ≤ hdrStages h && hdrStages h ≤ 16 && h / 2 ^ 16 == 0 && 1 ≤ hdrWindow h && hdrBase h + hdrWindow h ≤ 32
  && 1 ≤ f.trN && f.trN ≤ 512 && 1 ≤ f.tcN && f.tcN ≤ 512 && 1 ≤ f.srN && f.trN % f.srN == 0 && f.n ≤ 4096
  && (!drain || (f.trN ≤ xa && f.tcN ≤ xb && f.tiles ≤ g))
  && decide (stOff stages (stages.length + 1) ≤ hdrWindow h)
  && decide ((stages.filter isLoad).length ≤ 2)
  && (List.range stages.length).all fun i => stShapeOk kt f h stages (i + 1)

/-- Header and stage words of a program as they stand. -/
def chainProg (kt : Kite) (k ch : Nat) : Nat × List Nat :=
  let h := kt.chainWord k (ch * 32)
  (h, (List.range (hdrStages h)).map fun i => kt.chainWord k (ch * 32 + 1 + i))

/-- VCHAIN's checks (R124). -/
def chkVchain (kt : Kite) (k : Nat) (f : VX) : Option Exc :=
  let (h, st) := chainProg kt k f.ch.toNat
  illegalIf (f.rsv != 0 || 28 < f.sp.toNat || !chainOk kt f h st)

/-! ### Placement (R118) -/

/-- The units' free times. -/
structure Free where
  alu : Nat
  sfu : Nat
  mem : Nat
  deriving DecidableEq, Repr

def Free.get (f : Free) : VUnit → Nat
  | .alu => f.alu
  | .sfu => f.sfu
  | .mem => f.mem

def Free.set (f : Free) (u : VUnit) (t : Nat) : Free :=
  match u with
  | .alu => { f with alu := t }
  | .sfu => { f with sfu := t }
  | .mem => { f with mem := t }

/-- start(j, s) of the stage runs already placed. -/
def startOf (runs : List StageRun) (j s : Nat) : Option StageRun := runs.find? fun r => r.slice == j && r.stage == s

/-- Place stage s of slice j (R118); the runs of the two slices before are in `runs`. -/
def placeStage (f : VX) (stages : List Nat) (t0 j s : Nat) (free : Free) (runs : List StageRun) : StageRun × Free :=
  let w := stageW stages s
  let o := stOcc f stages w
  let ins := (stInputs w).map fun k =>
    match startOf runs j k with
    | some r => let wk := stageW stages k
                r.start + max (stLat wk) (r.occ + stLat wk - o)
    | none => t0
  let outs := if 2 ≤ j then
      ((List.range stages.length).filter fun c => (stInputs (stageW stages (c + 1))).contains s).map fun c =>
        match startOf runs (j - 2) (c + 1) with
        | some r => r.start + r.occ
        | none => t0
    else []
  let start := (ins ++ outs).foldl max (max t0 (free.get (stUnit w)))
  (⟨s, j, j / f.slices, start, o⟩, free.set (stUnit w) (start + o))

/-- Place every stage of slice j, in stage order; EXPORT runs in a tile's last slice only. -/
def placeSlice (f : VX) (stages : List Nat) (t0 j : Nat) (free : Free) (runs : List StageRun) : List StageRun × Free :=
  (List.range stages.length).foldl (fun (acc : List StageRun × Free) i =>
    let s := i + 1
    if isExport (stageW stages s) && j % f.slices + 1 != f.slices then acc
    else
      let (r, fr) := placeStage f stages t0 j s acc.2 acc.1
      (acc.1 ++ [r], fr)) (runs, free)

/-- Place all slices; only the runs of the last two slices are looked at. -/
def placeAll (f : VX) (stages : List Nat) (t0 : Nat) : List StageRun :=
  ((List.range (f.tiles * f.slices)).foldl (fun (acc : List StageRun × List StageRun × Free) j =>
    let recent := acc.2.1.filter fun r => decide (j ≤ r.slice + 2)
    let (rs, fr) := placeSlice f stages t0 j acc.2.2 recent
    (acc.1 ++ rs.filter (fun r => r.slice == j), rs, fr)) ([], [], ⟨t0, t0, t0⟩)).1

/-- tE: the last cycle in which any stage writes. -/
def chainEndOf (stages : List Nat) (runs : List StageRun) (t0 : Nat) : Nat :=
  runs.foldl (fun m r => max m (r.start + r.occ + stLat (stageW stages r.stage) - 2)) t0

/-- VCHAIN: discarded where a unit is busy, else placed (R92, R118). -/
def effVchain (k tv : Nat) (f : VX) (kt : Kite) : Kite :=
  if kt.vbusy .alu tv || kt.vbusy .sfu tv || kt.vbusy .mem tv then vbusyDiscard k kt
  else
    let (h, st) := chainProg kt k f.ch.toNat
    let sp := f.sp.toNat
    let kt := kt.readHaz k 2 ((List.range 4).map fun i => .s (sp + i))
    let kt := kt.hazardIf (isDrain (stageW st 1) && kt.shadowNow (kt.t (tv + kt.lagV))) k 6 1
    let runs := placeAll f st tv
    { kt with
      chain := some ⟨f, tv, h, st, (List.range 4).map fun i => (kt.sreg (sp + i)).toNat, runs, chainEndOf st runs tv, [], kt.ipc⟩
      cCh := f.ch.toNat, cTile := 0 }

/-! ### Stages (R107–R116) -/

/-- First register of a stage's output for slice j (R122). -/
def ChainRun.outReg (c : ChainRun) (s j : Nat) : Nat :=
  let w := stageW c.stages s
  hdrBase c.header + stOff c.stages s + j % 2 * stRegs w

/-- Bits of element e of stage s's output for slice j. -/
def ChainRun.raw (c : ChainRun) (kt : Kite) (k s j e : Nat) : Nat :=
  let f := stFmt (stageW c.stages s)
  let r := c.outReg s j
  if f = .acc40 then kt.velem k r 32 e + 2 ^ 32 * (kt.velem k (r + 1) 32 e % 256) else kt.velem k r f.width e

/-- Bits of element e of stage s's output, read in format `f` (R107). -/
def ChainRun.rawAs (c : ChainRun) (kt : Kite) (k : Nat) (f : Fmt) (s j e : Nat) : Nat := kt.velem k (c.outReg s j) f.width e

/-- Value of element e of stage s's output, with MX scales from the next register; low-bit codes as code values (R95). -/
def ChainRun.value (c : ChainRun) (kt : Kite) (k s j e : Nat) : Val :=
  let f := stFmt (stageW c.stages s)
  let x := c.raw kt k s j e
  if f.isMx then mxVal f x (kt.velem k (c.outReg s j + 1) 8 (e / 32)) else f.decode x

/-- The scalar base a stage selects (Table 6.3). -/
def ChainRun.base (c : ChainRun) (w : Nat) : Nat := c.bases.getD (stBase w) 0

/-- One element of ARITH (R108). -/
def arithElem (fn : Nat) (f : Fmt) (a b : Nat) : Nat :=
  match fn with
  | 0 => aluElem .add f a b 0
  | 1 => aluElem .sub f a b 0
  | 2 => aluElem .mul f a b 0
  | 3 => aluElem .max f a b 0
  | _ => aluElem .min f a b 0

/-- Second operand of ARITH at element e of slice j (R108). `jt` is the slice's index within its tile. -/
def ChainRun.second (c : ChainRun) (kt : Kite) (k w j jt e : Nat) : Nat :=
  let f := stFmt w
  let b := 2 ^ stLogb w
  match stMode w with
  | 0 => c.raw kt k (stB w) j e
  | 1 => stImm w % 2 ^ f.width
  | 2 => kt.velem k (stVc w) f.width (jt * (c.f.n / b) + e / b)
  | _ => kt.velem k (stVc w) f.width (e % b)

/-- A little-endian number in the scratchpad as a stage finds it: mask tables and token maps (R110, R251). Their rows pass the
vector memory unit's port when the stage starts on a slice (`Kite.mapWants`). -/
def Kite.peek (kt : Kite) (k row off n : Nat) : Nat :=
  (List.range n).foldl (fun acc i =>
    let o := off + i
    acc + bits (kt.rowSeen k (wrapRow (row + o / 512))) (o % 512 * 8) 8 * 2 ^ (8 * i)) 0

/-- Whether position (q, key) is masked (R110, R259, R260). -/
def masked (kt : Kite) (k fn row w : Nat) (klen : Nat) (q key : Int) : Bool :=
  if q = -1 then true
  else
    let len : Int := klen
    match fn with
    | 0 => decide (len ≤ key)
    | 1 => decide (len ≤ key || q < key)
    | 2 =>
      let ng := min 64 (kt.peek k row 0 4)
      let listed := (List.range ng).any fun i => sext 32 (kt.peek k row (4 + 4 * i) 4) == key
      decide (len ≤ key || q < key) || (decide ((w : Int) ≤ q - key) && !listed)
    | _ =>
      let tb : Int := (kt.peek k row 0 4 : Nat)
      let n : Int := (kt.peek k row 4 2 : Nat)
      if len ≤ key then true
      else if key < tb then decide (q < key)
      else if q < tb then true
      else if n ≤ key - tb then true
      else
        let j := (key - tb).toNat
        let i := (q - tb).toNat
        !bit (kt.peek k row (64 + 32 * i + j / 8) 1) (j % 8)

/-- Group scale of QUANT into a low-bit format: amax ÷ D rounded to BF16 (R111). -/
def quantScale (f : Fmt) (xs : List Val) : Nat :=
  match xs.foldl (fun (a v : Val) => a.maxNan v.abs) Val.zero with
  | .nan => layBf16.nan
  | .inf _ => layBf16.infEnc false
  | .fin _ m e => if f = .w2q then layBf16.roundQ false (2 * m) 3 e else layBf16.roundQ false m 1 e

/-- Code of QUANT: level rounding of the exact quotient x ÷ g (R111). -/
def quantCode (f : Fmt) (g : Nat) (x : Val) : Nat :=
  match x, layBf16.decode g with
  | .nan, _ => level f .nan
  | _, .nan => level f .nan
  | .inf _, .inf _ => level f .nan
  | .inf n, .fin _ m _ => if m = 0 then level f .zero else level f (.inf n)
  | .fin n _ _, .inf _ => level f (.fin n 0 0)
  | .fin n m e, .fin _ mg eg => if mg = 0 then level f .zero else levelQ f n m mg (e - eg)

/-- Queue the elements of a chunk, read in vector cycle `tv`, and the scales of its blocks, for a stage's output registers:
they are written at the end of tv + λ − 1 (R91, R107). -/
def ChainRun.put (c : ChainRun) (k tv s j first : Nat) (xs : List Nat) (scW scFirst : Nat) (scs : List Nat) (kt : Kite) : Kite :=
  let w := stageW c.stages s
  let f := stFmt w
  let r := c.outReg s j
  let wr (reg width first : Nat) (xs : List Nat) : VWrite := elemWrite c.t0 (tv + stLat w) reg width first xs
  kt.queueV k c.pc
    (if f = .acc40 then [wr r 32 first xs, wr (r + 1) 32 first (xs.map fun x => x / 2 ^ 32)]
     else if scs.isEmpty then [wr r f.width first xs] else [wr r f.width first xs, wr (r + 1) scW scFirst scs])

/-- Leaves of STAT (R112). -/
def statLeaf (fn x : Nat) : Nat := if fn = 1 then mulFp32 x x else x

def statOp (fn : Nat) : Nat → Nat → Nat :=
  match fn with
  | 0 => addFp32
  | 1 => addFp32
  | 2 => maxFp32
  | _ => minFp32

/-- The rows a KVAPP of slice j writes (R113, R251): token map entries of its tile rows, 0xFFFF left out. -/
def ChainRun.kvRows (c : ChainRun) (kt : Kite) (k w j jt : Nat) : List KvRow :=
  let f := inFmt c.stages w
  let map := wrapRow (c.base w)
  (List.range c.f.srN).filterMap fun r =>
    let tr := jt * c.f.srN + r
    let slot := kt.peek k map (8 * tr) 2
    if slot = 0xFFFF then none
    else
      some ⟨slot, kt.peek k map (8 * tr + 4) 4, bits w 0 7, bits w 7 4, bits w 11 1,
        packElems (contWidth f) ((List.range c.f.tcN).map fun col => c.raw kt k (stA w) j (c.f.elem r col)),
        c.f.tcN * contWidth f / 8⟩

/-- The scratchpad row that chunk `i` of a LOAD, STORE or SEND names, from row addresses or from its reel (R109). -/
def ChainRun.rowAt (c : ChainRun) (kt : Kite) (r : StageRun) (i : Nat) : Nat :=
  let w := stageW c.stages r.stage
  match stReel w with
  | some q => let rl := kt.reel q
              if isLoad w then rl.rowOf rl.tail else rl.rowOf rl.head
  | none => wrapRow (c.base w + r.tile * bits w 0 14 + r.slice % c.f.slices * r.occ + i)

/-- Bits of a slice's row i: element rows first, then scale rows (R109). -/
def ChainRun.sliceRow (c : ChainRun) (kt : Kite) (k s j i : Nat) : Nat :=
  let f := stFmt (stageW c.stages s)
  let r := c.outReg s j
  let er := (sliceRows f c.f.n).1
  if f = .acc40 then
    packElems 64 ((List.range 64).map fun x => c.raw kt k s j (i * 64 + x))
  else if i < er then bits (kt.vreg k r) (i * 4096) 4096
  else bits (kt.vreg k (r + 1)) ((i - er) * 4096) 4096

/-- What chunk i of a STORE or SEND writes, read from its registers in the chunk's own cycle (R91). -/
def stageValue (kt : Kite) (k : Nat) (r : StageRun) (i : Nat) : Nat :=
  match kt.chain with
  | none => 0
  | some c => if isLoad (stageW c.stages r.stage) then 0 else c.sliceRow kt k (stA (stageW c.stages r.stage)) r.slice i

/-- The scratchpad access of chunk i of a memory stage, in vector cycle `tv`; `v` is what a STORE or SEND writes. Rows are moved
bit for bit. -/
def stageAccess (k tv : Nat) (r : StageRun) (i v : Nat) (kt : Kite) : Kite :=
  match kt.chain with
  | none => kt
  | some c =>
    let w := stageW c.stages r.stage
    let row := c.rowAt kt r i
    if isLoad w then
      let (v, kt) := kt.readRow k row 4
      let f := stFmt w
      let er := (sliceRows f c.f.n).1
      let o := c.outReg r.stage r.slice
      let kt := match stReel w with
        | some q => kt.reelPop q
        | none => kt
      let wr (reg lo len v : Nat) : VWrite := ⟨c.t0, tv + stLat w, reg, lo, len, v⟩
      kt.queueV k c.pc
        (if f = .acc40 then
          let xs := (List.range 64).map fun x => bits v (x * 64) 40
          [wr o (i * 64 * 32) 2048 (packElems 32 xs), wr (o + 1) (i * 64 * 32) 2048 (packElems 32 (xs.map (· / 2 ^ 32)))]
        else if i < er then [wr o (i * 4096) 4096 v] else [wr (o + 1) ((i - er) * 4096) 4096 v])
    else
      let kt := kt.hazardAtIf (kt.feedToRead row) k c.pc 7 2
      let kt := (kt.writeRow k row v).2
      match stReel w with
      | some q => kt.reelPush q
      | none => kt

/-- The scratchpad rows that a stage run reads beside its slice: the token map entries of a KVAPP, the global list or the
ancestor bitmap of a MASK (R110, R113, R251, R259, R260). -/
def ChainRun.mapRows (c : ChainRun) (kt : Kite) (k : Nat) (r : StageRun) : List Nat :=
  let w := stageW c.stages r.stage
  let rows (base first last : Nat) : List Nat := (List.range (last + 1 - first)).map fun i => wrapRow (base + first + i)
  if isKvapp w then
    let a := 8 * (r.slice % c.f.slices * c.f.srN)
    rows (wrapRow (c.base w)) (a / 512) ((a + 8 * c.f.srN - 1) / 512)
  else if isMask w && stMaskFn w == 2 then [bits w 0 14]
  else if isMask w && stMaskFn w == 3 then rows (bits w 0 14) 0 ((64 + 32 * min 256 (kt.peek k (bits w 0 14) 4 2) - 1) / 512)
  else []

/-- The rows of token maps and mask tables that stages starting on a slice in vector cycle `tv` read. -/
def Kite.mapWants (kt : Kite) (k tv : Nat) : List Nat :=
  match kt.chain with
  | none => []
  | some c => (c.runs.filter fun r => r.start == tv).flatMap fun r => c.mapRows kt k r

/-- Whether a LOAD of the running chain has, from vector cycle `tv` on, yet to read row `row` (Table 6.7); evaluated while the
checker is on. -/
def Kite.loadToRead (kt : Kite) (tv row : Nat) : Bool :=
  kt.hzEn && match kt.chain with
    | none => false
    | some c => c.runs.any fun r =>
      isLoad (stageW c.stages r.stage) && (stReel (stageW c.stages r.stage)).isNone &&
        (List.range r.occ).any fun i => decide (tv ≤ r.start + i) && c.rowAt kt r i == row

/-- The work of chunk i of an ALU or SFU stage run in vector cycle `tv` (R107–R112). A constant register read before a write
to it has landed is a hazard (Table 6.7). -/
def stageChunk (k tv : Nat) (r : StageRun) (i : Nat) (kt : Kite) : Kite :=
  match kt.chain with
  | none => kt
  | some c =>
    let w := stageW c.stages r.stage
    let kt := kt.hazardAtIf (kt.hzEn && stUsesVc w && kt.vq.any fun x => x.reg == stVc w && decide (tv < x.due)) k c.pc 2 2
    let j := r.slice
    let jt := j % c.f.slices
    let f := stFmt w
    let (i0, m) := chunkSpan c.f.n (stRate c.stages w) i
    let es := (List.range m).map (i0 + ·)
    if isDrain w then
      let xs := es.map fun e =>
        let (rr, cc) := c.f.coord e
        let a := kt.acc k (!kt.setB) (container kt.mcfg r.tile (jt * c.f.srN + rr) cc)
        if f = .acc40 then a
        else
          let v := layAcc40.decode a
          f.encode (if bit w 0 then v.mul (fp32 (stImm w)) else v)
      c.put k tv r.stage j i0 xs 0 0 [] kt
    else if isArith w then
      c.put k tv r.stage j i0 (es.map fun e => arithElem (bits w 0 3) f (c.raw kt k (stA w) j e) (c.second kt k w j jt e)) 0 0 [] kt
    else if isSfn w then
      c.put k tv r.stage j i0 (es.map fun e => sfu (stSfn w) (c.raw kt k (stA w) j e)) 0 0 [] kt
    else if isCvt w then
      let s := inFmt c.stages w
      let ex := sext 8 (stImm w)
      c.put k tv r.stage j i0 (es.map fun e => cvtElem s f ex (c.raw kt k (stA w) j e) (c.value kt k (stA w) j e)) 0 0 [] kt
    else if isQuant w then
      let vs := es.map fun e => c.value kt k (stA w) j e
      if f.isMx then
        let qs := (chunksOf 32 vs).map (quantMx f)
        c.put k tv r.stage j i0 (qs.flatMap (·.2)) 8 (i0 / 32) (qs.map (·.1)) kt
      else
        let qs := (chunksOf 64 vs).map fun xs => let g := quantScale f xs; (g, xs.map (quantCode f g))
        c.put k tv r.stage j i0 (qs.flatMap (·.2)) 16 (i0 / 64) (qs.map (·.1)) kt
    else if isMask w then
      let b := c.base w
      c.put k tv r.stage j i0 (es.map fun e =>
        let (rr, cc) := c.f.coord e
        let q := sext 32 (kt.velem k (stVc w) 32 (jt * c.f.srN + rr))
        let key : Int := ((b % 2 ^ 32 + r.tile * c.f.tcN + cc : Nat) : Int)
        if masked kt k (stMaskFn w) (bits w 0 14) (stImm w) (b / 2 ^ 32 % 2 ^ 32) q key then layFp32.infEnc true
        else Fmt.fp32.canon (c.rawAs kt k .fp32 (stA w) j e)) 0 0 [] kt
    else if isStat w then
      -- the row nodes are formed when the slice's last elements have been read
      if i + 1 = r.occ then
        let fn := bits w 0 2
        let stats := (List.range c.f.srN).foldl (fun st rr =>
          let leaves := (List.range c.f.tcN).map fun cc => some (statLeaf fn (c.rawAs kt k .fp32 (stA w) j (c.f.elem rr cc)))
          let node := Fmt.fp32.canon ((treeReduce (statOp fn) leaves).getD 0)
          mapUpd st (r.stage * 512 + jt * c.f.srN + rr) [] (· ++ [node])) c.stats
        { kt with chain := some { c with stats := stats } }
      else kt
    else kt

/-- What a KVAPP, SEND or EXPORT posts after the last row of its run (R113, R115, R116). -/
def stagePosts (k : Nat) (r : StageRun) (kt : Kite) : Kite :=
  match kt.chain with
  | none => kt
  | some c =>
    let w := stageW c.stages r.stage
    let jt := r.slice % c.f.slices
    if isKvapp w then
      let rows := c.kvRows kt k w r.slice jt
      if rows.isEmpty then kt else { kt with posts := kt.posts ++ [⟨bits w 12 2, .kv rows, none, c.pc⟩] }
    else if isSend w && jt + 1 == c.f.slices then
      let u := c.base w + r.tile * bits w 2 14
      { kt with posts := kt.posts ++ [⟨bits w 0 2,
          .send (BitVec.ofNat 64 (u / 16384 % 2 ^ 32 + u % 16384 * 2 ^ 32)) 0 (stReel w) (c.f.slices * r.occ),
          some (stImm w / 2 ^ 16), c.pc⟩] }
    else if isExport w then
      let kw := stageW c.stages (stA w)
      { kt with posts := kt.posts ++ [⟨bits kw 12 2,
          .note (c.base w % 2 ^ 32) (bits kw 0 7) (bits kw 7 4) (bits kw 11 1) (wrapRow (c.base kw)) c.f.trN, none, c.pc⟩] }
    else kt

/-- Whether a reel that a memory stage starts to use in vector cycle `tv` is not ready for a slice (R121). -/
def Kite.chainStalled (kt : Kite) (tv : Nat) : Bool :=
  match kt.chain with
  | none => false
  | some c => c.runs.any fun r =>
    let w := stageW c.stages r.stage
    r.start == tv && match stReel w with
      | some q => if isLoad w then decide ((kt.reel q).fill < r.occ) else decide ((kt.reel q).room < r.occ)
      | none => false

/-- The release of a drained set at the last occupied cycle of its last drain (R120). -/
def chainRelease (k tv : Nat) (kt : Kite) : Kite :=
  match kt.chain with
  | none => kt
  | some c =>
    let last := c.f.tiles * c.f.slices - 1
    if c.f.last = 1 && isDrain (stageW c.stages 1) && (c.runs.any fun r => r.stage == 1 && r.slice == last && r.start + r.occ == tv + 1)
    then (kt.hazardAtIf (kt.released (!kt.setB)) k c.pc 8 2).setReleased (!kt.setB) true
    else kt

/-- The row accesses of the chain in vector cycle `tv`: run, chunk and row. -/
def Kite.chainWants (kt : Kite) (tv : Nat) : Option (StageRun × Nat × Nat) :=
  match kt.chain with
  | none => none
  | some c =>
    (c.runs.find? fun r =>
      let w := stageW c.stages r.stage
      (isLoad w || isStore w || isSend w) && decide (r.start ≤ tv && tv < r.start + r.occ)).map fun r =>
        (r, tv - r.start, c.rowAt kt r (tv - r.start))

/-- The chain's own work of vector cycle `tv`, but for its row accesses and its release: chunks, postings, and the runs
that are done. -/
def chainCycle (k tv : Nat) (kt : Kite) : Kite :=
  match kt.chain with
  | none => kt
  | some c =>
    let live := c.runs.filter fun r => decide (r.start ≤ tv && tv < r.start + r.occ)
    let kt := live.foldl (fun kt r =>
      let w := stageW c.stages r.stage
      let kt := if stUnit w == .mem then kt else stageChunk k tv r (tv - r.start) kt
      let kt := if tv + 1 = r.start + r.occ then stagePosts k r kt else kt
      { kt with cTile := r.tile }) kt
    match kt.chain with
    | none => kt
    | some c' => { kt with chain := some { c' with runs := c'.runs.filter fun r => decide (tv + 1 < r.start + r.occ) } }

/-- A narrow access of the vector memory unit. -/
def Narrow.isVec : Narrow → Bool
  | .vec _ _ _ => true
  | .stage _ _ _ => true
  | .map _ => true
  | _ => false

/-- Whether the chain has come to its end by vector cycle `tv`: its last row is not waiting for its bank (R119, R132). -/
def Kite.chainDue (kt : Kite) (tv : Nat) : Bool :=
  (match kt.chain with
   | some c => decide (c.tEnd ≤ tv)
   | none => false) && !kt.retry.any Narrow.isVec

/-- CHAIN_END: the STAT results reach their registers, and the units are free from the next cycle (R112, R119). -/
def chainFinish (k tv : Nat) (kt : Kite) : Kite :=
  match kt.chain with
  | none => kt
  | some c =>
    if tv < c.tEnd then kt
    else
      let kt := c.stats.foldl (fun kt (key, nodes) =>
        let w := stageW c.stages (key / 512)
        let fn := bits w 0 2
        let node := (treeReduce (statOp fn) (nodes.map some)).getD 0
        let v := if bit w 2 then statOp fn (kt.velem k (stVc w) 32 (key % 512)) node else node
        kt.vset k (stVc w) (key % 512 * 32) 32 v) kt
      { kt with chain := none, cChains := wrapAdd 32 kt.cChains 1 }

end Sys2Proof.Machine
end

