-- ==== Sys2Proof/Machine/Keel.lean ====
section
/-! DEFINITION. The keel's part of the C slot, over one kite: checks at issue and effects of the scalar instructions, and
the sequencing of balanced branches and loops (R150–R166, R182–R186). A check answers the exception found at issue;
an effect is what the instruction does in its issue cycle, local cycle `t`. -/
namespace Sys2Proof.Machine

/-! ### Scalar arithmetic (Table 9.2) -/

/-- A two-operand result: SD := `v`, readable from t + `lat`. -/
def effAlu (lat : Nat) (op : Word → Word → Word) (k t : Nat) (f : CR) (kt : Kite) : Kite :=
  (kt.readHaz k 0 [.s f.sa.toNat, .s f.sb.toNat]).result k (.s f.sd.toNat) (t + lat) (op (kt.s f.sa) (kt.s f.sb))

/-- The reserved field of format CR. -/
def chkCr (f : CR) : Option Exc := illegalIf (f.rsv != 0)

/-- MOV needs SB = 0 (R182). -/
def chkMov (f : CR) : Option Exc := illegalIf (f.rsv != 0 || f.sb != 0)

/-- An immediate result: SD := SA op IMM. -/
def effAluI (lat : Nat) (op : Word → BitVec 16 → Word) (k t : Nat) (f : CI) (kt : Kite) : Kite :=
  (kt.readHaz k 0 [.s f.sa.toNat]).result k (.s f.sd.toNat) (t + lat) (op (kt.s f.sa) f.imm)

/-- Immediate shifts need IMM16[15:6] = 0 (R182). -/
def chkShi (f : CI) : Option Exc := illegalIf (64 ≤ f.imm.toNat)

/-- The shift count of a register shift: SB[5:0]. -/
def shCount (b : Word) : Nat := b.toNat % 64

/-- SEL: SA if flag FL is 1, else SB. -/
def effSel (k t : Nat) (f : CR) (kt : Kite) : Kite :=
  (kt.readHaz k 0 [.s f.sa.toNat, .s f.sb.toNat, .f f.fl.toNat]).result k (.s f.sd.toNat) (t + 1)
    (if kt.freg f.fl.toNat then kt.s f.sa else kt.s f.sb)

/-- LIH: SD[16H + 15 : 16H] := IMM16. -/
def lihValue (old : Word) (h : BitVec 2) (imm : BitVec 16) : Word :=
  let sh := 16 * h.toNat
  (old &&& ~~~((0xFFFF : Word) <<< sh)) ||| (imm.zeroExtend 64 <<< sh)

/-- LD and ST beyond the scratchpad are exception SCALAR_ADDR; ST needs SIGN = 0 (R184). -/
def chkMem (store : Bool) (kt : Kite) (f : CM) : Option Exc :=
  if store && f.sign != 0 then some .illegal
  else if spadBytes ≤ memAddr kt f then some .scalarAddr else none

/-- Address of a scalar access with its low SIZE bits ignored (R184). -/
def memAligned (kt : Kite) (f : CM) : Nat := memAddr kt f / sizeBytes f.size * sizeBytes f.size

/-- LD: a narrow access in t + 1 (Table 8.2). -/
def effLd (k t : Nat) (f : CM) (kt : Kite) : Kite :=
  let kt' := kt.readHaz k 0 [.s f.sbase.toNat]
  { kt' with narrow := kt'.narrow ++ [.ld f.sr.toNat (memAligned kt f) (sizeBytes f.size) (f.sign == 1) (t + 1) kt.ipc] }

/-- ST: a narrow access in t + 1, written at its end. -/
def effSt (k t : Nat) (f : CM) (kt : Kite) : Kite :=
  let kt' := kt.readHaz k 0 [.s f.sbase.toNat, .s f.sr.toNat]
  { kt' with narrow := kt'.narrow ++ [.st (memAligned kt f) (sizeBytes f.size) (kt.s f.sr) (t + 1) kt.ipc] }

/-- Value of a load of `n` bytes: zero- or sign-filled (R184). -/
def loadValue (n : Nat) (sign : Bool) (v : Nat) : Word :=
  if sign then BitVec.ofInt 64 (sext (8 * n) v) else BitVec.ofNat 64 v

/-! ### Frames of BRB and LOOP (R164–R166) -/

/-- The innermost frame that forbids an anchor, STEPEND or HALT: a BRB arm, or a loop of a register count. The bundle of the
BRB or LOOP itself lies outside what it opens. -/
def frameBar (kt : Kite) : Option Exc :=
  match kt.frames.find? (fun f => match f with
    | .brb a _ _ _ _ => a != kt.ipc
    | .loop start _ _ _ reg _ => reg && start != kt.ipc + 1) with
  | some (.brb _ _ _ _ _) => some .brbAnchor
  | some (.loop _ _ _ _ _ _) => some .loopAnchor
  | none => none

/-- Bundle of program memory at an address (R177). -/
def Kite.bundle (kt : Kite) (k a : Nat) : Nat := (mapGet kt.pmem a).getD (Config.freeBundle k a).toNat

/-- Opcode of a bundle's C slot. -/
def cOp (b : Nat) : Nat := bits b 250 6

/-- Issue cycles of the bundles from `a` to `last`, padding of nested constructs included: what one iteration of a
loop body takes (R165). On a fuel of bundle addresses. -/
def walkCycles (kt : Kite) (k : Nat) : Nat → Nat → Nat → Nat
  | 0, _, _ => 0
  | f + 1, a, last =>
    if last < a then 0
    else
      let b := kt.bundle k a
      if cOp b = 0x28 then 1 + bits b 16 16 + walkCycles kt k f (a + bits b 230 13) last
      else if cOp b = 0x29 then
        let body := bits b 236 13
        let n := if bit b 249 then bits b 0 27 else bits b 0 32
        1 + n * walkCycles kt k f (a + 1) (a + body) + walkCycles kt k f (a + body + 1) last
      else 1 + walkCycles kt k f (a + 1) last

/-- BRB's checks: reserved fields and ranges (R186), targets, nesting (R166). -/
def chkBrb (kt : Kite) (f : CB) : Option Exc :=
  if f.rsv != 0 || f.rsvx != 0 || (f.csrc == 0 && 8 ≤ f.reg.toNat) || f.offt == 0
      || f.offj.toNat < f.offt.toNat || f.len == 0 || 8191 < kt.ipc + f.offj.toNat then some .illegal
  else if 8 ≤ kt.frames.length then some .nestDepth else none

/-- Whether BRB's condition holds (R164, R186). -/
def brbCond (kt : Kite) (f : CB) : Bool :=
  (if f.csrc = 0 then kt.freg (f.reg.toNat % 8) else kt.s f.reg != 0) != (f.inv == 1)

/-- BRB: opens a frame and goes to the arm (R164). -/
def effBrb (k t : Nat) (f : CB) (kt : Kite) : Kite :=
  let r : SReg := if f.csrc = 0 then .f (f.reg.toNat % 8) else .s f.reg.toNat
  let kt' := kt.readHaz k 0 [r]
  let j := kt.ipc + f.offj.toNat
  let armT := kt.ipc + f.offt.toNat
  let c := brbCond kt f
  { kt' with
    frames := .brb kt.ipc t f.len.toNat (if c then j else armT) j :: kt'.frames
    pc := if c then armT else kt.ipc + 1 }

/-- The count register of LOOP and its MAX (R186). -/
def loopCount (kt : Kite) (f : CP) : Nat :=
  if f.csrc = 0 then f.ext.toNat else (kt.sreg (f.ext.toNat / 2 ^ 27)).toNat

/-- MAX of a LOOP with a register count. -/
def loopMax (f : CP) : Nat := f.ext.toNat % 2 ^ 27

/-- LOOP's checks (R165, R166, R186). -/
def chkLoop (kt : Kite) (f : CP) : Option Exc :=
  if f.rsv != 0 || f.body == 0 || 8191 < kt.ipc + f.body.toNat + 1 then some .illegal
  else if 8 ≤ kt.frames.length then some .nestDepth
  else if f.csrc == 1 && loopMax f < loopCount kt f then some .loopOver else none

/-- LOOP: runs its body n times, with (MAX − n) × L cycles of padding after a register count (R165). -/
def effLoop (k t : Nat) (f : CP) (kt : Kite) : Kite :=
  let kt' := if f.csrc = 0 then kt else kt.readHaz k 0 [.s (f.ext.toNat / 2 ^ 27)]
  let n := loopCount kt f
  let start := kt.ipc + 1
  let last := kt.ipc + f.body.toNat
  let pad := if f.csrc = 0 then 0 else (loopMax f - n) * walkCycles kt k 8192 start last
  if n = 0 then
    if pad = 0 then { kt' with pc := last + 1 }
    else { kt' with frames := .loop start last 0 pad true (some (t + pad)) :: kt'.frames, pc := last + 1 }
  else { kt' with frames := .loop start last n pad (f.csrc == 1) none :: kt'.frames, pc := start }

/-- Where the keel stands at the end of local cycle `t`: loop ends without padding are taken at once; an arm at its end
and a loop with padding leave the keel padding (R164, R165). On a fuel above the nesting depth. -/
def settle (t : Nat) : Nat → Kite → Kite
  | 0, kt => kt
  | n + 1, kt =>
    match kt.frames with
    | .loop start last left pad reg none :: rest =>
      if kt.pc = last + 1 then
        if 1 < left then { kt with frames := .loop start last (left - 1) pad reg none :: rest, pc := start, st := .issuing }
        else if pad = 0 then settle t n { kt with frames := rest, st := .issuing }
        else { kt with frames := .loop start last 0 pad reg (some (t + pad)) :: rest, st := .padding }
      else { kt with st := .issuing }
    | .loop _ _ _ _ _ (some e) :: rest => if e ≤ t then settle t n { kt with frames := rest, st := .issuing } else { kt with st := .padding }
    | .brb _ _ _ armEnd _ :: _ =>
      if kt.pc = armEnd then { kt with st := .padding } else { kt with st := .issuing }
    | [] => { kt with st := .issuing }

/-- Whether the padding of the innermost frame runs out at the end of local cycle `t`. -/
def padDue (t : Nat) (kt : Kite) : Bool :=
  match kt.frames with
  | .brb _ t0 len armEnd _ :: _ => kt.pc == armEnd && t0 + len == t
  | .loop _ _ _ _ _ (some e) :: _ => decide (e ≤ t)
  | _ => false

/-- Close the innermost frame where its padding ends, and every outer one that ends with it. -/
def closePads (t : Nat) : Nat → Kite → Kite
  | 0, kt => kt
  | n + 1, kt =>
    if padDue t kt then
      match kt.frames with
      | .brb _ _ _ _ join :: rest => closePads t n (settle t 9 { kt with frames := rest, pc := join })
      | .loop _ _ _ _ _ _ :: rest => closePads t n (settle t 9 { kt with frames := rest })
      | [] => kt
    else kt

/-- Whether an arm still open needs more than LEN issue cycles, `t` being the cycle about to begin (R164). -/
def armOverlong (t : Nat) (kt : Kite) : Bool :=
  kt.frames.any fun f => match f with
    | .brb _ t0 len _ _ => decide (t0 + len < t)
    | .loop _ _ _ _ _ _ => false

/-- STEPEND: the step's cycles from G and its holds are recorded (R160). -/
def effStepend (cyc : Nat) (kt : Kite) : Kite :=
  { kt with
    stepCycles := (cyc - kt.goCycle) % 2 ^ 32, stepHolds := (kt.lag - kt.goLag) % 2 ^ 32, stepDone := true }

/-- STEPEND's checks (R160, R164, R165). -/
def chkStepend (kt : Kite) (f : CZ) : Option Exc :=
  orExc (illegalIf (f.rsv != 0)) (orExc (frameBar kt) (if kt.stepDone then some .stependTwice else none))

/-- HALT's checks. -/
def chkHalt (kt : Kite) (f : CZ) : Option Exc := orExc (illegalIf (f.rsv != 0)) (frameBar kt)

/-- Abandon every padding in which the keel stands at the end of local cycle `t` (R442): PC is the bundle that follows the
construct, wherever the constructs around it then lead. On a fuel above the nesting depth. -/
def leavePads (t : Nat) : Nat → Kite → Kite
  | 0, kt => kt
  | n + 1, kt =>
    if kt.st = .padding then
      match kt.frames with
      | .brb _ _ _ _ join :: rest => leavePads t n (settle t 9 { kt with frames := rest, pc := join })
      | .loop _ last _ _ _ _ :: rest => leavePads t n (settle t 9 { kt with frames := rest, pc := last + 1 })
      | [] => kt
    else kt

/-- A halt of R442 at the end of local cycle `t`: waits and paddings are abandoned. -/
def haltNow (t : Nat) (kt : Kite) : Kite :=
  let kt := match kt.anchor with
    | some a => { (kt.setReg (.f a.fd) 0) with anchor := none }
    | none => kt
  let kt := leavePads t 9 (if kt.st = .padding then kt else settle t 9 kt)
  { kt with st := .halted, reqEnd := false, haltEnd := false, byReq := true, haltAt := t }

/-- The frames of a keel that resumes `d` local cycles after its halt: their times move with it. -/
def shiftFrame (d : Nat) : Frame → Frame
  | .brb a t0 len armEnd join => .brb a (t0 + d) len armEnd join
  | .loop start last left pad reg padEnd => .loop start last left pad reg (padEnd.map (· + d))

end Sys2Proof.Machine
end

