-- ==== Sys2Proof/Machine/Kte.lean ====
section
/-! DEFINITION. A kite's register window, KTE (§4.11, §5.10, §6.8, §7.7, §8.10, §10.7), 64 bits at a time, and the kite's
answers to writes of it from the host and from its own keel (R8, R104, R141, R146, R147, R149, R153, R185). -/
namespace Sys2Proof.Machine

/-- Fields placed side by side, lowest first, each a width and a value. -/
def fields : List (Nat × Nat) → Nat
  | [] => 0
  | (w, v) :: rest => v % 2 ^ w + 2 ^ w * fields rest

/-- KTE.KSTAT.STATE (§8.10). -/
def Kite.stateCode (kt : Kite) : Nat :=
  match kt.st with
  | .halted => 0
  | .exc => 6
  | _ =>
    if kt.hold.isSome then 3
    else match kt.st with
      | .issuing => 1
      | .anchor => 2
      | .tickwait => 4
      | .padding => 5
      | _ => 7

/-- Code of a bank state (Table 7.5). -/
def BankSt.code : BankSt → Nat
  | .on => 0
  | .closing _ => 1
  | .off => 2
  | .waking _ => 3

/-- The register at byte offset `off` (a multiple of 8), as it stands at the end of cycle `cyc`; none where there is no
register. -/
def kteRead (k cyc : Nat) (kt : Kite) (off : Nat) : Option Word :=
  let t := kt.t cyc
  let tv := kt.tv cyc
  let w (l : List (Nat × Nat)) : Option Word := some (BitVec.ofNat 64 (fields l))
  if 0x8000 ≤ off && off < 0x10000 then
    let o := off - 0x8000
    if 0x110 ≤ o % 0x200 then none
    else
      let word := kt.chainWord k (o / 0x200 * 32 + o % 0x200 / 16)
      some (BitVec.ofNat 64 (word / 2 ^ (64 * (o / 8 % 2))))
  else if 0x800 ≤ off && off < 0xA00 then
    let r := kt.reel ((off - 0x800) / 16)
    if off % 16 = 0 then w [(14, r.base), (4, r.logsz), (1, b2n r.en)] else w [(32, r.head), (32, r.tail)]
  else
    match off with
    | 0x000 => w []
    | 0x008 => w [(3, kt.stateCode), (13, kt.pc), (4, kt.frames.length)]
    | 0x010 => w [(8, kt.excCode), (3, kt.excSlot), (13, kt.excPc), (1, b2n kt.excValid)]
    | 0x018 => w [(48, kt.hTotal)]
    | 0x020 => w [(16, kt.hAnchor), (16, kt.hQfull), (16, kt.hThermal), (16, kt.hTimeout)]
    | 0x028 => w [(32, kt.stepCycles), (32, kt.stepHolds)]
    | 0x030 => w [(1, b2n kt.hzEn), (1, b2n kt.hzMode)]
    | 0x038 => w [(8, kt.hzCode), (13, kt.hzPc), (3, kt.hzSlot), (8, 0), (32, kt.hzCount)]
    | 0x040 => w [(64, cyc)]
    | 0x048 => w [(32, kt.unit), (32, kt.knum)]
    | 0x100 => let c := kt.chan 0; w [(4, c.queue.length), (4, c.status), (16, c.errcnt), (40, c.done)]
    | 0x108 => let c := kt.chan 1; w [(4, c.queue.length), (4, c.status), (16, c.errcnt), (40, c.done)]
    | 0x110 => let c := kt.chan 2; w [(4, c.queue.length), (4, c.status), (16, c.errcnt), (40, c.done)]
    | 0x118 => let c := kt.chan 3; w [(4, c.queue.length), (4, c.status), (16, c.errcnt), (40, c.done)]
    | 0x200 => w [(13, kt.pmAddr)]
    | 0x208 => some (BitVec.ofNat 64 (kt.bundle k kt.pmAddr))
    | 0x210 => some (BitVec.ofNat 64 (kt.bundle k kt.pmAddr / 2 ^ 64))
    | 0x218 => some (BitVec.ofNat 64 (kt.bundle k kt.pmAddr / 2 ^ 128))
    | 0x220 => some (BitVec.ofNat 64 (kt.bundle k kt.pmAddr / 2 ^ 192))
    | 0x400 => w [(1, b2n kt.setB), (1, b2n kt.relA), (1, b2n kt.relB), (1, b2n (!kt.passes.isEmpty)),
        (1, b2n (kt.mQueued (t + 1))), (2, kt.ramp (t + 1))]
    | 0x408 => w [(1, 0), (1, b2n kt.drain.isNone), (1, b2n kt.mtSet), (14, kt.mtRow)]
    | 0x410 => w [(48, kt.mPasses), (16, kt.mOverflow)]
    | 0x418 => w [(48, kt.mEntry), (16, kt.mInflate)]
    | 0x420 => w [(32, kt.mSwap), (32, kt.mStarve)]
    | 0x500 => w [(1, b2n (kt.vbusy .alu tv)), (1, b2n (kt.vbusy .sfu tv)), (1, b2n (kt.vbusy .mem tv))]
    | 0x508 => w [(32, kt.vDiscard), (16, kt.vCountBad)]
    | 0x510 => w [(48, kt.vOps)]
    | 0x518 => w [(48, kt.vSfuOps)]
    | 0x600 => w [(1, b2n kt.chain.isSome), (6, kt.cCh), (8, kt.cTile)]
    | 0x608 => w [(32, kt.cChains), (16, kt.cStall), (16, kt.cKvfail)]
    | 0x700 => w [(8, 16), (16, 1024), (10, 512), (6, 32)]
    | 0x708 => w ([(32, 0)] ++ (List.range 16).map fun b => (2, (kt.bank b).st.code))
    | 0x710 => w [(16, kt.pwrBusy), (16, kt.pwrAbort)]
    | 0x718 => w [(32, kt.eccCorr), (8, kt.eccUncorr), (5, kt.repairQ.length), (16, kt.eccLost)]
    | 0x720 => w [(16, kt.confN), (16, kt.confW), (16, kt.bankOff), (16, kt.reelBad)]
    | _ => none

/-- Whether a byte offset holds a register (R185). -/
def kteHas (off : Nat) : Bool := (kteRead 0 0 {} off).isSome

/-- A write that a rule ignores, logged as class V (Table 19.3). -/
def Kite.ignored (kt : Kite) (k : Nat) : Kite := kt.event k .v evRegIgnored

/-! ### Banks (R147, R149) -/

/-- Set a bank's state. -/
def Kite.setBank (kt : Kite) (b : Nat) (st : BankSt) : Kite :=
  { kt with banks := mapUpd kt.banks b {} fun x => { x with st := st } }

/-- A bank goes OFF: its contents and its repair entries are lost (R147, R148). -/
def Kite.bankGoesOff (kt : Kite) (b : Nat) : Kite :=
  { kt.setBank b .off with
    rows := kt.rows.filter fun x => bankOf x.1 != b
    bad := kt.bad.filter fun x => bankOf x.1 != b
    soft := kt.soft.filter fun x => bankOf x.1 != b
    repairQ := kt.repairQ.filter fun r => bankOf r != b }

/-- OFF_REQ bits written in cycle `cyc`: an ON bank is CLOSING from its end (R147). -/
def offReq (cyc mask : Nat) (kt : Kite) : Kite :=
  (List.range 16).foldl (fun kt b =>
    if bit mask b then
      match (kt.bank b).st with
      | .on => kt.setBank b (.closing cyc)
      | _ => kt
    else kt) kt

/-- ON_REQ bits: an OFF bank wakes (R149); a CLOSING one returns to ON with ABORT set (R147). -/
def onReq (cyc mask : Nat) (kt : Kite) : Kite :=
  (List.range 16).foldl (fun kt b =>
    if bit mask b then
      match (kt.bank b).st with
      | .off => { kt with banks := mapUpd kt.banks b {} fun x => { st := .waking cyc, gen := x.gen + 1 } }
      | .closing _ => { kt.setBank b .on with pwrAbort := kt.pwrAbort ||| 2 ^ b }
      | _ => kt
    else kt) kt

/-- A write of KTE.SPAD_PWR in cycle `cyc`: each request is judged by the state its bank has at the write (R147, R149). -/
def pwrReq (cyc v : Nat) (kt : Kite) : Kite :=
  let on := (List.range 16).foldl (fun m b => if (kt.bank b).st == .on then m ||| 2 ^ b else m) 0
  offReq cyc (bits v 0 16 &&& on) (onReq cyc (bits v 16 16) kt)

/-! ### Reels (R141, R146) -/

/-- Reels that an anchor, a pass, a chain or a descriptor of the kite names (R146). -/
def Kite.reelInUse (kt : Kite) (r : Nat) : Bool :=
  (match kt.anchor with
   | some a => match a.on with
     | .reel q _ _ => q == r
     | _ => false
   | none => false) ||
  kt.passes.any (fun p => [false, true].any fun b => (p.operand b).2.2.2.2 && (p.operand b).2.2.1 == r) ||
  (match kt.chain with
   | some c => c.stages.any fun w => stReel w == some r
   | none => false) ||
  kt.descs.any (fun d => d.reel == some r) || kt.inb.any fun i => i.reel == some r

/-- Whether an uncompleted descriptor of the kite sends to reel `r` of kite `k` (R146). -/
def Kite.sendsTo (kt : Kite) (k r : Nat) : Bool :=
  kt.descs.any fun d => match d.kind with
    | .send k2 _ (some q) => k2 == k && q == r
    | _ => false

/-- A write of KTE.REEL_CFG: accepted with HEAD and TAIL at 0, or refused (R141, R146). `peers` are the reels of the kite that
descriptors of other kites name. -/
def reelCfg (k : Nat) (peers : List Nat) (r v : Nat) (kt : Kite) : Kite :=
  let base := bits v 0 14
  let lg := bits v 14 4
  if kt.reelInUse r || peers.contains r then { (kt.event k .s evReelBusy) with reelBad := satAdd 16 kt.reelBad 1 }
  else if 14 < lg || spadRows < base + 2 ^ lg then { (kt.event k .s evReelBad) with reelBad := satAdd 16 kt.reelBad 1 }
  else { kt with reels := mapSet kt.reels r ⟨base, lg, bit v 18, 0, 0⟩ }

/-! ### Program and chain memory (R104, R153, §8.10) -/

/-- A staged word of program memory. -/
def Kite.staged (kt : Kite) (k w : Nat) : Nat := (mapGet kt.pmStage w).getD (Config.freeStage k w).toNat

/-- A write of KTE.PMEM_DATA word w while the keel is stopped: word 3 stores the bundle and advances ADDR (§8.10). -/
def pmemWrite (k w v : Nat) (kt : Kite) : Kite :=
  let st := mapSet kt.pmStage w (v % 2 ^ 64)
  let kt' := { kt with pmStage := st }
  if w = 3 then
    let b := kt'.staged k 0 + 2 ^ 64 * kt'.staged k 1 + 2 ^ 128 * kt'.staged k 2 + 2 ^ 192 * kt'.staged k 3
    { kt' with pmem := mapSet kt'.pmem kt'.pmAddr b, pmAddr := (kt'.pmAddr + 1) % 8192 }
  else kt'

/-- A write of 64 bits of chain memory at offset `o` within it (R104). -/
def chainMemWrite (k o v : Nat) (kt : Kite) : Kite :=
  let i := o / 0x200 * 32 + o % 0x200 / 16
  { kt with chainMem := mapSet kt.chainMem i (setBits (kt.chainWord k i) (64 * (o / 8 % 2)) 64 v) }

/-! ### Test drain (R86) -/

/-- A write of KTE.MTEST in cycle `cyc`: SET and ROW are set; GO starts a drain where the keel is stopped. -/
def mtestWrite (k cyc v : Nat) (kt : Kite) : Kite :=
  let kt := { kt with mtSet := bit v 2, mtRow := bits v 3 14 }
  if !bit v 0 then kt
  else if kt.stopped then { kt with drain := some ⟨cyc, bit v 2, bits v 3 14, 0⟩ }
  else kt.ignored k

/-! ### Writes by the keel (R185) -/

/-- A CSRW that takes effect in cycle `cyc`: by the access codes of each register (R8), with the refusals of R185. -/
def csrWrite (k : Nat) (peers : List Nat) (cyc off : Nat) (v : Word) (kt : Kite) : Kite :=
  let x := v.toNat
  if 0x8000 ≤ off then chainMemWrite k (off - 0x8000) x kt
  else if 0x800 ≤ off && off < 0xA00 then (if off % 16 = 0 then reelCfg k peers ((off - 0x800) / 16) x kt else kt)
  else
    match off with
    | 0x000 => kt.ignored k
    | 0x010 => if bit x 24 then { kt with excValid := false } else kt
    | 0x030 => { kt with hzEn := bit x 0, hzMode := bit x 1 }
    | 0x200 => kt.ignored k
    | 0x208 => kt.ignored k
    | 0x210 => kt.ignored k
    | 0x218 => kt.ignored k
    | 0x220 => kt.ignored k
    | 0x408 => mtestWrite k cyc x kt
    | 0x708 => pwrReq cyc x kt
    | 0x710 => { kt with
        pwrBusy := kt.pwrBusy &&& (0xFFFF ^^^ bits x 0 16), pwrAbort := kt.pwrAbort &&& (0xFFFF ^^^ bits x 16 16) }
    | _ => kt

/-- CSRR's and CSRW's checks (R185). -/
def chkCsr (f : CS) : Option Exc :=
  if f.rsv != 0 then some .illegal else if kteHas (f.off.toNat * 8) then none else some .csrAddr

/-- CSRR: the register is sampled at the end of this cycle; SR is readable from t + 4. -/
def effCsrr (t : Nat) (f : CS) (kt : Kite) : Kite :=
  { kt with csr := kt.csr ++ [⟨t, f.off.toNat * 8, false, 0, f.sr.toNat⟩] }

/-- CSRW: takes effect at the end of cycle t + 2. -/
def effCsrw (k t : Nat) (f : CS) (kt : Kite) : Kite :=
  let kt' := kt.readHaz k 0 [.s f.sr.toNat]
  { kt' with csr := kt'.csr ++ [⟨t + 2, f.off.toNat * 8, true, kt.s f.sr, f.sr.toNat⟩] }

/-- The keel's writes to its window that take effect at the end of local cycle `t` (R185). -/
def csrWrites (k : Nat) (peers : List Nat) (cyc t : Nat) (kt : Kite) : Kite :=
  let due (o : CsrOp) : Bool := o.wr && decide (o.due ≤ t)
  (kt.csr.filter due).foldl (fun kt o => csrWrite k peers cyc o.off o.val kt) { kt with csr := kt.csr.filter fun o => !due o }

/-- The keel's reads of its window that sample at the end of local cycle `t`, after every change of that cycle (R185). -/
def csrReads (k cyc t : Nat) (kt : Kite) : Kite :=
  let due (o : CsrOp) : Bool := !o.wr && decide (o.due ≤ t)
  (kt.csr.filter due).foldl (fun kt o =>
      let kt := kt.result k (.s o.sr) (o.due + 4) ((kteRead k cyc kt o.off).getD 0)
      if o.off = 0x220 then { kt with pmAddr := (kt.pmAddr + 1) % 8192 } else kt)
    { kt with csr := kt.csr.filter fun o => !due o }

end Sys2Proof.Machine
end

