-- ==== Sys2Proof/Machine/DevState.lean ====
section
/-! DEFINITION. The state of the module outside its kites: the error log and tick records (file 19), units and bridles
(file 10), memory and the page manager (files 11, 12), the step scheduler (file 13), export (file 14), ports (file 15),
host queues (file 16), clocks, power and ageing (file 17), boot, flash and security (file 18) and pins (file 20). Every
field is plain data; its default is its value at reset. Times: `tb` values are timebase nanoseconds, `now` values are
nanoseconds of real time since reset, fabric times count thirds of an arithmetic cycle. -/
namespace Sys2Proof.Machine

/-! ### Errors and telemetry (file 19) -/

/-- An error log record (Table 19.2). -/
structure LogRec where
  time : Nat
  seq : Nat
  ev : Ev
  count : Nat
  deriving DecidableEq, Repr

/-- What the tick record of a window gathers as its events are stamped (Table 19.4). Times in µs. -/
structure Win where
  l : Nat := 0
  u : Nat := 0
  holdMax : Nat := 0
  duty : Nat := 0
  power : Nat := 0
  overrun : Bool := false
  lost : Bool := false
  cut : Bool := false
  thermal : Bool := false
  high : Bool := false
  accepted : Nat := 0
  refused : Nat := 0
  done : Nat := 0
  ended : Nat := 0
  latMax : Nat := 0
  marginMin : Nat := 0xFFFFFFFF
  latSum : Nat := 0
  deriving DecidableEq, Repr

/-- The TEL block. -/
structure Tel where
  ring : Map LogRec := []
  head : Nat := 0
  tail : Nat := 0
  seq : Nat := 0
  newest : Option LogRec := none
  newestPos : Nat := 0
  lost : Nat := 0
  thresh : Nat := 1024
  cnt : Map Nat := []
  tEn : Bool := false
  tLogd : Nat := 0
  tFail : Nat := 0
  tHost : Nat := 0
  xEn : Bool := false
  xTarget : Nat := 0
  xFail : Nat := 0
  recs : Map (List Byte) := []
  wins : Map Win := []
  deriving DecidableEq, Repr

/-! ### Units and bridles (file 10) -/

/-- A run of a placement table (R205): consecutive unit-relative kites on one module. -/
structure Run where
  first : Nat
  count : Nat
  modId : Nat
  kite : Nat
  deriving DecidableEq, Repr

/-- A bridle run (R207). -/
structure BRun where
  modId : Nat
  first : Nat
  len : Nat
  deriving DecidableEq, Repr

/-- A user train (R206, R207). Module ID 0xF_FFFF stands for this module. -/
structure Train where
  members : List (Nat × Nat)
  runs : List Run
  bruns : List BRun
  deriving DecidableEq, Repr

/-- A launch descriptor (Table 10.3). -/
structure LDesc where
  unit : Nat
  n : Nat
  image : Nat
  digest : Nat
  nbun : Nat
  nch : Nat
  zb : Bool
  entry : Nat
  arg : Nat
  deriving DecidableEq, Repr

/-- A unit command in progress (R208, R214): what it does and the modules that have yet to answer. -/
structure UnitOp where
  kind : Nat
  unit : Nat
  train : Option Train
  launch : Option LDesc
  waiting : List Nat
  status : Nat
  since : Nat
  tag : Nat
  deriving DecidableEq, Repr

/-- A wait registered at a bridle's home (R219): judged from fabric cycle `from_` on; `expiry` is the arithmetic cycle by whose
end the last fabric cycle in which it is judged ends, none where there is no timeout. -/
structure BWait where
  kite : Nat
  bridle : Nat
  theta : Nat
  from_ : Nat
  expiry : Option Nat
  deriving DecidableEq, Repr

/-- Something on its way to a bridle's home: a signal, or a write of COUNT, with the fabric cycle that applies it. -/
structure BArr where
  bridle : Nat
  fab : Nat
  amt : Nat
  count : Bool
  deriving DecidableEq, Repr

/-- A notice on its way to a kite (R220): the arithmetic cycle at whose end it is held. -/
structure Notice where
  kite : Nat
  bridle : Nat
  cyc : Nat
  deriving DecidableEq, Repr

/-- Units and bridles. -/
structure Brd where
  trains : Map Train := []
  desc : Map Byte := []
  cmdUnit : Nat := 0
  status : Nat := 0
  op : Option UnitOp := none
  prepared : Map LDesc := []
  /-- Trains that another module's DEFINE installed here: its module and tag; and the DEFINEs of this module that failed, by tag,
  so that an installation that is reported late is undone too (R208). -/
  defs : Map (Nat × Nat) := []
  undone : Map Nat := []
  /-- The last successful LAUNCH of each unit, until a HALT_UNIT of it or a launch of one of its kites elsewhere (R285). -/
  launches : Map LDesc := []
  tag : Nat := 0
  counts : Map Nat := []
  waits : List BWait := []
  arrivals : List BArr := []
  notices : List Notice := []
  nRange : Nat := 0
  nRefused : Nat := 0
  nDrop : Nat := 0
  nLost : Nat := 0
  deriving DecidableEq, Repr

/-! ### Memory and the page manager (files 11, 12) -/

/-- State of a frame (Table 11.5). FREE frames, TAIL entries and the reserved extent are not listed. -/
inductive FrSt where
  | alloc | quar | table | retired
  deriving DecidableEq, Repr

/-- The page frame table entry of a frame's first 4 KiB. -/
structure Frame4 where
  st : FrSt
  cls : Nat
  retire : Bool := false
  cecnt : Nat := 0
  refcnt : Nat := 0
  qepoch : Nat := 0
  deriving DecidableEq, Repr

/-- A leaf of an address space: offset in its region, log₂ size, protection and frame address. -/
structure Leaf where
  off : Nat
  size : Nat
  wp : Bool
  frame : Nat
  deriving DecidableEq, Repr

/-- An address space with a root: its level-1 table, its lower tables (64 of level 2 by x[35:30], those of level 3 from
key 64 by x[35:21]) and its leaves in rising offset. -/
structure Space where
  root : Nat
  tabs : Map Nat := []
  leaves : List Leaf := []
  deriving DecidableEq, Repr

/-- A queued edit (R239, R240, R242), and whether the host issued it. -/
inductive EditKind where
  | map (space va frame size : Nat) (wp adopt : Bool)
  | unmap (space va : Nat)
  | inc (frame : Nat)
  | dec (frame : Nat)
  /-- DROPSPACE, with the edits it counted as when it was queued (R448). -/
  | drop (space w : Nat)
  | remap (space va old new_ : Nat)
  deriving DecidableEq, Repr

structure Edit where
  kind : EditKind
  host : Bool
  deriving DecidableEq, Repr

/-- A detached space whose leaves and tables are still to be released (R449). -/
structure Dropping where
  space : Nat
  leaves : List Leaf
  tabs : List Nat
  host : Bool
  deriving DecidableEq, Repr

/-- A migration (R242): `left` is the copy time still to run, in thirtieths of a ns; `bad` once a write reached the old frame, its
granule was unmapped or its count rose. -/
structure Mig where
  space : Nat
  va : Nat
  old : Nat
  new_ : Nat
  cls : Nat
  left : Nat
  copied : Bool
  bad : Bool
  host : Bool
  deriving DecidableEq, Repr

/-- A pin (R241): a frame held by an export stream, with the epoch it was taken in. -/
structure Pin where
  frame : Nat
  epoch : Nat
  stream : Nat
  deriving DecidableEq, Repr

/-- A prefix index entry (Table 12.5). Keys and digests are 256-bit numbers, little-endian over their bytes. -/
structure PEntry where
  pkey : Nat
  mdig : Nat
  j : Nat
  nv : Nat
  nl : Nat
  imported : Bool
  hit : Nat
  frames : List Nat
  digs : List Nat
  tokens : List Nat
  place : Nat
  deriving DecidableEq, Repr

/-- Memory of both tiers and its page manager. `mem` lists the bytes that are not zero (R229), in rising address. -/
structure Pgm where
  mem : List Host.Cell := []
  /-- Poisoned blocks (R244), blocks with an uncorrectable error not yet found, and with a correctable one, by block
  number; what befalls the devices is the environment's. -/
  poisoned : List Nat := []
  broken : List Nat := []
  weak : List Nat := []
  /-- Blocks whose next reading on-die ECC corrects, loft blocks whose next transfer link ECC corrects, and corrected blocks that
  still await their rewriting (R243). -/
  onDie : List Nat := []
  linkBad : List Nat := []
  rewrite : List Nat := []
  /-- Undefined bytes: first address, length, and the counter when they became so (R254, R267, R277). -/
  undef : List (Nat × Nat × Nat) := []
  undefN : Nat := 0
  /-- RETIRE and CECNT of 4 KiB blocks that lie in no frame in use (Table 11.5). -/
  marks : Map (Bool × Nat) := []
  /-- TLBs (R235): of each kite, and of the export engine under 256, the granules they hold by space and offset, oldest first. -/
  tlb : Map (List (Nat × Nat)) := []
  /-- Free 4 KiB blocks of each tier as intervals (first, count) in rising order. -/
  freeH : List (Nat × Nat) := []
  freeL : List (Nat × Nat) := []
  pool : List (Nat × Nat) := []
  frames : Map Frame4 := []
  spaces : Map Space := []
  edits : List Edit := []
  /-- References that the module takes or drops itself for models and entries, as boundaries have room for them (R284). -/
  backlog : List Edit := []
  dropping : List Dropping := []
  migs : List Mig := []
  pins : List Pin := []
  epoch : Nat := 0
  oldest : Nat := 0
  status : Nat := 0
  arg0 : Nat := 0
  arg1 : Nat := 0
  arg2 : Nat := 0
  resBase : Nat := 0
  resSize : Nat := 0
  nPtprot : Nat := 0
  nAbandon : Nat := 0
  nRetired : Nat := 0
  nNoframe : Nat := 0
  retList : List Nat := []
  -- prefix index
  pxEn : Bool := false
  pxInsert : Bool := false
  loWater : Nat := 0
  hiWater : Nat := 0
  pxStatus : Nat := 0
  pxRemoved : Nat := 0
  lookups : Nat := 0
  hits : Nat := 0
  cow : Nat := 0
  wpWrite : Nat := 0
  compact : Nat := 0
  /-- Whether removal goes on until HIWATER is reached (R274). -/
  trimming : Bool := false
  pxDesc : Map Byte := []
  index : Map PEntry := []
  /-- Imports that become visible at the next boundary (R275). -/
  pxNew : Map PEntry := []
  -- MEM block
  scrubPos : Nat × Nat := (0, 0)
  scrubPasses : Nat × Nat := (0, 0)
  scrubStart : Nat × Nat := (0, 0)
  eccH : Map (Nat × Nat) := []
  eccL : Map (Nat × Nat × Nat) := []
  deriving DecidableEq, Repr

/-! ### Models and variants (files 16, 18) -/

/-- A model slot that is filling or loaded (R413, R414, R444). -/
structure Model where
  image : Nat
  bytes : Nat
  digest : Nat
  sq : Nat
  cid : Nat
  filling : Bool
  usable : Bool
  fin : Nat
  ntrain : Nat := 0
  nbun : Nat := 0
  nch : Nat := 0
  logp : Nat := 8
  entry : Nat := 0
  nl : Nat := 0
  nkv : Nat := 0
  d : Nat := 0
  kvfmt : Nat := 3
  nqh : Nat := 0
  vocab : Nat := 0
  prog : Nat := 0
  progDigest : Nat := 0
  pair : Nat := 0
  seqC : Nat := 0
  lastC : Nat := 0
  scoreC : Nat := 0
  nodeC : Nat := 0
  base : List Nat := []
  cost : List Byte := []
  retrieval : Bool := false
  /-- The layers flagged for scoring (R264). -/
  scoring : List Nat := []
  weights : List Nat := []
  deriving DecidableEq, Repr

/-- A variant that is filling or installed (R268, R373). -/
structure Variant where
  len : Nat
  logp : Nat
  nl : Nat
  digest : Nat
  frames : List Nat
  sq : Nat
  cid : Nat
  filling : Bool
  usable : Bool
  model : Nat
  fin : Nat
  /-- KV heads, head width and KV format of its pages, those of the model that its installation named. -/
  geo : Option (Nat × Nat × Nat) := none
  deriving DecidableEq, Repr

/-! ### The step scheduler (file 13) -/

/-- States of a request (Table 13.5), in the order of their codes. -/
inductive ReqSt where
  | free | admitted | running | exporting | done | cancelled | expired | faulted
  deriving DecidableEq, Repr

/-- Code of a state. -/
def ReqSt.code : ReqSt → Nat
  | .free => 0 | .admitted => 1 | .running => 2 | .exporting => 3 | .done => 4 | .cancelled => 5 | .expired => 6
  | .faulted => 7

/-- A request: its entry (Table 13.4) and what the scheduler keeps beside it. -/
structure Req where
  st : ReqSt := .free
  held : Bool := false
  cls : Bool := false
  tree : Bool := false
  score : Bool := false
  noinsert : Bool := false
  model : Nat := 0
  variant : Nat := 0xFFFF
  logp : Nat := 8
  status : Nat := 0
  length : Nat := 0
  done : Nat := 0
  deadline : Nat := 0
  commit : Nat := 0
  admitAt : Nat := 0
  xstream : Nat := 0
  sq : Nat := 0
  cid : Nat := 0
  matched : Nat := 0
  target : Nat := 0
  l0 : Nat := 0
  nlx : Nat := 0
  firstpos : Nat := 0
  we : Nat := 0
  theta : Nat := 0
  tokens : List Nat := []
  glist : List Nat := []
  parents : List Nat := []
  /-- Frames of pages mapped by reference: page to the frames of its layers. -/
  refs : Map (List Nat) := []
  order : Nat := 0
  reserve : Nat := 0
  lv : Nat := 0
  /-- Stamp of a cancellation, and the CANCEL commands, by queue and CID, that complete with it. -/
  cancelAt : Option Nat := none
  cancelBy : List (Nat × Nat) := []
  fault : Option Nat := none
  expire : Bool := false
  posted : Bool := false
  mute : Bool := false
  firstTok : Option Nat := none
  lastEnded : Bool := false
  /-- The next page to be inserted into the prefix index (R273). -/
  inserting : Option Nat := none
  dropped : Bool := false
  deriving DecidableEq, Repr

/-- The plan of a tick: its model, whether frozen, its chunks (slot, first position, count) in placement order, and the
planned length of a frozen tick. A chunk that a frozen tick runs as rows without a token has slot 0xFFFF (R302). -/
structure TickPlan where
  model : Nat
  frozen : Bool := false
  chunks : List (Nat × Nat × Nat) := []
  l : Nat := 0
  deriving DecidableEq, Repr

/-- A step in progress: its tick, the timebase at which its go is due, the cycle of its go, its planned length, model and
chunks, and, once it has ended, the timebase of its last STEPEND or of its cut. -/
structure StepRun where
  tick : Nat
  goAt : Nat
  go : Option Nat
  l : Nat
  model : Nat
  chunks : List (Nat × Nat × Nat)
  ended : Option Nat
  cut : Bool
  deriving DecidableEq, Repr

/-- A copy on the page copy path (R278): request, page, valid rows, the old frame of each layer, and the tick whose step needs it;
`comp` marks a tree compaction (R267). -/
structure Copy where
  slot : Nat
  page : Nat
  rows : Nat
  old : List Nat
  comp : Bool
  path : List Nat
  tick : Nat
  start : Nat
  fin : Nat
  deriving DecidableEq, Repr

/-- A submission an admission round has yet to decide (R282), with the stamp of its doorbell, and whether it found its CID
outstanding or the admission queue full. -/
structure Sub where
  q : Nat
  stamp : Nat
  e : Sqe
  dup : Bool
  full : Bool
  deriving DecidableEq, Repr

/-- A report of a member module (R313): module, last STEPEND and holds. -/
structure Report where
  modId : Nat
  tick : Nat
  last : Nat
  holds : Nat
  deriving DecidableEq, Repr

/-- The SCH block and the scheduler's own state. -/
structure Sch where
  run : Bool := false
  stopped : Bool := true
  period : Nat := 20000
  ballast : Nat := 30
  gshare : Nat := 10
  xshare : Nat := 80
  t0 : Nat := 0
  t0Set : Bool := false
  stepBase : Nat := 0
  serve : Nat := 0x124
  planned : Nat := 0
  used : Nat := 0
  nAcc : Nat := 0
  nRef : Nat := 0
  rCap : Nat := 0
  rDead : Nat := 0
  rInv : Nat := 0
  rQfull : Nat := 0
  nOver : Nat := 0
  nTherm : Nat := 0
  nLost : Nat := 0
  nCut : Nat := 0
  nExp : Nat := 0
  nCan : Nat := 0
  nBg : Nat := 0
  nMis : Nat := 0
  round : Nat := 0
  leadId : Nat := 0xFFFFF
  follow : Bool := false

  subs : List Sub := []
  reqs : Map Req := []
  gens : Map Nat := []
  order : Nat := 0
  plan : Map TickPlan := []
  lastFreeze : Option Nat := none
  cur : Option StepRun := none
  /-- Step boundaries made since RUN, one for each tick, and the timebase of the last. -/
  bnd : Nat := 0
  bndTb : Nat := 0
  lostFrom : Option Nat := none
  notBefore : Nat := 0
  nextTick : Nat := 0
  swModel : Option Nat := none
  /-- Program image digest of the serving train's last launch (R294). -/
  trainDig : Option Nat := none
  /-- The launch of the serving train that a cut step still owes it (R305). -/
  relaunch : Option LDesc := none
  /-- On a member: its lead may launch the train again though kites of it run, for it made no boundary in time (R314). -/
  mayReload : Bool := false
  copies : List Copy := []
  /-- Ticks in which a calibration last took a slot, by task: stacks 0–7, loft controllers from 16. -/
  bgDone : Map Nat := []
  /-- Wear levelling: bytes moved by tick, newest first, and the last frame moved. -/
  wear : List (Nat × Nat) := []
  wearAt : Nat := 0
  /-- Background slots planned by tick, and those that may run now. -/
  bgPlan : Map (List Nat) := []
  bgNow : List Nat := []
  /-- Entry cycles of the serving train before the present tick (Table 19.4, DUTY). -/
  duty0 : Nat := 0
  -- a member's or a lead's part of a spanning train (R310–R314)
  following : Bool := false
  boundOk : List Nat := []
  descGot : Map Nat := []
  reports : List Report := []
  deriving DecidableEq, Repr

/-! ### Export (file 14) -/

/-- A message of a stream (R323): what it carries, when it was last sent, and how it has been answered. -/
structure XMsg where
  manifest : Bool
  layer : Nat
  page : Nat
  off : Nat
  len : Nat
  last : Bool
  sent : Nat
  acked : Bool
  again : Bool
  naks : Nat
  noSpace : Bool
  /-- Whether a gap has already made it be resent (R331). -/
  fast : Bool
  deriving DecidableEq, Repr

/-- States of a stream (Table 14.6), in the order of their codes. -/
inductive XSt where
  | none | opened | sealed | closed | failed | aborted | lost
  deriving DecidableEq, Repr

def XSt.code : XSt → Nat
  | .none => 0 | .opened => 1 | .sealed => 2 | .closed => 3 | .failed => 4 | .aborted => 5 | .lost => 6

/-- An export stream. The geometry is that of its request's model; `frames` maps layer × 2^16 + page to the pinned frame,
`finals` maps layer × 32 + σ to the final positions. -/
structure Stream where
  st : XSt := .none
  handle : Nat := 0
  next : Nat := 0
  ackedSeq : Nat := 0
  target : Nat := 0
  limit : Nat := 0
  rto : Nat := 0
  expiries : Nat := 0
  viol : Nat := 0
  rate : Nat := 0
  lastEce : Nat := 0
  lastHalf : Nat := 0
  rateAt : Nat := 0
  freeAt : Nat := 0
  sealedAt : Nat := 0
  /-- The abort manifest (R335): its first sequence number once it has begun, and whether it has ended. -/
  abort : Option Nat := Option.none
  abortStatus : Nat := 0
  ended : Bool := false
  /-- A host target's stream has lost the link or bus mastering (R336): it posts nothing further. -/
  cut : Bool := false
  l0 : Nat := 0
  nlx : Nat := 0
  firstpos : Nat := 0
  m : Nat := 0
  lv : Nat := 0
  logp : Nat := 8
  nkv : Nat := 1
  d : Nat := 64
  kvfmt : Nat := 3
  mdig : Nat := 0
  vdig : Nat := 0
  variant : Nat := 0xFFFF
  tokens : List Nat := []
  kept : Option (List Bool) := Option.none
  /-- The kept-position bitmap (R321), or the length of an accepted tree path (R267), is still to come. -/
  waits : Bool := false
  mOpen : Bool := false
  we : Nat := 0
  firstTok : Option Nat := Option.none
  lastDone : Bool := false
  finals : Map (List Nat) := []
  frames : Map Nat := []
  msgs : Map XMsg := []
  bytes : List Byte := []
  sigs : Nat := 0
  deriving DecidableEq, Repr

/-- A receive context's stream (R337): messages stored, the credit limit granted, sequence numbers received, the manifest
bytes and the images stored. -/
structure RxStream where
  ctx : Nat
  src : Nat
  next : Nat := 0
  got : List Nat := []
  limit : Nat
  stored : Nat := 0
  total : Nat := 0
  man : Map Byte := []
  /-- Whether an abort manifest has ended it: its pages are discarded (R328). -/
  dropped : Bool := false
  /-- Layer and page of each PAGE_DATA received, by its SEQ. -/
  seqs : Map (Nat × Nat) := []
  deriving DecidableEq, Repr

/-- The XPT block. -/
structure Xpt where
  en : Bool := false
  rxen : Bool := false
  targets : Map (List Byte) := []
  streams : Map Stream := []
  /-- Streams of requests that are not ADMITTED yet (R315). -/
  soon : Map Stream := []
  rx : Map (Nat × Nat × Nat × Nat) := []
  rxs : Map RxStream := []
  retx : Nat := 0
  failed : Nat := 0
  lost : Nat := 0
  viol : Map (Nat × Nat) := []
  /-- Messages for a receive context that were answered NO_SPACE (R337). -/
  noSpace : Nat := 0
  deriving DecidableEq, Repr

/-! ### Ports (file 15) -/

/-- A Lerbo message on its way out: destination, channel, type, time to live, source module, body, flits to send, and for one
in transit the port whose receive buffer holds them (R347). -/
structure LMsg where
  dst : Nat
  vc : Nat
  mtype : Nat
  ttl : Nat
  src : Nat
  body : List Byte
  left : Nat
  via : Option Nat
  deriving DecidableEq, Repr

/-- A flit in the replay buffer (R348): its FSEQ, the message it is the last of, and its 256 bytes. -/
structure TxFlit where
  fseq : Nat
  msg : Option LMsg
  bytes : List Byte
  deriving DecidableEq, Repr

/-- A port. -/
structure Port where
  mode : Nat := 0
  en : Bool := false
  st : Nat := 0
  since : Nat := 0
  equal : Bool := false
  /-- Whether a HELLO has come since training began. -/
  hello : Bool := false
  peer : Nat := 0xFFFFF
  peer0 : Nat := 0xFFFFF
  mac : Nat := 0
  fecCorr : Nat := 0
  fecUnc : Nat := 0
  replays : Nat := 0
  retrains : Nat := 0
  txUnits : Nat := 0
  rxUnits : Nat := 0
  dropped : Nat := 0
  violN : Nat := 0
  violLast : Nat := 0
  quar : Nat := 0
  violAt : List Nat := []
  retrainAt : List Nat := []
  txSeq : Nat := 0
  rxSeq : Nat := 0
  buf : List TxFlit := []
  credit : List Nat := [0, 0, 0, 0]
  /-- Flits received of each channel's incomplete message. -/
  rxOwed : List Nat := [0, 0, 0, 0]
  /-- Flits received of each channel whose credit is still to be returned (R347), and of those the ones that have left the
  buffer. -/
  held : List Nat := [0, 0, 0, 0]
  freed : List Nat := [0, 0, 0, 0]
  /-- The AACK last sent. -/
  aackSent : Nat := 0
  /-- FSEQ of a HELLO that a retraining took ahead of its turn. -/
  helloSeq : Option Nat := none
  txq : List LMsg := []
  aackAt : Nat := 0
  replayAt : Option Nat := none
  replayN : Nat := 0
  paused : Map Nat := []
  /-- Times of the last uncorrectable codewords (R342). -/
  uncAt : List Nat := []
  /-- When the last frame leaves the port, in ps of real time. -/
  busyTo : Nat := 0
  deriving DecidableEq, Repr

/-- A remote DSEND that is being received (R351): source module, tag, rows still to be written, status so far, and the kite and
reel they go to. -/
structure Recv where
  src : Nat
  tag : Nat
  left : Nat
  st : Nat
  kite : Nat
  reel : Option Nat
  deriving DecidableEq, Repr

/-- The LNK block. -/
structure Lnk where
  ports : Map Port := []
  modId : Nat := 0xFFFFF
  lock : Bool := false
  ptpPort : Nat := 0
  ptpEn : Bool := false
  ptpDomain : Nat := 0
  ptpTransport : Nat := 0
  lroute : Map Nat := []
  route : Map Nat := []
  rot : Map Nat := []
  /-- Descriptors sent to other modules (R351): tag to (kite, channel); and descriptors being received. -/
  sends : Map (Nat × Nat) := []
  recvs : List Recv := []
  /-- Messages of this module to itself, delivered at the end of the cycle (R353). -/
  loop : List LMsg := []
  deriving DecidableEq, Repr

/-! ### Host interface (file 16) -/

/-- A queue pair. -/
structure Queue where
  en : Bool := false
  logd : Nat := 0
  vec : Nat := 0
  ccount : Nat := 1
  ctime : Nat := 0
  sqBase : Nat := 0
  cqBase : Nat := 0
  draining : Bool := false
  sqHead : Nat := 0
  sqTail : Nat := 0
  /-- Tail doorbells not yet followed, oldest first: index and stamp. -/
  tails : List (Nat × Nat) := []
  cqHead : Nat := 0
  cqTail : Nat := 0
  phase : Bool := true
  held : List (List Byte) := []
  irqN : Nat := 0
  irqAt : Option Nat := none
  outst : List Nat := []
  deriving DecidableEq, Repr

/-- A posted write to the host that waits at the PCIe crossing: a memory write or an MSI-X message. -/
inductive HostTx where
  | write (a : Nat) (l : List Byte)
  | msix (v : Nat)
  deriving DecidableEq, Repr

/-- The host's side of the GLB block, and host memory as the link reaches it. -/
structure Hst where
  queues : Map Queue := []
  bdpAddr : Nat := 0
  bdpFirst : Nat := 0
  bdpErr : Bool := false
  bdpCount : Nat := 0
  doorbell : Nat := 0
  badreg : Nat := 0
  linkUp : Bool := true
  master : Bool := true
  d3 : Bool := false
  /-- What waits at the crossing while the PCIe domains stand, oldest first (R384). -/
  waits : List HostTx := []
  mem : List Host.Cell := []
  /-- Regions of host memory whose access ends in an error completion: first address and length. -/
  errs : List (Nat × Nat) := []
  masked : List Nat := []
  pendingVec : List Nat := []
  models : Map Model := []
  variants : Map Variant := []
  deriving DecidableEq, Repr

/-! ### Clocks, power and ageing (file 17) -/

/-- A die's sensors and voltage: 0–3 compute dies, 4 the I/O die. -/
structure Die where
  tj : Nat := 0
  mem : Nat := 0
  emerg : Bool := false
  entries : Nat := 0
  coolAt : Option Nat := none
  warnJ : Bool := false
  warnM : Bool := false
  hourly : Nat := 0
  hourMin : Option Nat := none
  nowPs : Nat := 0
  vdie : Nat := 0
  vsol : Nat := 0
  steps : Nat := 0
  /-- Whether the last hourly slack asks for a step of the margin plan that has not been taken (R395). -/
  wants : Bool := false
  deriving DecidableEq, Repr

/-- The PWR block. -/
structure Pwr where
  tb : Nat := 0
  /-- What is left of the count below one ns, in units of 1 ÷ (60 × 10⁹) ns. -/
  frac : Nat := 0
  src : Nat := 0
  locked : Bool := false
  offset : Int := 0
  ppb : Int := 0
  measAt : Nat := 0
  active : Nat := 0
  plim : Nat := 0
  dlim : Nat := 0
  last : Nat := 0
  max_ : Nat := 0
  high : Nat := 0
  sumW : Nat := 0
  samples : Nat := 0
  dies : Map Die := []
  hourAt : Nat := 0
  dayAt : Nat := 0
  hours : Nat := 0
  proj : Nat := 0
  low : Bool := false
  due : Bool := false
  taken : Bool := false
  armed : Bool := false
  /-- Cycles by which POWER_HIGH has lowered the profile capacity, and ticks since the last such event (R390). -/
  capLow : Nat := 0
  calm : Nat := 0
  /-- Clock domains that stand, by their place in Table 17.1. -/
  stopped : List Nat := []
  deriving DecidableEq, Repr

/-! ### Boot, flash and security (file 18) -/

/-- A firmware component in flash: whether its digest and signature verify, and what its header gives. -/
structure Comp where
  good : Bool
  svn : Nat
  setver : Nat
  digest : Nat
  deriving DecidableEq, Repr

/-- A record on one device (R400): write count, whether its signature is good, and its value. -/
structure FRec (α : Type) where
  count : Nat
  good : Bool
  val : α
  deriving DecidableEq, Repr

/-- The identity record (Table 18.2). -/
structure Ident where
  serial : Nat
  full : Bool
  b0 : Bool
  map0 : Nat
  map1 : Nat
  map2 : Nat
  map3 : Nat
  vsol : List Nat
  mac : Nat
  pub : List Byte
  cert : List Byte
  deriving DecidableEq, Repr

/-- A profile record (Table 18.5). -/
structure Profile where
  modelSig : Bool
  period : Nat
  ballast : Nat
  gshare : Nat
  ports : List Nat
  opkey : Nat
  deriving DecidableEq, Repr

/-- The margin record (R395, R398): VDIE and steps of each die, hours of service, and whether the step is taken. -/
structure Margin where
  vdie : List Nat
  steps : List Nat
  hours : Nat
  taken : Bool
  armed : Bool
  proj : Nat
  deriving DecidableEq, Repr

/-- The boot record: failed-start count, next profile, last class F record. -/
structure BootRec where
  fails : Nat
  /-- VALID and PROFILE of the next-profile field. -/
  next : Bool × Nat
  fatal : Option LogRec
  deriving DecidableEq, Repr

/-- One flash device (Table 18.1). -/
structure Flash where
  fs : Option Comp
  mg : Option Comp
  kt : Option Comp
  ident : FRec Ident
  profs : FRec (List (Bool × Profile))
  floor_ : FRec (Nat × Nat × Nat)
  margin : FRec Margin
  retired : FRec (List Nat)
  boot : FRec BootRec
  deriving DecidableEq, Repr

/-- A flash write in progress (R411): what it writes when it ends. -/
inductive FlashOp where
  | comp (dev : Bool) (kind : Nat) (c : Comp)
  | floor_ (f : Nat × Nat × Nat)
  | profs (ps : List Profile)
  deriving DecidableEq, Repr

/-- The SEC block and both flash devices. -/
structure Sec where
  stage : Nat := 0
  set : Bool := false
  recPin : Bool := false
  code : Nat := 0
  detail : Nat := 0
  failStage : Nat := 0
  pins : Nat := 0
  dev : Bool := false
  busy : Option FlashOp := none
  status : Nat := 0
  addr : Nat := 0
  lockProf : Bool := false
  lockUpd : Bool := false
  lock : Bool := false
  identOk : Bool := false
  ident : Option Ident := none
  prof : Option Profile := none
  /-- The kite map built at boot (R14): the physical kite of each logical one, 64 × die + its place on the die. -/
  kmap : List Nat := []
  fwDig : List Nat := [0, 0, 0]
  staging : Map Byte := []
  primary : Flash
  recovery : Flash
  /-- SPDM: the requester's progress. -/
  spdmVer : Bool := false
  spdmCap : Bool := false
  spdmAlg : Bool := false
  deriving DecidableEq, Repr

/-- The pins and inputs of file 20. -/
structure Pins where
  pwrGood : Bool := true
  perstN : Bool := true
  thermtripN : Bool := true
  smbAddr : Nat := 0
  ppsAt : Option Nat := none
  vin : Nat := 0
  iin : Nat := 0
  deriving DecidableEq, Repr

/-- What leaves the module: PCIe, the ports and the management bus. -/
inductive Output where
  | hostWrite (addr : Nat) (data : List Byte)
  | msix (vec : Nat)
  | read (data : List Byte) (poisoned : Bool)
  | unsupported
  | word (v : BitVec 64)
  | frame (port : Nat) (data : List Byte)
  | ptp (port : Nat)
  | flit (port : Nat) (bytes : List Byte)
  | spdm (code : Nat) (data : List Byte)
  | pldm (sensor value : Nat)
  | pldmInvalid (sensor : Nat)
  | pldmEvent (seq : Nat)
  deriving DecidableEq, Repr

end Sys2Proof.Machine
end

