-- ==== Sys2Proof/Machine/State.lean ====
section
/-! DEFINITION. The state of the module and its state right after a module reset. -/
namespace Sys2Proof.Machine

/-- Why the block stops. No command of this model stops it: the manual gives every command an effect. -/
inductive Fault where
  /-- Raised by nothing: every command of the manual has an effect or is ignored. Safe. -/
  | none_
  deriving DecidableEq, Repr

/-- Why a command has no meaning in the model. -/
inductive Refusal where
  /-- Raised by the dispatcher for a command that has no meaning yet. Safe. -/
  | notModelled (mnemonic : String)
  deriving DecidableEq, Repr

/-- The state. `cyc` counts periods of the arithmetic clock since reset, and `phase` tells the two halves of an idle step:
the end of the present cycle, and the beginning of the next. `free` counts the free values drawn from `Config`. -/
structure State where
  pending : List Instr
  phase : Bool
  cyc : Nat
  free : Nat
  kites : Map Kite
  tel : Tel
  brd : Brd
  pgm : Pgm
  sch : Sch
  xpt : Xpt
  lnk : Lnk
  hst : Hst
  pwr : Pwr
  sec : Sec
  pins : Pins
  out : List Output
  deriving DecidableEq, Repr

/-! ### Reset -/

/-- The identity record of the model's module: the manual gives no module's; a full-grade module of stepping A0 with every
kite enabled stands for it. -/
def Ident.reset : Ident :=
  { serial := 0, full := true, b0 := false, map0 := 2 ^ 64 - 1, map1 := 2 ^ 64 - 1, map2 := 2 ^ 64 - 1, map3 := 2 ^ 64 - 1
    vsol := [7500, 7500, 7500, 7500], mac := 0, pub := [], cert := [] }

/-- The built-in profile record of any number (R408): every port disabled, PERIOD 20,000, BALLAST 30, GSHARE 10,
MODELSIG 1 and a zero operator key digest. -/
def Profile.builtIn : Profile :=
  { modelSig := true, period := 20000, ballast := 30, gshare := 10, ports := [], opkey := 0 }

/-- A component that verifies. -/
def Comp.reset : Comp := { good := true, svn := 0, setver := 0, digest := 0 }

/-- A flash device as delivered: three good components, and records that hold nothing beyond the built-in profiles. -/
def Flash.reset : Flash :=
  { fs := some Comp.reset, mg := some Comp.reset, kt := some Comp.reset
    ident := ⟨0, true, Ident.reset⟩
    profs := ⟨0, true, [(true, Profile.builtIn), (true, Profile.builtIn), (true, Profile.builtIn), (true, Profile.builtIn)]⟩
    floor_ := ⟨0, true, (0, 0, 0)⟩
    margin := ⟨0, true, ⟨[7500, 7500, 7500, 7500], [0, 0, 0, 0], 0, false, false, 0⟩⟩
    retired := ⟨0, true, []⟩
    boot := ⟨0, true, ⟨0, (false, 0), none⟩⟩ }

/-- The SEC block right after reset: the start has not begun. -/
def Sec.reset : Sec := { primary := Flash.reset, recovery := Flash.reset }

/-- The clock domains (Table 17.1) that stand until a start's stage 3: arithmetic, fabric, debug, port quads, low-speed and
the step scheduler, by their place in the table. -/
def resetStopped : List Nat :=
  List.range 8 ++ (List.range 4).map (· + 24) ++ (List.range 48).map (· + 45) ++ [98, 99]

/-- The module right after a module reset, before its start runs: every register at the reset value of its description,
memory of zeros (R229), no command pending. -/
def State.reset : State where
  pending := []
  phase := false
  cyc := 0
  free := 0
  kites := []
  tel := {}
  brd := {}
  pgm := {}
  sch := {}
  xpt := {}
  lnk := {}
  hst := {}
  pwr := { stopped := resetStopped }
  sec := Sec.reset
  pins := {}
  out := []

end Sys2Proof.Machine
end

