-- ==== Sys2Proof/Machine/Ops.lean ====
section
/-! DEFINITION. The named operations over the whole state that every family shares: time, outputs, host memory, interrupts
and completion entries (file 16), the error log and the answer to a class F error (file 19), units (file 10), and putting
a kite back with the events it raised. -/
namespace Sys2Proof.Machine

/-! ### Time -/

/-- Nanoseconds since reset: a cycle is 0.8 ns, and 0.8333… ns after a margin step (R19, R398). -/
def State.nsAt (s : State) (cyc : Nat) : Nat := if s.pwr.taken then cyc * 5 / 6 else cyc * 4 / 5

/-- Real time of the present cycle. -/
def State.now (s : State) : Nat := s.nsAt s.cyc

/-- Cycles of the arithmetic clock in one millisecond. -/
def State.cycPerMs (s : State) : Nat := if s.pwr.taken then 1200000 else 1250000

/-- The stamp of an event at the present time (R281): the copy of the timebase read for it, up to 16 ns after the event. -/
def State.stamp (s : State) : Nat := s.pwr.tb + min 16 (Config.stampLag s.free)

/-- Count a free value as used. -/
def State.drew (s : State) : State := { s with free := s.free + 1 }

/-- Period of a fabric cycle in periods of the arithmetic clock, as a fraction: 1.875 GHz beside 1.25 GHz, or beside 1.20 GHz
after a margin step, which changes no other clock (Table 1.4, R18, R398). -/
def State.fabRatio (s : State) : Nat × Nat := if s.pwr.taken then (16, 25) else (2, 3)

/-- How many fabric cycles end before arithmetic cycle `cyc` begins. -/
def State.fabCount (s : State) (cyc : Nat) : Nat := cyc * s.fabRatio.2 / s.fabRatio.1

/-- Fabric cycles that end within arithmetic cycle `cyc`. -/
def State.fabEnds (s : State) (cyc : Nat) : List Nat :=
  (List.range (s.fabCount (cyc + 1) - s.fabCount cyc)).map (s.fabCount cyc + ·)

/-- The last fabric cycle that ends by the end of arithmetic cycle `cyc`. -/
def State.fabBy (s : State) (cyc : Nat) : Nat := s.fabCount (cyc + 1) - 1

/-- The first fabric cycle that ends after arithmetic cycle `cyc`. -/
def State.fabAfter (s : State) (cyc : Nat) : Nat := s.fabCount (cyc + 1)

/-- The first fabric cycle that begins after arithmetic cycle `cyc`. -/
def State.fabFrom (s : State) (cyc : Nat) : Nat := ceilDiv ((cyc + 1) * s.fabRatio.2) s.fabRatio.1

/-- The arithmetic cycle in which a fabric cycle ends. -/
def State.fabCycle (s : State) (fab : Nat) : Nat := ceilDiv ((fab + 1) * s.fabRatio.1) s.fabRatio.2 - 1

/-! ### Modes -/

/-- Minimal mode (R417). -/
def State.minimal (s : State) : Bool := s.sec.stage == 7

/-- FAULT_N: low exactly while the module is in minimal mode (R431). -/
def State.faultN (s : State) : Bool := !s.minimal

/-- READY (Table 18.3). -/
def State.ready (s : State) : Bool := s.sec.stage == 4

/-- Whether BAR0 serves every block: from stage 4 on, and not in minimal mode (R404, R417). -/
def State.barUp (s : State) : Bool := s.sec.stage == 3 || s.sec.stage == 4

/-- Whether BAR0 serves the GLB, SEC and TEL blocks: from stage 4 on, and in minimal mode (R404, R417). -/
def State.glbUp (s : State) : Bool := s.barUp || s.minimal

/-- Whether the arithmetic and fabric clocks run. -/
def State.clk (s : State) : Bool := !(s.pwr.stopped.contains 0)

/-- Grade 256 (R2); the identity record says so once verified. -/
def State.full (s : State) : Bool := match s.sec.ident with
  | some i => i.full
  | none => true

/-- Enabled kites per compute die, E of R14. -/
def State.perDie (s : State) : Nat := if s.full then 64 else 60

/-- Enabled logical kites. -/
def State.nKites (s : State) : Nat := 4 * s.perDie

/-- Whether a logical kite exists (R3). -/
def State.kiteOn (s : State) (k : Nat) : Bool := decide (k < s.nKites)

/-- Whether a kite's window takes writes: it exists (R3) and BAR0 serves it (R417). -/
def State.kteUp (s : State) (k : Nat) : Bool := s.barUp && s.kiteOn k

/-- Compute die of a logical kite (R14). -/
def State.dieOf (s : State) (k : Nat) : Nat := k / s.perDie

/-! ### Outputs and host memory (R362, R377) -/

/-- Something leaves the module. -/
def State.emit (s : State) (o : Output) : State := { s with out := s.out ++ [o] }

/-- Cells of bytes from an address upward, in rising order. -/
def cellsFrom (a : Nat) (l : List Byte) : List Host.Cell := l.zipIdx.map fun (b, i) => (a + i, b)

/-- Write one byte of a sparse memory whose unlisted bytes are zero, keeping it canonical. -/
def memWrite : List Host.Cell → Nat → Byte → List Host.Cell
  | [], a, v => if v = 0 then [] else [(a, v)]
  | (b, w) :: rest, a, v =>
    if a < b then (if v = 0 then (b, w) :: rest else (a, v) :: (b, w) :: rest)
    else if a = b then (if v = 0 then rest else (a, v) :: rest)
    else (b, w) :: memWrite rest a v

/-- One byte of a sparse memory. -/
def memRead : List Host.Cell → Nat → Byte
  | [], _ => 0
  | (b, w) :: rest, a => if a = b then w else memRead rest a

/-- Canonical form: strictly rising addresses above `lo`, and no byte of zero. -/
def memWfFrom : Nat → List Host.Cell → Bool
  | _, [] => true
  | lo, (b, w) :: rest => decide (lo ≤ b) && w != 0 && memWfFrom (b + 1) rest

/-- Canonical form of a sparse memory. -/
def memWf (m : List Host.Cell) : Bool := memWfFrom 0 m

/-- Write consecutive bytes. -/
def memWrites (m : List Host.Cell) (a : Nat) (l : List Byte) : List Host.Cell :=
  (cellsFrom a l).foldl (fun m c => memWrite m c.1 c.2) m

/-- Read consecutive bytes. -/
def memReads (m : List Host.Cell) (a n : Nat) : List Byte := (List.range n).map fun i => memRead m (a + i)

/-- Whether an access of host memory ends in an error completion. -/
def Hst.bad (h : Hst) (a n : Nat) : Bool :=
  !h.linkUp || !h.master || h.errs.any fun r => decide (a < r.1 + r.2 && r.1 < a + n)

/-- Read host memory: none where the host answers with an error completion. -/
def State.hostRead (s : State) (a n : Nat) : Option (List Byte) :=
  if s.hst.bad a n then none else some (memReads s.hst.mem a n)

/-- The PCIe PHY and core domains, by their place in Table 17.1. -/
def pcieDomains : List Nat := [93, 94]

/-- Whether a PCIe domain stands, so that what goes to the host waits at the crossing (R380, R384). -/
def State.hostWaits (s : State) : Bool := s.pwr.stopped.any fun d => pcieDomains.contains d

/-- Leave a posted write at the crossing. -/
def State.wait (s : State) (x : HostTx) : State := { s with hst := { s.hst with waits := s.hst.waits ++ [x] } }

/-- Post a write to host memory. The Boolean says whether it reached the host; one that waits at the crossing is taken as reaching
it. -/
def State.hostPut (s : State) (a : Nat) (l : List Byte) : Bool × State :=
  if !s.hst.linkUp || !s.hst.master then (false, s)
  else if s.hostWaits then (true, s.wait (.write a l))
  else
    let s := s.emit (.hostWrite a l)
    if s.hst.bad a l.length then (false, s)
    else (true, { s with hst := { s.hst with mem := memWrites s.hst.mem a l } })

/-- Raise an MSI-X vector; a masked one is left pending (R378). -/
def State.vector (s : State) (v : Nat) : State :=
  if s.hst.masked.contains v then
    { s with hst := { s.hst with pendingVec := if s.hst.pendingVec.contains v then s.hst.pendingVec else s.hst.pendingVec ++ [v] } }
  else if s.hst.linkUp && s.hst.master then (if s.hostWaits then s.wait (.msix v) else s.emit (.msix v))
  else s

/-- Send what waited at the crossing, in its order, once both PCIe domains run. -/
def State.crossAgain (s : State) : State :=
  if s.hostWaits then s
  else
    let l := s.hst.waits
    l.foldl (fun s x => match x with
      | .write a b => (s.hostPut a b).2
      | .msix v => s.vector v) { s with hst := { s.hst with waits := [] } }

/-! ### Queues and completion entries (R366, R370, R371, R378) -/

/-- A queue pair. -/
def State.queue (s : State) (q : Nat) : Queue := mapGetD s.hst.queues q {}

/-- Put a queue pair back. -/
def State.setQueue (s : State) (q : Nat) (x : Queue) : State := { s with hst := { s.hst with queues := mapSet s.hst.queues q x } }

/-- Depth of a ring. -/
def Queue.depth (x : Queue) : Nat := 2 ^ x.logd

/-- Entries of the CQ its head doorbell has not freed. -/
def Queue.cqUsed (x : Queue) : Nat := (x.cqTail + x.depth - x.cqHead) % x.depth

/-- Whether the CQ is full (R371). -/
def Queue.cqFull (x : Queue) : Bool := decide (x.depth ≤ x.cqUsed + 1)

/-- A completion entry (Table 16.5), its phase bit still 0. -/
structure Cqe where
  cid : Nat
  q : Nat
  status : Nat
  notice : Bool := false
  detail : Nat := 0
  slot : Nat := 0xFFFF
  value : Nat := 0
  firstTok : Nat := 0
  handle : Nat := 0
  time : Nat := 0
  deriving DecidableEq, Repr

/-- Bytes of an entry, with its phase bit. -/
def Cqe.bytes (e : Cqe) (p : Bool) : List Byte :=
  leBytes 2 e.cid ++ leBytes 1 e.q ++ leBytes 1 e.status ++ leBytes 1 (b2n p + 2 * b2n e.notice) ++ leBytes 1 e.detail
    ++ leBytes 2 e.slot ++ leBytes 8 e.value ++ leBytes 4 e.firstTok ++ leBytes 4 e.handle ++ leBytes 8 e.time

/-- Set the phase bit of an entry's bytes. -/
def setPhase (l : List Byte) (p : Bool) : List Byte :=
  l.set 4 ((l.getD 4 0 &&& 0xFE) ||| (if p then 1 else 0))

/-- Raise the queue's vector for the entries written since its last message. -/
def State.queueIrq (s : State) (q : Nat) : State :=
  let x := s.queue q
  (s.setQueue q { x with irqN := 0, irqAt := none }).vector x.vec

/-- Write an entry into its CQ, and raise its vector where it is due (R370, R378). -/
def State.cqWrite (s : State) (q : Nat) (l : List Byte) : State :=
  let x := s.queue q
  let (_, s) := s.hostPut (x.cqBase + 32 * x.cqTail) (setPhase l x.phase)
  let t := (x.cqTail + 1) % x.depth
  let n := x.irqN + 1
  let s := s.setQueue q { x with
    cqTail := t, phase := if t = 0 then !x.phase else x.phase, irqN := n
    irqAt := some (x.irqAt.getD s.now) }
  if x.ctime = 0 || x.ccount ≤ n then s.queueIrq q else s

/-- Post an entry: written, or held while the CQ is full (R371). An entry of a queue that is off is lost (R365). -/
def State.postCqe (s : State) (e : Cqe) : State :=
  let x := s.queue e.q
  let x := if e.notice then x else { x with outst := x.outst.filter fun c => c != e.cid }
  let s := s.setQueue e.q x
  if !x.en then s
  else if x.cqFull || !x.held.isEmpty then s.setQueue e.q { x with held := x.held ++ [e.bytes false] }
  else s.cqWrite e.q (e.bytes false)

/-- Write held entries while there is room, on a fuel of their number. -/
def State.drainHeld (q : Nat) : Nat → State → State
  | 0, s => s
  | n + 1, s =>
    let x := s.queue q
    match x.held with
    | [] => s
    | l :: rest => if x.cqFull then s else State.drainHeld q n ((s.setQueue q { x with held := rest }).cqWrite q l)

/-- Index of the tick window of a time under the present T0 (R280); 0 before T0 (Table 16.5). -/
def State.tickOf (s : State) (t : Nat) : Nat :=
  if s.sch.t0Set && s.sch.t0 ≤ t then (t - s.sch.t0) / (s.sch.period * 1000) else 0

/-- Start of tick j (R280). -/
def State.tickStart (s : State) (j : Nat) : Nat := s.sch.t0 + j * (s.sch.period * 1000)

/-! ### Requests -/

/-- The request of a slot. -/
def State.req (s : State) (n : Nat) : Req := mapGetD s.sch.reqs n {}

/-- Put a request back. -/
def State.setReq (s : State) (n : Nat) (r : Req) : State := { s with sch := { s.sch with reqs := mapSet s.sch.reqs n r } }

/-- What the tick record of a window gathers. -/
def State.upWin (s : State) (t : Nat) (f : Win → Win) : State :=
  { s with tel := { s.tel with wins := mapUpd s.tel.wins (s.tickOf t) {} f } }

/-- Post the completion of a request: only one is ever posted (R301), and none after a loss of the link (R365). It is
counted in the tick record of its window (Table 19.4). -/
def State.complete (s : State) (n status : Nat) : State :=
  let r := s.req n
  if r.posted then s
  else
    let t := s.stamp
    let s := (s.setReq n { r with posted := true, status := status }).drew
    if r.mute then s
    else
      let s := s.postCqe { cid := r.cid, q := r.sq, status := status, slot := n, value := s.tickOf t
                           firstTok := if status = 0 then r.firstTok.getD 0 else 0, handle := r.xstream, time := t }
      let us := (t - r.admitAt) / 1000
      let mg := (s.tickStart r.commit + s.sch.period * 1000 - 1 - t) / 1000
      s.upWin t fun w =>
        if status = 0 then
          { w with done := min 0xFFFF (w.done + 1), latMax := max w.latMax (min us 0xFFFFFFFF)
                   marginMin := min w.marginMin mg, latSum := w.latSum + us }
        else { w with ended := min 0xFFFF (w.ended + 1) }

/-! ### The error log (R418–R422) -/

/-- Unread records (R421). -/
def Tel.unread (t : Tel) : Nat := (t.head + 2 ^ 32 - t.tail) % 2 ^ 32

/-- Whether a class may be dropped or replaced. -/
def EvClass.minor : EvClass → Bool
  | .c => true
  | .s => true
  | .v => true
  | _ => false

/-- The position of the oldest unread record of a minor class, among the positions from `tail` on. -/
def Tel.oldestMinor (t : Tel) : Option Nat :=
  ((List.range 4096).map fun i => (t.tail + i) % 4096).find? fun p =>
    match mapGet t.ring p with
    | some r => r.ev.cls.minor
    | none => false

/-- Whether a record raises vector 63 by itself (R421). -/
def raises (e : Ev) : Bool :=
  match e.cls with
  | .d => true
  | .u => true
  | .f => true
  | _ => e.unit == uPwr && (e.event == evMarginDue || e.event == evAgeingLow)

/-- Put a record at a position. -/
def Tel.put (t : Tel) (p : Nat) (r : LogRec) (advance : Bool) : Tel :=
  { t with
    ring := mapSet t.ring p r, seq := (t.seq + 1) % 2 ^ 32, newest := some r, newestPos := p
    head := if advance then (t.head + 1) % 2 ^ 32 else t.head }

/-- Whether a record belongs before another of the same TIME: by UNIT, then WHERE (R419). -/
def LogRec.before (a b : LogRec) : Bool :=
  a.time == b.time && (decide (a.ev.unit < b.ev.unit) || a.ev.unit == b.ev.unit && decide (a.ev.loc < b.ev.loc))

/-- Move the record at a position down past unread records of its TIME that belong after it, at most `n` of them and not past TAIL
(R419); the positions keep their SEQ. -/
def Tel.sink : Nat → Nat → Tel → Tel
  | 0, _, t => t
  | n + 1, p, t =>
    let below := (p + 4095) % 4096
    match mapGet t.ring p, mapGet t.ring below with
    | some r, some o =>
      if r.before o && p != t.tail % 4096 then
        let o' := { o with seq := r.seq }
        Tel.sink n below { t with
          ring := mapSet (mapSet t.ring p o') below { r with seq := o.seq }
          newest := if p = t.newestPos then some o' else t.newest }
      else t
    | _, _ => t

/-- The newest record, where an event merges into it (R420). -/
def Tel.merges (t : Tel) (now : Nat) (e : Ev) : Option LogRec :=
  t.newest.filter fun o => o.ev.cls = e.cls && o.ev.event = e.event && o.ev.loc = e.loc && o.ev.info = e.info
    && decide (now ≤ o.time + 1000000)

/-- What logging an event does to the log: it is merged into the newest record, written, put in the place of a minor one, or dropped;
and the SEQ of a record that raises vector 63 (R420, R421). -/
def Tel.enter (t : Tel) (now : Nat) (e : Ev) : Tel × Option Nat :=
  let r : LogRec := ⟨now, t.seq, e, 1⟩
  let lossy := { t with lost := satAdd 32 t.lost 1 }
  match t.merges now e with
  | some o =>
    let o' := { o with count := satAdd 32 o.count 1 }
    ({ t with ring := mapSet t.ring t.newestPos o', newest := some o' }, none)
  | none =>
    if t.unread < 4096 then
      ((t.put (t.head % 4096) r true).sink 4096 (t.head % 4096),
        if raises e || (t.thresh != 0 && t.unread + 1 == t.thresh) then some t.seq else none)
    else if e.cls.minor then (lossy, none)
    else
      match t.oldestMinor with
      | some p => (lossy.put p r false, some t.seq)
      | none => (lossy, none)

/-- Log an event (R419–R421): counted by class, and entered; a record that raises vector 63 is also sent as a PLDM event (R426). -/
def State.log (s : State) (e : Ev) : State :=
  let x := s.tel.enter s.pwr.tb e
  let s := { s with tel := { x.1 with cnt := mapUpd s.tel.cnt e.cls.code 0 fun c => wrapAdd 64 c 1 } }
  match x.2 with
  | some q => (s.vector 63).emit (.pldmEvent q)
  | none => s

/-- Log an event, and give its record: the one it merges into, its own, or, where that is dropped, the one it would have had. -/
def State.logRecord (s : State) (e : Ev) : LogRec × State :=
  let own : LogRec := ⟨s.pwr.tb, s.tel.seq, e, 1⟩
  let t := s.log e
  let r := match s.tel.merges s.pwr.tb e with
    | some _ => t.tel.newest.getD own
    | none => ((t.tel.ring.map (·.2)).find? fun r => r.time == own.time && r.ev == e && r.count == 1).getD own
  (r, t)

/-- Log several events. -/
def State.logs (s : State) (es : List Ev) : State := es.foldl State.log s

/-- An event of class V for a write that a rule ignores (Table 19.3). -/
def State.ignoredReg (s : State) (unit : Nat) (loc : Nat := 0xFFFF) : State :=
  s.log ⟨.v, unit, evRegIgnored, loc, 0xFFFF, 0⟩

/-- A BAR0 write of an offset with no register (R363). -/
def State.badReg (s : State) : State :=
  let s := s.log ⟨.v, uHost, evHostBadreg, 0xFFFF, 0xFFFF, 0⟩
  { s with hst := { s.hst with badreg := satAdd 16 s.hst.badreg 1 } }

/-- Record a value in the boot record of both places it stands (R400): the copy with the lower count takes the higher
count plus one. -/
def writeRec {α : Type} (a b : FRec α) (v : α) : FRec α × FRec α :=
  let n := (if a.good then a.count else 0).max (if b.good then b.count else 0) + 1
  if !a.good || (b.good && a.count ≤ b.count) then (⟨n, true, v⟩, b) else (a, ⟨n, true, v⟩)

/-- The valid copy with the higher count (R400). -/
def readRec {α : Type} (a b : FRec α) : Option α :=
  if a.good && (!b.good || b.count ≤ a.count) then some a.val else if b.good then some b.val else none

/-- The boot record in force. -/
def Sec.boot (x : Sec) : BootRec := (readRec x.primary.boot x.recovery.boot).getD ⟨0, (false, 0), none⟩

/-- Write the boot record. -/
def Sec.setBoot (x : Sec) (b : BootRec) : Sec :=
  let (p, r) := writeRec x.primary.boot x.recovery.boot b
  { x with primary := { x.primary with boot := p }, recovery := { x.recovery with boot := r } }

/-- Enter minimal mode with a reason (R417): clocks stop, FAULT_N falls with the stage. -/
def State.enterMinimal (s : State) (code detail : Nat) : State :=
  { s with
    sec := { s.sec with stage := 7, code := code, detail := detail % 2 ^ 16, failStage := s.sec.stage }
    pwr := { s.pwr with stopped := s.pwr.stopped ++ ((List.range 8 ++ [99]).filter fun d => !s.pwr.stopped.contains d) }
    hst := { s.hst with queues := s.hst.queues.map fun (q, x) => (q, { x with en := false }) } }

/-- The answer to a class F error (Table 19.1, R422, R406): its record is logged and copied to flash, every request that is
not FREE is posted with 0x09 while the link is up, and minimal mode is entered with the reason `code`, whose detail is the
record's SEQ where none is given. -/
def State.fatal (s : State) (e : Ev) (code : Nat) (detail : Option Nat := none) : State :=
  let (r, s) := s.logRecord e
  let s := s.sch.reqs.foldl (fun s (n, r) => if r.st = .free && !r.held then s else s.complete n 9) s
  let b := s.sec.boot
  let b := { b with fatal := some r, fails := if code = 0x0B then b.fails else min 3 (b.fails + 1) }
  let s := { s with sec := s.sec.setBoot b }
  s.enterMinimal code (detail.getD r.seq)

/-! ### Faults of requests (R136, R171, R175, R225) -/

/-- Fault one request at the next step boundary; the first fault stands. -/
def State.faultSlot (s : State) (n status : Nat) : State :=
  let r := s.req n
  if r.fault.isSome || (r.st = .free && !r.held) then s else s.setReq n { r with fault := some status }

/-- Fault every request whose work runs in the present step. -/
def State.faultStep (s : State) (status : Nat) : State :=
  match s.sch.cur with
  | none => s
  | some c => c.chunks.foldl (fun s ch => s.faultSlot ch.1 status) s

/-! ### Units (R203–R205) -/

/-- Whether a module ID names this module. -/
def State.isMe (s : State) (m : Nat) : Bool := m == 0xFFFFF || m == s.lnk.modId

/-- The placement runs of a unit; none where it is unknown (R203, R204). -/
def State.unitRuns (s : State) (u : Nat) : Option (List Run) :=
  if u < 0x100 then (if s.kiteOn u then some [⟨0, 1, 0xFFFFF, u⟩] else none)
  else if u < 0x120 then
    let c := u - 0x100
    if s.kiteOn (8 * c + 7) then some [⟨0, 8, 0xFFFFF, 8 * c⟩] else none
  else if u < 0x124 then some [⟨0, s.perDie, 0xFFFFF, (u - 0x120) * s.perDie⟩]
  else if u = 0x124 then some [⟨0, s.nKites, 0xFFFFF, 0⟩]
  else (mapGet s.brd.trains u).map (·.runs)

/-- Kite count of a placement. -/
def runsN (rs : List Run) : Nat := (rs.map (·.count)).foldl (· + ·) 0

/-- Module and logical kite at a unit-relative number. -/
def runsAt (rs : List Run) (n : Nat) : Option (Nat × Nat) :=
  (rs.find? fun r => decide (r.first ≤ n && n < r.first + r.count)).map fun r => (r.modId, r.kite + (n - r.first))

/-- Logical kites of this module in a placement, with their unit-relative numbers. -/
def State.mine (s : State) (rs : List Run) : List (Nat × Nat) :=
  (rs.filter fun r => s.isMe r.modId).flatMap fun r => (List.range r.count).map fun i => (r.first + i, r.kite + i)

/-- Other modules that hold kites of a placement. -/
def State.others (s : State) (rs : List Run) : List Nat :=
  ((rs.map (·.modId)).filter fun m => !s.isMe m).eraseDups

/-- Bridle runs of a unit (Table 10.1, R207). -/
def State.unitBruns (s : State) (u : Nat) : List BRun :=
  if 0x120 ≤ u && u < 0x124 then [⟨0xFFFFF, 16384 * (u - 0x120), 16384⟩]
  else if u = 0x124 then [⟨0xFFFFF, 0, 65536⟩]
  else ((mapGet s.brd.trains u).map (·.bruns)).getD []

/-- NB of a unit. -/
def brunsN (bs : List BRun) : Nat := (bs.map (·.len)).foldl (· + ·) 0

/-- Module and physical bridle of a unit-relative address (R207, R211). -/
def brunsAt : List BRun → Nat → Option (Nat × Nat)
  | [], _ => none
  | b :: rest, u => if u < b.len then some (b.modId, b.first + u) else brunsAt rest (u - b.len)

/-- The user train that holds a physical bridle of this module (BRD.CFG). -/
def State.bridleTrain (s : State) (b : Nat) : Option Nat :=
  (s.brd.trains.find? fun (_, t) => t.bruns.any fun r => s.isMe r.modId && decide (r.first ≤ b && b < r.first + r.len)).map (·.1)

/-- The unit of the serving train: the one SCH.SERVE names or, on a member, the launched train that the lead is part of
(R310). -/
def State.trainUnit (s : State) : Nat :=
  if s.sch.following then
    ((s.brd.launches.find? fun (u, _) => match mapGet s.brd.trains u with
      | some t => t.runs.any fun r => r.modId == s.sch.leadId
      | none => false).map (·.1)).getD s.sch.serve
  else s.sch.serve

/-- Placement runs of the serving train. -/
def State.serveRuns (s : State) : List Run := (s.unitRuns s.trainUnit).getD []

/-- Logical kites of this module in the serving train. -/
def State.serveKites (s : State) : List Nat := (s.mine s.serveRuns).map (·.2)

/-- Whether a unit is the serving train (R217). -/
def State.isServing (s : State) (u : Nat) : Bool := s.trainUnit == u && (!s.sch.stopped || s.sch.following)

/-! ### Kites -/

/-- A kite. Events stand in it only while a command is in progress: between commands it has none. -/
def State.kite (s : State) (k : Nat) : Kite := { mapGetD s.kites k {} with evs := [] }

/-- Reels of a kite that uncompleted descriptors of other kites or modules name (R146). -/
def State.peerReels (s : State) (k : Nat) : List Nat :=
  (List.range 32).filter fun r => s.kites.any (fun x => x.2.sendsTo k r) || s.lnk.recvs.any fun x => x.kite == k && x.reel == some r

/-- Remove the waits a kite has registered (R219). -/
def State.dropWaits (s : State) (k : Nat) : State :=
  { s with brd := { s.brd with
      waits := s.brd.waits.filter fun w => w.kite != k
      notices := s.brd.notices.filter fun n => n.kite != k } }

/-- What an event of a kite does beyond the log: the faults of requests of R136 and R175. -/
def State.kiteEvent (s : State) (k : Nat) (e : Ev) : State :=
  let s := s.log e
  if e.cls = .u && s.serveKites.contains k then
    if e.event / 0x1000 = 1 then s.faultStep 9 else if e.event / 0x1000 = 4 then s.faultStep 6 else s
  else s

/-- Store a kite with nothing moved out of it. -/
def State.setKite (s : State) (k : Nat) (kt : Kite) : State := { s with kites := mapSet s.kites k kt }

/-- Put a kite back: its events are logged, and a stopped keel keeps no registered wait (R219). -/
def State.putKite (s : State) (k : Nat) (kt : Kite) : State :=
  let s := kt.evs.foldl (fun s e => s.kiteEvent k e) s
  let s := if kt.stopped then s.dropWaits k else s
  s.setKite k { kt with evs := [] }

end Sys2Proof.Machine
end

