-- ==== Sys2Proof/Machine/Memory.lean ====
section
/-! DEFINITION. Device memory (file 11): the physical map, frames and free lists, page tables and their walks, the reserved
extent as the bytes it holds, ECC and poison, and reads and writes of bytes. -/
namespace Sys2Proof.Machine

/-! ### The physical map (R226–R228, Table 11.9) -/

def hbmEnd : Nat := 0x90 * 2 ^ 32
def loftBase : Nat := 0x100 * 2 ^ 32
def loftEnd : Nat := 0x2B0 * 2 ^ 32
def extBase : Nat := 0x2A8 * 2 ^ 32
def pftEnd : Nat := 0x2AA40000000
def poolBase : Nat := 0x2AB40000000

/-- Whether an address lies in HBM or in the loft. -/
def inTiers (a : Nat) : Bool := decide (a < hbmEnd) || decide (loftBase ≤ a && a < loftEnd)

/-- Tier of an address: the loft is `true`. -/
def isLoft (a : Nat) : Bool := decide (loftBase ≤ a)

/-- Stack of an HBM address, controller of a loft address (R227, R228). -/
def memUnit (a : Nat) : Nat := if isLoft a then (a - loftBase) / 4096 % 12 else a / 4096 % 8

/-- Device of a loft address (R228). -/
def loftDevice (a : Nat) : Nat :=
  let b := (a - loftBase) / 4096
  2 * (b % 12) + b / 12 % 2

/-- Offset of an address in its stack, or in its loft device (R227, R228). -/
def memOffset (a : Nat) : Nat :=
  (if isLoft a then (a - loftBase) / 4096 / 24 else a / 32768) * 4096 + a % 4096

/-- Kite and byte of an address of the scratchpad region (Table 11.1). -/
def padAddr (a : Nat) : Option (Nat × Nat) :=
  if 2 ^ 42 ≤ a && a < 2 ^ 42 + 256 * 2 ^ 23 then some ((a - 2 ^ 42) / 2 ^ 23, a % 2 ^ 23) else none

/-- Bridle and byte of its record of an address of the bridle region (Table 11.1). -/
def recordAddr (a : Nat) : Option (Nat × Nat) :=
  if 0x50000000000 ≤ a && a < 0x50000100000 then some ((a - 0x50000000000) / 16, a % 16) else none

/-! ### Free lists (R237) -/

/-- Put an interval into a list of disjoint rising intervals, joining those it touches. -/
def ivAdd : List (Nat × Nat) → Nat → Nat → List (Nat × Nat)
  | [], a, n => [(a, n)]
  | (b, m) :: rest, a, n =>
    if a + n < b then (a, n) :: (b, m) :: rest
    else if b + m < a then (b, m) :: ivAdd rest a n
    else ivAdd rest (min a b) (max (a + n) (b + m) - min a b)

/-- Take an interval out. -/
def ivSub (l : List (Nat × Nat)) (a n : Nat) : List (Nat × Nat) :=
  l.flatMap fun (b, m) =>
    if a + n ≤ b || b + m ≤ a then [(b, m)]
    else (if b < a then [(b, a - b)] else []) ++ (if a + n < b + m then [(a + n, b + m - (a + n))] else [])

/-- Blocks in the intervals. -/
def ivSum (l : List (Nat × Nat)) : Nat := (l.map (·.2)).foldl (· + ·) 0

/-- Whether a block lies in the intervals. -/
def ivHas (l : List (Nat × Nat)) (a : Nat) : Bool := l.any fun (b, m) => decide (b ≤ a && a < b + m)

/-- The lowest free frame of `z` blocks in one interval: an aligned run whose buddy does not lie beside it, for buddies
that are both free are joined; the largest class, `top`, has no buddy. -/
def ivFrame (z : Nat) (top : Bool) (b m : Nat) : Option Nat :=
  let x := (b + z - 1) / z * z
  let e := b + m
  let y := e / z * z - z
  if e < x + z then none
  else if top then some x
  else if x / z % 2 = 1 || e < x + 2 * z then some x
  else if z ≤ e / z * z && y / z % 2 = 0 && b ≤ y && e < y + 2 * z then some y
  else none

/-- The lowest free frame of class c. -/
def lowestFree (l : List (Nat × Nat)) (c : Nat) : Option Nat :=
  l.findSome? fun (b, m) => ivFrame (2 ^ (c - 12)) (c == 30) b m

/-- The frame an allocation of class c takes (R237): the lowest of its class, or the lower part of the lowest of the
nearest larger class. -/
def pickFree (l : List (Nat × Nat)) (c : Nat) : Option Nat :=
  (List.range (31 - c)).findSome? fun i => lowestFree l (c + i)

/-- The free frame a free block belongs to: its first block and class. -/
def freeFrameOf (l : List (Nat × Nat)) (a : Nat) : Option (Nat × Nat) :=
  match l.find? fun (b, m) => decide (b ≤ a && a < b + m) with
  | none => none
  | some (b, m) =>
    ((List.range 19).map fun i => (a / 2 ^ (18 - i) * 2 ^ (18 - i), 30 - i)).find? fun (x, c) =>
      decide (b ≤ x && x + 2 ^ (c - 12) ≤ b + m)

/-! ### Frames (R238) -/

/-- The frame that holds a 4 KiB block: its first block and entry. -/
def Pgm.frameOf (p : Pgm) (blk : Nat) : Option (Nat × Frame4) :=
  p.frames.find? fun (b, f) => decide (b ≤ blk && blk < b + 2 ^ (f.cls - 12))

/-- The frame whose first address is `a`. -/
def Pgm.frameAt (p : Pgm) (a : Nat) : Option Frame4 := if a % 4096 = 0 then mapGet p.frames (a / 4096) else none

/-- Change the entry of the frame at address `a`. -/
def Pgm.upFrame (p : Pgm) (a : Nat) (f : Frame4 → Frame4) : Pgm :=
  match mapGet p.frames (a / 4096) with
  | some x => { p with frames := mapSet p.frames (a / 4096) (f x) }
  | none => p

/-- RETIRE and CECNT gathered over blocks that lie in no frame in use. -/
def Pgm.marked (p : Pgm) (b n : Nat) : Bool × Nat :=
  (p.marks.filter fun x => decide (b ≤ x.1 && x.1 < b + n)).foldl (fun a x => (a.1 || x.2.1, min 31 (a.2 + x.2.2))) (false, 0)

/-- Marks of blocks taken over by a frame. -/
def Pgm.unmark (p : Pgm) (b n : Nat) : Map (Bool × Nat) := p.marks.filter fun x => !decide (b ≤ x.1 && x.1 < b + n)

/-- Marks that a frame leaves to its first block. -/
def Pgm.mark (p : Pgm) (b : Nat) (retire : Bool) (n : Nat) : Map (Bool × Nat) :=
  if retire || n != 0 then mapSet p.marks b (retire, n) else p.marks

/-- Allocate a frame of class c in a tier (R237): in ALLOC with count 1. -/
def Pgm.alloc (p : Pgm) (loft : Bool) (c : Nat) : Option (Nat × Pgm) :=
  let l := if loft then p.freeL else p.freeH
  (pickFree l c).map fun b =>
    let n := 2 ^ (c - 12)
    let l' := ivSub l b n
    (b * 4096, { p with
      freeH := if loft then p.freeH else l', freeL := if loft then l' else p.freeL, marks := p.unmark b n
      frames := mapSet p.frames b { st := .alloc, cls := c, refcnt := 1, retire := (p.marked b n).1, cecnt := (p.marked b n).2 } })

/-- Return a frame to its free list. -/
def Pgm.release (p : Pgm) (b : Nat) : Pgm :=
  match mapGet p.frames b with
  | none => p
  | some f =>
    let n := 2 ^ (f.cls - 12)
    let p := { p with frames := mapDel p.frames b, marks := p.mark b f.retire f.cecnt }
    if isLoft (b * 4096) then { p with freeL := ivAdd p.freeL b n } else { p with freeH := ivAdd p.freeH b n }

/-- A page table frame from the pool, the lowest that is free (R229). -/
def Pgm.takeTable (p : Pgm) : Option (Nat × Pgm) :=
  match p.pool with
  | [] => none
  | (b, _) :: _ => some (b * 4096, { p with
      pool := ivSub p.pool b 1, marks := p.unmark b 1
      frames := mapSet p.frames b { st := .table, cls := 12, retire := (p.marked b 1).1, cecnt := (p.marked b 1).2 } })

/-- Return a page table frame to the pool. -/
def Pgm.dropTable (p : Pgm) (a : Nat) : Pgm :=
  let b := a / 4096
  { p with
    pool := ivAdd p.pool b 1, frames := mapDel p.frames b
    marks := match mapGet p.frames b with
      | some f => p.mark b f.retire f.cecnt
      | none => p.marks }

/-! ### Page tables (R231–R234) -/

/-- Space and offset of a device virtual address; none outside every region (R231). -/
def vaSpace (va : Nat) : Option (Nat × Nat) :=
  if 2 ^ 54 ≤ va && va < 2 ^ 54 + 2 ^ 49 then some ((va - 2 ^ 54) / 2 ^ 36, (va - 2 ^ 54) % 2 ^ 36)
  else if 2 ^ 53 ≤ va && va < 2 ^ 53 + 2 ^ 44 then some (8192 + (va - 2 ^ 53) / 2 ^ 32, (va - 2 ^ 53) % 2 ^ 32)
  else none

/-- First address of a space's region. -/
def spaceBase (sp : Nat) : Nat := if sp < 8192 then 2 ^ 54 + sp * 2 ^ 36 else 2 ^ 53 + (sp - 8192) * 2 ^ 32

/-- Level of a leaf by its size: 3 up to 1 MiB, 2 up to 512 MiB, 1 above (R234). -/
def leafLevel (size : Nat) : Nat := if size ≤ 20 then 3 else if size ≤ 29 then 2 else 1

/-- Keys of the tables a leaf at an offset needs below the root. -/
def tabKeys (off size : Nat) : List Nat :=
  match leafLevel size with
  | 3 => [off / 2 ^ 30, 64 + off / 2 ^ 21]
  | 2 => [off / 2 ^ 30]
  | _ => []

/-- Bits of a leaf entry (Table 11.3). -/
def leafBits (l : Leaf) : Nat := 1 + 2 + l.size % 32 * 4 + b2n l.wp * 128 + l.frame / 4096 % 2 ^ 36 * 4096

/-- Bits of an entry that points to a table. -/
def tabBits (a : Nat) : Nat := 1 + a / 4096 % 2 ^ 36 * 4096

/-- The leaf of a space at an offset. -/
def Space.leafAt (sp : Space) (off : Nat) : Option Leaf :=
  sp.leaves.find? fun l => decide (l.off ≤ off && off < l.off + 2 ^ l.size)

/-- Entry `i` of a table frame of a space, as it stands in memory. -/
def Space.entry (sp : Space) (a i : Nat) : Nat :=
  let leafOr (off level : Nat) (key : Nat) : Nat :=
    match sp.leafAt off with
    | some l => if leafLevel l.size = level then leafBits l else ((mapGet sp.tabs key).map tabBits).getD 0
    | none => ((mapGet sp.tabs key).map tabBits).getD 0
  if a = sp.root then (if i < 64 then leafOr (i * 2 ^ 30) 1 i else 0)
  else
    match sp.tabs.find? fun (_, f) => f == a with
    | none => 0
    | some (key, _) =>
      if key < 64 then leafOr (key * 2 ^ 30 + i * 2 ^ 21) 2 (64 + key * 512 + i)
      else
        match sp.leafAt ((key - 64) * 2 ^ 21 + i * 4096) with
        | some l => if leafLevel l.size = 3 then leafBits l else 0
        | none => 0

/-- Whether a 64-byte block cannot be read. -/
def Pgm.unreadable (p : Pgm) (blk : Nat) : Bool := p.poisoned.contains blk || p.broken.contains blk

/-- The table entries a walk of an offset reads, by their addresses: it stops at its leaf, and at an entry with V = 0 (R232). -/
def Space.path (sp : Space) (off : Nat) : List Nat :=
  let level := ((sp.leafAt off).map fun l => leafLevel l.size).getD 3
  (sp.root + off / 2 ^ 30 * 8) :: (if level = 1 then [] else
    match mapGet sp.tabs (off / 2 ^ 30) with
    | none => []
    | some a2 => (a2 + off / 2 ^ 21 % 512 * 8) :: (if level = 2 then [] else
        match mapGet sp.tabs (64 + off / 2 ^ 21) with
        | none => []
        | some a3 => [a3 + off / 4096 % 512 * 8]))

/-- A walk (R231, R232, Table 11.8): the leaf, and the event of an uncorrectable block of a page table frame. -/
def Pgm.walk (p : Pgm) (va : Nat) : Option Leaf × Option Ev :=
  match vaSpace va with
  | none => (none, none)
  | some (n, off) =>
    match mapGet p.spaces n with
    | none => (none, none)
    | some sp =>
      match (sp.path off).find? fun a => p.unreadable (a / 64) with
      | some a => (none, some ⟨.u, uMem, evMem 2 1, memUnit a, if n < 8192 then n else 0xFFFF, a⟩)
      | none => (sp.leafAt off, none)

/-- Physical address of a virtual address through its leaf. -/
def Leaf.phys (l : Leaf) (va : Nat) : Nat := l.frame + va % 2 ^ l.size

/-! ### The reserved extent as bytes (R229, R238, R271) -/

/-- POISON, RETIRE and CECNT of the blocks b to b + n − 1 as a page frame table entry holds them. -/
def Pgm.pftMarks (p : Pgm) (b n : Nat) (retire : Bool) (cecnt : Nat) : Nat :=
  b2n (p.poisoned.any fun x => decide (b * 64 ≤ x && x < (b + n) * 64)) * 2 ^ 9 + b2n retire * 2 ^ 10 + min cecnt 31 * 2 ^ 11

/-- The page frame table entry of a 4 KiB block. -/
def Pgm.pftEntry (p : Pgm) (blk : Nat) : Nat :=
  let idle (n : Nat) : Nat := p.pftMarks blk n (p.marked blk n).1 (p.marked blk n).2
  match p.frameOf blk with
  | some (b, f) =>
    if b = blk then
      (match f.st with
        | .alloc => 1
        | .quar => 2
        | .table => 3
        | .retired => 5) + f.cls * 16 + p.pftMarks b (2 ^ (f.cls - 12)) f.retire f.cecnt
        + f.refcnt % 2 ^ 24 * 2 ^ 16 + f.qepoch % 2 ^ 64 * 2 ^ 40
    else 4
  | none =>
    if extBase / 4096 ≤ blk then 6 + idle 1
    else
      match freeFrameOf (if isLoft (blk * 4096) then p.freeL else p.freeH) blk with
      | some (b, c) => if b = blk then c * 16 + idle (2 ^ (c - 12)) else 4
      | none => 0

/-- Block of the page frame table that holds the entry of the frame at an address (Table 11.9). -/
def pftBlock (a : Nat) : Nat := (extBase + 16 * (if isLoft a then 150994944 + (a - loftBase) / 4096 else a / 4096)) / 64

/-- The bytes of a prefix index entry (Table 12.5), from its context key and record. -/
def PEntry.bytes (ckey : Nat) (e : PEntry) : List Byte :=
  leBytes 32 ckey ++ leBytes 32 e.pkey ++ leBytes 32 e.mdig ++ leBytes 4 e.j ++ leBytes 2 e.nv ++ leBytes 1 e.nl
    ++ leBytes 1 (1 + 2 * b2n e.imported) ++ leBytes 8 e.hit ++ List.replicate 16 0
    ++ (List.range 128).flatMap (fun l => leBytes 8 (e.frames.getD l 0))
    ++ (List.range 128).flatMap (fun l => leBytes 32 (e.digs.getD l 0))
    ++ (List.range 2048).flatMap (fun i => leBytes 4 (e.tokens.getD i 0))

/-- A byte of device memory, the tables of the reserved extent included; an undefined one is a free value (R10). -/
def Pgm.byte (p : Pgm) (a : Nat) : Byte :=
  if a < extBase || loftEnd ≤ a then
    match p.undef.find? fun x => decide (x.1 ≤ a && a < x.1 + x.2.1) with
    | some x => Config.freeKv a x.2.2
    | none => memRead p.mem a
  else if a < pftEnd then
    let i := (a - extBase) / 16
    let blk := if i < 150994944 then i else loftBase / 4096 + (i - 150994944)
    BitVec.ofNat 8 (p.pftEntry blk / 2 ^ (8 * (a % 16)))
  else if a < poolBase then
    let e := (a - pftEnd) / 16384
    match p.index.find? fun (_, x) => x.place == e with
    | some (k, x) => (x.bytes k).getD ((a - pftEnd) % 16384) 0
    | none => 0
  else
    let f := a / 4096 * 4096
    match p.spaces.find? fun (_, sp) => sp.root == f || sp.tabs.any fun t => t.2 == f with
    | some (_, sp) => BitVec.ofNat 8 (sp.entry f (a % 4096 / 8) / 2 ^ (8 * (a % 8)))
    | none => 0

/-- Consecutive bytes. -/
def Pgm.bytes (p : Pgm) (a n : Nat) : List Byte := (List.range n).map fun i => p.byte (a + i)

/-! ### Errors (R243–R245) -/

/-- Count an event of a memory device (MEM.ECC_H, MEM.ECC_L). -/
def Pgm.countEcc (p : Pgm) (a : Nat) (unc : Bool) : Pgm :=
  if isLoft a then
    { p with eccL := mapUpd p.eccL (memUnit a) (0, 0, 0) fun (l, c, u) =>
        if unc then (l, c, satAdd 16 u 1) else (l, satAdd 24 c 1, u) }
  else
    { p with eccH := mapUpd p.eccH (memUnit a) (0, 0) fun (c, u) => if unc then (c, satAdd 16 u 1) else (satAdd 32 c 1, u) }

/-- Set RETIRE on the frame that holds an address; one that is not in use keeps the mark in its block (R245). -/
def Pgm.retireFrame (p : Pgm) (a : Nat) : Pgm :=
  match p.frameOf (a / 4096) with
  | some (b, f) => { p with frames := mapSet p.frames b { f with retire := true } }
  | none => { p with marks := mapUpd p.marks (a / 4096) (false, 0) fun x => (true, x.2) }

/-- One more corrected event in the frame that holds an address: RETIRE at 8 in a pass (R245). -/
def Pgm.corrected (p : Pgm) (a : Nat) : Pgm :=
  match p.frameOf (a / 4096) with
  | some (b, f) =>
    let n := min 31 (f.cecnt + 1)
    { p with frames := mapSet p.frames b { f with cecnt := n, retire := f.retire || decide (8 ≤ n) } }
  | none =>
    { p with marks := mapUpd p.marks (a / 4096) (false, 0) fun x => (x.1 || decide (8 ≤ x.2 + 1), min 31 (x.2 + 1)) }

/-- Poison blocks (R244), and mark their frames (R245). -/
def Pgm.poison (p : Pgm) (bs : List Nat) : Pgm :=
  bs.foldl (fun p b =>
    if p.poisoned.contains b then p else ({ p with poisoned := p.poisoned ++ [b] }).retireFrame (b * 64)) p

/-- Whether reading a block meets no error of any kind. -/
def Pgm.sound (p : Pgm) (blk : Nat) : Bool :=
  !(p.poisoned.contains blk || p.broken.contains blk || p.weak.contains blk || p.onDie.contains blk || p.linkBad.contains blk)

/-- Kind of a memory event in EVENT (Table 19.3). -/
def memPlace (a : Nat) : Nat := if isLoft a then (if extBase ≤ a && a < pftEnd then 3 else 2) else 1

/-- What a device corrects by itself as a block is read (Table 11.8): counted per stack, or per pair of loft devices. -/
def State.deviceEcc (s : State) (blk : Nat) : State :=
  let a := blk * 64
  if isLoft a && s.pgm.linkBad.contains blk then
    ({ s with pgm := { s.pgm with
        linkBad := s.pgm.linkBad.filter fun b => b != blk
        eccL := mapUpd s.pgm.eccL (memUnit a) (0, 0, 0) fun (l, c, u) => (satAdd 24 l 1, c, u) } }).log
      ⟨.c, uMem, evMem (memPlace a) 0, memUnit a, 0xFFFF, a⟩
  else if !isLoft a && s.pgm.onDie.contains blk then
    ({ s with pgm := ({ s.pgm with onDie := s.pgm.onDie.filter fun b => b != blk }).countEcc a false }).log
      ⟨.c, uMem, evMem (memPlace a) 0, memUnit a, 0xFFFF, a⟩
  else s

/-- What the memory controller finds as it reads one 64-byte block (Table 11.8): a correctable error is corrected, and the block
is rewritten in a background slot; an uncorrectable one poisons the block; a poisoned block reports itself. The Boolean says
whether the data is bad. -/
def State.checkBlock (s : State) (blk : Nat) : Bool × State :=
  let a := blk * 64
  if s.pgm.poisoned.contains blk then (true, s.log ⟨.d, uMem, evMem (memPlace a) 2, memUnit a, 0xFFFF, a⟩)
  else if s.pgm.broken.contains blk then
    let e : Ev := ⟨.d, uMem, evMem (memPlace a) 1, memUnit a, 0xFFFF, a⟩
    let s := { s with pgm := (({ s.pgm with broken := s.pgm.broken.filter fun b => b != blk }).countEcc a true).poison [blk] }
    if memPlace a = 3 then (true, s.fatal { e with cls := .f } 0x0A) else (true, s.log e)
  else if s.pgm.weak.contains blk then
    let p := (s.pgm.countEcc a false).corrected a
    (false, ({ s with pgm := { p with rewrite := if p.rewrite.contains blk then p.rewrite else p.rewrite ++ [blk] } }).log
      ⟨.c, uMem, evMem (memPlace a) 0, memUnit a, 0xFFFF, a⟩)
  else (false, s)

/-- Reading one 64-byte block. -/
def State.touchBlock (s : State) (blk : Nat) : Bool × State := (s.deviceEcc blk).checkBlock blk

/-- The page manager reads the page frame table entries of frames (Table 11.8): an uncorrectable block of the table is fatal. -/
def State.readPft (s : State) (fs : List Nat) : State := fs.foldl (fun s a => (s.touchBlock (pftBlock a)).2) s

/-- What the page manager does once it has read the entries of frames; nothing where that was fatal. -/
def State.withPft (s : State) (fs : List Nat) (f : State → State) : State :=
  let t := s.readPft fs
  if t.minimal && !s.minimal then t else f t

/-- Corrected blocks are rewritten in a background slot (R243). -/
def Pgm.rewriteAll (p : Pgm) : Pgm := { p with weak := p.weak.filter fun b => !p.rewrite.contains b, rewrite := [] }

/-- The 64-byte blocks that a range covers. -/
def blocksOf (a n : Nat) : List Nat := if n = 0 then [] else (List.range ((a + n - 1) / 64 - a / 64 + 1)).map fun i => a / 64 + i

/-- Read bytes of device memory: the bytes, and the blocks that are bad. -/
def State.readMem (s : State) (a n : Nat) : List Byte × List Nat × State :=
  let (bad, s) := (blocksOf a n).foldl (fun (acc : List Nat × State) b =>
    let (x, s) := acc.2.touchBlock b
    (if x then acc.1 ++ [b] else acc.1, s)) (([] : List Nat), s)
  (s.pgm.bytes a n, bad, s)

/-- Whether an address may be written at all: the page frame table, the prefix index and page tables are the page
manager's own. -/
def writable (a : Nat) : Bool := inTiers a && !(decide (extBase ≤ a))

/-- Undefined ranges less one that is written. -/
def undefCut (l : List (Nat × Nat × Nat)) (a n : Nat) : List (Nat × Nat × Nat) :=
  l.flatMap fun (b, m, g) =>
    if a + n ≤ b || b + m ≤ a then [(b, m, g)]
    else (if b < a then [(b, a - b, g)] else []) ++ (if a + n < b + m then [(a + n, b + m - (a + n), g)] else [])

/-- A range becomes undefined (R10, R254, R267, R277). -/
def Pgm.undefine (p : Pgm) (a n : Nat) : Pgm :=
  if n = 0 then p else { p with undef := undefCut p.undef a n ++ [(a, n, p.undefN)], undefN := p.undefN + 1 }

/-- Write bytes: a block written in full is healthy again (R244); a migration of a frame written to is spoilt (R242). -/
def Pgm.write (p : Pgm) (a : Nat) (l : List Byte) : Pgm :=
  if l.isEmpty then p
  else
    let n := l.length
    let full (b : Nat) : Bool := decide (a ≤ b * 64 && b * 64 + 64 ≤ a + n)
    { p with
      mem := memWrites p.mem a l
      undef := undefCut p.undef a n
      poisoned := p.poisoned.filter fun b => !full b
      broken := p.broken.filter fun b => !full b
      weak := p.weak.filter fun b => !full b
      rewrite := p.rewrite.filter fun b => !full b
      migs := p.migs.map fun m =>
        if m.old < a + n && a < m.old + 2 ^ m.cls then { m with bad := true } else m }

/-- An uncorrectable block of a page table frame that a walk found (Table 11.8): logged as class U, counted, and poisoned. -/
def State.badTable (s : State) (e : Ev) : State :=
  let b := e.info / 64
  let p := s.pgm
  let p := if p.broken.contains b then (({ p with broken := p.broken.filter fun x => x != b }).countEcc e.info true).poison [b] else p
  ({ s with pgm := p }).log e

/-- A walk by the TLB's holder `who`, a kite or 256 for the export engine (R231, R232, R235): a granule that its TLB holds needs no
table; one found in the tables enters it, where the oldest of 512 makes room. -/
def State.walkBy (s : State) (who va : Nat) : Option Leaf × State :=
  match vaSpace va with
  | none => (none, s)
  | some (n, off) =>
    let held := mapGetD s.pgm.tlb who []
    match (mapGet s.pgm.spaces n).bind fun sp => (sp.leafAt off).filter fun l => held.contains (n, l.off) with
    | some l => (some l, s)
    | none =>
      match s.pgm.walk va with
      | (some l, _) =>
        (some l, { s with pgm := { s.pgm with tlb := mapSet s.pgm.tlb who (held.drop (held.length - 511) ++ [(n, l.off)]) } })
      | (none, some e) => (none, s.badTable e)
      | (none, none) => (none, s)

/-- Canonical form of device memory. -/
def Memory.wf (m : List Host.Cell) : Bool := memWf m

end Sys2Proof.Machine
end

