-- ==== Sys2Proof/Machine/Lerbo.lean ====
section
/-! DEFINITION. What every sender and receiver of Lerbo shares (§15.3–§15.8): routing, sending a message flit by flit under
credit, undeliverable messages, the answers to a peer's violations, and port states. -/
namespace Sys2Proof.Machine

/-! ### Ports -/

/-- A port. -/
def State.port (s : State) (p : Nat) : Port := mapGetD s.lnk.ports p {}

/-- Put a port back. -/
def State.setPort (s : State) (p : Nat) (x : Port) : State := { s with lnk := { s.lnk with ports := mapSet s.lnk.ports p x } }

/-- Receive buffer of a channel, in flits (R347). -/
def chanBuf : Nat → Nat
  | 0 => 256
  | 1 => 256
  | 2 => 64
  | _ => 1024

/-- Flits of a message with `body` body bytes (R344, R350). -/
def flitsOf (body : Nat) : Nat := ceilDiv (8 + body) 240

/-! ### The flit (Table 15.3) -/

/-- One bit of a CRC-32 that takes bits least significant first: the IEEE 802.3 polynomial, mirrored. -/
def crcBit (c : Nat) : Nat := if c % 2 = 1 then (c / 2) ^^^ 0xEDB88320 else c / 2

/-- CRC-32 of IEEE 802.3 over bytes. -/
def crc32 (l : List Byte) : Nat :=
  (l.foldl (fun c b => (List.range 8).foldl (fun c _ => crcBit c) (c ^^^ b.toNat)) 0xFFFFFFFF) ^^^ 0xFFFFFFFF

def fKind (l : List Byte) : Nat := fieldLe l 0 1 % 16
def fVc (l : List Byte) : Nat := bits (fieldLe l 0 1) 4 2
def fLast (l : List Byte) : Bool := bit (fieldLe l 0 1) 6
def fPlen (l : List Byte) : Nat := fieldLe l 1 1
def fFseq (l : List Byte) : Nat := fieldLe l 2 2 % 4096
def fAack (l : List Byte) : Nat := fieldLe l 4 2 % 4096
def fCred (l : List Byte) : Nat := fieldLe l 6 2 % 16384
def fCredVc (l : List Byte) : Nat := fieldLe l 6 2 / 16384
def fDst (l : List Byte) : Nat := fieldLe l 8 3 % 2 ^ 20
/-- Whether the CRC holds. -/
def fGood (l : List Byte) : Bool := fieldLe l 0xFC 4 == crc32 (l.take 0xFC)
/-- Whether a reserved KIND or field, or a PLEN above 240, makes the flit a violation (Table 15.6, row 1). -/
def fBad (l : List Byte) : Bool :=
  decide (3 < fKind l) || bit (fieldLe l 0 1) 7 || 4096 ≤ fieldLe l 2 2 || 4096 ≤ fieldLe l 4 2 || 2 ^ 20 ≤ fieldLe l 8 3
    || fieldLe l 0xB 1 != 0 || decide (240 < fPlen l)

/-- The 256 bytes of a flit. -/
def flitBytes (kind vc : Nat) (last : Bool) (fseq aack credVc cred dst : Nat) (payload : List Byte) : List Byte :=
  let l := leBytes 1 (kind + 16 * vc + 64 * b2n last) ++ leBytes 1 payload.length ++ leBytes 2 fseq ++ leBytes 2 aack
    ++ leBytes 2 (cred + 16384 * credVc) ++ leBytes 3 dst ++ leBytes 1 0 ++ payload ++ List.replicate (240 - payload.length) 0
  l ++ leBytes 4 (crc32 l)

/-- A message's bytes, which its flits carry (R350). -/
def LMsg.bytes (m : LMsg) : List Byte := leBytes 1 m.mtype ++ leBytes 1 m.ttl ++ leBytes 2 m.body.length ++ leBytes 4 m.src ++ m.body

/-- The channel of a message type; none for a reserved one (Table 15.4). -/
def mtypeVc : Nat → Option Nat
  | 0x01 => some 0 | 0x02 => some 0 | 0x03 => some 0 | 0x04 => some 0
  | 0x11 => some 1 | 0x12 => some 1 | 0x13 => some 1
  | 0x21 => some 2 | 0x31 => some 3
  | _ => none

/-! ### Routes (R353, R354) -/

/-- The valid route entry of a destination. -/
def State.route (s : State) (dst : Nat) : Option Nat :=
  let e := if dst / 16 = s.lnk.modId / 16 then mapGetD s.lnk.lroute (dst % 16) 0 else mapGetD s.lnk.route (dst / 16) 0
  if bit e 0 then some e else none

/-- Ports an entry lists. -/
def routePorts (e : Nat) : List Nat := (List.range (bits e 1 2 + 1)).map fun i => bits e (8 + 7 * i) 7

/-- H of a destination (R354). -/
def State.hops (s : State) (dst : Nat) : Nat := match s.route dst with
  | some e => bits e 3 5
  | none => 0

/-! ### Undeliverable messages (R225, R342, Table 8.5) -/

/-- End the remote descriptor of a tag with a status (R351): its rows are done. -/
def State.endRemote (s : State) (tag status : Nat) : State :=
  match mapGet s.lnk.sends tag with
  | none => s
  | some (k, ch) =>
    let kt := s.kite k
    let q := (kt.chan ch).queue.map fun d => match d.kind with
      | .remote _ _ _ _ t brd =>
        if t = tag then
          { d with
            status := if d.status = 0 then status else d.status, left := 0, next := d.nrows, waits := 0
            told := brd.isSome && (status == 0 || status == 2) }
        else d
      | _ => d
    { (s.setKite k { kt with chans := mapSet kt.chans ch { kt.chan ch with queue := q } }) with
      lnk := { s.lnk with sends := mapDel s.lnk.sends tag } }

/-- A message the link layer cannot deliver: a lost signal faults the step's requests, a lost WRITE ends its descriptor
with LINK; a request or answer that is lost is missed by whoever waits for it. -/
def State.undeliverable (s : State) (m : LMsg) : State :=
  if m.mtype = 0x21 then
    let s := s.log ⟨.u, uPort, evMove 6, 0xFFFF, 0xFFFF, fieldLe m.body 0 4⟩
    ({ s with brd := { s.brd with nLost := satAdd 16 s.brd.nLost 1 } }).faultStep 7
  else if m.mtype = 0x02 then s.endRemote (fieldLe m.body 0 8) 6
  else s

/-- Power a quad down while its four ports are DISABLED or QUARANTINED, and up otherwise: its transmit and receive domains stop
or run (R340, R380; domains by their place in Table 17.1). -/
def State.quadPower (s : State) (q : Nat) : State :=
  let off := (List.range 4).all fun i => let x := s.port (4 * q + i); x.st == 0 || x.st == 5
  let st := s.pwr.stopped.filter fun d => d != 45 + q && d != 69 + q
  { s with pwr := { s.pwr with stopped := if off then st ++ [45 + q, 69 + q] else st } }

/-- Flits of a channel have left a port's receive buffer: their credit is to be returned (R347). -/
def State.free1 (s : State) (p vc n : Nat) : State :=
  let x := s.port p
  s.setPort p { x with freed := x.freed.set vc (x.freed.getD vc 0 + n) }

/-- Messages whose flits a port still holds, as sender: unacknowledged ones and waiting ones. -/
def Port.unsent (x : Port) : List LMsg := x.buf.filterMap (·.msg) ++ x.txq

/-- A port goes DOWN or to quarantine: it holds nothing to send any more (R342, R361); what waited in transit leaves the buffer of
the port it came in by. -/
def State.portStops (s : State) (p st : Nat) : State :=
  let x := s.port p
  let me := s.lnk.modId
  let lost := x.unsent
  let s := s.setPort p { x with
    st := st, since := s.now, buf := [], txq := [], equal := false, hello := false, replayAt := none, replayN := 0, rxOwed := [0, 0, 0, 0]
    held := [0, 0, 0, 0], freed := [0, 0, 0, 0], helloSeq := none
    quar := if st = 5 then satAdd 16 x.quar 1 else x.quar }
  let s := x.txq.foldl (fun s m => match m.via with
    | some q => if q = p then s else s.free1 q m.vc m.left
    | none => s) s
  lost.foldl (fun s m => if m.via.isNone && m.src = me then s.undeliverable m else s) (s.quadPower (p / 4))

/-- An UP port goes to RETRAIN (R342); 16 entries within 60 s quarantine it (R361). -/
def State.retrain (s : State) (p : Nat) : State :=
  let x := s.port p
  if x.st != 2 then s
  else
    let at_ := (s.now :: x.retrainAt).filter fun t => decide (s.now < t + 60000000000)
    let s := s.setPort p { x with
      st := 3, since := s.now, equal := false, hello := false, peer0 := x.peer, retrains := satAdd 8 x.retrains 1, retrainAt := at_ }
    if 16 ≤ at_.length then s.portStops p 5 else s

/-- Count a peer's violation; 256 within 1 s quarantine the port (R360, R361). -/
def State.violCount (s : State) (p row : Nat) : State :=
  let x := s.port p
  let at_ := (s.now :: x.violAt).filter fun t => decide (s.now < t + 1000000000)
  let s := s.setPort p { x with violN := satAdd 32 x.violN 1, violLast := row, violAt := at_ }
  if 256 ≤ at_.length && x.st != 5 then s.portStops p 5 else s

/-- A peer's violation of Table 15.6: counted and logged (R360). -/
def State.violate (s : State) (p row : Nat) : State :=
  (s.log ⟨.v, uPort, evPartner 1 row, p, 0xFFFF, 0⟩).violCount p row

/-! ### Sending (R345–R348) -/

/-- The message whose next flit is sent: the channels in the order sync, response, request, bulk, each in order, among
those with credit (R346). -/
def Port.pick (x : Port) : Option Nat :=
  [2, 1, 0, 3].findSome? fun vc =>
    if x.credit.getD vc 0 = 0 then none else x.txq.findIdx? fun m => m.vc == vc

/-- The credit that the next flit returns: the first channel, in the same order, whose flits have left the buffer. -/
def Port.returns (x : Port) : Nat × Nat :=
  match [2, 1, 0, 3].find? fun vc => x.freed.getD vc 0 != 0 with
  | some vc => (vc, min (x.freed.getD vc 0) 16383)
  | none => (0, 0)

/-- A port that has told its peer the FSEQ it expects and the credit that the next flit returns. -/
def Port.told (x : Port) : Port :=
  let (vc, n) := x.returns
  { x with
    aackSent := x.rxSeq, freed := x.freed.set vc (x.freed.getD vc 0 - n), held := x.held.set vc (x.held.getD vc 0 - n) }

/-- Send a sequenced flit (R345): it takes the next FSEQ, is kept for replay, and carries AACK and credit. `msg` is the message
it is the last of. -/
def State.sendFlit (s : State) (p kind vc : Nat) (last : Bool) (dst : Nat) (payload : List Byte) (msg : Option LMsg) : State :=
  let x := s.port p
  let b := flitBytes kind vc last x.txSeq x.rxSeq x.returns.1 x.returns.2 dst payload
  (s.setPort p { x.told with
    buf := x.buf ++ [⟨x.txSeq, msg, b⟩], txSeq := (x.txSeq + 1) % 4096, txUnits := wrapAdd 48 x.txUnits 1
    aackAt := if x.buf.isEmpty then s.now else x.aackAt }).emit (.flit p b)

/-- IDLE flits that tell the peer what no sequenced flit has told it: AACK, and the credit of each channel (R345, R347). -/
def State.fill (s : State) (p : Nat) : State :=
  (List.range 4).foldl (fun s _ =>
    let x := s.port p
    if x.st = 2 && x.mode = 0 && (x.aackSent != x.rxSeq || x.returns.2 != 0) then
      (s.setPort p x.told).emit (.flit p (flitBytes 0 0 false 0 x.rxSeq x.returns.1 x.returns.2 0 []))
    else s) s

/-- Send the flits that credit and the replay buffer allow, on a fuel of flits. A message leaves with its last flit; a flit in
transit leaves the buffer of the port it came in by. -/
def State.pump (p : Nat) : Nat → State → State
  | 0, s => s
  | n + 1, s =>
    let x := s.port p
    if x.st != 2 || 1024 ≤ x.buf.length then s
    else
      match x.pick with
      | none => s
      | some i =>
        match x.txq[i]? with
        | none => s
        | some m =>
          let last := decide (m.left ≤ 1)
          let o := 240 * (flitsOf m.body.length - m.left)
          let s := s.setPort p { x with
            credit := x.credit.set m.vc (x.credit.getD m.vc 0 - 1)
            txq := if last then x.txq.eraseIdx i else x.txq.set i { m with left := m.left - 1 } }
          let s := s.sendFlit p (if o = 0 then 1 else 2) m.vc last m.dst (sliceBytes m.bytes o (min 240 (m.bytes.length - o)))
            (if last then some m else none)
          let s := match m.via with
            | some q => let s := s.free1 q m.vc 1; if last then s.fill q else s
            | none => s
          State.pump p n s

/-- Route a message (R353): one for this module is delivered locally, any other is queued on its entry's next port; none of the
entry's use leaves it undeliverable, or, in transit, to the caller. The Boolean says whether it goes on. -/
def State.enqueue (s : State) (m : LMsg) : Bool × State :=
  if m.dst = s.lnk.modId then (true, { s with lnk := { s.lnk with loop := s.lnk.loop ++ [m] } })
  else
  match s.route m.dst with
  | none => (false, s)
  | some e =>
    let ps := routePorts e
    let i := mapGetD s.lnk.rot m.dst 0
    let p := ps.getD (i % ps.length) 0
    let s := { s with lnk := { s.lnk with rot := mapSet s.lnk.rot m.dst ((i + 1) % 12) } }
    let x := s.port p
    if p < 96 && x.mode == 0 && (x.st == 2 || x.st == 3) then
      (true, State.pump p 1024 (s.setPort p { x with txq := x.txq ++ [m] }))
    else (false, s)

/-- A message of this module, with TTL 31 (R350). -/
def State.ownMsg (s : State) (dst mtype : Nat) (body : List Byte) : LMsg :=
  ⟨dst, (mtypeVc mtype).getD 0, mtype, 31, s.lnk.modId, body, flitsOf body.length, none⟩

/-- Send a message of this module. -/
def State.lerboSend (s : State) (dst mtype : Nat) (body : List Byte) : State :=
  let m := s.ownMsg dst mtype body
  let (ok, s) := s.enqueue m
  if ok then s else s.undeliverable m

/-- Forward a message in transit (R353, R354): with its TTL one lower, its flits in its port's buffer until they are sent; or,
where that TTL is 0 or no route takes it, dropped as a violation of the peer. -/
def State.forward (s : State) (p : Nat) (dst mtype ttl src : Nat) (body : List Byte) : State :=
  let n := flitsOf body.length
  let drop (s : State) : State := (s.free1 p ((mtypeVc mtype).getD 0) n).violate p 4
  if ttl ≤ 1 then drop s
  else
    let (ok, s') := s.enqueue ⟨dst, (mtypeVc mtype).getD 0, mtype, ttl - 1, src, body, n, some p⟩
    if ok then s' else drop s

/-! ### Receiving (R345–R348, R350, R353) -/

/-- Take an acknowledgement: flits below AACK leave the replay buffer, and progress is noted (R348, R342). -/
def State.takeAack (s : State) (p aack : Nat) : State :=
  let x := s.port p
  match x.buf with
  | [] => s
  | b :: _ =>
    let n := (aack + 4096 - b.fseq) % 4096
    if n = 0 || x.buf.length < n then s else s.setPort p { x with buf := x.buf.drop n, aackAt := s.now }

/-- Credit returned by the peer (R347). -/
def State.takeCredit (s : State) (p vc n : Nat) : State :=
  let x := s.port p
  s.setPort p { x with credit := x.credit.set vc (x.credit.getD vc 0 + n) }

/-- Codewords of a mode in 1 ms, of which more than 1 % uncorrectable retrain an UP port (R342, R343, Table 15.1). -/
def codewordLimit : Nat → Nat
  | 0 => 781
  | 1 => 781
  | 2 => 390
  | _ => 195

/-- Codewords that were corrected, and ones that were uncorrectable, with what those of 1 ms bring (R342). -/
def State.fecIn (s : State) (p corr unc : Nat) : State :=
  let x := s.port p
  let at_ := if unc = 0 then x.uncAt else (List.replicate unc s.now ++ x.uncAt).filter fun t => decide (s.now < t + 1000000)
  let s := s.setPort p { x with fecCorr := satAdd 24 x.fecCorr corr, fecUnc := satAdd 16 x.fecUnc unc, uncAt := at_ }
  if unc != 0 && decide (codewordLimit x.mode < at_.length) then s.retrain p else s

/-- The transport of a complete message (Table 15.6 rows 1–4): its flits are taken in sequence; a breach discards the
message; one for another module is forwarded. Answers whether the message is to be delivered here. The flits of a message that
is delivered or discarded leave the buffer, and their credit goes back. -/
def State.lerboRx (s : State) (r : LRx) (mtype : Nat) (body : List Byte) : Bool × State :=
  let p := r.port.val
  let x := s.port p
  if x.st != 2 || x.mode != 0 then (false, s)
  else
    let vc := r.vc.toNat
    let owed := x.rxOwed.getD vc 0 + r.flits
    let excess := decide (chanBuf vc < x.held.getD vc 0 + r.flits)
    let s := s.setPort p { x with
      rxSeq := (x.rxSeq + r.flits) % 4096, rxUnits := wrapAdd 48 x.rxUnits r.flits, rxOwed := x.rxOwed.set vc 0
      held := x.held.set vc (x.held.getD vc 0 + r.flits), replayAt := none, replayN := 0 }
    let s := (r.cred.zipIdx).foldl (fun s c => s.takeCredit p c.2 c.1) (s.takeAack p r.aack.toNat)
    let s := State.pump p 1024 s
    let away (s : State) : State := (s.free1 p vc owed).fecIn p r.corr r.unc
    let (ok, s) :=
      if !r.flitOk then (false, (away s).violate p 1)
      else if excess then (false, (away s).violate p 2)
      else if !r.lenOk || 9216 < body.length || mtypeVc mtype != some vc then (false, (away s).violate p 3)
      else if r.dst.toNat = s.lnk.modId then (true, away s)
      else (false, (s.forward p r.dst.toNat mtype r.ttl.toNat r.src.toNat body).fecIn p r.corr r.unc)
    (ok, s.fill p)

/-! ### Signals (R222, R223) -/

/-- Send a signal to a physical bridle, applied at a home of this module in the last fabric cycle that ends by the end of
cycle `by_`, and through Lerbo at another (R223). -/
def State.signal (s : State) (m b amt by_ : Nat) : State :=
  if s.isMe m then { s with brd := { s.brd with arrivals := s.brd.arrivals ++ [⟨b, s.fabBy by_, amt, false⟩] } }
  else s.lerboSend m 0x21 (leBytes 4 b ++ leBytes 4 amt)

end Sys2Proof.Machine
end

