-- ==== Sys2Proof/Machine/PageMgr.lean ====
section
/-! DEFINITION. The page manager (§11.4–§11.6): its commands and their statuses, the edit queue, the epoch boundary, the
retirement of epochs, and the commands of the prefix index (§12.8). -/
namespace Sys2Proof.Machine

/-! ### The tables together with the queued edits (R239, R448) -/

/-- The leaves of a space with the queued edits applied. -/
def Pgm.future (p : Pgm) (sp : Nat) : List Leaf :=
  p.edits.foldl (fun ls e => match e.kind with
    | .map n va fr size wp _ => if n = sp then ls ++ [⟨va - spaceBase sp, size, wp, fr⟩] else ls
    | .unmap n va => if n = sp then ls.filter fun l => !decide (l.off ≤ va - spaceBase sp && va - spaceBase sp < l.off + 2 ^ l.size) else ls
    | .drop n _ => if n = sp then [] else ls
    | _ => ls) (((mapGet p.spaces sp).map (·.leaves)).getD [])

/-- The leaf that maps an address of a space with the queued edits applied. -/
def Pgm.futureLeaf (p : Pgm) (sp va : Nat) : Option Leaf :=
  if spaceBase sp ≤ va then
    (p.future sp).find? fun l => decide (l.off ≤ va - spaceBase sp && va - spaceBase sp < l.off + 2 ^ l.size)
  else none

/-- Whether a space has a root with the queued edits applied. -/
def Pgm.spaceLives (p : Pgm) (sp : Nat) : Bool :=
  p.edits.foldl (fun b e => match e.kind with
    | .map n _ _ _ _ _ => b || n == sp
    | .drop n _ => b && n != sp
    | _ => b) (mapGet p.spaces sp).isSome

/-- The leaves that map a frame, each with its space. -/
def Pgm.leavesTo (p : Pgm) (a : Nat) : List (Nat × Leaf) :=
  p.spaces.flatMap fun sp => (sp.2.leaves.filter fun l => l.frame == a).map fun l => (sp.1, l)

/-- One queued edit's part in a frame's count: the count so far, and the leaves that map the frame. -/
def countEdit (a : Nat) (acc : Int × List (Nat × Leaf)) (e : Edit) : Int × List (Nat × Leaf) :=
  let (c, ls) := acc
  match e.kind with
  | .map n va fr size wp adopt =>
    if fr = a then (if adopt then c else c + 1, (n, ⟨va - spaceBase n, size, wp, fr⟩) :: ls) else acc
  | .inc fr => (if fr = a then c + 1 else c, ls)
  | .dec fr => (if fr = a then c - 1 else c, ls)
  | .unmap n va =>
    let hit := fun (x : Nat × Leaf) =>
      x.1 == n && decide (x.2.off ≤ va - spaceBase n && va - spaceBase n < x.2.off + 2 ^ x.2.size)
    (c - ((ls.filter hit).length : Int), ls.filter fun x => !hit x)
  | .drop n _ => (c - ((ls.filter fun x => x.1 == n).length : Int), ls.filter fun x => x.1 != n)
  | _ => acc

/-- The count of a frame with the queued edits applied, the decrements a DROPSPACE has left to later boundaries among them. -/
def Pgm.futureRef (p : Pgm) (a : Nat) : Int :=
  let base : Int := (((p.frameAt a).map (·.refcnt)).getD 0 : Nat)
  let owed : Nat := (p.dropping.map fun d => (d.leaves.filter fun l => l.frame == a).length).foldl (· + ·) 0
  let es := p.edits ++ p.backlog
  if es.isEmpty then base - owed else (es.foldl (countEdit a) (base - owed, p.leavesTo a)).1

/-- Table frames of a space as it stands, root included. -/
def Space.nTabs (sp : Space) : Nat := 1 + sp.tabs.length

/-- Page table frames that a space has yet to take from the pool to hold some leaves: all of them where its present tables are to
be dropped, or where it has none (R447). -/
def Pgm.newTabs (p : Pgm) (sp : Nat) (ls : List Leaf) : Nat :=
  let keys := (ls.flatMap fun l => tabKeys l.off l.size).eraseDups
  let gone := p.edits.any fun e => match e.kind with
    | .drop n _ => n == sp
    | _ => false
  if ls.isEmpty then 0
  else
    match mapGet p.spaces sp with
    | some x => if gone then 1 + keys.length else (keys.filter fun k => (mapGet x.tabs k).isNone).length
    | none => 1 + keys.length

/-- Page table frames that the queued MAPs of spaces other than one need. -/
def Pgm.tabsOwed (p : Pgm) (but : Nat) : Nat :=
  let ns := (p.edits.filterMap fun e => match e.kind with
    | .map n _ _ _ _ _ => if n = but then none else some n
    | _ => none).eraseDups
  (ns.map fun n => p.newTabs n (p.future n)).foldl (· + ·) 0

/-- Edits that a DROPSPACE counts as when it is queued (R448): the leaves of the space, mapped or queued, and its page table frames. -/
def Pgm.dropWeight (p : Pgm) (sp : Nat) : Nat :=
  p.edits.foldl (fun w e => match e.kind with
    | .map n _ _ _ _ _ => if n = sp then w + 1 else w
    | .drop n _ => if n = sp then 0 else w
    | _ => w) (((mapGet p.spaces sp).map fun x => x.leaves.length + x.nTabs).getD 0)

/-- Edits a command counts as (R448). -/
def EditKind.weight : EditKind → Nat
  | .drop _ w => w
  | _ => 1

/-- Whether an edit is a DROPSPACE. -/
def EditKind.isDrop : EditKind → Bool
  | .drop _ _ => true
  | _ => false

/-- Edits queued and not yet applied, remainders included (PGM.CMD.QLEN). -/
def Pgm.qlen (p : Pgm) : Nat :=
  (p.edits.map fun e => e.kind.weight).foldl (· + ·) 0 + p.backlog.length
    + (p.dropping.map fun d => d.leaves.length + d.tabs.length).foldl (· + ·) 0 + (p.migs.filter fun m => m.copied).length

/-- An issuer's edits for the next boundary, DROPSPACEs left out (R284). -/
def Pgm.issued (p : Pgm) (host : Bool) : Nat :=
  (p.edits.filter fun e => e.host == host && !e.kind.isDrop).length + (p.migs.filter fun m => m.copied && m.host == host).length

/-- The host's edits for the next boundary as a command is judged: migrations whose copy still runs among them. -/
def Pgm.claimed (p : Pgm) : Nat := p.issued true + (p.migs.filter fun m => !m.copied && m.host).length

/-- Whether one more edit of `w` counts would exceed the queue, or the host's budget (R239, R284). -/
def Pgm.queueFull (p : Pgm) (host : Bool) (w : Nat) (drop : Bool) : Bool :=
  decide (65536 < p.qlen + w) || (host && !drop && decide (1024 < p.claimed + w))

/-- Queue an edit. -/
def Pgm.queue (p : Pgm) (host : Bool) (k : EditKind) : Pgm := { p with edits := p.edits ++ [⟨k, host⟩] }

/-- Queue the DROPSPACE of a space, for what it counts as now. -/
def Pgm.queueDrop (p : Pgm) (host : Bool) (sp : Nat) : Pgm := p.queue host (.drop sp (p.dropWeight sp))

/-- References that the module takes and drops itself, at the first boundaries that have room for them (R284). -/
def Pgm.later (p : Pgm) (ks : List EditKind) : Pgm := { p with backlog := p.backlog ++ ks.map fun k => ⟨k, false⟩ }

/-- DECREFs of the module's own. -/
def Pgm.release1 (p : Pgm) (fs : List Nat) : Pgm := p.later (fs.map .dec)

/-! ### The commands (Table 11.6, R447) -/

/-- The class of the frame whose first address is `a`, and whether it is in ALLOC; none where no frame begins there. -/
def Pgm.frameInfo (p : Pgm) (a : Nat) : Option (Nat × Bool) :=
  if a % 4096 != 0 || !inTiers a then none
  else
    match mapGet p.frames (a / 4096) with
    | some f => some (f.cls, f.st == .alloc)
    | none =>
      match freeFrameOf (if isLoft a then p.freeL else p.freeH) (a / 4096) with
      | some (b, c) => if b * 4096 = a then some (c, false) else none
      | none => none

/-- The status of a MAP (Table 11.7). -/
def Pgm.mapStatus (p : Pgm) (host : Bool) (sp va fr size : Nat) (adopt : Bool) : Nat :=
  match p.frameInfo fr with
  | none => 1
  | some (cls, alloc) =>
    let off := va - spaceBase sp
    if cls != size || 12288 ≤ sp || va % 2 ^ size != 0 || (vaSpace va).map (·.1) != some sp then 1
    else if (p.future sp).any fun l => decide (l.off < off + 2 ^ size && off < l.off + 2 ^ l.size) then 4
    else if !alloc then 8
    else if !adopt && decide (16777215 ≤ p.futureRef fr) then 6
    else if ivSum p.pool < p.tabsOwed sp + p.newTabs sp (p.future sp ++ [⟨off, size, false, fr⟩]) then 2
    else if p.queueFull host 1 false then 7 else 0

/-- The status of an UNMAP. -/
def Pgm.unmapStatus (p : Pgm) (host : Bool) (sp va : Nat) : Nat :=
  if (p.futureLeaf sp va).isSome then (if p.queueFull host 1 false then 7 else 0) else 3

/-- The status of an INCREF or DECREF. -/
def Pgm.refStatus (p : Pgm) (host : Bool) (fr : Nat) (inc : Bool) : Nat :=
  match p.frameAt fr with
  | some f =>
    if f.st != .alloc || decide (p.futureRef fr ≤ 0) then 8
    else if inc && decide (16777215 ≤ p.futureRef fr) then 6
    else if p.queueFull host 1 false then 7 else 0
  | none => 8

/-- Set PGM.CMD's status; a NO_FRAME counts. -/
def State.pgmStatus (s : State) (c : Nat) : State :=
  { s with pgm := { s.pgm with status := c, nNoframe := if c = 2 then satAdd 16 s.pgm.nNoframe 1 else s.pgm.nNoframe } }

/-- Space, virtual address and frame arguments (PGM.ARG). -/
def Pgm.argSpace (p : Pgm) : Nat := bits p.arg0 0 14
def Pgm.argTier (p : Pgm) : Bool := bit p.arg0 16
def Pgm.argClass (p : Pgm) : Nat := bits p.arg0 17 5
def Pgm.argSize (p : Pgm) : Nat := bits p.arg0 22 5

/-- Add an edit where its status is OK. -/
def State.pgmEdit (s : State) (c : Nat) (k : EditKind) : State :=
  if c = 0 then ({ s with pgm := s.pgm.queue true k }).pgmStatus 0 else s.pgmStatus c

/-- ALLOC. -/
def pgmAlloc (s : State) : State :=
  let c := s.pgm.argClass
  if c < 12 || 30 < c then s.pgmStatus 1
  else
    match s.pgm.alloc s.pgm.argTier c with
    | some (a, _) => s.withPft [a] fun s => (match s.pgm.alloc s.pgm.argTier c with
        | some (a, p) => ({ s with pgm := { p with arg2 := a } }).pgmStatus 0
        | none => s.pgmStatus 2)
    | none => s.pgmStatus 2

/-- MAP. -/
def pgmMap (s : State) : State := s.withPft [s.pgm.arg2] fun s =>
  let p := s.pgm
  let ad := bit p.arg0 28
  s.pgmEdit (p.mapStatus true p.argSpace p.arg1 p.arg2 p.argSize ad)
    (.map p.argSpace p.arg1 p.arg2 p.argSize (bit p.arg0 27) ad)

/-- UNMAP. -/
def pgmUnmap (s : State) : State :=
  s.pgmEdit (s.pgm.unmapStatus true s.pgm.argSpace s.pgm.arg1) (.unmap s.pgm.argSpace s.pgm.arg1)

/-- INCREF. -/
def pgmIncref (s : State) : State := s.withPft [s.pgm.arg2] fun s =>
  s.pgmEdit (s.pgm.refStatus true s.pgm.arg2 true) (.inc s.pgm.arg2)

/-- DECREF. -/
def pgmDecref (s : State) : State := s.withPft [s.pgm.arg2] fun s =>
  s.pgmEdit (s.pgm.refStatus true s.pgm.arg2 false) (.dec s.pgm.arg2)

/-- DROPSPACE: BAD_ARG for a space that does not exist with the queued edits applied; QUEUE_FULL where the queue cannot hold its
edits (R284). -/
def Pgm.dropStatus (p : Pgm) (host : Bool) (sp : Nat) : Nat :=
  if 12288 ≤ sp || !p.spaceLives sp then 1 else if p.queueFull host (p.dropWeight sp) true then 7 else 0

/-- DROPSPACE. -/
def pgmDropspace (s : State) : State :=
  let sp := s.pgm.argSpace
  s.pgmEdit (s.pgm.dropStatus true sp) (.drop sp (s.pgm.dropWeight sp))

/-- Time of a copy of `b` bytes on the page copy path, in ns (R278). -/
def copyNs (b : Nat) : Nat := 10000 + ceilDiv b 64

/-- MIGRATE (R242): its status, and the migration begun on the granule that maps an address with the queued edits applied. -/
def State.migrate (s : State) (host : Bool) (sp va : Nat) (loft : Bool) : Nat × State :=
  match s.pgm.futureLeaf sp va with
  | none => (3, s)
  | some l =>
    match s.pgm.frameAt l.frame with
    | some f =>
      if f.st != .alloc then (8, s)
      else if s.pgm.futureRef l.frame != 1 then (5, s)
      else if s.pgm.queueFull host 1 false then (7, s)
      else
        match s.pgm.alloc loft f.cls with
        | some (a, p) =>
          (0, { s with pgm := { p with
            migs := p.migs ++ [⟨sp, spaceBase sp + l.off, l.frame, a, f.cls, 30 * copyNs (2 ^ f.cls), false, false, host⟩] } })
        | none => (2, s)
    | none => (8, s)

/-- MIGRATE. -/
def pgmMigrate (s : State) : State :=
  s.withPft ((s.pgm.futureLeaf s.pgm.argSpace s.pgm.arg1).map (·.frame)).toList fun s =>
    let (c, s) := s.migrate true s.pgm.argSpace s.pgm.arg1 s.pgm.argTier
    s.pgmStatus c

/-- The migration whose copy runs: copies are made one after another. -/
def Pgm.copying (p : Pgm) : Option Mig := p.migs.find? fun m => !m.copied

/-- A cycle of background time on the page copy path: `d` thirtieths of a ns of the copy that runs (R242, R307). -/
def Pgm.copyOn (p : Pgm) (d : Nat) : Pgm :=
  match p.copying with
  | none => p
  | some m => { p with migs := p.migs.map fun x => if x.new_ = m.new_ then { x with left := x.left - d } else x }

/-- MIGRATE_COPY_DONE: the granule stands in its new frame, poisoned blocks poisoned, awaiting its remap. -/
def migrateCopyDone (frame : Nat) (s : State) : State :=
  match s.pgm.migs.find? fun m => m.old == frame && !m.copied with
  | none => s
  | some m =>
    let (l, bad, s) := s.readMem m.old (2 ^ m.cls)
    let p := (s.pgm.write m.new_ l).poison (bad.map fun b => b - m.old / 64 + m.new_ / 64)
    { s with pgm := { p with migs := p.migs.map fun x => if x.new_ = m.new_ then { x with copied := true } else x } }

/-! ### The epoch boundary (R240, R449) -/

/-- Put a leaf into a list of leaves in rising offset. -/
def leafIns (l : Leaf) : List Leaf → List Leaf
  | [] => [l]
  | x :: rest => if l.off < x.off then l :: x :: rest else x :: leafIns l rest

/-- Give a space the tables a leaf needs. -/
def Pgm.addTabs (p : Pgm) (sp : Space) (keys : List Nat) : Space × Pgm :=
  keys.foldl (fun (acc : Space × Pgm) k =>
    if (mapGet acc.1.tabs k).isSome then acc
    else
      match acc.2.takeTable with
      | some (a, p) => ({ acc.1 with tabs := mapSet acc.1.tabs k a }, p)
      | none => acc) (sp, p)

/-- Install a leaf; the space gains its root with its first (R447). -/
def Pgm.install (p : Pgm) (n : Nat) (l : Leaf) : Pgm :=
  let start : Option (Space × Pgm) := match mapGet p.spaces n with
    | some sp => some (sp, p)
    | none => p.takeTable.map fun (a, p) => ({ root := a }, p)
  match start with
  | none => p
  | some (sp, p) =>
    let (sp, p) := p.addTabs sp (tabKeys l.off l.size)
    { p with spaces := mapSet p.spaces n { sp with leaves := leafIns l sp.leaves } }

/-- What a boundary gathers for its counts: frames to increment and to decrement. -/
structure Counts where
  incs : List Nat := []
  decs : List Nat := []
  n : Nat := 0
  deriving DecidableEq, Repr

/-- A migration of a granule, or of a whole space, is spoilt by an UNMAP or DROPSPACE that is applied (R242). -/
def Pgm.spoil (p : Pgm) (n : Nat) (va : Option Nat) : Pgm :=
  { p with migs := p.migs.map fun m => if m.space = n && va.all (· == m.va) then { m with bad := true } else m }

/-- Whether a frame is held by the prefix index. -/
def Pgm.indexed (p : Pgm) (a : Nat) : Bool := p.index.any fun x => x.2.frames.contains a

/-- Write-protect every leaf that maps a frame. -/
def Pgm.protectFrame (p : Pgm) (a : Nat) : Pgm :=
  { p with spaces := p.spaces.map fun (n, sp) =>
      (n, { sp with leaves := sp.leaves.map fun l => if l.frame = a then { l with wp := true } else l }) }

/-- Whether a leaf to a frame in a space is to be write-protected whatever its MAP asks: the frame is held by the prefix index or by
a variant space, or another space maps it (R276). -/
def Pgm.mustProtect (p : Pgm) (n a : Nat) : Bool := decide (8192 ≤ n) || p.indexed a || (p.leavesTo a).any fun x => x.1 != n

/-- Apply one edit's table part (step 2 of R240). -/
def Pgm.applyEdit (acc : Pgm × Counts) (e : Edit) : Pgm × Counts :=
  let (p, c) := acc
  let c' : Counts := { c with n := c.n + 1 }
  match e.kind with
  | .map n va fr size wp adopt =>
    let must := p.mustProtect n fr
    let p := if must then p.protectFrame fr else p
    (p.install n ⟨va - spaceBase n, size, wp || must, fr⟩, { c' with incs := if adopt then c.incs else c.incs ++ [fr] })
  | .unmap n va =>
    match mapGet p.spaces n with
    | none => (p, c')
    | some sp =>
      match sp.leafAt (va - spaceBase n) with
      | none => (p, c')
      | some l =>
        (({ p with spaces := mapSet p.spaces n { sp with leaves := sp.leaves.filter fun x => x.off != l.off } }).spoil n
            (some (spaceBase n + l.off)), { c' with decs := c.decs ++ [l.frame] })
  | .inc fr => (p, { c' with incs := c.incs ++ [fr] })
  | .dec fr => (p, { c' with decs := c.decs ++ [fr] })
  | .drop n _ =>
    match mapGet p.spaces n with
    | none => (p, c)
    | some sp =>
      (({ p with spaces := mapDel p.spaces n
                 dropping := p.dropping ++ [(⟨n, sp.leaves, (sp.tabs.map (·.2)) ++ [sp.root], e.host⟩ : Dropping)] } : Pgm).spoil n none, c)
  | .remap n va old new_ =>
    match mapGet p.spaces n with
    | none => (p, c')
    | some sp =>
      ({ p with spaces := mapSet p.spaces n { sp with
          leaves := sp.leaves.map fun l => if l.off = va - spaceBase n && l.frame = old then { l with frame := new_ } else l } },
        { c' with decs := c.decs ++ [old] })

/-- Clear what the budget allows of a detached space: leaves in rising address, then its table frames (R449). -/
def Pgm.dropSome (p : Pgm) (d : Dropping) (budget : Nat) : Pgm × List Nat × Nat × Option Dropping :=
  let ls := d.leaves.take budget
  let b := budget - ls.length
  let ts := if d.leaves.length ≤ budget then d.tabs.take b else []
  let p := ts.foldl Pgm.dropTable p
  let rest : Dropping := { d with leaves := d.leaves.drop ls.length, tabs := d.tabs.drop ts.length }
  (p, ls.map (·.frame), ls.length + ts.length, if rest.leaves.isEmpty && rest.tabs.isEmpty then none else some rest)

/-- The space and the frames that an edit is about. -/
def EditKind.about : EditKind → Option Nat × List Nat
  | .map n _ fr _ _ _ => (some n, [fr])
  | .unmap n _ => (some n, [])
  | .inc fr => (none, [fr])
  | .dec fr => (none, [fr])
  | .drop n _ => (some n, [])
  | .remap n _ old _ => (some n, [old])

/-- What of the queue a boundary applies (R240, R284, R449): edits taken, edits behind a DROPSPACE of their space, which go with it
if it is completed, edits kept for a later boundary; the issuers' edits taken, other than DROPSPACEs; and the spaces and frames
whose later edits must wait with one that waits, so that the queue's order stands. -/
structure Share where
  take : List Edit := []
  tied : List Edit := []
  keep : List Edit := []
  nS : Nat := 0
  nH : Nat := 0
  spaces : List Nat := []
  frames : List Nat := []
  drops : List Nat := []
  deriving DecidableEq, Repr

/-- An issuer's budget at one boundary (R284). -/
def budget (host : Bool) : Nat := if host then 1024 else 7168

/-- Count an edit as its issuer's. -/
def Share.count (x : Share) (host : Bool) : Share := if host then { x with nH := x.nH + 1 } else { x with nS := x.nS + 1 }

/-- An issuer's edits counted so far. -/
def Share.used (x : Share) (host : Bool) : Nat := if host then x.nH else x.nS

/-- Whether an edit is about a space or frame of a waiting one. -/
def Share.waits (x : Share) (k : EditKind) : Bool := k.about.1.any x.spaces.contains || k.about.2.any x.frames.contains

/-- Keep an edit for a later boundary. -/
def Share.hold (x : Share) (e : Edit) : Share :=
  { x with keep := x.keep ++ [e], spaces := x.spaces ++ e.kind.about.1.toList, frames := x.frames ++ e.kind.about.2 }

/-- Sort one queued edit. -/
def Share.sort (x : Share) (e : Edit) : Share :=
  if x.waits e.kind then x.hold e
  else if e.kind.isDrop then { x with take := x.take ++ [e], drops := x.drops ++ e.kind.about.1.toList }
  else if e.kind.about.1.any x.drops.contains || (x.tied.any fun y => e.kind.about.2.any y.kind.about.2.contains) then
    { x with tied := x.tied ++ [e] }
  else if budget e.host ≤ x.used e.host then x.hold e
  else ({ x with take := x.take ++ [e] }).count e.host

/-- Sort the queue. -/
def Pgm.share (p : Pgm) : Share := p.edits.foldl Share.sort { drops := p.dropping.map (·.space) }

/-- Work through the detached spaces with what of the issuers' budgets is left (R284, R449): the edits made for each issuer come
with it. -/
def Pgm.drops (p : Pgm) (c : Counts) (bs bh : Nat) : Pgm × Counts × Nat × Nat :=
  let (p, c, keep, s, h) := p.dropping.foldl
    (fun (acc : Pgm × Counts × List Dropping × Nat × Nat) d =>
      let (p, c, keep, s, h) := acc
      let (p, decs, n, rest) := p.dropSome d (if d.host then bh - h else bs - s)
      (p, { c with decs := c.decs ++ decs, n := c.n + n }, keep ++ rest.toList,
        if d.host then s else s + n, if d.host then h + n else h))
    (p, c, ([] : List Dropping), 0, 0)
  ({ p with dropping := keep }, c, s, h)

/-- Sort the edits that were tied to a DROPSPACE: taken where it is complete and the budget is not yet spent. -/
def Share.untie (x : Share) (dropping : List Dropping) : Share :=
  x.tied.foldl (fun y e =>
    if y.waits e.kind || budget e.host ≤ y.used e.host || e.kind.about.1.any (fun n => dropping.any fun d => d.space == n) then y.hold e
    else ({ y with take := y.take ++ [e] }).count e.host) { x with take := [], tied := [] }

/-- One count up; a migration of the frame is spoilt where its count rises above 1 (R242). -/
def Pgm.incFrame (p : Pgm) (a : Nat) : Pgm :=
  let up := decide (1 ≤ ((p.frameAt a).map (·.refcnt)).getD 0)
  let p := p.upFrame a fun f => { f with refcnt := f.refcnt + 1 }
  if up then { p with migs := p.migs.map fun m => if m.old = a then { m with bad := true } else m } else p

/-- One count down; at zero the frame enters QUAR (step 4 of R240). -/
def Pgm.decFrame (p : Pgm) (a : Nat) : Pgm := p.upFrame a fun f =>
  if f.refcnt ≤ 1 then { f with refcnt := 0, st := .quar, qepoch := p.epoch } else { f with refcnt := f.refcnt - 1 }

/-- Whether a copied migration still holds at the boundary (R242): nothing spoilt it, nothing queued unmaps its granule, which maps
the old frame with the queued edits applied, and the frame's count is 1. -/
def Pgm.migOk (p : Pgm) (m : Mig) : Bool :=
  !m.bad && p.futureRef m.old == 1 && ((p.future m.space).any fun l => l.frame == m.old && l.off == m.va - spaceBase m.space)
    && !p.edits.any fun e => match e.kind with
      | .unmap n va => n == m.space && decide (m.va ≤ va && va < m.va + 2 ^ m.cls)
      | .drop n _ => n == m.space
      | .remap n va _ _ => n == m.space && va == m.va
      | _ => false

/-- End the migrations whose copy is complete: remapped, or abandoned (R242). The number abandoned comes with it. -/
def Pgm.endMigs (p : Pgm) : Pgm × Nat :=
  p.migs.foldl (fun (acc : Pgm × Nat) m =>
    let (p, n) := acc
    if !m.copied then acc
    else
      let p := { p with migs := p.migs.filter fun x => x.new_ != m.new_ }
      if p.migOk m then ({ p with edits := p.edits ++ [⟨.remap m.space m.va m.old m.new_, m.host⟩] }, n)
      else (p.release (m.new_ / 4096), n + 1)) (p, 0)

/-- Imports become visible (R275): one that an entry with as many valid positions has come before is given up, its frames with it;
else it replaces what stands under its key. The leaves of its frames are write-protected (R276). -/
def Pgm.takeImports (p : Pgm) : Pgm :=
  p.pxNew.foldl (fun p (k, e) =>
    let old := mapGet p.index k
    if old.any fun o => decide (e.nv ≤ o.nv) then p.release1 (e.frames.take e.nl)
    else
      let p := match old with
        | some o => p.release1 (o.frames.take o.nl)
        | none => p
      (e.frames.take e.nl).foldl Pgm.protectFrame { p with index := mapSet p.index k e }) { p with pxNew := [] }

/-- Steps 2 to 6 of an epoch boundary (R240, R284, R449): the edits that the budgets take, in queue order, detached spaces, then
increments, decrements, and the epoch. The frames whose counts it changes, and the number of edits applied, come with it. -/
def Pgm.boundary (p : Pgm) : Pgm × List Nat × Nat :=
  let x := p.share
  let (p, c) := x.take.foldl Pgm.applyEdit (p, {})
  let back := p.backlog.take (7168 - x.nS)
  let (p, c) := back.foldl Pgm.applyEdit ({ p with backlog := p.backlog.drop back.length }, c)
  let nS := x.nS + back.length
  let (p, c, ds, dh) := p.drops c (7168 - nS) (1024 - x.nH)
  let y := ({ x with nS := nS + ds, nH := x.nH + dh }).untie p.dropping
  let (p, c) := y.take.foldl Pgm.applyEdit (p, c)
  let p := c.decs.foldl Pgm.decFrame (c.incs.foldl Pgm.incFrame { p with edits := y.keep })
  ({ p with epoch := wrapAdd 64 p.epoch 1, tlb := [] }, c.incs ++ c.decs, c.n)

/-- The epoch boundary (R240, R449). -/
def epochBoundary (s : State) : State :=
  let (p, ab) := s.pgm.takeImports.endMigs
  let s := (List.range ab).foldl (fun s _ => s.log ⟨.s, uMem, evMigrateAbandoned, 0xFFFF, 0xFFFF, 0⟩) s
  let (p, fs, _) := ({ p with nAbandon := satAdd 16 p.nAbandon ab }).boundary
  ({ s with pgm := p }).readPft fs

/-- Edits the next boundary will apply, which time it (R240, R284). -/
def boundaryEdits (s : State) : Nat := (s.pgm.takeImports.endMigs.1).boundary.2.2

/-! ### Retirement of epochs (R241, R245) -/

/-- The oldest epoch that has not retired. -/
def Pgm.oldestNow (p : Pgm) : Nat := (p.pins.map (·.epoch)).foldl min p.epoch

/-- A frame leaves QUAR: to its free list, or RETIRED, its blocks recorded in flash up to 4,096 (R245). -/
def State.leaveQuar (s : State) (b : Nat) (f : Frame4) : State :=
  if f.retire then
    let blocks := (List.range (2 ^ (f.cls - 12))).map (b + ·)
    let list := (readRec s.sec.primary.retired s.sec.recovery.retired).getD []
    let room := 4096 - min 4096 list.length
    let add := blocks.take room
    let (pr, rr) := if add.isEmpty then (s.sec.primary.retired, s.sec.recovery.retired)
      else writeRec s.sec.primary.retired s.sec.recovery.retired (list ++ add)
    let s := { s with
      pgm := { s.pgm with frames := mapSet s.pgm.frames b { f with st := .retired }, nRetired := satAdd 16 s.pgm.nRetired 1 }
      sec := { s.sec with
        primary := { s.sec.primary with retired := pr }, recovery := { s.sec.recovery with retired := rr } } }
    if add.length < blocks.length then s.log ⟨.c, uMem, evRetireUnrecorded, 0xFFFF, 0xFFFF, b * 4096⟩ else s
  else { s with pgm := s.pgm.release b }

/-- EPOCH_RETIRE: frames whose QEPOCH has retired leave quarantine. -/
def epochRetire (s : State) : State :=
  let o := s.pgm.oldestNow
  if o ≤ s.pgm.oldest then s
  else
    let s := { s with pgm := { s.pgm with oldest := o } }
    (s.pgm.frames.filter fun (_, f) => f.st == .quar && decide (f.qepoch < o)).foldl (fun s (b, f) => s.leaveQuar b f) s

/-- Free bytes in 4 KiB units, and frames in QUAR, of a tier (PGM.FREE). -/
def Pgm.free (p : Pgm) (loft : Bool) : Nat := ivSum (if loft then p.freeL else p.freeH)

def Pgm.quar (p : Pgm) (loft : Bool) : Nat :=
  (p.frames.filter fun (b, f) => f.st == .quar && isLoft (b * 4096) == loft).length

/-! ### The prefix index (R270–R275) -/

/-- Key input (Table 12.4). -/
def keyInput (model variant p : Nat) (tokens : List Nat) : List Byte :=
  leBytes 32 model ++ leBytes 32 variant ++ leBytes 4 p ++ tokens.flatMap (leBytes 4)

/-- Release an entry: its frames by DECREF. -/
def Pgm.dropEntry (p : Pgm) (k : Nat) : Pgm :=
  match mapGet p.index k with
  | none => p
  | some e => ({ p with index := mapDel p.index k }).release1 (e.frames.take e.nl)

/-- The entry R274 removes first: the oldest hit, then the lowest context key. -/
def Pgm.victim (p : Pgm) : Option Nat :=
  (p.index.foldl (fun (b : Option (Nat × Nat)) (k, e) =>
    match b with
    | none => some (e.hit, k)
    | some (h, _) => if e.hit < h then some (e.hit, k) else b) none).map (·.2)

/-- Entries of the index, imports that are not visible yet among them. -/
def Pgm.entries (p : Pgm) : Nat := p.index.length + (p.pxNew.filter fun x => (mapGet p.index x.1).isNone).length

/-- Make room for an entry in a full index (R274). -/
def Pgm.makeRoom (p : Pgm) : Pgm :=
  if 262144 ≤ p.entries then
    (match p.victim with
     | some v => { (p.dropEntry v) with pxRemoved := wrapAdd 29 p.pxRemoved 1 }
     | none => p)
  else p

/-- A place of the index no entry holds. -/
def Pgm.freePlace (p : Pgm) : Nat :=
  let used := p.index.map (·.2.place) ++ p.pxNew.map (·.2.place)
  ((List.range (used.length + 1)).find? fun i => !used.contains i).getD 0

/-- Put an entry into the index, removing one first where it is full (R274). -/
def Pgm.putEntry (p : Pgm) (k : Nat) (e : PEntry) : Pgm :=
  let p := if (mapGet p.index k).isSome then p.dropEntry k else if (mapGet p.pxNew k).isSome then p else p.makeRoom
  { p with index := mapSet p.index k { e with place := p.freePlace } }

/-- Bytes of the descriptor window. -/
def Pgm.descBytes (p : Pgm) (o n : Nat) : List Byte := (List.range n).map fun i => mapGetD p.pxDesc (o + i) 0

/-- Row bytes of a model's KV rows. -/
def Model.rb (m : Model) : Nat := m.d * ((Fmt.ofCode m.kvfmt).getD .e4m3).width / 8

/-- Read the valid rows of a page's frame, section by section (R271): none where a block of them is bad. -/
def State.pageRows (s : State) (a nkv psize rb nv : Nat) : Option (List Byte) × State :=
  (List.range (2 * nkv)).foldl (fun (acc : Option (List Byte) × State) sg =>
    let (l, bad, s) := acc.2.readMem (a + sg * psize * rb) (nv * rb)
    (match acc.1 with
     | some x => if bad.isEmpty then some (x ++ l) else none
     | none => none, s)) (some [], s)

/-- Page sizes under which `nv` valid positions fill a frame of class `cls` of a model (R247, R250). -/
def Model.pageSizes (m : Model) (cls nv : Nat) : List Nat :=
  ((List.range 8).map fun i => 2 ^ (4 + i)).filter fun p => nv ≤ p && Nat.log2 (max (2 * m.nkv * p * m.rb) 4096) == cls

/-- The model that is loaded with a digest. -/
def State.modelBy (s : State) (mdig : Nat) : Option Model :=
  (s.hst.models.find? fun (_, m) => m.digest == mdig && !m.filling).map (·.2)

/-- Whether a frame's contents have a page digest under a model: an entry does not name P, so any that its frame's size allows. -/
def State.digestHolds (s : State) (m : Model) (a nv dig : Nat) : Bool × State :=
  let cls := ((s.pgm.frameAt a).map (·.cls)).getD 12
  (m.pageSizes cls nv).foldl (fun (acc : Bool × State) p =>
    if acc.1 then acc
    else
      let (l, s) := acc.2.pageRows a m.nkv p m.rb nv
      (l.any fun l => digest l == dig, s)) (false, s)

def State.pxStatus (s : State) (c : Nat) : State := { s with pgm := { s.pgm with pxStatus := c } }

/-- Whether every frame of an entry has its page digest, one after another; a free value where the entry's model is not loaded, whose
geometry the digest takes (R271, R275). -/
def State.entryHolds (s : State) (e : PEntry) : Bool × State :=
  match s.modelBy e.mdig with
  | none => (Config.freeNat 1 s.free % 2 == 0, s.drew)
  | some m => (e.frames.zip e.digs).foldl (fun (acc : Bool × State) x =>
      if !acc.1 then acc else acc.2.digestHolds m x.1 e.nv x.2) (true, s)

/-- The entry in the descriptor window (Table 12.5). -/
def Pgm.descEntry (p : Pgm) : PEntry :=
  let b (o n : Nat) : Nat := leNat (p.descBytes o n)
  let nl := b 0x66 1
  ⟨b 0x20 32, b 0x40 32, b 0x60 4, b 0x64 2, nl, true, p.epoch, (List.range nl).map fun l => b (0x80 + 8 * l) 8,
    (List.range nl).map (fun l => b (0x480 + 32 * l) 32), (List.range (b 0x64 2)).map (fun i => b (0x1480 + 4 * i) 4), 0⟩

/-- Whether the window's entry has a reserved field that is not zero, a number out of range or a frame outside both tiers
(Table 12.6). NV is held to the largest page that the frame's size allows, where the model is loaded. -/
def State.insertBad (s : State) (e : PEntry) : Bool :=
  let zero (o n : Nat) : Bool := (s.pgm.descBytes o n).all (· == 0)
  4 ≤ leNat (s.pgm.descBytes 0x67 1) || e.nv = 0 || 2048 < e.nv || e.nl = 0 || 128 < e.nl || 65536 ≤ e.j || !zero 0x70 16
    || !zero (0x80 + 8 * e.nl) (1024 - 8 * e.nl) || !zero (0x480 + 32 * e.nl) (4096 - 32 * e.nl) || !zero 0x3480 0xB80
    || e.frames.any (fun f => !inTiers f)
    || match s.modelBy e.mdig with
      | some m => e.frames.any fun f => (s.pgm.frameAt f).any fun x => (m.pageSizes x.cls e.nv).isEmpty
      | none => false

/-- An entry under a context key, be it visible or an import still to become so. -/
def Pgm.entryOf (p : Pgm) (k : Nat) : Option PEntry := (mapGet p.pxNew k).orElse fun _ => mapGet p.index k

/-- INSERT (R275, Table 12.6): an entry from the descriptor window, visible from the next boundary. It replaces an import of its key
that is not visible yet, whose frames are released. -/
def pxInsert (s : State) : State :=
  let ckey := leNat (s.pgm.descBytes 0 32)
  let e := s.pgm.descEntry
  s.withPft (e.frames.filter inTiers) fun s =>
    if s.insertBad e then s.pxStatus 1
    else if e.frames.any fun f => match s.pgm.frameAt f with
        | some x => x.st != .alloc || x.refcnt != 1
        | none => true then s.pxStatus 8
    else
      let (ok, s) := s.entryHolds e
      if !ok then s.pxStatus 9
      else if (s.pgm.entryOf ckey).any fun o => decide (e.nv ≤ o.nv) then s.pxStatus 0xB
      else
        let p := match mapGet s.pgm.pxNew ckey with
          | some o => s.pgm.release1 (o.frames.take o.nl)
          | none => if (mapGet s.pgm.index ckey).isSome then s.pgm else s.pgm.makeRoom
        ({ s with pgm := { p with pxNew := mapSet p.pxNew ckey { e with place := p.freePlace } } }).pxStatus 0

/-- REMOVE: the entry of the context key in the window. -/
def pxRemove (s : State) : State :=
  let k := leNat (s.pgm.descBytes 0 32)
  if (mapGet s.pgm.index k).isSome then ({ s with pgm := s.pgm.dropEntry k }).pxStatus 0 else s.pxStatus 0xA

/-- FLUSH: every entry of the model digest in the window. -/
def pxFlush (s : State) : State :=
  let m := leNat (s.pgm.descBytes 0x40 32)
  let ks := (s.pgm.index.filter fun (_, e) => e.mdig == m).map (·.1)
  ({ s with pgm := ks.foldl Pgm.dropEntry s.pgm }).pxStatus 0

/-- The entries a boundary removes once the free memory of a tier has fallen below LOWATER, until it reaches HIWATER (R274): up to
64, and no more than the boundary's edits allow (R284). -/
def pxTrim (s : State) : State :=
  let short (p : Pgm) (lim : Nat) : Bool := decide (p.free false < lim * 262144) || decide (p.free true < lim * 262144)
  let on := if s.pgm.trimming then short s.pgm s.pgm.hiWater else short s.pgm s.pgm.loWater
  let s := { s with pgm := { s.pgm with trimming := on } }
  if on then
    (List.range 64).foldl (fun s _ =>
      match s.pgm.victim with
      | some k =>
        let n := ((mapGet s.pgm.index k).map (·.nl)).getD 0
        if 7168 < s.pgm.issued false + s.pgm.backlog.length + n then s
        else { s with pgm := { (s.pgm.dropEntry k) with pxRemoved := wrapAdd 29 s.pgm.pxRemoved 1 } }
      | none => s) s
  else s

end Sys2Proof.Machine
end

