-- ==== Sys2Proof/Machine/Xport.lean ====
section
/-! DEFINITION. The export engine (file 14): targets, streams, shaping, the messages a stream sends, its manifest, what its
receiver answers, its timers, and the receive contexts of R337. Times of a stream are nanoseconds of real time. -/
namespace Sys2Proof.Machine

/-! ### Targets (Table 14.1, R317) -/

/-- The 64 bytes of a target entry. -/
def State.target (s : State) (t : Nat) : List Byte := mapGetD s.xpt.targets t (List.replicate 64 0)

def tKind (e : List Byte) : Nat := fieldLe e 0 1
def tFmt (e : List Byte) : Nat := fieldLe e 1 1
def tLayout (e : List Byte) : Nat := fieldLe e 2 1
def tLogpe (e : List Byte) : Nat := fieldLe e 3 1
def tFlags (e : List Byte) : Nat := fieldLe e 4 2
def tSign (e : List Byte) : Bool := bit (tFlags e) 0
def tPort (e : List Byte) : Nat := fieldLe e 6 1
def tTag (e : List Byte) : Nat := fieldLe e 8 2
def tCred (e : List Byte) : Nat := fieldLe e 0x0E 2
def tRto (e : List Byte) : Nat := fieldLe e 0x38 4
/-- Source address a receiver's message must have: the target's destination (R333). -/
def tDst (e : List Byte) : Nat := if tKind e = 3 then fieldLe e 0x10 4 % 2 ^ 20 else
  if tKind e = 1 then fieldBe e 0x24 4 else fieldBe e 0x18 16
/-- Payload limit of a message (R324). -/
def tMaxpay (e : List Byte) : Nat := if bit (tFlags e) 1 then 8192 else 1024
/-- Kept positions of an export page. -/
def tPe (e : List Byte) : Nat := 2 ^ tLogpe e
def tKindN (e : List Byte) : Fmt := (Fmt.ofCode (tFmt e)).getD .bf16

/-- Reserved bytes and bits of an entry that are not zero. -/
def tReserved (e : List Byte) : Bool :=
  let z (o n : Nat) : Bool := fieldLe e o n == 0
  !(z 0x3C 4 && decide (tFlags e < 16) && decide (fieldLe e 7 1 < 64) && !bit (tTag e) 12 &&
    (match tKind e with
     | 1 => z 0x16 2
     | 2 => z 0x16 2
     | 3 => decide (fieldLe e 0x10 4 < 2 ^ 20) && z 0x16 34
     | _ => z 0x28 16))

/-- Whether a target is usable (R317). -/
def State.targetUsable (s : State) (t : Nat) : Bool :=
  let e := s.target t
  1 ≤ tKind e && tKind e ≤ 4 && !tReserved e && [1, 2, 3, 5, 6].contains (tFmt e) && tLayout e ≤ 1
    && 4 ≤ tLogpe e && tLogpe e ≤ 12 && tPort e ≤ 95 && 1 ≤ tCred e && tCred e ≤ 4096 && 50 ≤ tRto e && tRto e ≤ 100000
    && (2 < tKind e || (s.port (tPort e)).mode != 0)

/-- Rate of a port mode in Mb/s (Table 15.1). -/
def modeRate : Nat → Nat
  | 0 => 400000
  | 1 => 400000
  | 2 => 200000
  | _ => 100000

/-- Rate of the port a target uses: its own, or 400 Gb/s of a Lerbo route; none for host memory. -/
def State.targetRate (s : State) (t : Nat) : Option Nat :=
  let e := s.target t
  match tKind e with
  | 3 => some 400000
  | 4 => none
  | _ => some (modeRate (s.port (tPort e)).mode)

/-! ### Streams (R315, R316, R329) -/

/-- The stream of a slot. -/
def State.stream (s : State) (n : Nat) : Stream := mapGetD s.xpt.streams n {}

/-- Put a stream back. -/
def State.setStream (s : State) (n : Nat) (x : Stream) : State :=
  { s with xpt := { s.xpt with streams := mapSet s.xpt.streams n x } }

/-- Whether a stream is active (R317). -/
def Stream.active (x : Stream) : Bool :=
  x.st == .opened || x.st == .sealed || ((x.st == .failed || x.st == .aborted) && !x.ended)

/-- The next generation of a slot (R315): counted from 1, skipping the handle 0xFFFF_FFFF. -/
def nextGen (g n : Nat) : Nat :=
  let g' := (g + 1) % 2 ^ 19
  if g' * 8192 + n = 0xFFFFFFFF then (g' + 1) % 2 ^ 19 else g'

/-- Bytes of a device row (Table 12.1). -/
def Stream.rb (x : Stream) : Nat := x.d * ((Fmt.ofCode x.kvfmt).getD .e4m3).width / 8

/-- Bytes of an exported row (R318). -/
def rbx (f : Fmt) (d : Nat) : Nat := if f.isMx then d + d / 32 else d * f.width / 8

/-- The kept positions from FIRSTPOS on, in order (R265, R318). -/
def Stream.keptList (x : Stream) : List Nat :=
  ((List.range (x.m - x.firstpos)).map (x.firstpos + ·)).filter fun p =>
    match x.kept with
    | some ks => ks.getD p true
    | Option.none => true

/-- Positions of section σ of a layer that are final. -/
def Stream.finalOf (x : Stream) (layer sg : Nat) : List Nat := mapGetD x.finals (layer * 32 + sg) []

/-- Release the pins of a stream (R241, Table 14.6). -/
def State.unpin (s : State) (h : Nat) : State :=
  { s with pgm := { s.pgm with pins := s.pgm.pins.filter fun p => p.stream != h } }

/-- The device virtual address of the first element of a row (R249). -/
def rowVa (slot layer head kind pos psize nkv rb : Nat) : Option Nat :=
  let f := max (2 * nkv * psize * rb) 4096
  if 2 ^ 28 ≤ pos / psize * f then none
  else some (2 ^ 54 + slot * 2 ^ 36 + layer * 2 ^ 29 + pos / psize * f + ((2 * head + kind) * psize + pos % psize) * rb)

/-- Mark positions of one section of one layer of a stream final, pinning the frames that hold them now (R241, R316): a page that has
been remapped since an earlier notice is read in its new frame, which holds the earlier rows too. -/
def State.markOn (s : State) (n : Nat) (x : Stream) (layer sg : Nat) (ps : List Nat) : State × Stream :=
  let psize := 2 ^ x.logp
  let pages := (ps.map (· / psize)).eraseDups
  let (s, x) := pages.foldl (fun (acc : State × Stream) pg =>
    let (s, x) := acc
    let key := layer * 65536 + pg
    match rowVa n layer 0 0 (pg * psize) psize x.nkv x.rb with
    | Option.none => acc
    | some va =>
      let (leaf, s) := s.walkBy 256 va
      match leaf with
      | some l =>
        if mapGet x.frames key = some l.frame then (s, x)
        else
          ({ s with pgm := { s.pgm with pins := s.pgm.pins ++ [⟨l.frame, s.pgm.epoch, x.handle⟩] } },
            { x with frames := mapSet x.frames key l.frame })
      | Option.none => (s, x)) (s, x)
  (s, { x with finals := mapUpd x.finals (layer * 32 + sg) [] (· ++ ps) })

/-- Mark positions of a slot's stream final: the stream that its next boundary opens, or the one that is open (R315). -/
def State.markFinal (s : State) (n layer sg : Nat) (ps : List Nat) : State :=
  match mapGet s.xpt.soon n with
  | some x =>
    let (s, x) := s.markOn n x layer sg ps
    { s with xpt := { s.xpt with soon := mapSet s.xpt.soon n x } }
  | Option.none =>
    let (s, x) := s.markOn n (s.stream n) layer sg ps
    s.setStream n x

/-- What an export notice makes final (R116): the positions its token rows name for its sequence, in one section of one
layer. `rows` are the slots and positions of the token map. -/
def State.exportNotice (s : State) (handle layer head kind : Nat) (rows : List (Nat × Nat)) : State :=
  let n := handle % 8192
  let x := s.stream n
  let soon := match mapGet s.xpt.soon n with
    | some y => y.handle == handle
    | Option.none => false
  if soon || (x.handle == handle && x.st == .opened) then
    s.markFinal n layer (2 * head + kind) ((rows.filter fun r => r.1 == n).map (·.2))
  else s

/-! ### Images (R318–R320) -/

/-- Sections of a layer. -/
def Stream.sections (x : Stream) : Nat := 2 * x.nkv

/-- A row in the export format, with the blocks of memory it was read from that are bad. -/
def State.exportRow (s : State) (x : Stream) (f : Fmt) (layer sg pos : Nat) : List Byte × List Nat × State :=
  let psize := 2 ^ x.logp
  let fr := mapGetD x.frames (layer * 65536 + pos / psize) 0
  let (l, bad, s) := s.readMem (fr + (sg * psize + pos % psize) * x.rb) x.rb
  let kf := (Fmt.ofCode x.kvfmt).getD .e4m3
  let w := kf.width / 8
  let vs := (List.range x.d).map fun e => kf.decode (fieldLe l (e * w) w)
  if f.isMx then
    let qs := (chunksOf 32 vs).map (quantMx f)
    ((qs.flatMap fun q => q.2.map (BitVec.ofNat 8)) ++ qs.map (fun q => BitVec.ofNat 8 q.1), bad, s)
  else (vs.flatMap fun v => leBytes (f.width / 8) (cvtVal f v), bad, s)

/-- Section and row of the image row that stands at place `i` of an image of n positions (R319). -/
def imagePlace (layout secs n i : Nat) : Nat × Nat := if layout = 0 then (i / n, i % n) else (i % secs, i / secs)

/-- Bytes of an image of n positions. -/
def Stream.imageLen (x : Stream) (e : List Byte) (n : Nat) : Nat := n * x.sections * rbx (tKindN e) x.d

/-- Bytes [off, off + len) of the image of export page `pg` of a layer. -/
def State.imageBytes (s : State) (x : Stream) (e : List Byte) (layer pg off len : Nat) : List Byte × List Nat × State :=
  let f := tKindN e
  let r := rbx f x.d
  let ks := (x.keptList.drop (pg * tPe e)).take (tPe e)
  let i0 := off / r
  let (l, bad, s) := (List.range ((off + len - 1) / r - i0 + 1)).foldl
    (fun (acc : List Byte × List Nat × State) i =>
      let (sg, t) := imagePlace (tLayout e) x.sections ks.length (i0 + i)
      let (l, b, s) := acc.2.2.exportRow x f layer sg (ks.getD t 0)
      (acc.1 ++ l, acc.2.1 ++ b, s)) (([] : List Byte), ([] : List Nat), s)
  ((l.drop (off - i0 * r)).take len, bad, s)

/-! ### Choosing the next message (R324) -/

/-- Whether every row of a message is final. -/
def Stream.rowsFinal (x : Stream) (e : List Byte) (layer : Nat) (ks : List Nat) (off len : Nat) : Bool :=
  let r := rbx (tKindN e) x.d
  let i0 := off / r
  (List.range ((off + len - 1) / r - i0 + 1)).all fun i =>
    let (sg, t) := imagePlace (tLayout e) x.sections ks.length (i0 + i)
    (x.finalOf layer sg).contains (ks.getD t 0)

/-- Whether a PAGE_DATA has been sent. -/
def Stream.hasSent (x : Stream) (layer pg off : Nat) : Bool :=
  x.msgs.any fun (_, m) => !m.manifest && m.layer == layer && m.page == pg && m.off == off

/-- Export pages of a layer, as the kept positions known give them. -/
def Stream.pages (x : Stream) (e : List Byte) : Nat := ceilDiv x.keptList.length (tPe e)

/-- The unsent messages of export page `pg` of a layer, with their lengths. -/
def Stream.unsentOf (x : Stream) (e : List Byte) (layer pg : Nat) : List (Nat × Nat) :=
  let n := ((x.keptList.drop (pg * tPe e)).take (tPe e)).length
  let total := x.imageLen e n
  ((List.range (ceilDiv total (tMaxpay e))).map fun i => (i * tMaxpay e, min (tMaxpay e) (total - i * tMaxpay e))).filter
    fun (o, _) => !x.hasSent layer pg o

/-- The next PAGE_DATA to send for the first time: layer, page, offset, length (R324). While the length or the bitmap is
open, only what they cannot change is sent. -/
def Stream.nextData (x : Stream) (e : List Byte) : Option (Nat × Nat × Nat × Nat) :=
  if x.waits && x.firstpos + x.we < x.m then Option.none
  else
    (List.range x.nlx).findSome? fun li =>
      let layer := x.l0 + li
      (List.range (x.pages e)).findSome? fun pg =>
        let ks := (x.keptList.drop (pg * tPe e)).take (tPe e)
        if x.mOpen && ks.length < tPe e then Option.none
        else ((x.unsentOf e layer pg).find? fun (o, n) => x.rowsFinal e layer ks o n).map fun (o, n) => (layer, pg, o, n)

/-- Whether every PAGE_DATA of the stream has been sent. -/
def Stream.dataDone (x : Stream) (e : List Byte) : Bool :=
  !x.waits && !x.mOpen && (List.range x.nlx).all fun li =>
    (List.range (x.pages e)).all fun pg => (x.unsentOf e (x.l0 + li) pg).isEmpty

/-! ### The manifest (R326–R328) -/

/-- Manifest bytes before the digests and the signature. The first output token of a request that ends before it is known is a
free value. -/
def Stream.manifestHead (x : Stream) (e : List Byte) (abort : Bool) (status : Nat) : List Byte :=
  let nk := if abort then 0 else x.keptList.length
  let span := x.m - x.firstpos
  let bmap := if abort then [] else
    (List.range (ceilDiv (ceilDiv span 8) 4 * 4)).map fun i => BitVec.ofNat 8
      ((List.range 8).foldl (fun a j =>
        let p := x.firstpos + 8 * i + j
        a + (if p < x.m && (match x.kept with
          | some ks => ks.getD p true
          | Option.none => true) then 2 ^ j else 0)) 0)
  beBytes 2 1 ++ beBytes 2 (b2n (tSign e) + 2 * b2n abort) ++ beBytes 1 (if abort then status else 0) ++ beBytes 1 (tFmt e)
    ++ beBytes 1 (tLayout e) ++ beBytes 1 (tLogpe e) ++ beBytes 1 x.nkv ++ beBytes 1 0 ++ beBytes 2 x.d ++ beBytes 1 x.l0
    ++ beBytes 1 x.nlx ++ beBytes 2 0 ++ leBytes 32 x.mdig ++ leBytes 32 x.vdig ++ beBytes 2 x.variant ++ beBytes 2 0
    ++ beBytes 4 x.m ++ beBytes 4 nk ++ beBytes 4 (x.firstTok.getD (Config.freeNat 7 x.handle))
    ++ leBytes 32 (digest (x.tokens.flatMap (leBytes 4))) ++ beBytes 4 (ceilDiv nk (tPe e)) ++ beBytes 4 x.firstpos ++ beBytes 8 0
    ++ bmap

/-- The module's public identity key, from its identity record (Table 18.2). -/
def State.pubKey (s : State) : List Byte := (s.sec.ident.map (·.pub)).getD []

/-- The signature of a manifest (R327): 3,309 bytes. -/
def State.sign (s : State) (manifest : List Byte) : List Byte × State :=
  let l := Config.signature s.pubKey (asciiBytes "YAPHOR-MANIFEST-1") manifest s.free
  ((List.range 3309).map fun i => l.getD i 0, s.drew)

/-- Build the manifest of a stream; the images it digests may be found poisoned. -/
def State.buildManifest (s : State) (x : Stream) (e : List Byte) (abort : Bool) (status : Nat) : List Byte × List Nat × State :=
  let places := if abort then [] else
    (List.range x.nlx).flatMap fun li => (List.range (x.pages e)).map fun pg => (x.l0 + li, pg)
  let (pd, bad, s) := places.foldl (fun (acc : List Byte × List Nat × State) lp =>
    let n := ((x.keptList.drop (lp.2 * tPe e)).take (tPe e)).length
    let (l, b, s) := acc.2.2.imageBytes x e lp.1 lp.2 0 (x.imageLen e n)
    (acc.1 ++ leBytes 32 (digest l), acc.2.1 ++ b, s)) (([] : List Byte), ([] : List Nat), s)
  let body := x.manifestHead e abort status ++ pd
  if tSign e then let (sg, s) := s.sign body; (body ++ sg, bad, s) else (body, bad, s)

/-! ### Ends of a stream (R329, R330, R333–R336) -/

/-- Whether the port or the link a target needs sends at present: UP, not paused for its priority, idle (R358). -/
def State.canSend (s : State) (x : Stream) (e : List Byte) (paced : Bool) : Bool :=
  match tKind e with
  | 4 => s.hst.linkUp && s.hst.master && !x.cut
  | 3 => decide (x.freeAt ≤ s.now * 1000) || !paced
  | _ =>
    let p := s.port (tPort e)
    let prio := if bit (tFlags e) 2 then bits (tTag e) 13 3 else 0
    p.st == 2 && decide (p.busyTo ≤ s.now * 1000) && (!paced || decide (x.freeAt ≤ s.now * 1000))
      && decide (mapGetD p.paused prio 0 ≤ s.now)

/-- End an abort manifest (R335). -/
def State.endAbort (s : State) (n : Nat) : State :=
  let x := s.stream n
  (s.setStream n { x with ended := true }).unpin x.handle

/-- Stop a stream before it is sealed, FAILED or ABORTED, and prepare its abort manifest (R335), whose STATUS is that of an
earlier fault of the request where there is one. A host target whose link is lost, or was while the stream was open, ends at once
(R336). -/
def State.stopStream (s : State) (n : Nat) (st : XSt) (status : Nat) : State :=
  let x := s.stream n
  if x.st != .opened then s
  else
    let e := s.target x.target
    let status := (s.req n).fault.getD status
    let (l, _, s) := s.buildManifest x e true status
    let s := s.setStream n { x with
      st := st, abort := some x.next, abortStatus := status, bytes := l, rto := tRto e, expiries := 0 }
    let s := if st = .failed then { s with xpt := { s.xpt with failed := satAdd 16 s.xpt.failed 1 } } else s
    if tKind e = 4 && (x.cut || !(s.hst.linkUp && s.hst.master)) then s.endAbort n else s

/-- The loss of the link or of bus mastering (R335, R336): a stream to host memory posts nothing further, and an abort manifest
under way has ended. -/
def State.cutStream (s : State) (n : Nat) : State :=
  let x := s.stream n
  if tKind (s.target x.target) != 4 || !x.active then s
  else
    let s := s.setStream n { x with cut := true }
    if x.abort.isSome && !x.ended then s.endAbort n else s

/-- A failure of a stream (R330, R333): before SEALED its request faults with 0x08, after it the stream is LOST. One that is
FAILED or ABORTED already goes on with its abort manifest (R335). -/
def State.failStream (s : State) (n : Nat) : State :=
  let x := s.stream n
  match x.st with
  | .opened => (s.stopStream n .failed 8).faultSlot n 8
  | .sealed =>
    let s := (s.setStream n { x with st := .lost }).unpin x.handle
    { (s.log ⟨.v, uXpt, evExportLost, 0xFFFF, n, x.handle⟩) with xpt := { s.xpt with lost := satAdd 16 s.xpt.lost 1 } }
  | _ => s

/-- A poisoned block met by the shaper (R334): FAULT_MEMORY and ABORTED before SEALED, LOST with class D after it. -/
def State.poisonStream (s : State) (n a : Nat) : State :=
  let x := s.stream n
  if x.st = .sealed then
    let s := (s.setStream n { x with st := .lost }).unpin x.handle
    { (s.log ⟨.d, uXpt, evExportLost, 0xFFFF, n, a⟩) with xpt := { s.xpt with lost := satAdd 16 s.xpt.lost 1 } }
  else (s.faultSlot n 6).stopStream n .aborted 6

/-- The move to SEALED, and to CLOSED at once for a host target (R329, R336): a request whose manifest is in time completes,
any other faults (R299). -/
def State.seal (s : State) (n : Nat) (host : Bool) : State :=
  let x := s.stream n
  let s := s.setStream n { x with st := if host then .closed else .sealed, sealedAt := s.now }
  let s := if host then s.unpin x.handle else s
  if s.stamp < s.tickStart ((s.req n).commit + 1) then s.complete n 0 else s.faultSlot n 8

/-! ### Sending (R322–R324, R332, R336) -/

/-- The common header (Table 14.2). -/
def header (type flags len stream seq time : Nat) : List Byte :=
  beBytes 2 0x5950 ++ beBytes 1 1 ++ beBytes 1 type ++ beBytes 2 flags ++ beBytes 2 len ++ beBytes 4 stream ++ beBytes 4 seq
    ++ beBytes 8 time

/-- A message of a stream as bytes: header, fields of its type and data. -/
def Stream.message (x : Stream) (e : List Byte) (seq : Nat) (m : XMsg) (retx : Bool) (time : Nat) (data : List Byte) : List Byte :=
  if m.manifest then
    header 2 (b2n retx + 4 * b2n m.last) (32 + data.length) x.handle seq time ++ beBytes 4 x.bytes.length ++ beBytes 4 m.off ++ data
  else
    header 1 (b2n retx) (40 + data.length) x.handle seq time ++ beBytes 1 m.layer ++ beBytes 1 (tFmt e) ++ beBytes 1 (tLayout e)
      ++ beBytes 1 (tLogpe e) ++ beBytes 4 m.page ++ beBytes 4 m.off ++ beBytes 4 0 ++ data

/-- Bytes of a UDP payload on the wire: UDP, IP, tag, Ethernet header and FCS, preamble and gap. -/
def wireBytes (e : List Byte) (n : Nat) : Nat :=
  n + 8 + (if tKind e = 2 then 40 else 20) + 18 + (if bit (tFlags e) 2 then 4 else 0) + 20

/-- The sum of 16-bit big-endian words of bytes, folded as the internet checksum folds it. -/
def inetSum (l : List Byte) : Nat :=
  let t := ((chunksOf 2 l).map fun c => beNat (c ++ List.replicate (2 - c.length) 0)).foldl (· + ·) 0
  if t = 0 then 0 else (t - 1) % 65535 + 1

/-- Differentiated services and ECN of a target's packets: ECT(0) where its ECN flag is set (R332, Table 15.5). -/
def tTos (e : List Byte) : Nat := 4 * fieldLe e 7 1 + (if bit (tFlags e) 3 then 2 else 0)

/-- A UDP datagram from a target's source port to its destination port, 49,320 where the entry gives 0 (Table 14.1), with the
checksum over its pseudo-header, whose addresses are `addrs` (Table 15.5). -/
def udpDatagram (e addrs msg : List Byte) : List Byte :=
  let n := 8 + msg.length
  let dport := if fieldLe e 0xA 2 = 0 then 49320 else fieldLe e 0xA 2
  let head (ck : Nat) : List Byte := beBytes 2 (fieldLe e 0xC 2) ++ beBytes 2 dport ++ beBytes 2 n ++ beBytes 2 ck
  let ck := 65535 - inetSum (addrs ++ beBytes 4 n ++ beBytes 4 17 ++ head 0 ++ msg)
  head (if ck = 0 then 65535 else ck) ++ msg

/-- The IP packet of a message: IPv4 without options and with DF set, or IPv6 without extension headers (Table 15.5). The time to
live, the identification of an IPv4 packet and the flow label of an IPv6 one are free values of `free`. -/
def ipPacket (e : List Byte) (free : Nat) (msg : List Byte) : List Byte :=
  let ttl := Config.freeByte 2 free
  if tKind e = 2 then
    let src := sliceBytes e 0x28 16
    let dst := sliceBytes e 0x18 16
    let u := udpDatagram e (src ++ dst) msg
    beBytes 4 (6 * 2 ^ 28 + tTos e * 2 ^ 20 + Config.freeNat 9 free % 2 ^ 20) ++ beBytes 2 u.length ++ [17, ttl] ++ src ++ dst ++ u
  else
    let src := sliceBytes e 0x34 4
    let dst := sliceBytes e 0x24 4
    let u := udpDatagram e (src ++ dst) msg
    let a := beBytes 1 0x45 ++ beBytes 1 (tTos e) ++ beBytes 2 (20 + u.length) ++ beBytes 2 (Config.freeNat 9 free % 2 ^ 16)
      ++ beBytes 2 0x4000 ++ [ttl, 17]
    a ++ beBytes 2 (65535 - inetSum (a ++ src ++ dst)) ++ src ++ dst ++ u

/-- The Ethernet frame of a message, to the byte before its FCS: to the MAC address of the entry (R317), from the port's own, with
a tag where the entry's VLAN flag is set. -/
def etherFrame (e : List Byte) (mac free : Nat) (msg : List Byte) : List Byte :=
  sliceBytes e 0x10 6 ++ beBytes 6 mac ++ (if bit (tFlags e) 2 then beBytes 2 0x8100 ++ beBytes 2 (tTag e) else [])
    ++ beBytes 2 (if tKind e = 2 then 0x86DD else 0x0800) ++ ipPacket e free msg

/-- Send a message as a frame of a target's port, which its wire time keeps busy. -/
def State.sendFrame (s : State) (e msg : List Byte) : State :=
  let p := tPort e
  let y := s.port p
  ((s.setPort p { y with
    txUnits := wrapAdd 48 y.txUnits 1
    busyTo := max y.busyTo (s.now * 1000) + ceilDiv (wireBytes e msg.length * 8000000) (modeRate y.mode) }).emit
      (.frame p (etherFrame e y.mac s.free msg))).drew

/-- Host address of a PAGE_DATA's bytes, or of a manifest's (R336). -/
def Stream.hostAddr (x : Stream) (e : List Byte) (m : XMsg) : Nat :=
  if m.manifest then fieldLe e 0x20 8 + m.off
  else fieldLe e 0x10 8 + (m.layer - x.l0) * fieldLe e 0x18 8 + m.page * tPe e * x.sections * rbx (tKindN e) x.d + m.off

/-- Let a message leave towards its target. -/
def State.transmit (s : State) (n : Nat) (e : List Byte) (x : Stream) (m : XMsg) (msg data : List Byte) : State :=
  match tKind e with
  | 4 => (s.hostPut (x.hostAddr e m) data).2
  | 3 =>
    let s := s.setStream n { x with freeAt := max x.freeAt (s.now * 1000) + ceilDiv (msg.length * 8000000) (max 1 x.rate) }
    s.lerboSend (tDst e) 0x31 (leBytes 2 (fieldLe e 0x14 2) ++ leBytes 2 0 ++ msg)
  | _ =>
    (s.setStream n { x with
      freeAt := max x.freeAt (s.now * 1000) + ceilDiv (wireBytes e msg.length * 8000000) (max 1 x.rate) }).sendFrame e msg

/-- Send message `seq` of a stream, for the first time or again. -/
def State.sendMsg (s : State) (n seq : Nat) (m : XMsg) (retx : Bool) : State :=
  let x := s.stream n
  let e := s.target x.target
  let (data, bad, s) := if m.manifest then ((x.bytes.drop m.off).take m.len, [], s) else s.imageBytes x e m.layer m.page m.off m.len
  match bad with
  | b :: _ => s.poisonStream n (b * 64)
  | [] =>
    let m' := { m with sent := s.now, again := false, noSpace := false }
    let x := { x with msgs := if tKind e = 4 then x.msgs else mapSet x.msgs seq m', next := max x.next (seq + 1) }
    let x := if tKind e = 4 then { x with msgs := mapSet x.msgs seq { m' with acked := true }, ackedSeq := x.next } else x
    let s := s.setStream n x
    let s := if retx then { s with xpt := { s.xpt with retx := wrapAdd 32 s.xpt.retx 1 } } else s
    let s := s.transmit n e x m (x.message e seq m retx s.pwr.tb data) data
    if m.manifest && m.last && !retx then
      (if x.abort.isSome then (if tKind e = 4 then s.endAbort n else s) else s.seal n (tKind e == 4))
    else s

/-- The message that is to be resent first: marked by a NAK, a gap or a digest answer. -/
def Stream.resend (x : Stream) (manifest : Bool) : Option (Nat × XMsg) :=
  x.msgs.find? fun (q, m) => m.again && !m.acked && m.manifest == manifest && (match x.abort with
    | some a => decide (a ≤ q)
    | Option.none => true)

/-- Whether a PAGE_DATA can be sent now. -/
def State.dataReady (s : State) (n : Nat) : Bool :=
  let x := s.stream n
  let e := s.target x.target
  (x.st == .opened || x.st == .sealed) && s.canSend x e true &&
    ((x.resend false).isSome || (x.st == .opened && (tKind e == 4 || decide (x.next < x.limit)) && (x.nextData e).isSome))

/-- PAGE_DATA: send the next one of a stream (R324). -/
def pageData (n : Nat) (s : State) : State :=
  if !s.dataReady n then s
  else
    let x := s.stream n
    match x.resend false with
    | some (q, m) => s.sendMsg n q m true
    | Option.none =>
      match x.nextData (s.target x.target) with
      | some (layer, pg, off, len) =>
        s.sendMsg n x.next { manifest := false, layer := layer, page := pg, off := off, len := len, last := false, sent := 0
                             acked := false, again := false, naks := 0, noSpace := false, fast := false } false
      | Option.none => s

/-- Bytes of the manifest already sent, from the fragments' record. -/
def Stream.manOff (x : Stream) : Nat :=
  (x.msgs.filter fun (q, m) => m.manifest && (match x.abort with
    | some a => decide (a ≤ q)
    | Option.none => true)).foldl (fun a (_, m) => max a (m.off + m.len)) 0

/-- Whether a manifest fragment can be sent now. -/
def State.manReady (s : State) (n : Nat) : Bool :=
  let x := s.stream n
  let e := s.target x.target
  s.canSend x e true &&
    (match x.st with
     | .opened => (x.resend true).isSome ||
         (x.lastDone && x.firstTok.isSome && (tKind e == 4 || decide (x.next < x.limit)) && x.dataDone e)
     | .sealed => (x.resend true).isSome
     | _ => x.active && ((x.resend true).isSome || decide (x.manOff < x.bytes.length)))

/-- MANIFEST: send the next fragment of a stream's manifest, or of its abort manifest (R324, R326, R328, R335). -/
def manifest (n : Nat) (s : State) : State :=
  if !s.manReady n then s
  else
    let x := s.stream n
    match x.resend true with
    | some (q, m) => s.sendMsg n q m true
    | Option.none =>
      let e := s.target x.target
      let (bad, s) := if x.st = .opened && x.bytes.isEmpty then
          let (l, bad, s) := s.buildManifest x e false 0
          (bad, s.setStream n { x with bytes := l })
        else ([], s)
      match bad with
      | b :: _ => s.poisonStream n (b * 64)
      | [] =>
        let x := s.stream n
        let o := x.manOff
        let len := min (tMaxpay e) (x.bytes.length - o)
        s.sendMsg n x.next { manifest := true, layer := 0, page := 0, off := o, len := len, last := decide (x.bytes.length ≤ o + len)
                             sent := 0, acked := false, again := false, naks := 0, noSpace := false, fast := false } false

/-! ### A receiver's messages (R331–R333) -/

/-- A message's first SEQ that needs an acknowledgement: the abort manifest's, once it has begun (R335). -/
def Stream.base (x : Stream) : Nat := x.abort.getD 0

/-- The oldest unacknowledged message. -/
def Stream.oldest (x : Stream) : Option (Nat × XMsg) := x.msgs.find? fun (q, m) => !m.acked && decide (x.base ≤ q)

/-- The target a message from a receiver is counted against where it names no stream: the lowest on its port, or for its
module, whose address is the sender's, or that uses the port at all. -/
def State.targetOf (s : State) (rx : YRx) : Option Nat :=
  let fits (strict : Bool) (t : Nat) : Bool :=
    let e := s.target t
    (if rx.lerbo then tKind e == 3 else (tKind e == 1 || tKind e == 2) && tPort e == rx.port.val)
      && (!strict || tDst e == rx.src.toNat)
  match (mapKeys s.xpt.targets).find? (fits true) with
  | some t => some t
  | Option.none => (mapKeys s.xpt.targets).find? (fits false)

/-- Whether a receiver's message comes from this module itself (R353), and so from no port. -/
def State.fromMe (s : State) (rx : YRx) : Bool := rx.lerbo && rx.src.toNat == s.lnk.modId

/-- A receiver's violation (R333, row 9 of Table 15.6): counted against the target and the port, and logged. -/
def State.rxViolation (s : State) (rx : YRx) (t : Option Nat) (row : Nat) : State :=
  let me := s.fromMe rx
  let s := s.log ⟨.v, uXpt, evPartner 0 row, if me then 0xFFFF else rx.port.val, 0xFFFF, 0⟩
  let s := match t with
    | some t => { s with xpt := { s.xpt with viol := mapUpd s.xpt.viol t (0, 0) fun (c, _) => (satAdd 32 c 1, row) } }
    | Option.none => s
  if me then s else s.violCount rx.port.val 9

/-- A violation that also counts toward its stream's 64. -/
def State.streamViolation (s : State) (rx : YRx) (n row : Nat) : State :=
  let x := s.stream n
  let s := (s.setStream n { x with viol := x.viol + 1 }).rxViolation rx (some x.target) row
  if x.viol + 1 = 64 then s.failStream n else s

/-- The check of a message's form (Table 14.7, row 1): header of one type, LEN, reserved fields. -/
def wellFormedMsg (type : Nat) (msg : List Byte) : Bool :=
  let f := fieldBe msg 4 2
  24 ≤ msg.length && fieldBe msg 0 2 == 0x5950 && fieldBe msg 2 1 == 1 && fieldBe msg 3 1 == type && fieldBe msg 6 2 == msg.length &&
    (match type with
     | 3 => msg.length == 0x28 && (f == 0 || f == 2) && fieldBe msg 0x24 4 == 0
     | 4 => msg.length == 0x20 && f == 0 && fieldBe msg 0x19 7 == 0 && fieldBe msg 0x10 8 == 0
     | 5 => msg.length == 24 && f == 0 && fieldBe msg 0x10 8 == 0
     | _ => false)

/-- A violation by a message (Table 14.7, rows 1 and 2): counted toward the 64 of the stream it names, where that is held. -/
def State.msgViolation (s : State) (rx : YRx) (msg : List Byte) (row : Nat) : State :=
  let h := fieldBe msg 8 4
  let x := s.stream (h % 8192)
  if 12 ≤ msg.length && x.handle == h && x.active then s.streamViolation rx (h % 8192) row
  else s.rxViolation rx (s.targetOf rx) row

/-- The stream a receiver's message acts on, or the violation that answers it (Table 14.7, rows 1 and 2). -/
def State.msgStream (s : State) (rx : YRx) (type : Nat) (msg : List Byte) : Nat ⊕ State :=
  if !wellFormedMsg type msg then .inr (s.msgViolation rx msg 1)
  else
    let h := fieldBe msg 8 4
    let x := s.stream (h % 8192)
    let e := s.target x.target
    if x.handle != h || !x.active || tKind e == 4 || tDst e != rx.src.toNat || (tKind e == 3) != rx.lerbo
        || (tKind e != 3 && tPort e != rx.port.val) then .inr (s.msgViolation rx msg 2)
    else .inl (h % 8192)

/-- Raise the credit limit; messages refused for want of space may go again. -/
def Stream.credit (x : Stream) (lim : Nat) : Stream :=
  if x.limit < lim then
    { x with limit := lim, msgs := x.msgs.map fun (q, m) => (q, if m.noSpace then { m with again := true, noSpace := false } else m) }
  else x

/-- The end an acknowledgement may bring: CLOSED, or an abort manifest ended. -/
def State.ackEnd (s : State) (n : Nat) : State :=
  let x := s.stream n
  if x.oldest.isSome then s
  else if x.st = .sealed then (s.setStream n { x with st := .closed }).unpin x.handle
  else if x.abort.isSome && decide (x.bytes.length ≤ x.manOff) && !x.ended then s.endAbort n
  else s

/-- Whether a message that is not acknowledged is resent for a gap (R331): `top`, the highest SEQ marked, lies at least 3 above
the gap, which is the run of unacknowledged messages that this one is in; each message of the run is resent. -/
def gapDue (msgs : Map XMsg) (top k : Nat) : Bool :=
  match msgs.find? fun y => decide (k < y.1) && y.2.acked with
  | some (j, _) => decide (j + 2 ≤ top)
  | Option.none => false

/-- ACK (R331, R332). -/
def ack (rx : YRx) (msg : List Byte) (s : State) : State :=
  match s.msgStream rx 3 msg with
  | .inr s => s
  | .inl n =>
    let x := s.stream n
    let q := fieldBe msg 0xC 4
    let bm := fieldBe msg 0x18 8
    let lim := fieldBe msg 0x20 4
    let marks := ((List.range 64).filter fun i => bit bm i).map fun i => q + 1 + i
    if x.next < q || marks.any fun k => decide (x.next ≤ k) then s.streamViolation rx n 3
    else
      let top := marks.foldl max 0
      let msgs := x.msgs.map fun (k, m) => (k, { m with acked := m.acked || decide (k < q) || marks.contains k })
      let msgs := msgs.map fun (k, m) =>
        if !m.acked && !m.fast && gapDue msgs top k then (k, { m with again := true, fast := true }) else (k, m)
      let adv := decide (x.ackedSeq < q)
      let e := s.target x.target
      let ece := bit (fieldBe msg 4 2) 1
      let half := ece && decide (x.lastHalf + 100000 ≤ s.now || x.lastHalf = 0)
      let x := { x with
        msgs := msgs, ackedSeq := max x.ackedSeq q
        rto := if adv then tRto e else x.rto, expiries := if adv then 0 else x.expiries
        lastEce := if ece then s.now else x.lastEce, rateAt := if ece then s.now else x.rateAt
        rate := if half then max (min x.rate 1000) (x.rate / 2) else x.rate, lastHalf := if half then s.now else x.lastHalf }
      let low := decide (lim < x.limit)
      let s := (s.setStream n (x.credit lim)).ackEnd n
      if low then s.streamViolation rx n 4 else s

/-- NAK (Table 14.5). -/
def nak (rx : YRx) (msg : List Byte) (s : State) : State :=
  match s.msgStream rx 4 msg with
  | .inr s => s
  | .inl n =>
    let x := s.stream n
    let q := fieldBe msg 0xC 4
    let code := fieldBe msg 0x18 1
    if code = 0 || 6 < code then s.streamViolation rx n 5
    else if x.next ≤ q then s.streamViolation rx n 3
    else
      match mapGet x.msgs q with
      | Option.none => s.streamViolation rx n 3
      | some m =>
        if m.acked then s.streamViolation rx n 6
        else if q < x.base then s
        else
          match code with
          | 1 => if 1 ≤ m.naks then s.failStream n
                 else s.setStream n { x with msgs := mapSet x.msgs q { m with naks := m.naks + 1, again := true } }
          | 3 => s.setStream n { x with msgs := mapSet x.msgs q { m with noSpace := true } }
          | 4 => s.setStream n { x with msgs := x.msgs.map fun (k, y) =>
                   (k, if !y.manifest && !m.manifest && y.layer = m.layer && y.page = m.page
                     then { y with again := true, acked := false } else y) }
          | _ => s.failStream n

/-- CREDIT (R324). -/
def credit (rx : YRx) (msg : List Byte) (s : State) : State :=
  match s.msgStream rx 5 msg with
  | .inr s => s
  | .inl n =>
    let x := s.stream n
    let lim := fieldBe msg 0xC 4
    if lim < x.limit then s.streamViolation rx n 4 else s.setStream n (x.credit lim)

/-! ### Timers (R329, R330, R332) -/

/-- Whether the retransmit timer has expired: judged in ticks of 1 µs. -/
def State.rtoDue (s : State) (n : Nat) : Bool :=
  let x := s.stream n
  x.active && tKind (s.target x.target) != 4 && (match x.oldest with
    | some (_, m) => decide (ceilDiv m.sent 1000 + x.rto ≤ s.now / 1000)
    | Option.none => false)

/-- RETRANSMIT_TIMEOUT: the oldest message is resent and the timeout doubles; the eighth in a row fails the stream. -/
def retransmit (n : Nat) (s : State) : State :=
  if !s.rtoDue n then s
  else
    let x := s.stream n
    match x.oldest with
    | Option.none => s
    | some (q, m) =>
      if 8 ≤ x.expiries + 1 then (if x.st = .opened || x.st = .sealed then s.failStream n else s.endAbort n)
      else
        let e := s.target x.target
        let s := s.setStream n { x with expiries := x.expiries + 1, rto := min (x.rto * 2) (128 * tRto e) }
        if s.canSend x e false then s.sendMsg n q m true
        else s.setStream n { (s.stream n) with msgs := mapSet x.msgs q { m with sent := s.now, again := true } }

/-- Starting rate of a stream (R332), in Mb/s. -/
def State.startRate (s : State) (t : Nat) : Nat := (s.targetRate t).getD 400000 * s.sch.xshare / 100

/-- Whether 100 µs have passed without ECE since the last change of the rate. -/
def State.rateDue (s : State) (n : Nat) : Bool :=
  let x := s.stream n
  x.active && decide (x.rate < s.startRate x.target && x.rateAt + 100000 ≤ s.now)

/-- RATE_INCREASE (R332). -/
def rateIncrease (n : Nat) (s : State) : State :=
  if !s.rateDue n then s
  else
    let x := s.stream n
    s.setStream n { x with rate := min (x.rate + 5000) (s.startRate x.target), rateAt := s.now }

/-- SEALED_TIMEOUT: a stream 1 s in SEALED is LOST (R329). -/
def sealedTimeout (n : Nat) (s : State) : State :=
  let x := s.stream n
  if x.st = .sealed && decide (x.sealedAt + 1000000000 ≤ s.now) then s.failStream n else s

/-- TARGET_WRITE: one 8-byte word of an entry, ignored while an active stream or TELEMETRY uses the target (R317, R425). -/
def targetWrite (t w v : Nat) (s : State) : State :=
  if (s.tel.xEn && s.tel.xTarget == t) || s.xpt.streams.any fun (_, x) => x.active && x.target == t then s.ignoredReg uXpt t
  else
    let e := s.target t
    { s with xpt := { s.xpt with targets := mapSet s.xpt.targets t (e.take (8 * w) ++ leBytes 8 v ++ e.drop (8 * w + 8)) } }

/-! ### Receive contexts (R337) -/

/-- A receive context: BASE, LSTRIDE, MBASE, and EXTENT in bytes. -/
def State.rxCtx (s : State) (c : Nat) : Nat × Nat × Nat × Nat :=
  let (b, l, m, x) := mapGetD s.xpt.rx c (0, 0, 0, 0)
  (b, l, m, x * 4096)

/-- Answer a sender over Lerbo. -/
def State.answer (s : State) (src ctx : Nat) (msg : List Byte) : State :=
  s.lerboSend src 0x31 (leBytes 2 ctx ++ leBytes 2 0 ++ msg)

/-- Bit map of the SEQs received above the next expected one. -/
def RxStream.bitmap (x : RxStream) : Nat :=
  (List.range 64).foldl (fun a i => a + (if x.got.contains (x.next + 1 + i) then 2 ^ i else 0)) 0

/-- Move the next expected SEQ over what has been received, on a fuel. -/
def RxStream.advance : Nat → RxStream → RxStream
  | 0, x => x
  | n + 1, x => if x.got.contains x.next then RxStream.advance n { x with next := x.next + 1, got := x.got.filter (· != x.next) } else x

/-- The images of a complete manifest that do not match their digests (R337): layer and page. -/
def State.badImages (s : State) (ctx : Nat) (man : List Byte) : List (Nat × Nat) :=
  let (base, stride, _, _) := s.rxCtx ctx
  let fmt := (Fmt.ofCode (fieldBe man 5 1)).getD .bf16
  let pe := 2 ^ fieldBe man 7 1
  let secs := 2 * fieldBe man 8 1
  let r := rbx fmt (fieldBe man 0xA 2)
  let nk := fieldBe man 0x58 4
  let np := fieldBe man 0x80 4
  let span := fieldBe man 0x54 4 - fieldBe man 0x84 4
  let off := 0x90 + ceilDiv (ceilDiv span 8) 4 * 4
  ((List.range (fieldBe man 0xD 1)).flatMap fun li => (List.range np).map fun pg => (li, pg)).filter fun (li, pg) =>
    let n := min pe (nk - pg * pe)
    leBytes 32 (digest (s.readMem (base + li * stride + pg * pe * secs * r) (n * secs * r)).1) !=
      sliceBytes man (off + 32 * (li * np + pg)) 32

/-- Whether a PAGE_DATA or MANIFEST is well formed (Tables 14.2 and 14.3): FLAGS of its type, reserved fields zero, LAYOUT, LOGPE and
FMT codes that exist. -/
def wellFormedPage (type : Nat) (msg : List Byte) : Bool :=
  let f := fieldBe msg 4 2
  fieldBe msg 0 2 == 0x5950 && fieldBe msg 2 1 == 1 && fieldBe msg 6 2 == msg.length &&
    (match type with
     | 1 => 40 ≤ msg.length && f ≤ 1 && fieldBe msg 0x24 4 == 0 && fieldBe msg 0x1A 1 ≤ 1 && 4 ≤ fieldBe msg 0x1B 1
         && fieldBe msg 0x1B 1 ≤ 12 && (Fmt.ofCode (fieldBe msg 0x19 1)).isSome
     | 2 => 32 ≤ msg.length && (f == 0 || f == 1 || f == 4 || f == 5)
     | _ => false)

/-- Whether the head of a complete manifest is well formed (Table 14.4). -/
def wellFormedManifest (man : List Byte) : Bool :=
  0x90 ≤ man.length && fieldBe man 0 2 == 1 && fieldBe man 2 2 < 4 && fieldBe man 9 1 == 0 && fieldBe man 0xE 2 == 0
    && fieldBe man 0x52 2 == 0 && fieldBe man 0x88 8 == 0 && fieldBe man 6 1 ≤ 1 && 4 ≤ fieldBe man 7 1 && fieldBe man 7 1 ≤ 12

/-- Formats a target may have (Table 14.1), and so a receiver takes. -/
def exportFmts : List Nat := [1, 2, 3, 5, 6]

/-- The geometry of a stream that a receive context takes: KV heads, head width and L0, which a PAGE_DATA does not name and the
manifest, which does, comes last. They are free among the values that Tables 12.1 and 14.4 allow. -/
def rxGeometry (key : Nat) : Nat × Nat × Nat :=
  (2 ^ (Config.freeNat 2 key % 5), 64 * 2 ^ (Config.freeNat 5 key % 3), Config.freeNat 3 key % 128)

/-- Answer with a NAK. -/
def State.answerNak (s : State) (src ctx h seq code : Nat) : State :=
  s.answer src ctx (header 4 0 0x20 h seq 0 ++ beBytes 1 code ++ beBytes 7 0)

/-- The address of a message's data (R336, R337). -/
def State.rxPlace (s : State) (ctx key : Nat) (msg : List Byte) : Nat :=
  let (base, stride, mbase, _) := s.rxCtx ctx
  if fieldBe msg 3 1 = 2 then mbase + fieldBe msg 0x1C 4
  else
    let (nkv, d, l0) := rxGeometry key
    base + (fieldBe msg 0x18 1 - l0) * stride
      + fieldBe msg 0x1C 4 * (2 ^ fieldBe msg 0x1B 1 * 2 * nkv * rbx ((Fmt.ofCode (fieldBe msg 0x19 1)).getD .bf16) d) + fieldBe msg 0x20 4

/-- A complete manifest: an abort manifest discards the stream's pages (R328); of any other, each image that does not match its
digest is answered with NAK DIGEST (R337). -/
def State.rxManifest (s : State) (key ctx src h seq : Nat) (x : RxStream) : State :=
  let man := x.man.map (·.2)
  if !wellFormedManifest man || (Fmt.ofCode (fieldBe man 5 1)).isNone then s.answerNak src ctx h seq 1
  else if !exportFmts.contains (fieldBe man 5 1) then s.answerNak src ctx h seq 5
  else if bit (fieldBe man 2 2) 1 then
    { s with xpt := { s.xpt with rxs := mapSet s.xpt.rxs key { x with dropped := true, got := [], seqs := [], man := [] } } }
  else
    (s.badImages ctx man).foldl (fun s lp =>
      s.answerNak src ctx h (((x.seqs.find? fun y => y.2 == lp).map (·.1)).getD seq) 4) s

/-- A Yaphor message received over Lerbo for a receive context: PAGE_DATA and MANIFEST are placed by R336 and answered as a
receiver does (R331, R337); what cannot be parsed is answered BAD_FORMAT, another shaping UNSUPPORTED. -/
def State.rxMessage (s : State) (src ctx : Nat) (msg : List Byte) : State :=
  let type := fieldBe msg 3 1
  let h := fieldBe msg 8 4
  let seq := fieldBe msg 0xC 4
  let key := (ctx * 2 ^ 20 + src) * 2 ^ 32 + h
  let (base, _, _, ext) := s.rxCtx ctx
  let data := msg.drop (if type = 1 then 40 else 32)
  let a := s.rxPlace ctx key msg
  let end_ := a + data.length
  if !s.xpt.rxen || 64 ≤ ctx then s
  else if !wellFormedPage type msg then s.answerNak src ctx h seq 1
  else if type = 1 && !exportFmts.contains (fieldBe msg 0x19 1) then s.answerNak src ctx h seq 5
  else if (type = 1 && (a < base || base + ext < end_)) || hbmEnd < end_ then
    ({ s with xpt := { s.xpt with noSpace := satAdd 32 s.xpt.noSpace 1 } }).answerNak src ctx h seq 3
  else
    let x := mapGetD s.xpt.rxs key { ctx := ctx, src := src, limit := Config.freeNat 6 key % 4096 + 1 }
    let new_ := !(decide (seq < x.next) || x.got.contains seq)
    let s := if x.dropped then s else { s with pgm := s.pgm.write a data }
    let x := if new_ then RxStream.advance 64 { x with
        got := x.got ++ [seq], stored := x.stored + 1
        limit := if (x.stored + 1) % 64 = 0 then x.limit + 64 else x.limit
        seqs := if type = 1 then mapSet x.seqs seq (fieldBe msg 0x18 1 - (rxGeometry key).2.2, fieldBe msg 0x1C 4) else x.seqs } else x
    let x := if type = 2 then
        { x with total := fieldBe msg 0x18 4
                 man := data.zipIdx.foldl (fun m (b, i) => mapSet m (fieldBe msg 0x1C 4 + i) b) x.man }
      else x
    let s := { s with xpt := { s.xpt with rxs := mapSet s.xpt.rxs key x } }
    let s := s.answer src ctx (header 3 0 0x28 h x.next (fieldBe msg 0x10 8) ++ beBytes 8 x.bitmap ++ beBytes 4 x.limit ++ beBytes 4 0)
    let s := if new_ && x.stored % 64 = 0 then s.answer src ctx (header 5 0 24 h x.limit 0) else s
    if type = 2 && x.total != 0 && x.man.length == x.total then s.rxManifest key ctx src h seq x else s

end Sys2Proof.Machine
end

