-- ==== Sys2Proof/Machine/Moves.lean ====
section
/-! DEFINITION. The move engine (§8.6, §7.2, §7.4, §7.5): postings checked, resolved and bounded, the accesses of every port
of a scratchpad in one cycle by Table 7.3, the inbound path, and the completion of descriptors. -/
namespace Sys2Proof.Machine

/-! ### Plans of a posting (R138, R139, R169, R196–R198, Table 8.4) -/

/-- What a posting becomes: its kind and rows, the status it has from the start, L, its rows in each pacing group, cycles
outside every group, and its pace. -/
structure Plan where
  kind : MoveKind
  row : Nat := 0
  reel : Option Nat := none
  nrows : Nat := 0
  status : Nat := 0
  first : Nat := 0
  l : Nat := 0
  hbm : Nat := 0
  loft : Nat := 0
  send : Nat := 0
  own : Nat := 0
  pace : Nat := 1
  deriving DecidableEq, Repr

/-- A plan refused at issue: it moves no row and counts none (R169). -/
def Plan.refuse (p : Plan) (st : Nat) : Plan := { p with status := st, nrows := 0, hbm := 0, loft := 0, send := 0, own := 0 }

/-- Whether a row lies in a bank that is not ON (R147, Table 7.5). -/
def Kite.bankShut (kt : Kite) (rows : List Nat) : Bool := rows.any fun r => (kt.bank (bankOf r)).st != .on

/-- Scratchpad rows of a posting: its run, or the rows of its reel that its accesses will take after those of the descriptors
ahead. -/
def Kite.rowSpan (kt : Kite) (reads : Bool) (row : Nat) (reel : Option Nat) (n ahead : Nat) : List Nat :=
  match reel with
  | some r => (kt.reel r).rowsFrom reads ahead n
  | none => (List.range n).map fun i => wrapRow (row + i)

/-- Status of a scratchpad side: its reel disabled, or a bank of it not ON (R146, R147). -/
def Kite.sideStatus (kt : Kite) (reads : Bool) (row : Nat) (reel : Option Nat) (n ahead : Nat) : Nat :=
  match reel with
  | some r => if (kt.reel r).en then (if kt.bankShut (kt.rowSpan reads row reel n ahead) then 1 else 0) else 3
  | none => if kt.bankShut (kt.rowSpan reads row none n 0) then 1 else 0

/-- Status of the issuing kite's side of a posting of cycle `t`. -/
def Kite.ownStatus (kt : Kite) (t : Nat) (reads : Bool) (row : Nat) (reel : Option Nat) (n : Nat) : Nat :=
  kt.sideStatus reads row reel n (match reel with
    | some r => kt.reelAhead r reads t
    | none => 0)

/-- Status of the destination's side of a send: rows on its inbound path take the reel first. -/
def Kite.destStatus (kt : Kite) (row : Nat) (reel : Option Nat) (n : Nat) : Nat :=
  kt.sideStatus false row reel n (kt.inb.filter fun i => i.reel == reel).length

/-- Whether an address lies in a page table frame (R236). -/
def Pgm.inTable (p : Pgm) (a : Nat) : Bool :=
  match p.frameOf (a / 4096) with
  | some (_, f) => f.st == .table
  | none => false

/-- First address and stride of a memory move break R196. -/
def memBad (sm ss : Word) : Bool := sm.toNat % 512 != 0 || decide (2 ^ 56 ≤ sm.toNat) || ss.toNat % 65536 == 0

/-- Addresses of a memory move's rows. -/
def memAddrs (sm ss : Word) (n : Nat) : List Nat := (List.range n).map fun i => sm.toNat + i * (ss.toNat % 65536 * 512)

/-- DMOV (R196). -/
def State.planMem (s : State) (kt : Kite) (t : Nat) (out : Bool) (sm ss : Word) (row : Nat) (reel : Option Nat) (n : Nat) : Plan :=
  let a := sm.toNat
  let loft := inTiers a && isLoft a
  let as := memAddrs sm ss n
  let nl := (as.filter isLoft).length
  let base : Plan := { kind := .mem out a (ss.toNat % 65536 * 512), row := row, reel := reel, nrows := n, first := row
                       l := if loft || nl != 0 then 960 else 640, hbm := n - nl, loft := nl
                       pace := if nl != 0 then 80 else 13 }
  if memBad sm ss || as.any (fun x => !inTiers x) || (out && as.any s.pgm.inTable) then
    { base.refuse 7 with l := if loft then 960 else 640 }
  else
    let st := kt.ownStatus t out row reel n
    if st = 0 then base else base.refuse st

/-- Translate the rows of a DPAGE up to the first without a mapping (R196, R253): addresses, and what the walks log. -/
def State.pageRowsOf (s : State) (k : Nat) (out : Bool) : List Nat → List Nat × Bool × State
  | [] => ([], true, s)
  | va :: rest =>
    let (leaf, s) := s.walkBy k va
    match leaf with
    | none => ([], false, s)
    | some l =>
      if out && l.wp then
        ([], false, { (s.log ⟨.u, uKite, evKvWpWrite, k, 0xFFFF, 0⟩) with
          pgm := { s.pgm with wpWrite := satAdd 16 s.pgm.wpWrite 1 } })
      else
        let (as, ok, s) := s.pageRowsOf k out rest
        (l.phys va :: as, ok, s)

/-- DPAGE (R196, R253, R236). -/
def State.planPage (s : State) (k : Nat) (kt : Kite) (t : Nat) (out : Bool) (sm ss : Word) (row : Nat) (reel : Option Nat) (n : Nat) : Plan × State :=
  let zero : Plan := { kind := .page out [], row := row, reel := reel, first := row, l := 2688, pace := 13 }
  if memBad sm ss then (zero.refuse 7, s)
  else
    let st := kt.ownStatus t out row reel n
    if st != 0 then (zero.refuse st, s)
    else
      let (as, ok, s) := s.pageRowsOf k out (memAddrs sm ss n)
      if out && as.any s.pgm.inTable then (zero.refuse 7, s)
      else
        let nl := (as.filter isLoft).length
        ({ zero with
            kind := .page out as, nrows := as.length, status := if ok then 0 else 4
            first := if ok then row else wrapRow (row + as.length)
            l := if nl = 0 then 2688 else 3008, hbm := as.length - nl, loft := nl, pace := if nl = 0 then 13 else 80 }, s)

/-- DSEND and SEND (R197, R115). -/
def State.planSend (s : State) (kt : Kite) (t : Nat) (sd : Word) (row : Nat) (reel : Option Nat) (n : Nat) (brd : Option Nat) : Plan × State :=
  let x := sd.toNat
  let isReel := bit x 48
  let d := bits x 32 16
  let place := (s.unitRuns kt.unit).bind fun rs => runsAt rs (x % 2 ^ 32)
  let zero : Plan := { kind := .fill 0, row := row, reel := reel, first := row, l := 320, pace := 4 }
  match place with
  | none => (zero.refuse 7, s)
  | some (m, k2) =>
    if 2 ^ 49 ≤ x then (zero.refuse 7, s)
    else if s.isMe m then
      let dt := s.kite k2
      let base : Plan := { zero with
        kind := .send k2 (d % 16384) (if isReel then some d else none), nrows := n, send := n }
      if !s.kiteOn k2 || (if isReel then 32 ≤ d else 16384 ≤ d) then (zero.refuse 7, s)
      else
        let st := kt.ownStatus t true row reel n
        let st2 := dt.destStatus d (if isReel then some d else none) n
        if st != 0 then (base.refuse st, s) else if st2 != 0 then (base.refuse st2, s) else (base, s)
    else
      let l := 320 + 1250 * s.hops m
      let st := kt.ownStatus t true row reel n
      let carried := match brd with
        | some b => if b / 65536 = m then some (b % 65536) else none
        | none => none
      let base : Plan := { zero with
        kind := .remote m k2 d (if isReel then some d else none) s.brd.tag carried, nrows := n, send := n, l := l, pace := 13 }
      if (if isReel then 32 ≤ d else 16384 ≤ d) then (base.refuse 7, s)
      else if st != 0 then (base.refuse st, s)
      else (base, { s with brd := { s.brd with tag := wrapAdd 64 s.brd.tag 1 } })

/-- A KVAPP row whose translation fails (R114): logged with its slot, its request faulted. -/
def State.kvFail (s : State) (k slot : Nat) (wp : Bool) : State :=
  let s := if wp then
      { (s.log ⟨.u, uKite, evKvWpWrite, k, slot, 0⟩) with pgm := { s.pgm with wpWrite := satAdd 16 s.pgm.wpWrite 1 } }
    else s.log ⟨.u, uKite, evMove 4, k, slot, 0⟩
  let kt := s.kite k
  (s.setKite k { kt with cKvfail := satAdd 16 kt.cKvfail 1 }).faultSlot slot 6

/-- The address of a KVAPP row (R249, R252), from the geometry of its slot's request. -/
def State.kvAddr (s : State) (r : KvRow) : Option Nat :=
  let q := s.req r.slot
  if q.st = .free then none
  else
    match mapGet s.hst.models q.model with
    | none => none
    | some m => rowVa r.slot r.layer r.head r.kind r.pos (2 ^ q.logp) m.nkv m.rb

/-- KVAPP rows (R113, R114, R253): the rows that have a mapping, by physical address. -/
def State.planKv (s : State) (k : Nat) (rows : List KvRow) : Plan × State :=
  let (ws, s) := rows.foldl (fun (acc : List (Nat × List Byte) × State) r =>
    let (ws, s) := acc
    let at_ := s.kvAddr r
    let (leaf, s) := match at_ with
      | some va => s.walkBy k va
      | none => (none, s)
    match leaf, at_ with
    | some l, some va => if l.wp then (ws, s.kvFail k r.slot true) else (ws ++ [(l.phys va, leBytes r.len r.val)], s)
    | _, _ => (ws, s.kvFail k r.slot false)) (([] : List (Nat × List Byte)), s)
  let nl := (ws.filter fun w => isLoft w.1).length
  ({ kind := .kv ws, nrows := ws.length, l := if nl = 0 then 640 else 960, hbm := ws.length - nl, loft := nl
     pace := if nl = 0 then 13 else 80 }, s)

/-- Rows of a token map of `n` entries (R251). -/
def mapRowCount (n : Nat) : Nat := ceilDiv (8 * n) 512

/-- The plan of a posting of cycle `t`. -/
def State.plan (s : State) (k t : Nat) (raw : Raw) (brd : Option Nat) : Plan × State :=
  let kt := s.kite k
  match raw with
  | .mem out sm ss row reel n => (s.planMem kt t out sm ss row reel n, s)
  | .page out sm ss row reel n => s.planPage k kt t out sm ss row reel n
  | .send sd row reel n => s.planSend kt t sd row reel n brd
  | .note h l hd kd tm nt =>
    let base : Plan := { kind := .note h l hd kd tm nt, row := tm, first := tm, nrows := mapRowCount nt, l := 120 }
    (if kt.bankShut (kt.rowSpan true tm none (mapRowCount nt) 0) then base.refuse 1 else base, s)
  | .fill v row n =>
    let base : Plan := { kind := .fill v, row := row, first := row, nrows := n, l := 98, own := 4 * n, pace := 4 }
    (if kt.bankShut (kt.rowSpan false row none n 0) then base.refuse 1 else base, s)
  | .copy desc srow drow n =>
    let base : Plan := { kind := .copy drow desc, row := srow, first := srow, nrows := n, l := 100, own := 8 * n, pace := 8 }
    (if kt.bankShut (kt.rowSpan true srow none n 0 ++ kt.rowSpan false drow none n 0) then base.refuse 1 else base, s)
  | .kv rows => s.planKv k rows

/-- The plan of a posting whose completion bridle is out of range (R211). -/
def Raw.outOfRange (raw : Raw) : Plan :=
  let p (kind : MoveKind) (row l : Nat) : Plan := { kind := kind, row := row, first := row, l := l, status := 7 }
  match raw with
  | .mem out sm ss row _ _ => p (.mem out sm.toNat (ss.toNat % 65536 * 512)) row (if inTiers sm.toNat && isLoft sm.toNat then 960 else 640)
  | .page out _ _ row _ _ => p (.page out []) row 2688
  | .send _ row _ _ => p (.fill 0) row 320
  | .note h l hd kd tm nt => p (.note h l hd kd tm nt) tm 120
  | .fill v row _ => p (.fill v) row 98
  | .copy desc srow drow _ => p (.copy drow desc) srow 100
  | .kv _ => p (.kv []) 0 640

/-! ### Posting (R167, R169) -/

/-- Rows of a pacing group that are under way: of every descriptor issued earlier whose bound has not passed. -/
def Kite.pacedRows (kt : Kite) (t : Nat) : Nat × Nat × Nat :=
  kt.paced.foldl (fun a p => if t < p.1 then (a.1 + p.2.1, a.2.1 + p.2.2.1, a.2.2 + p.2.2.2) else a) (0, 0, 0)

/-- B of a plan, but for Q (R169). -/
def Plan.bound (p : Plan) (paced : Nat × Nat × Nat) : Nat :=
  p.l + (if p.hbm = 0 then 0 else (p.hbm + paced.1) * 13) + (if p.loft = 0 then 0 else (p.loft + paced.2.1) * 80)
    + (if p.send = 0 then 0 else (p.send + paced.2.2) * p.pace) + p.own

/-- Post a descriptor on a channel that has room, in issue cycle `t`. Its completion is placed 96 cycles, the time of a
signal to its waiting kite, before the end of its bound (R169, R222). -/
def State.post (k t : Nat) (p : Post) (s : State) : State :=
  let kt := s.kite k
  let at_ : Option (Option Nat) := match p.bridle with
    | none => some none
    | some u => (brunsAt (s.unitBruns kt.unit) u).map fun b => some ((if s.isMe b.1 then 0xFFFFF else b.1) * 65536 + b.2)
  let (pl, s) := match at_ with
    | some b => s.plan k t p.raw b
    | none => (p.raw.outOfRange, s)
  let kt := s.kite k
  let c := kt.chan p.ch
  let q := match c.queue.getLast? with
    | some d => d.bound - t
    | none => 0
  let bound := t + q + pl.bound (kt.pacedRows t)
  let remote := match pl.kind with
    | .remote _ _ _ _ _ _ => pl.status == 0
    | _ => false
  let d : Desc := { kind := pl.kind, row := pl.row, reel := pl.reel, nrows := pl.nrows, issue := t, bound := bound, pace := pl.pace
                    complete := max (t + 1) (bound - 96), status := pl.status, first := pl.first, bridle := at_.getD none
                    next := 0, left := b2n remote, waits := 0, buf := none, pc := p.pc, told := false }
  let s := match pl.kind with
    | .remote _ _ _ _ tag _ => if remote then { s with lnk := { s.lnk with sends := mapSet s.lnk.sends tag (k, p.ch) } } else s
    | _ => s
  s.setKite k { kt with
    chans := mapSet kt.chans p.ch { c with queue := c.queue ++ [d] }
    paced := (kt.paced.filter fun x => decide (t < x.1)) ++ [(bound, pl.hbm, pl.loft, pl.send)] }

/-- Whether a channel's queue is full (R167). -/
def Kite.chanFull (kt : Kite) (c : Nat) : Bool := decide (8 ≤ (kt.chan c).queue.length)

/-- Whether a posting waits: its channel is full, or an earlier posting of the channel waits (R167). -/
def Kite.postWaits (kt : Kite) (waiting : List Post) (p : Post) : Bool :=
  kt.chanFull p.ch || waiting.any fun q => q.ch == p.ch

/-- A D-slot posting of issue cycle `t`: queued, or kept while its channel is full, which holds the kite (R167). -/
def State.postD (k t : Nat) (p : Post) (s : State) : State :=
  let kt := s.kite k
  if kt.postWaits kt.dqWait p then s.setKite k { kt with dqWait := kt.dqWait ++ [p] } else s.post k t p

/-- Postings made while their channel was full enter as soon as it has room; the cycle counts as their issue cycle (R167). -/
def State.postWaiting (k : Nat) (s : State) : State :=
  let ps := (s.kite k).dqWait
  if ps.isEmpty then s
  else ps.foldl (fun s p => s.postD k s.cyc p) (s.setKite k { s.kite k with dqWait := [] })

/-- The postings of this cycle's chain stages: a SEND issues in the following cycle (R115). -/
def State.postChain (k : Nat) (s : State) : State :=
  let kt := s.kite k
  let ps := kt.posts
  ps.foldl (fun s p =>
    let t := match p.raw with
      | .send _ _ _ _ => s.cyc + 1
      | _ => s.cyc
    s.postD k t p) (s.setKite k { kt with posts := [] })

/-! ### Accesses of a descriptor -/

/-- The cycle from which the access of a descriptor's next row is made: rows are paced up to its completion (R138, R139,
R169), with three cycles left for a lost bank (R134). -/
def Desc.dueAt (d : Desc) : Nat :=
  let slack := match d.kind with
    | .copy _ _ => if d.buf.isSome then 3 else 7
    | .send _ _ _ => 8
    | .remote _ _ _ _ _ _ => 8 + 1250
    | .note _ _ _ _ _ _ => d.complete
    | _ => 3
  d.complete - slack - (d.nrows - 1 - d.next) * d.pace

/-- Row index a DCOPY takes next (R139). -/
def Desc.copyIdx (d : Desc) (down : Bool) : Nat := if down then d.nrows - 1 - d.next else d.next

/-- The scratchpad row a descriptor accesses next, none where a reel does not allow it or no access is needed. `snap` holds
the reels as they stood at the start of the cycle (R142). -/
def Desc.rowAt (d : Desc) (kt : Kite) (snap : Kite) : Option Nat :=
  let read : Option Nat := match d.reel with
    | some r => if kt.reelAvail snap r = 0 then none else some (wrapRow ((kt.reel r).rowOf (kt.reel r).tail))
    | none => some (wrapRow (d.row + d.next))
  let write : Option Nat := match d.reel with
    | some r => if kt.reelSpace snap r = 0 then none else some (wrapRow ((kt.reel r).rowOf (kt.reel r).head))
    | none => some (wrapRow (d.row + d.next))
  if d.nrows ≤ d.next then none
  else
    match d.kind with
    | .mem out _ _ => if out then read else write
    | .page out _ => if out then read else write
    | .send _ _ _ => read
    | .remote _ _ _ _ _ _ => read
    | .fill _ => some (wrapRow (d.row + d.next))
    | .copy drow down => some (wrapRow ((if d.buf.isSome then drow else d.row) + d.copyIdx down))
    | .note _ _ _ _ _ _ => read
    | .kv _ => none

/-- Give a descriptor a status, where it has none yet, with the row affected. -/
def Desc.fail (d : Desc) (st row : Nat) : Desc := if d.status = 0 then { d with status := st, first := row } else d

/-- Replace the head of a channel's queue. -/
def Kite.setHead (kt : Kite) (ch : Nat) (d : Desc) : Kite :=
  let c := kt.chan ch
  { kt with chans := mapSet kt.chans ch { c with queue := d :: c.queue.drop 1 } }

/-- Chunks of a 512-byte row that bad 64-byte blocks of memory cover (Table 8.5). -/
def chunkMask (a : Nat) (bad : List Nat) : Nat := bad.foldl (fun m b => m ||| 3 * 2 ^ (2 * (b - a / 64))) 0

/-- Blocks of memory that receive poisoned chunks of a row (R244). -/
def poisonBlocks (a mask : Nat) : List Nat :=
  ((List.range 8).filter fun i => mask / 2 ^ (2 * i) % 4 != 0).map fun i => a / 64 + i

/-- Report a move's write of a row that a feeder or a LOAD has yet to read (Tables 4.10 and 6.7). -/
def Kite.moveHaz (kt : Kite) (k cyc pc slot row : Nat) : Kite :=
  kt.hazardAtIf (kt.feedToRead row || kt.loadToRead (kt.tv cyc) row) k pc 7 slot

/-- A row enters the scratchpad from memory at address `a`. -/
def State.rowIn (s : State) (k ch : Nat) (d : Desc) (row a : Nat) : State :=
  let (l, bad, s) := s.readMem a 512
  let mask := chunkMask a bad
  let (ok, kt) := ((s.kite k).moveHaz k s.cyc d.pc 3 row).writeRow k row (leNat l) mask
  let kt := if d.reel.isSome then kt.reelPush (d.reel.getD 0) else kt
  let d := if mask = 0 then d else d.fail 5 row
  let d := if ok then d else d.fail 2 row
  s.putKite k (kt.setHead ch { d with next := d.next + 1, waits := 0 })

/-- A row leaves the scratchpad for memory at address `a`; the frame table and the prefix index take no write. -/
def State.rowOut (s : State) (k ch : Nat) (d : Desc) (row a : Nat) : State :=
  let kt := s.kite k
  let mask := mapGetD kt.bad row 0
  let (v, kt) := kt.readRow k row 2
  let kt := if d.reel.isSome then kt.reelPop (d.reel.getD 0) else kt
  let d := if mask = 0 then d else d.fail 5 row
  let s := if writable a then { s with pgm := (s.pgm.write a (leBytes 512 v)).poison (poisonBlocks a mask) } else s
  s.putKite k (kt.setHead ch { d with next := d.next + 1, waits := 0 })

/-- A row is read for a send; poisoned chunks travel with it. -/
def State.rowSend (s : State) (k ch : Nat) (d : Desc) (row : Nat) : State :=
  let kt := s.kite k
  let mask := mapGetD kt.bad row 0
  let (v, kt) := kt.readRow k row 2
  let kt := if d.reel.isSome then kt.reelPop (d.reel.getD 0) else kt
  let d := if mask = 0 then d else d.fail 5 row
  match d.kind with
  | .send k2 drow reel =>
    let s := s.putKite k (kt.setHead ch { d with next := d.next + 1, left := d.left + 1, waits := 0 })
    let dt := s.kite k2
    s.setKite k2 { dt with inb := dt.inb ++ [⟨wrapRow (drow + d.next), reel, v, 0, some (k, ch), none, mask⟩] }
  | .remote m k2 drow reel tag brd =>
    let i := d.next % 16
    let acc := d.buf.getD 0 + v * 2 ^ (4096 * i)
    let full := i = 15 || d.next + 1 = d.nrows
    let s := s.putKite k (kt.setHead ch { d with next := d.next + 1, waits := 0, buf := if full then none else some acc })
    if full then
      s.lerboSend m 0x02 (leBytes 8 tag ++ leBytes 2 k2 ++ leBytes 2 (if reel.isSome then drow + 0x8000 else drow)
        ++ leBytes 2 (d.next - i) ++ leBytes 2 (i + 1) ++ leBytes 2 d.nrows ++ leBytes 4 (brd.getD 0xFFFFFFFF) ++ leBytes 2 0
        ++ leBytes (512 * (i + 1)) acc)
    else s
  | _ => s

/-- A row of a notice's token map is read (R198, R251). -/
def State.rowNote (s : State) (k ch : Nat) (d : Desc) (row : Nat) : State :=
  let (v, kt) := (s.kite k).readRow k row 2
  s.putKite k (kt.setHead ch { d with next := d.next + 1, waits := 0, buf := some (d.buf.getD 0 + v * 2 ^ (4096 * d.next)) })

/-- Make the access of a descriptor's next row. -/
def State.moveAccess (s : State) (k ch : Nat) (d : Desc) (row : Nat) : State :=
  match d.kind with
  | .mem out a stride => if out then s.rowOut k ch d row (a + d.next * stride) else s.rowIn k ch d row (a + d.next * stride)
  | .page out pas => if out then s.rowOut k ch d row (pas.getD d.next 0) else s.rowIn k ch d row (pas.getD d.next 0)
  | .fill v =>
    let kt := s.kite k
    let (ok, kt) := (kt.moveHaz k s.cyc d.pc 3 row).writeRow k row (packElems 32 (List.replicate 128 v))
    let d := if ok then d else d.fail 2 row
    s.putKite k (kt.setHead ch { d with next := d.next + 1, waits := 0 })
  | .copy _ _ =>
    let kt := s.kite k
    match d.buf with
    | none =>
      let mask := mapGetD kt.bad row 0
      let (v, kt) := kt.readRow k row 2
      s.putKite k (kt.setHead ch { d with buf := some (v % 2 ^ 4096 + mask * 2 ^ 4096), waits := 0 })
    | some x =>
      let mask := x / 2 ^ 4096
      let (ok, kt) := (kt.moveHaz k s.cyc d.pc 3 row).writeRow k row x mask
      let d := if mask = 0 then d else d.fail 5 row
      let d := if ok then d else d.fail 2 row
      s.putKite k (kt.setHead ch { d with next := d.next + 1, buf := none, waits := 0 })
  | .note _ _ _ _ _ _ => s.rowNote k ch d row
  | _ => s.rowSend k ch d row

/-- KVAPP rows of a channel's head that are due: they touch no bank. -/
def State.kvRowsDue (k ch : Nat) (s : State) : State :=
  let kt := s.kite k
  match (kt.chan ch).queue with
  | [] => s
  | d :: _ =>
    match d.kind with
    | .kv rows =>
      if d.next < d.nrows && d.dueAt ≤ s.cyc then
        match rows[d.next]? with
        | some (a, l) => ({ s with pgm := s.pgm.write a l }).setKite k (kt.setHead ch { d with next := d.next + 1 })
        | none => s
      else s
    | _ => s

/-! ### The inbound path (R134, R148, R351) -/

/-- Whether the row at the head of the inbound path can be written: its row, where its reel has room. -/
def Kite.inboundRow (kt : Kite) (snap : Kite) : Option Nat :=
  match kt.inb with
  | [] => none
  | i :: _ =>
    match i.reel with
    | some r => if kt.reelSpace snap r = 0 then none else some (wrapRow ((kt.reel r).rowOf (kt.reel r).head))
    | none => some (wrapRow i.row)

/-- Account for an inbound row that has been written, or dropped with a status. -/
def State.inboundDone (s : State) (i : Inbound) (row st : Nat) : State :=
  let s := match i.src with
    | some (k2, ch) =>
      let kt := s.kite k2
      (match (kt.chan ch).queue with
       | d :: _ => s.setKite k2 (kt.setHead ch { (if st = 0 then d else d.fail st row) with left := d.left - 1 })
       | [] => s)
    | none => s
  match i.tag with
  | none => s
  | some (src, tag, brd) =>
    match s.lnk.recvs.find? fun r => r.src == src && r.tag == tag with
    | none => s
    | some x =>
      let x := { x with left := x.left - 1, st := if x.st = 0 then st else x.st }
      let rest := s.lnk.recvs.filter fun r => !(r.src == src && r.tag == tag)
      if x.left = 0 then
        let s := { s with lnk := { s.lnk with recvs := rest } }
        let s := match brd with
          | some b => s.signal 0xFFFFF b 1 (s.cyc + 80)
          | none => s
        s.lerboSend src 0x12 (leBytes 8 tag ++ leBytes 1 x.st ++ leBytes 7 0)
      else { s with lnk := { s.lnk with recvs := rest ++ [x] } }

/-- Write the row at the head of the inbound path. -/
def State.inboundAccess (s : State) (k row : Nat) : State :=
  let kt := s.kite k
  match kt.inb with
  | [] => s
  | i :: rest =>
    let (ok, kt') := (({ kt with inb := rest } : Kite).moveHaz k s.cyc kt.ipc 7 row).writeRow k row i.val i.poison
    let kt' := match i.reel with
      | some r => kt'.reelPush r
      | none => kt'
    (s.putKite k kt').inboundDone i row (if ok then 0 else 2)

/-! ### One cycle of a kite's banks (R131–R134, Table 7.3) -/

/-- What the arbitration of a cycle has done: banks taken and move ports served. -/
structure Arb where
  taken : List Nat := []
  served : List Nat := []
  s : State

/-- Whether a row's bank is still free in this cycle. -/
def Arb.free (a : Arb) (row : Nat) : Bool := !a.taken.contains (bankOf row)

/-- Take a row's bank. -/
def Arb.take (a : Arb) (row : Nat) (s : State) : Arb := { a with taken := bankOf row :: a.taken, s := s }

/-- The access of move channel `ch`, at rank 1 or in its own place. -/
def claimMove (k : Nat) (snap : Kite) (urgent : Bool) (a : Arb) (ch : Nat) : Arb :=
  let kt := a.s.kite k
  if a.served.contains ch then a
  else
    match (kt.chan ch).queue with
    | [] => a
    | d :: _ =>
      if a.s.cyc < d.dueAt || decide (3 ≤ d.waits) != urgent then a
      else
        match d.rowAt kt snap with
        | none => a
        | some row =>
          let a := { a with served := ch :: a.served }
          if a.free row then a.take row (a.s.moveAccess k ch d row)
          else { a with s := a.s.setKite k (kt.setHead ch { d with waits := d.waits + 1 }) }

/-- The rows of a notice's token map are read four to a cycle, so that the notice is placed within its 24 cycles
(Table 8.4). -/
def claimNote (k : Nat) (snap : Kite) (urgent : Bool) (a : Arb) (ch : Nat) : Arb :=
  match ((a.s.kite k).chan ch).queue with
  | d :: _ =>
    match d.kind with
    | .note _ _ _ _ _ _ =>
      if a.served.contains ch then
        (List.range 3).foldl (fun a _ => claimMove k snap urgent { a with served := a.served.filter fun c => c != ch } ch) a
      else a
    | _ => a
  | [] => a

/-- The accesses of a move channel in its turn. -/
def claimChan (k : Nat) (snap : Kite) (urgent : Bool) (a : Arb) (ch : Nat) : Arb :=
  claimNote k snap urgent (claimMove k snap urgent a ch) ch

/-- The inbound path's access: port 4 among the move ports. -/
def claimInbound (k : Nat) (snap : Kite) (urgent : Bool) (a : Arb) : Arb :=
  let kt := a.s.kite k
  if a.served.contains 4 then a
  else
    match kt.inb, kt.inboundRow snap with
    | i :: rest, some row =>
      if decide (3 ≤ i.waits) != urgent then a
      else
        let a := { a with served := 4 :: a.served }
        if a.free row then a.take row (a.s.inboundAccess k row)
        else { a with s := a.s.setKite k { kt with inb := { i with waits := i.waits + 1 } :: rest } }
    | _, _ => a

/-- The rows that a test drain writes in the cycle, before every other access: it takes 64 cycles (R86). -/
def claimDrain (k : Nat) (a : Arb) : Arb :=
  ((a.s.kite k).drainRows a.s.cyc).foldl (fun a row => a.take row (a.s.putKite k (drainWrite k (a.s.kite k)))) a

/-- The row read of an MSEED, through the row feeder and before its operands. In a held cycle only a row that is late is
read (R74, R133). -/
def claimSeed (k t : Nat) (held : Bool) (a : Arb) : Arb :=
  let kt := a.s.kite k
  if held && !kt.seedLate (t + 1) then a
  else
    match kt.seedRow t with
    | none => a
    | some row =>
      if !a.free row then a
      else a.take row (a.s.putKite k (seedRead k row (kt.hazardAtIf (kt.moveNames row) k ((kt.seed.map (·.pc)).getD 0) 9 1)))

/-- A feeder's reads of local cycle `t`: of the first pass that has any, in order, up to the first that loses its bank or that
its reel does not hold. In a held cycle only rows already due for entry are read (R78, R133). -/
def claimFeeder (k t : Nat) (snap : Kite) (held : Bool) (b : Bool) (a : Arb) : Arb :=
  let kt := a.s.kite k
  match kt.feedItems b t with
  | none => a
  | some (pi, ws) =>
    (ws.foldl (fun (acc : Bool × Arb) w =>
      let (lost, a) := acc
      let kt := a.s.kite k
      match kt.passes[pi]? with
      | none => acc
      | some p =>
        let (_, _, base, _, isReel) := p.operand b
        let row := p.wantRow kt b w
        -- element rows wait for each other; a reel supplies every row in its order
        if held && t + 1 < p.itemDue b w then acc
        else if (lost && (!w.1 || isReel)) || !a.free row || (isReel && kt.reelAvail snap base = 0) then (true, a)
        else (lost, a.take row (a.s.putKite k (feedRead k b pi w (kt.hazardAtIf (kt.moveNames row) k p.pc 9 1))))) (false, a)).2

/-- A narrow access that loses its bank: logged, and kept for the held cycle that follows (R132). INFO holds the row, the
port at bit 24 and cause NARROW. -/
def narrowLost (k row port : Nat) (x : Narrow) (a : Arb) : Arb :=
  let kt := a.s.kite k
  { a with s := a.s.putKite k { (kt.event k .s evSpadConflict (row + port * 2 ^ 24)) with retry := kt.retry ++ [x] } }

/-- Row, port, slot and bundle address of a narrow access. -/
def Narrow.row (kt : Kite) : Narrow → Nat × Nat × Nat × Nat
  | .ld _ a _ _ _ pc => (a / 512, 5, 0, pc)
  | .st a _ _ _ pc => (a / 512, 5, 0, pc)
  | .vec r c _ => (vmRow r c, 4, 2, r.pc)
  | .stage r c _ =>
    match kt.chain with
    | some ch => (ch.rowAt kt r c, 4, 2, ch.pc)
    | none => (0, 4, 2, 0)
  | .map row => (row, 4, 2, (kt.chain.map (·.pc)).getD 0)

/-- Make a narrow access: a keel load or store (Table 8.2), or a row of the vector memory unit. -/
def Narrow.access (k tv : Nat) (kt : Kite) : Narrow → Kite
  | .ld sr a n sign t pc =>
    let (v, kt') := kt.readRow k (a / 512) 5
    kt'.resultAt k pc (.s sr) (t + 2) (loadValue n sign (bits v (a % 512 * 8) (8 * n)))
  | .st a n v _ _ => kt.storeBytes k a n v.toNat
  | .vec r c v => vmAccess k tv r c v (match r.kind with
    | .st _ => kt.hazardAtIf (r.readsEarly kt tv c) k r.pc 2 2
    | _ => kt)
  | .stage r c v => stageAccess k tv r c v kt
  | .map row => (kt.readRow k row 4).2

/-- Whether a narrow access is a chain's LOAD. -/
def Narrow.isLoad (kt : Kite) : Narrow → Bool
  | .stage r _ _ => match kt.chain with
    | some c => Machine.isLoad (stageW c.stages r.stage)
    | none => false
  | _ => false

/-- A narrow access in its turn. A row that an uncompleted descriptor names is reported (HZ_MOVE_RACE), and one that a LOAD
reads while a move writes it as HZ_FEED_WRITE (Table 6.7). -/
def claimNarrow (k tv : Nat) (a : Arb) (x : Narrow) : Arb :=
  let kt := a.s.kite k
  let (row, port, slot, pc) := x.row kt
  if a.free row then
    let race := x.isLoad kt && kt.moveWrites row
    let kt := kt.hazardAtIf (race || kt.moveNames row) k pc (if race then 7 else 9) slot
    a.take row (a.s.putKite k (x.access k tv kt))
  else narrowLost k row port x a

/-- Whether the vector units stand in the present cycle: in every hold but a SWAP_HOLD, and in that too while a row of theirs
waits for its bank or a chain for its reel (R92, R121, R132, R162). -/
def Kite.vecFrozen (kt : Kite) : Bool := kt.hold.isSome && kt.vStop

/-- The vector memory unit's accesses of this cycle: a row of its instruction or of the chain, and the rows of token maps and
mask tables that the chain's stages read. -/
def Kite.vecNarrow (kt : Kite) (k tv : Nat) : List Narrow :=
  (match kt.vmWants tv with
   | some (r, c, _) => [.vec r c (vmValue kt k r c)]
   | none => ((kt.chainWants tv).map fun x => Narrow.stage x.1 x.2.1 (stageValue kt k x.1 x.2.1)).toList)
    ++ (kt.mapWants k tv).map Narrow.map

/-- The keel's accesses that fall due in local cycle `t`, and those left. -/
def Kite.keelDue (kt : Kite) (t : Nat) : List Narrow × List Narrow :=
  kt.narrow.partition fun x => match x with
    | .ld _ _ _ _ d _ => decide (d ≤ t)
    | .st _ _ _ d _ => decide (d ≤ t)
    | _ => false

/-- Whether a kite is in a repair slot (R137): its keel waits at a TICKWAIT (R159), or is stopped while the step scheduler has
given an idle tick to background work. -/
def State.repairSlot (s : State) (k : Nat) : Bool :=
  let kt := s.kite k
  kt.st == .tickwait || (kt.stopped && s.sch.cur.isNone && !s.sch.bgNow.isEmpty)

/-- The cycles of a repair (R137): a queued row is read in one cycle of its bank, like any read, and written in the next by the
event REPAIR, while no other access names the bank. -/
def claimRepair (k : Nat) (a : Arb) : Arb :=
  let kt := a.s.kite k
  let idle (r done : Option Nat) : State :=
    if kt.repairing = r && kt.repaired = done then a.s else a.s.setKite k { kt with repairing := r, repaired := done }
  if !a.s.repairSlot k then { a with s := idle none none }
  else
    match kt.repairing with
    | some r => if a.free r then a.take r (idle none (some r)) else { a with s := idle none none }
    | none =>
      match kt.repairQ.find? fun r => a.free r with
      | some r =>
        let (_, kt) := kt.readRow k r 6
        a.take r (a.s.putKite k { kt with repairing := some r, repaired := none })
      | none => { a with s := idle none none }

/-- Every access of a kite's scratchpad in the present cycle, served in the order of Table 7.3. -/
def State.bankCycle (k : Nat) (s : State) : State :=
  let kt := s.kite k
  let t := kt.t s.cyc
  let tv := kt.tv s.cyc
  let held := kt.hold.isSome
  let retry := kt.retry
  let (due, keep) := if held then ([], kt.narrow) else kt.keelDue t
  let vec := if kt.vecFrozen then [] else kt.vecNarrow k tv
  let a : Arb := { s := s.setKite k { kt with retry := [], narrow := keep } }
  let a := claimDrain k a
  let a := [0, 1, 2, 3].foldl (claimChan k kt true) a
  let a := claimInbound k kt true a
  let a := claimSeed k t held a
  let a := claimFeeder k t kt held false a
  let a := claimFeeder k t kt held true a
  let a := [0, 1, 2, 3].foldl (claimChan k kt false) a
  let a := claimInbound k kt false a
  let a := (retry.filter Narrow.isVec ++ vec).foldl (claimNarrow k tv) a
  let a := (retry.filter (fun x => !x.isVec) ++ due).foldl (claimNarrow k tv) a
  let a := claimRepair k a
  [0, 1, 2, 3].foldl (fun s ch => s.kvRowsDue k ch) a.s

/-! ### Completion (R168, R171) -/

/-- Class of a status (Table 8.5). -/
def moveClass (st : Nat) : EvClass := if st = 4 || st = 6 then .u else if st = 5 then .d else .s

/-- Whether the head of a channel completes at the end of the present cycle. -/
def State.moveDue (s : State) (k ch : Nat) : Bool :=
  match ((s.kite k).chan ch).queue with
  | [] => false
  | d :: _ => decide (d.complete ≤ s.cyc && d.nrows ≤ d.next) && d.left == 0

/-- Slots and positions of the token rows of a tile, from the rows of its token map (R251). -/
def tokenRows (rows n : Nat) : List (Nat × Nat) := (List.range n).map fun r => (bits rows (64 * r) 16, bits rows (64 * r + 32) 32)

/-- MOVE_COMPLETE: the head of a channel completes: its status, its notice, its bridle (R168, R171, R116). -/
def moveComplete (k ch : Nat) (s : State) : State :=
  if !s.moveDue k ch then s
  else
    let kt := s.kite k
    let c := kt.chan ch
    match c.queue with
    | [] => s
    | d :: rest =>
      let bad := d.status != 0
      let c := { c with
        queue := rest, done := wrapAdd 40 c.done 1
        status := if bad then d.status else c.status, errcnt := if bad then satAdd 16 c.errcnt 1 else c.errcnt }
      let kt := { kt with chans := mapSet kt.chans ch c }
      let kt := if bad then kt.event k (moveClass d.status) (evMove d.status) (d.first + ch * 2 ^ 32) else kt
      let s := s.putKite k kt
      let s := if (d.status = 4 || d.status = 6) && s.serveKites.contains k then s.faultStep (if d.status = 4 then 6 else 7) else s
      let s := match d.kind with
        | .note h l hd kd _ nt => if bad then s else s.exportNotice h l hd kd (tokenRows (d.buf.getD 0) nt)
        | _ => s
      match d.bridle with
      | some b => if d.told then s else s.signal (b / 65536) (b % 65536) 1 (s.cyc + 80)
      | none => s

/-! ### WRITE and WRITE_DONE (R351) -/

/-- WRITE: rows of a remote DSEND enter the inbound path; one outside the limits of R197 is answered RANGE (Table 15.6), one
for a disabled reel REEL_DISABLED (R146, Table 8.5). -/
def writeRows (r : LRx) (f : LWrite) (rows : List Byte) (s : State) : State :=
  let body := leBytes 8 f.tag.toNat ++ leBytes 2 f.kite.toNat ++ leBytes 2 f.dest.toNat ++ leBytes 2 f.first.toNat
    ++ leBytes 2 f.rows.toNat ++ leBytes 2 f.total.toNat ++ leBytes 4 f.bridle.toNat ++ leBytes 2 f.rsv.toNat ++ rows
  let (ok, s) := s.lerboRx r 0x02 body
  if !ok then s
  else
    let n := f.rows.toNat
    let total := f.total.toNat
    let k := f.kite.toNat
    let reel := 0x8000 ≤ f.dest.toNat
    let d := f.dest.toNat % 0x8000
    let src := r.src.toNat
    let tag := f.tag.toNat
    if f.rsv != 0 then s.violate r.port.val 1
    else if n = 0 || 16 < n || total = 0 || rows.length != 512 * n then s.violate r.port.val 3
    else if !s.kiteOn k || (if reel then 32 ≤ d else 16384 ≤ d) then
      (s.violate r.port.val 6).lerboSend src 0x12 (leBytes 8 tag ++ leBytes 1 7 ++ leBytes 7 0)
    else if reel && !((s.kite k).reel d).en then s.lerboSend src 0x12 (leBytes 8 tag ++ leBytes 1 3 ++ leBytes 7 0)
    else
      let known := s.lnk.recvs.any fun x => x.src == src && x.tag == tag
      let s := if known then s
        else { s with lnk := { s.lnk with recvs := s.lnk.recvs ++ [⟨src, tag, total, 0, k, if reel then some d else none⟩] } }
      let brd := if f.bridle.toNat < 65536 then some f.bridle.toNat else none
      let ins : List Inbound := (List.range n).map fun i =>
        ⟨wrapRow (d + f.first.toNat + i), if reel then some d else none, leNat (sliceBytes rows (512 * i) 512), 0, none,
          some (src, tag, brd), 0⟩
      let kt := s.kite k
      s.setKite k { kt with inb := kt.inb ++ ins }

/-- WRITE_DONE: the sender's descriptor has its status and may complete; a status that Table 8.5 does not have is a violation (R7). -/
def writeDone (r : LRx) (tag status rsv : Nat) (s : State) : State :=
  let (ok, s) := s.lerboRx r 0x12 (leBytes 8 tag ++ leBytes 1 status ++ leBytes 7 rsv)
  if !ok then s else if rsv != 0 || 7 < status then s.violate r.port.val 1 else s.endRemote tag status

end Sys2Proof.Machine
end

