-- ==== Sys2Proof/Machine/Issue.lean ====
section
/-! DEFINITION. How a slot instruction issues (R150–R152, R175): it has its effect while the keel issues, an exception found
at issue takes effect instead, and a keel that does not issue makes the command void. -/
namespace Sys2Proof.Machine

/-- Issue a slot instruction: the exception `e` found at issue, or its effect. -/
def State.issue (s : State) (k : Fin 256) (slot : Nat) (e : Option Exc) (eff : State → State) : State :=
  let kt := s.kite k
  if !kt.issues then s
  else
    match e with
    | some x => s.putKite k (kt.raise k x slot kt.ipc)
    | none => eff s

/-- An effect on the kite alone, by its local and its vector cycle. -/
def State.onKite (s : State) (k : Fin 256) (eff : Nat → Nat → Kite → Kite) : State :=
  let kt := s.kite k
  s.putKite k (eff (kt.t s.cyc) (kt.tv s.cyc) kt)

/-- A slot instruction that acts on its kite alone. -/
def execSlot (k : Fin 256) (slot : Nat) (chk : Kite → Option Exc) (eff : Nat → Nat → Kite → Kite) (s : State) :
    Host.Outcome State Fault Refusal :=
  .next (s.issue k slot (chk (s.kite k)) fun s => s.onKite k eff)

/-- HALT_REQ (R442): the keel halts at the end of the first cycle that begins after the request. A keel that is stopped takes no
notice; a kite of the serving train is also logged. -/
def haltReq (k : Nat) (s : State) : State :=
  let kt := s.kite k
  if kt.stopped then s
  else
    let kt := if kt.reqEnd then kt else { kt with reqEnd := true, haltAt := s.cyc + 1 }
    s.putKite k (if s.isServing kt.unit then kt.event k .v evRegIgnored else kt)

end Sys2Proof.Machine
end

