-- ==== Sys2Proof/Machine/Units.lean ====
section
/-! DEFINITION. Units, trains and bridles (file 10): definition, deletion, launch and halt of units, with the requests they
make of other modules (R350), and the evaluation of bridles at their home. -/
namespace Sys2Proof.Machine

/-! ### Descriptors (Tables 10.2, 10.3) -/

/-- The 4 KiB of GLB.UNIT_DESC. -/
def State.descWindow (s : State) : List Byte := (List.range 4096).map fun i => mapGetD s.brd.desc i 0

/-- A module ID with this module's own written as 0xF_FFFF. -/
def State.normMod (s : State) (m : Nat) : Nat := if s.isMe m then 0xFFFFF else m

/-- Placement of a unit of another module. Built-in kites and clusters are the same everywhere. What a module's grade decides is
open here, and so is the placement of its user trains, since a UNIT_RSP carries none: as many runs, on as many modules, as the
other module would answer. -/
def remoteRuns (m u : Nat) : Option (List Run) :=
  let e := if Config.freeNat 4 m % 2 = 0 then 64 else 60
  if u < 0x100 then some [⟨0, 1, m, u⟩]
  else if u < 0x120 then some [⟨0, 8, m, 8 * (u - 0x100)⟩]
  else if u < 0x124 then some [⟨0, e, m, (u - 0x120) * e⟩]
  else if u = 0x124 then some [⟨0, 4 * e, m, 0⟩]
  else if 0x10000 ≤ u && u < 0x11000 then
    some ((Config.remotePlace m u).map fun x => ⟨0, x.2.2 % 256 + 1, x.1 % 2 ^ 20, x.2.1 % (256 - x.2.2 % 256)⟩)
  else none

/-- Placement of a member (R204, R205). A user train of another module that has kites here stands under the same number in both
modules' tables (R208). -/
def State.memberRuns (s : State) (m u : Nat) : Option (List Run) :=
  if s.isMe m then s.unitRuns u
  else
    match mapGet s.brd.trains u with
    | some t => if t.runs.any fun r => r.modId == m then some t.runs else remoteRuns m u
    | none => remoteRuns m u

/-- Append a run, joined to the last one where it goes on from it (R205). -/
def addRun (rs : List Run) (r : Run) : List Run :=
  match rs.getLast? with
  | some l =>
    if l.modId = r.modId && l.kite + l.count = r.kite then rs.dropLast ++ [{ l with count := l.count + r.count }]
    else rs ++ [{ r with first := l.first + l.count }]
  | none => [{ r with first := 0 }]

/-- Flatten members into a placement table (R205); none where a member is unknown. -/
def State.flatten (s : State) (ms : List (Nat × Nat)) : Option (List Run) :=
  ms.foldl (fun (acc : Option (List Run)) m =>
    match acc, s.memberRuns m.1 m.2 with
    | some rs, some xs => some (xs.foldl (fun rs x => addRun rs { x with modId := s.normMod x.modId }) rs)
    | _, _ => none) (some [])

/-- Whether two ranges of one module meet. -/
def rangesMeet (m a n m2 a2 n2 : Nat) : Bool := m == m2 && decide (a < a2 + n2 && a2 < a + n)

/-- Whether a pair of a list, at different places, satisfies `p`. -/
def anyPair {α : Type} (p : α → α → Bool) : List α → Bool
  | [] => false
  | x :: rest => rest.any (p x) || anyPair p rest

/-- Members and bridle runs of a train descriptor (Table 10.2). -/
def State.descMembers (s : State) (d : List Byte) : List (Nat × Nat) :=
  (List.range (fieldLe d 4 2)).map fun i => (s.normMod (fieldLe d (0x10 + 8 * i) 8 % 2 ^ 20), fieldLe d (0x14 + 8 * i) 4)

def State.descBruns (s : State) (d : List Byte) : List BRun :=
  (List.range (fieldLe d 6 2)).map fun j =>
    let x := fieldLe d (0x210 + 8 * j) 8
    ⟨s.normMod (x % 2 ^ 20), bits x 20 16, bits x 36 17⟩

/-- Whether a field of a train descriptor is out of range, or a reserved one not zero (R206, R207, R7). -/
def descBad (d : List Byte) : Bool :=
  let unit := fieldLe d 0 4
  let nm := fieldLe d 4 2
  let nr := fieldLe d 6 2
  unit < 0x10000 || 0x11000 ≤ unit || nm = 0 || 64 < nm || 64 < nr || fieldLe d 8 8 != 0
    || (List.range nm).any (fun i => bits (fieldLe d (0x10 + 8 * i) 8) 20 12 != 0)
    || (List.range nr).any fun j =>
        let x := fieldLe d (0x210 + 8 * j) 8
        bits x 53 11 != 0 || bits x 36 17 == 0 || decide (65536 < bits x 20 16 + bits x 36 17)

/-- The checks of a DEFINE on this module (R205–R208, Table 10.4): its status, and the train. -/
def State.defineCheck (s : State) (d : List Byte) : Nat × Train :=
  let ms := s.descMembers d
  let bs := s.descBruns d
  let no : Train := ⟨[], [], []⟩
  if descBad d then (1, no)
  else
    match s.flatten ms with
    | none => (2, no)
    | some rs =>
      let t : Train := ⟨ms, rs, bs⟩
      if anyPair (fun (a b : Run) => rangesMeet a.modId a.kite a.count b.modId b.kite b.count) rs then (1, t)
      else if bs.any fun b => !rs.any fun r => r.modId == b.modId then (1, t)
      else if 4096 < rs.length then (8, t)
      else if (mapGet s.brd.trains (fieldLe d 0 4)).isSome then (9, t)
      else if anyPair (fun (a b : BRun) => rangesMeet a.modId a.first a.len b.modId b.first b.len) bs
          || bs.any (fun b => s.brd.trains.any fun (_, x) => x.bruns.any fun y => s.isMe b.modId && s.isMe y.modId
              && rangesMeet 0 b.first b.len 0 y.first y.len) then (5, t)
      else (0, t)

/-- Fields of a launch descriptor (Table 10.3). -/
def parseLaunch (d : List Byte) : LDesc :=
  ⟨fieldLe d 0 4, fieldLe d 4 4, fieldLe d 8 8, fieldLe d 0x10 32, fieldLe d 0x30 2, fieldLe d 0x32 1, bit (fieldLe d 0x33 1) 0,
    fieldLe d 0x34 2, fieldLe d 0x38 8⟩

/-- The bytes of a launch descriptor. -/
def LDesc.bytes (l : LDesc) : List Byte :=
  leBytes 4 l.unit ++ leBytes 4 l.n ++ leBytes 8 l.image ++ leBytes 32 l.digest ++ leBytes 2 l.nbun ++ leBytes 1 l.nch
    ++ leBytes 1 (b2n l.zb) ++ leBytes 2 l.entry ++ leBytes 2 0 ++ leBytes 8 l.arg

/-- Bytes of a program image (R213). -/
def LDesc.imageLen (l : LDesc) : Nat := 32 * l.nbun + 512 * l.nch

/-- Whether a field of a launch descriptor is out of range (R213, R7). -/
def launchBad (d : List Byte) : Bool :=
  let l := parseLaunch d
  decide (2 ≤ fieldLe d 0x33 1) || fieldLe d 0x36 2 != 0 || l.image % 4096 != 0 || decide (hbmEnd < l.image + l.imageLen)
    || l.nbun == 0 || decide (8192 < l.nbun) || decide (64 < l.nch) || decide (l.nbun ≤ l.entry)

/-! ### Launch (R213–R216) -/

/-- Whether a built-in die or module unit has a bridle that a user train holds (R216). -/
def State.bridlesHeld (s : State) (u : Nat) : Bool :=
  u < 0x10000 && (s.unitBruns u).any fun b => s.brd.trains.any fun (_, t) => t.bruns.any fun y =>
    s.isMe y.modId && rangesMeet 0 b.first b.len 0 y.first y.len

/-- Whether any kite of this module in a placement runs (R153). -/
def State.anyRuns (s : State) (rs : List Run) : Bool := (s.mine rs).any fun x => !(s.kite x.2).stopped

/-- The checks of a launch, in the order of R446, up to the image. -/
def State.launchStatus (s : State) (l : LDesc) : Nat :=
  match s.unitRuns l.unit with
  | none => 2
  | some rs => if l.n != runsN rs then 3 else if s.bridlesHeld l.unit then 9 else if s.anyRuns rs then 4 else 0

/-- Load a program image into a kite: bundles in the order of R177, then chain programs (R104). -/
def loadImage (img : List Byte) (l : LDesc) (kt : Kite) : Kite :=
  { kt with
    pmem := ((chunksOf 32 (img.take (32 * l.nbun))).zipIdx.map fun (b, i) => (i, leNat b))
      ++ kt.pmem.filter fun x => decide (l.nbun ≤ x.1)
    chainMem := ((chunksOf 512 (img.drop (32 * l.nbun))).zipIdx.flatMap fun (p, c) =>
        (List.range 17).map fun i => (32 * c + i, fieldLe p (16 * i) 16))
      ++ kt.chainMem.filter fun x => decide (32 * l.nch ≤ x.1) }

/-- Prepare a launch on this module (R214): its status, with every kite's memories loaded where it is OK. The relaunch of a cut
train is prepared though kites of it still wait at TICKWAIT (R305, R314). -/
def State.prepare (s : State) (l : LDesc) (again : Bool := false) : Nat × State :=
  let c := s.launchStatus l
  if c != 0 && !(again && c == 4) then (c, s)
  else
    let (img, _, s) := s.readMem l.image l.imageLen
    if digest img != l.digest then (6, s)
    else
      let ks := s.mine ((s.unitRuns l.unit).getD [])
      (0, ks.foldl (fun s x => s.setKite x.2 (loadImage img l (s.kite x.2))) s)

/-- A kite at go (R215). -/
def goKite (l : LDesc) (n nb knum : Nat) (kt : Kite) : Kite :=
  { kt with
    st := .issuing, pc := l.entry, ipc := l.entry, frames := [], hold := none, byReq := false, haltEnd := false, reqEnd := false
    hzStop := false, excValid := false, stepDone := false
    sregs := [(0, BitVec.ofNat 64 knum), (1, BitVec.ofNat 64 n), (2, BitVec.ofNat 64 nb), (3, BitVec.ofNat 64 l.arg)]
    fregs := [], sq := [], csr := [], anchor := none
    unit := l.unit, knum := knum, mcfg := {}, mcfgNext := none, setB := false, relA := true, relB := true, swapPend := false
    reels := kt.reels.map fun (r, x) => (r, { x with en := false })
    vregs := [], vq := [], vGen := kt.vGen + 1 }

/-- Note a successful launch: a unit that shares a kite with it is launched no longer, and the model of a serving train is
that of its launch again (R285, R294). -/
def State.noteLaunch (s : State) (l : LDesc) (rs : List Run) : State :=
  let meets (u : Nat) : Bool := ((s.unitRuns u).getD []).any fun a => rs.any fun b =>
    rangesMeet (s.normMod a.modId) a.kite a.count (s.normMod b.modId) b.kite b.count
  let s := { s with brd := { s.brd with launches := mapSet (s.brd.launches.filter fun (u, _) => !meets u) l.unit l } }
  if l.unit = s.trainUnit then { s with sch := { s.sch with swModel := none, relaunch := none, mayReload := false, trainDig := some l.digest } } else s

/-- Zero the bridles of a unit (Table 10.3, ZB): the count is judged anew, as after a write, by what waits on it (R219). -/
def State.zeroBridles (s : State) (bs : List BRun) : State :=
  let own (b : Nat) : Bool := bs.any fun r => s.isMe r.modId && decide (r.first ≤ b && b < r.first + r.len)
  { s with brd := { s.brd with
      counts := s.brd.counts.filter fun (b, _) => !own b
      arrivals := s.brd.arrivals ++ (((s.brd.waits.map (·.bridle)).filter own).eraseDups.map fun b => ⟨b, s.fabBy s.cyc, 0, true⟩) } }

/-- Go on this module (R214, R215): waits removed, kites started, bridles zeroed where ZB asks it. -/
def State.go (s : State) (l : LDesc) : State :=
  let rs := (s.unitRuns l.unit).getD []
  let bs := s.unitBruns l.unit
  let s := (s.mine rs).foldl (fun s x => (s.dropWaits x.2).setKite x.2 (goKite l (runsN rs) (brunsN bs) x.1 (s.kite x.2))) s
  let s := if l.zb then s.zeroBridles bs else s
  s.noteLaunch l rs

/-! ### Commands and their answers (R208, R209, R214, R217, R446) -/

/-- Place of a status in the order of R446. -/
def statusRank : Nat → Nat
  | 0 => 100
  | 1 => 1
  | 2 => 2
  | 3 => 3
  | 9 => 4
  | 4 => 5
  | 6 => 6
  | 7 => 7
  | n => 8 + n

/-- The earlier of two failures. -/
def worse (a b : Nat) : Nat := if statusRank b < statusRank a then b else a

/-- Request codes of a UNIT_REQ, in the order of Table 15.4. -/
def reqDefine : Nat := 1
def reqPrepare : Nat := 2
def reqGo : Nat := 3
def reqHalt : Nat := 4
def reqDelete : Nat := 5

/-- Send a unit request to modules. -/
def State.unitReqs (s : State) (ms : List Nat) (tag cmd : Nat) (desc : List Byte) : State :=
  ms.foldl (fun s m => s.lerboSend m 0x01 (leBytes 8 tag ++ leBytes 1 cmd ++ leBytes 7 0 ++ desc)) s

/-- The descriptor of a train as it is sent (Table 10.2), with this module's own ID in place of 0xF_FFFF. -/
def State.trainDesc (s : State) (u : Nat) (t : Train) : List Byte :=
  let id (m : Nat) : Nat := if s.isMe m then s.lnk.modId else m
  let pad (l : List Byte) : List Byte := l ++ List.replicate (512 - l.length) 0
  leBytes 4 u ++ leBytes 2 t.members.length ++ leBytes 2 t.bruns.length ++ leBytes 8 0
    ++ pad (t.members.flatMap fun m => leBytes 4 (id m.1) ++ leBytes 4 m.2)
    ++ pad (t.bruns.flatMap fun b => leBytes 8 (id b.modId + b.first * 2 ^ 20 + b.len * 2 ^ 36))

/-- The modules that a DEFINE asks: those that hold kites of the train, and those of its members (R208). -/
def State.trainMods (s : State) (t : Train) : List Nat :=
  (s.others t.runs ++ (t.members.map (·.1)).filter fun m => !s.isMe m).eraseDups

/-- End a command with a status. -/
def State.unitDone (s : State) (c : Nat) : State := { s with brd := { s.brd with status := c, op := none } }

/-- Install a train. -/
def State.installTrain (s : State) (u : Nat) (t : Train) : State := { s with brd := { s.brd with trains := mapSet s.brd.trains u t } }

/-- Remove a train. -/
def State.removeTrain (s : State) (u : Nat) : State :=
  { s with brd := { s.brd with trains := mapDel s.brd.trains u, defs := mapDel s.brd.defs u } }

/-- A command that other modules take part in. -/
def State.unitWait (s : State) (kind u : Nat) (t : Option Train) (l : Option LDesc) (ms : List Nat) (status : Nat) : State :=
  { s with brd := { s.brd with
      op := some ⟨kind, u, t, l, ms, status, s.now, s.brd.tag⟩, tag := wrapAdd 64 s.brd.tag 1 } }

/-- Finish a command whose answers are all in. A launch goes on to its go (LAUNCH_GO). A failed DEFINE is undone by a DELETE that
bears its tag, by which a module knows what it has installed for it; a failed DELETE defines the train again where it is gone
already. -/
def State.unitFinish (s : State) (o : UnitOp) : State :=
  if o.kind = 1 then
    match o.status, o.train with
    | 0, some t => (s.installTrain o.unit t).unitDone 0
    | c, some t =>
      let s := s.unitReqs (s.trainMods t) o.tag reqDelete (s.trainDesc o.unit t)
      ({ s with brd := { s.brd with undone := mapSet s.brd.undone o.tag o.unit } }).unitDone c
    | c, none => s.unitDone c
  else if o.kind = 2 then
    if o.status = 0 then (s.removeTrain o.unit).unitDone 0
    else
      match mapGet s.brd.trains o.unit with
      | some t => (s.unitReqs (s.others t.runs) o.tag reqDefine (s.trainDesc o.unit t)).unitDone o.status
      | none => s.unitDone o.status
  else if o.kind = 3 then
    if o.status = 0 then { s with brd := { s.brd with op := some { o with waiting := [] } } } else s.unitDone o.status
  else s.unitDone o.status

/-- Whether a command of GLB.UNIT_CMD is accepted: none is in progress (§10.7). -/
def State.unitBusy (s : State) : Bool := s.brd.op.isSome

/-- DEFINE (R206–R208). -/
def unitDefine (s : State) : State :=
  if s.unitBusy then s.ignoredReg uHost
  else
    let d := s.descWindow
    let (c, t) := s.defineCheck d
    if c != 0 then s.unitDone c
    else
      let ms := s.trainMods t
      if ms.isEmpty then (s.installTrain (fieldLe d 0 4) t).unitDone 0
      else
        (s.unitWait 1 (fieldLe d 0 4) (some t) none ms 0).unitReqs ms s.brd.tag reqDefine (s.trainDesc (fieldLe d 0 4) t)

/-- The checks of a DELETE on this module (R209). -/
def State.deleteStatus (s : State) (u : Nat) : Nat :=
  if u < 0x10000 || 0x11000 ≤ u then 1
  else
    match mapGet s.brd.trains u with
    | none => 2
    | some t =>
      if s.anyRuns t.runs || s.isServing u || s.brd.trains.any (fun (_, x) => x.members.any fun m => m.1 == 0xFFFFF && m.2 == u) then 9
      else 0

/-- DELETE (R209). -/
def unitDelete (u : Nat) (s : State) : State :=
  if s.unitBusy then s.ignoredReg uHost
  else
    let s := { s with brd := { s.brd with cmdUnit := u } }
    let c := s.deleteStatus u
    if c != 0 then s.unitDone c
    else
      let t := (mapGet s.brd.trains u).getD ⟨[], [], []⟩
      let ms := s.others t.runs
      if ms.isEmpty then (s.removeTrain u).unitDone 0
      else
        (s.unitWait 2 u none none ms 0).unitReqs ms s.brd.tag reqDelete (s.trainDesc u t)

/-- The prepare phase of a launch (R214); the other modules are asked whenever the unit is known here, so that the earliest
failure is reported (R446). `again` marks the relaunch of a cut train. -/
def State.launchWith (s : State) (l : LDesc) (again : Bool := false) : State :=
  match s.unitRuns l.unit with
  | none => s.unitDone 2
  | some rs =>
    let (c, s) := s.prepare l again
    let ms := s.others rs
    if ms.isEmpty && c != 0 then s.unitDone c
    else (s.unitWait 3 l.unit none (some l) ms c).unitReqs ms s.brd.tag reqPrepare l.bytes

/-- LAUNCH (R213, R214). -/
def unitLaunch (s : State) : State :=
  if s.unitBusy then s.ignoredReg uHost
  else
    let d := s.descWindow
    if launchBad d then s.unitDone 1 else s.launchWith (parseLaunch d)

/-- LAUNCH_GO: every module has prepared (R214). -/
def unitGo (s : State) : State :=
  match s.brd.op with
  | some o =>
    match o.launch with
    | some l =>
      if o.kind = 3 && o.waiting.isEmpty && o.status = 0 then
        let ms := s.others ((s.unitRuns l.unit).getD [])
        ((s.unitReqs ms o.tag reqGo l.bytes).go l).unitDone 0
      else s
    | none => s
  | none => s

/-- Whether a command has waited 10 ms for another module (R208, R214). -/
def State.unitLate (s : State) : Bool :=
  match s.brd.op with
  | some o => !o.waiting.isEmpty && decide (o.since + 10000000 ≤ s.now)
  | none => false

/-- UNIT_CMD_TIMEOUT: a module that has not answered counts as LINK. -/
def unitTimeout (s : State) : State :=
  match s.brd.op with
  | some o => if s.unitLate then s.unitFinish { o with status := worse o.status 7, waiting := [] } else s
  | none => s

/-- Halt the kites of a unit on this module, each as HALT_REQ halts it (R217, R442). -/
def State.haltKites (s : State) (rs : List Run) : State := (s.mine rs).foldl (fun s x => haltReq x.2 s) s

/-- Halt the kites of a unit by HALT_UNIT, after which it counts as launched no longer (R217, R285). -/
def State.haltUnitKites (s : State) (u : Nat) (rs : List Run) : State :=
  let s := s.haltKites rs
  { s with brd := { s.brd with launches := mapDel s.brd.launches u } }

/-- HALT_UNIT (R217). -/
def unitHalt (u : Nat) (s : State) : State :=
  if s.unitBusy then s.ignoredReg uHost
  else
    let s := { s with brd := { s.brd with cmdUnit := u } }
    match s.unitRuns u with
    | none => s.unitDone 2
    | some rs =>
      if s.isServing u then s.unitDone 9
      else
        let s := s.haltUnitKites u rs
        let ms := s.others rs
        if ms.isEmpty then s.unitDone 0
        else
          (s.unitWait 4 u none none ms 0).unitReqs ms s.brd.tag reqHalt
            (s.trainDesc u ((mapGet s.brd.trains u).getD ⟨[], [], []⟩))

/-! ### Requests of other modules (R350) -/

/-- What a unit request does here: its status, and whether it names an unknown unit. A train is installed where it has kites
(R208). A DELETE that bears the tag of the DEFINE that installed the train undoes it. -/
def State.unitAct (s : State) (src tag cmd : Nat) (d : List Byte) : Nat × State :=
  let u := fieldLe d 0 4
  if cmd = reqDefine then
    let (c, t) := s.defineCheck d
    (c, if c = 0 && !(s.mine t.runs).isEmpty then
          let s := s.installTrain u t
          { s with brd := { s.brd with defs := mapSet s.brd.defs u (src, tag) } }
        else s)
  else if cmd = reqPrepare then
    if launchBad d then (1, s)
    else
      let l := parseLaunch d
      let (c, s) := s.prepare l (s.sch.following && s.sch.leadId == src && l.unit == s.trainUnit && s.sch.mayReload)
      (c, if c = 0 then { s with brd := { s.brd with prepared := mapSet s.brd.prepared src l } } else s)
  else if cmd = reqGo then
    match mapGet s.brd.prepared src with
    | some l =>
      let s := s.go l
      (0, { s with brd := { s.brd with prepared := mapDel s.brd.prepared src } })
    | none => (4, s)
  else if descBad d then (1, s)
  else if cmd = reqHalt then
    match s.unitRuns u with
    | none => (2, s)
    | some rs => if s.isServing u then (9, s) else (0, s.haltUnitKites u rs)
  else if mapGet s.brd.defs u = some (src, tag) then (0, s.removeTrain u)
  else
    let c := s.deleteStatus u
    (c, if c = 0 then s.removeTrain u else s)

/-- UNIT_REQ (R350): acted on and answered; one that names an unknown unit is a violation (Table 15.6, row 7), as is a
command that does not exist. -/
def unitReq (r : LRx) (tag cmd rsv : Nat) (d : List Byte) (s : State) : State :=
  let (ok, s) := s.lerboRx r 0x01 (leBytes 8 tag ++ leBytes 1 cmd ++ leBytes 7 rsv ++ d)
  if !ok then s
  else if rsv != 0 || cmd = 0 || 5 < cmd then s.violate r.port.val 1
  else
    let (c, s) := s.unitAct r.src.toNat tag cmd d
    let s := if c = 2 then s.violate r.port.val 7 else s
    s.lerboSend r.src.toNat 0x11 (leBytes 8 tag ++ leBytes 1 c ++ leBytes 7 0)

/-- UNIT_RSP (R350): an answer to the command in progress. An installation reported after its DEFINE has failed is undone (R208);
a status that Table 10.4 does not have is a violation (R7). -/
def unitRsp (r : LRx) (tag status rsv : Nat) (s : State) : State :=
  let (ok, s) := s.lerboRx r 0x11 (leBytes 8 tag ++ leBytes 1 status ++ leBytes 7 rsv)
  let m := r.src.toNat
  if !ok then s
  else if rsv != 0 || 9 < status then s.violate r.port.val 1
  else
    match mapGet s.brd.undone tag, s.brd.op with
    | some u, _ => if status = 0 then s.unitReqs [m] tag reqDelete (s.trainDesc u ⟨[(m, 0)], [], []⟩) else s
    | none, none => s
    | none, some o =>
      if o.tag != tag || !o.waiting.contains m then s
      else
        let o := { o with status := worse o.status status, waiting := o.waiting.filter fun x => x != m }
        if o.waiting.isEmpty then s.unitFinish o else { s with brd := { s.brd with op := some o } }

/-! ### Bridles (R218–R224, R443) -/

/-- Count of a bridle. -/
def State.bcount (s : State) (b : Nat) : Nat := mapGetD s.brd.counts b 0

/-- Whether a count satisfies a threshold (R218). -/
def bridleMet (count theta : Nat) : Bool := decide ((count + 2 ^ 32 - theta % 2 ^ 32) % 2 ^ 32 < 2 ^ 31)

/-- The last fabric cycle in which a wait is judged (R220). -/
def State.waitEnd (s : State) (w : BWait) : Option Nat := w.expiry.map s.fabBy

/-- Whether the expiry of a wait comes before its first evaluation, which then removes it unjudged (R220). -/
def State.waitVoid (s : State) (w : BWait) : Bool := match s.waitEnd w with
  | some e => decide (e < w.from_)
  | none => false

/-- BRIDLE_EVALUATION of bridle `b` in fabric cycle `fab` (R219): a write, the signals, the waits. -/
def bridleEval (b fab : Nat) (s : State) : State :=
  let due := s.brd.arrivals.filter fun a => a.bridle == b && decide (a.fab ≤ fab)
  let c0 := ((due.filter (·.count)).getLast?.map (·.amt)).getD (s.bcount b)
  let c := ((due.filter fun a => !a.count).foldl (fun c a => c + a.amt) c0) % 2 ^ 32
  let judged (w : BWait) : Bool := w.bridle == b && decide (w.from_ ≤ fab) && !s.waitVoid w
  let won := s.brd.waits.filter fun w => judged w && bridleMet c w.theta
  { s with brd := { s.brd with
      arrivals := s.brd.arrivals.filter fun a => !(a.bridle == b && decide (a.fab ≤ fab))
      counts := mapSet s.brd.counts b c
      waits := s.brd.waits.filter fun w => !(judged w && bridleMet c w.theta)
      notices := s.brd.notices ++ won.map fun w => ⟨w.kite, b, s.fabCycle fab + 16⟩ } }

/-- Whether a wait is removed in fabric cycle `fab`. -/
def State.waitExpired (s : State) (w : BWait) (fab : Nat) : Bool := match s.waitEnd w with
  | some e => decide (w.from_ ≤ fab && e ≤ fab)
  | none => false

/-- WAIT_EXPIRY (R219, R220): a wait expires, and is removed without a notice. -/
def waitExpiry (b k fab : Nat) (s : State) : State :=
  { s with brd := { s.brd with waits := s.brd.waits.filter fun w => !(w.bridle == b && w.kite == k && s.waitExpired w fab) } }

/-- Something reaches a home from the host: applied in the next fabric cycle. -/
def State.arrive (s : State) (b amt : Nat) (count : Bool) : State :=
  { s with brd := { s.brd with arrivals := s.brd.arrivals ++ [⟨b, s.fabAfter s.cyc, amt, count⟩] } }

/-- Whether a kite whose last launch named an owning unit of a bridle runs (R443). -/
def State.bridleOwned (s : State) (b : Nat) : Bool :=
  let own := match s.bridleTrain b with
    | some u => [u]
    | none => [0x120 + b / 16384, 0x124]
  s.kites.any fun (_, kt) => !kt.stopped && own.contains kt.unit

/-- A write of COUNT (R443). -/
def brdCount (b v : Nat) (s : State) : State :=
  if !s.barUp then s else if s.bridleOwned b then s.ignoredReg uKite else s.arrive b v true

/-- A write of ADD (R443). -/
def brdAddW (b v : Nat) (s : State) : State := if s.barUp && v != 0 then s.arrive b v false else s

/-- SIGNAL (R223, R224): applied at its home in the fabric cycle of its arrival, or dropped. -/
def signalRx (r : LRx) (b amt : Nat) (s : State) : State :=
  let (ok, s) := s.lerboRx r 0x21 (leBytes 4 b ++ leBytes 4 amt)
  if !ok then s
  else if 65536 ≤ b then s.violate r.port.val 1
  else
    let train := (s.bridleTrain b).bind fun u => mapGet s.brd.trains u
    let ok := match train with
      | some t => t.runs.any fun x => x.modId == s.normMod r.src.toNat
      | none => false
    if ok then { s with brd := { s.brd with arrivals := s.brd.arrivals ++ [⟨b, s.fabBy s.cyc, amt, false⟩] } }
    else
      let s := s.violate r.port.val 5
      { s with brd := { s.brd with nDrop := satAdd 16 s.brd.nDrop 1 } }

/-! ### Commands -/

/-- DEFINE (R208). -/
def execDefine (s : State) : Host.Outcome State Fault Refusal := .next (if s.glbUp then unitDefine s else s)

/-- DELETE (R209). -/
def execDelete (unit : BitVec 32) (s : State) : Host.Outcome State Fault Refusal := .next (if s.glbUp then unitDelete unit.toNat s else s)

/-- LAUNCH (R214). -/
def execLaunch (s : State) : Host.Outcome State Fault Refusal := .next (if s.glbUp then unitLaunch s else s)

/-- LAUNCH_GO (R214). -/
def execLaunchGo (s : State) : Host.Outcome State Fault Refusal := .next (unitGo s)

/-- UNIT_CMD_TIMEOUT (R208). -/
def execUnitCmdTimeout (s : State) : Host.Outcome State Fault Refusal := .next (unitTimeout s)

/-- HALT_UNIT (R217). -/
def execHaltUnit (unit : BitVec 32) (s : State) : Host.Outcome State Fault Refusal := .next (if s.glbUp then unitHalt unit.toNat s else s)

/-- BRIDLE_EVALUATION (R219). -/
def execBridleEvaluation (b : BitVec 16) (fab : Nat) (s : State) : Host.Outcome State Fault Refusal :=
  .next (if fab ≤ s.fabBy s.cyc then bridleEval b.toNat fab s else s)

/-- WAIT_EXPIRY (R220). -/
def execWaitExpiry (b : BitVec 16) (k : Fin 256) (fab : Nat) (s : State) : Host.Outcome State Fault Refusal :=
  .next (if fab ≤ s.fabBy s.cyc then waitExpiry b.toNat k.val fab s else s)

/-- BRD_COUNT_WRITE (R443). -/
def execBrdCountWrite (b : BitVec 16) (v : BitVec 32) (s : State) : Host.Outcome State Fault Refusal :=
  .next (brdCount b.toNat v.toNat s)

/-- BRD_ADD (R443). -/
def execBrdAdd (b : BitVec 16) (v : BitVec 32) (s : State) : Host.Outcome State Fault Refusal := .next (brdAddW b.toNat v.toNat s)

/-- UNIT_REQ (R350). -/
def execUnitReq (r : LRx) (tag : BitVec 64) (cmd : BitVec 8) (rsv : BitVec 56) (desc : List Byte) (s : State) :
    Host.Outcome State Fault Refusal :=
  .next (unitReq r tag.toNat cmd.toNat rsv.toNat desc s)

/-- UNIT_RSP (R350). -/
def execUnitRsp (r : LRx) (tag : BitVec 64) (status : BitVec 8) (rsv : BitVec 56) (s : State) :
    Host.Outcome State Fault Refusal :=
  .next (unitRsp r tag.toNat status.toNat rsv.toNat s)

/-- SIGNAL (R223). -/
def execSignal (r : LRx) (bridle amt : BitVec 32) (s : State) : Host.Outcome State Fault Refusal :=
  .next (signalRx r bridle.toNat amt.toNat s)

end Sys2Proof.Machine
end

