-- ==== Sys2Proof/Machine/Plan.lean ====
section
/-! DEFINITION. The plan of the step scheduler (§13.2–§13.5): the quantities of a tick, the cost of a step's contents, switch
ticks, the class limits, the checks of R296, placement (R293), promotion (R298) and the removal of chunks (R302). -/
namespace Sys2Proof.Machine

/-! ### Quantities of a tick (R283, R290, R313, R389) -/

/-- P in nanoseconds. -/
def State.periodNs (s : State) : Nat := s.sch.period * 1000

/-- N: cycles of a tick, after a margin step at 1.2 GHz (R283, R290). -/
def State.tickN (s : State) : Nat := if s.pwr.taken then s.periodNs * 6 / 5 else s.periodNs * 5 / 4

/-- Ballast BC. -/
def State.tickBC (s : State) : Nat := s.tickN * s.sch.ballast / 1000

/-- Background reserve BR. -/
def State.tickBR (s : State) : Nat := s.tickN / 100

/-- Member modules of the serving train (R310). -/
def State.members (s : State) : List Nat := s.others s.serveRuns

/-- Closing reserve Z, larger by 1,250 cycles a hop where the train spans modules (R313). -/
def State.tickZ (s : State) : Nat := 111920 + 1250 * (s.members.map s.hops).foldl max 0

/-- Capacity of a tick (R283). -/
def State.tickCap (s : State) : Nat := s.tickN - 60 - s.tickBC - s.tickBR - s.tickZ

/-- cap_p of R389, before R390 lowers it. -/
def State.capP (s : State) : Nat := min s.tickCap (s.tickN * s.pwr.dlim / 1000)

/-- Profile capacity of a tick, less 500,000 cycles in a switch tick (R389, R390, R294). -/
def State.capOf (s : State) (sw : Bool) : Nat := s.capP - s.pwr.capLow - (if sw then 500000 else 0)

/-- Gcap under a capacity (R295). -/
def State.gcapOf (s : State) (cap : Nat) : Nat := cap * s.sch.gshare / 100

/-! ### Contents and their cost (R256, R289) -/

/-- What a step's cost counts. -/
structure Cont where
  ntok : Nat := 0
  pairs : Nat := 0
  nseq : Nat := 0
  nlast : Nat := 0
  nscore : Nat := 0
  nodes : Nat := 0
  deriving DecidableEq, Repr

def Cont.add (a b : Cont) : Cont :=
  ⟨a.ntok + b.ntok, a.pairs + b.pairs, a.nseq + b.nseq, a.nlast + b.nlast, a.nscore + b.nscore, a.nodes + b.nodes⟩

/-- Present key tiles over the query blocks of a chunk (R256, R289). -/
def pairsOf (pos cnt : Nat) : Nat :=
  ((List.range (ceilDiv cnt 128)).map fun b => min (pos + 128 * b + 127) (pos + cnt - 1) / 128 + 1).foldl (· + ·) 0

/-- Nodes of a request's tree (R266). -/
def Req.treeN (r : Req) : Nat := if r.tree then r.parents.length else 0

/-- Base of a request's tree, its length where it has none. -/
def Req.treeBase (r : Req) : Nat := r.length - r.treeN

/-- Contents of a chunk. -/
def Req.contOf (r : Req) (pos cnt : Nat) : Cont :=
  let last := pos + cnt == r.length
  ⟨cnt, pairsOf pos cnt, 1, b2n last, b2n (last && r.score), if r.tree && r.treeBase ≤ pos then cnt else 0⟩

/-- Contents of chunks. -/
def State.contsOf (s : State) (chs : List (Nat × Nat × Nat)) : Cont :=
  (chs.map fun c => (s.req c.1).contOf c.2.1 c.2.2).foldl Cont.add {}

/-- Cost of contents under a model's cost table (R289). Contents of more than 512 tiles have no cost that fits. -/
def Model.costOf (m : Model) (c : Cont) : Nat :=
  if c.ntok = 0 then 0
  else
    let n := ceilDiv c.ntok 128
    if 512 < n then 2 ^ 64
    else m.base.getD (n - 1) 0 + m.pair * c.pairs + m.seqC * c.nseq + m.lastC * c.nlast + m.scoreC * c.nscore + m.nodeC * c.nodes

/-- A model slot. -/
def State.model (s : State) (m : Nat) : Option Model := mapGet s.hst.models m

/-- Cost of chunks under the model of a slot. -/
def State.costOf (s : State) (m : Nat) (c : Cont) : Nat := ((s.model m).map fun x => x.costOf c).getD 0

/-- costG: cost of the class-G chunks alone (R295). -/
def State.costG (s : State) (m : Nat) (chs : List (Nat × Nat × Nat)) : Nat :=
  s.costOf m (s.contsOf (chs.filter fun c => (s.req c.1).cls))

/-! ### Switch ticks (R294) -/

/-- The model of the train now: that of the last switch since its last launch, else the one whose program that launch loaded. -/
def State.trainModel (s : State) : Option Nat :=
  match s.sch.swModel with
  | some m => some m
  | none => s.sch.trainDig.bind fun d => (s.hst.models.find? fun x => !x.2.filling && x.2.progDigest == d).map (·.1)

/-- The model of the train at the start of tick j under a plan. -/
def State.modelAt (s : State) (plan : Map TickPlan) (j : Nat) : Option Nat :=
  match (plan.filter fun x => decide (x.1 < j)).getLast? with
  | some x => some x.2.model
  | none => s.trainModel

/-- Whether tick j is a switch tick when assigned to model m. -/
def State.isSwitch (s : State) (plan : Map TickPlan) (j m : Nat) : Bool := s.modelAt plan j != some m

/-- The limit of a class in a tick (R295, R389). -/
def State.limitOf (s : State) (sw cls : Bool) (m : Nat) (chs : List (Nat × Nat × Nat)) : Nat :=
  let cap := s.capOf sw
  if cls then cap else cap - (s.gcapOf cap - s.costG m chs)

/-- Whether the next assigned tick after j still fits its limit once tick j is assigned to model m (R294). -/
def State.nextFits (s : State) (plan : Map TickPlan) (j m : Nat) : Bool :=
  match plan.find? fun x => decide (j < x.1) with
  | none => true
  | some (_, tp) =>
    let cls := tp.chunks.all fun c => (s.req c.1).cls
    decide (s.costOf tp.model (s.contsOf tp.chunks) ≤ s.limitOf (tp.model != m) cls tp.model tp.chunks)

/-! ### The checks of R296 -/

/-- Page size, frame size in bytes and frame class of a request's pages (R247). -/
def Model.frameBytes (m : Model) (logp : Nat) : Nat := max (2 * m.nkv * 2 ^ logp * m.rb) 4096

def Model.frameClass (m : Model) (logp : Nat) : Nat := Nat.log2 (m.frameBytes logp)

/-- Pages that a chunk begins. -/
def newPages (logp pos cnt : Nat) : Nat :=
  if cnt = 0 then 0
  else (pos + cnt - 1) / 2 ^ logp + 1 - pos / 2 ^ logp - (if pos % 2 ^ logp = 0 then 0 else 1)

/-- Whether a chunk at a position appends to a page mapped by reference (R277). -/
def Req.cows (r : Req) (pos : Nat) : Bool := pos == r.matched && pos % 2 ^ r.logp != 0

/-- Frames of one layer that a request's coarse index needs: class, or none without retrieval heads (R261). -/
def Model.coarseClass (m : Model) (r : Req) : Option Nat :=
  if m.retrieval then some (max 12 (ceilLog2 (ceilDiv r.length (2 ^ r.logp) * m.nkv * m.rb))) else none

/-- Edits that a chunk's pages cost at the boundary that begins its step (R254, R277, R284). -/
def State.chunkEdits (s : State) (r : Req) (pos cnt : Nat) : Nat :=
  match s.model r.model with
  | none => 0
  | some m =>
    newPages r.logp pos cnt * m.nl + (if r.cows pos then 2 * m.nl else 0)
      + (if pos = r.matched && (m.coarseClass r).isSome then m.nl else 0)

/-- Edits of a tick's chunks. -/
def State.tickEdits (s : State) (chs : List (Nat × Nat × Nat)) : Nat :=
  (chs.map fun c => s.chunkEdits (s.req c.1) c.2.1 c.2.2).foldl (· + ·) 0

/-- The ports that a target loads, none for host memory: its own, or those that its Lerbo destination is routed over, in turn
(R353). -/
def State.loadPorts (s : State) (t : Nat) : List Nat :=
  let e := s.target t
  match tKind e with
  | 3 => if tDst e = s.lnk.modId then [] else ((s.route (tDst e)).map routePorts).getD []
  | 4 => []
  | _ => [tPort e]

/-- Twelfths of a target's load that a port carries: a destination's ports take its messages in turn. -/
def State.loadShare (s : State) (t p : Nat) : Nat :=
  let ps := s.loadPorts t
  12 * (ps.filter (· == p)).length / max 1 ps.length

/-- Bytes that a chunk loads on its request's target in the tick after it (R296, R321). -/
def State.chunkLoad (s : State) (r : Req) (pos cnt : Nat) : Nat :=
  match s.model r.model with
  | none => 0
  | some m =>
    let n :=
      if r.score then (if pos + cnt = r.length then r.length - r.firstpos else 0)
      else pos + cnt - max pos (min (pos + cnt) r.firstpos)
    n * r.nlx * 2 * m.nkv * rbx (tKindN (s.target r.target)) m.d

/-- Bytes that XSHARE of a port's rate carries in a tick. -/
def State.loadLimit (s : State) (p : Nat) : Nat := modeRate (s.port p).mode * s.periodNs * s.sch.xshare / 800000

/-- Whether a chunk's export load fits on every port that it loads (R296). -/
def State.loadFits (s : State) (chs : List (Nat × Nat × Nat)) (r : Req) (pos cnt : Nat) : Bool :=
  (s.loadPorts r.target).all fun p =>
    let other := (chs.map fun c =>
      let q := s.req c.1
      s.chunkLoad q c.2.1 c.2.2 * s.loadShare q.target p).foldl (· + ·) 0
    decide (other + s.chunkLoad r pos cnt * s.loadShare r.target p ≤ 12 * s.loadLimit p)

/-- Bytes of a request's copy on write (R277). -/
def State.cowBytes (s : State) (r : Req) : Nat :=
  match s.model r.model with
  | none => 0
  | some m => m.nl * 2 * m.nkv * (r.matched % 2 ^ r.logp) * m.rb

/-- Edits that the next boundary must still take for the pages of the tick after it: none once its freeze has queued them. -/
def State.owed (s : State) : Nat := match mapGet s.sch.plan (s.sch.bnd + 1) with
  | some t => if t.frozen then 0 else s.tickEdits t.chunks
  | none => 0

/-- Edits that the boundary before tick j takes beside those of its chunks: what is queued, where it is the next one (R284). -/
def State.booked (s : State) (j : Nat) : Nat := if j = s.sch.bnd + 1 then s.pgm.issued false else 0

/-- Whether the next boundary has room for `n` more of the scheduler's edits (R284). -/
def State.roomFor (s : State) (n : Nat) : Bool := decide (s.pgm.issued false + s.owed + n ≤ 7168)

/-- Start and bound of a copy on write for a first chunk in tick j, on the one queue of the page copy path; none where its
bound does not end before the freeze (R277, R278, R296). -/
def State.cowSlot (s : State) (r : Req) (endRound j : Nat) : Option (Nat × Nat) :=
  let q := (s.sch.copies.map (·.fin)).foldl max 0
  let start := max endRound (max (s.tickStart j - s.periodNs) q)
  let fin := start + copyNs (s.cowBytes r)
  if fin + 1500000 < s.tickStart j then some (start, fin) else none

/-! ### Placement (R293) -/

/-- Chunk sizes in the order in which place() tries them: what remains, then multiples of 128 below it. A tree is one chunk
(R266). -/
def Req.sizes (r : Req) (pos : Nat) : List Nat :=
  if r.tree && r.treeBase ≤ pos then [r.length - pos]
  else
    let rem := r.treeBase - pos
    let k := (rem - 1) / 128
    rem :: (List.range k).map fun i => 128 * (k - i)

/-- The copy on write of a slot that the page copy path has yet to complete. -/
def State.copyOf (s : State) (n : Nat) : Option Copy := s.sch.copies.find? fun c => c.slot == n && !c.comp

/-- Whether the copy that a first chunk needs can be queued, or, for a request that is re-planned, has been and ends before the
freeze of tick j (R277, R296). -/
def State.copyFits (s : State) (slot : Option Nat) (r : Req) (pos endRound j : Nat) : Bool :=
  !r.cows pos ||
  match slot with
  | none => (s.cowSlot r endRound j).isSome
  | some n => (s.copyOf n).all fun c => decide (c.fin + 1500000 < s.tickStart j)

/-- The chunk of a request that tick j takes at a position: its size, and whether a check other than cycles made it
smaller. -/
def State.placeAt (s : State) (r : Req) (plan : Map TickPlan) (j pos endRound : Nat) (slot : Option Nat) : Nat × Bool :=
  let tp := mapGet plan j
  let chs := (tp.map (·.chunks)).getD []
  let free := match tp with
    | some t => t.model == r.model && !t.frozen
    | none => s.nextFits plan j r.model
  if !free then (0, false)
  else
    let lim := s.limitOf (s.isSwitch plan j r.model) r.cls r.model chs
    let base := s.contsOf chs
    let cyc (c : Nat) : Bool :=
      let x := base.add (r.contOf pos c)
      decide (x.nseq ≤ 1024 && x.ntok ≤ 65536 && s.costOf r.model x ≤ lim)
    let ed := s.tickEdits chs + s.booked j
      + (if slot.isNone && j = s.sch.bnd + 1 then r.refs.length * ((s.model r.model).map (·.nl)).getD 0 else 0)
    let res (c : Nat) : Bool :=
      decide (ed + s.chunkEdits r pos c ≤ 7168) && s.loadFits chs r pos c && s.copyFits slot r pos endRound j
    match (r.sizes pos).find? cyc with
    | none => (0, false)
    | some c0 =>
      let c := ((r.sizes pos).find? fun c => cyc c && res c).getD 0
      (c, c != c0)

/-- place() from tick j on, for a new request (no slot) or one that is re-planned, on a fuel of ticks: the chunks by tick, or none past the horizon, and whether a check other than
cycles cut one. -/
def State.placeFrom (s : State) (r : Req) (plan : Map TickPlan) (horizon endRound : Nat) (slot : Option Nat) :
    Nat → Nat → Nat → List (Nat × Nat × Nat) → Bool → Option (List (Nat × Nat × Nat)) × Bool
  | 0, _, _, _, lim => (none, lim)
  | n + 1, j, pos, acc, lim =>
    if r.length ≤ pos then (some acc, lim)
    else if horizon < j then (none, lim)
    else
      let (c, l) := s.placeAt r plan j pos endRound slot
      s.placeFrom r plan horizon endRound slot n (j + 1) (pos + c) (if c = 0 then acc else acc ++ [(j, pos, c)]) (lim || l)

/-- place(): chunks as (tick, position, count). -/
def State.place (s : State) (r : Req) (plan : Map TickPlan) (e horizon endRound : Nat) (slot : Option Nat) :
    Option (List (Nat × Nat × Nat)) × Bool :=
  s.placeFrom r plan horizon endRound slot (horizon + 2 - e) e r.done [] false

/-- The commit tick of placed chunks. -/
def commitOf (chs : List (Nat × Nat × Nat)) : Nat := ((chs.getLast?).map fun c => c.1 + 1).getD 0

/-- Put placed chunks of a slot into the plan; an unassigned tick becomes the model's (R293). -/
def planAdd (plan : Map TickPlan) (slot model : Nat) (chs : List (Nat × Nat × Nat)) : Map TickPlan :=
  chs.foldl (fun p c => mapUpd p c.1 { model := model } fun t => { t with chunks := t.chunks ++ [(slot, c.2.1, c.2.2)] }) plan

/-- The earliest tick of a round that starts at `a` (R293). -/
def State.earliest (s : State) (a : Nat) : Nat :=
  if s.sch.t0 ≤ a + 2000000 then (a + 2000000 - s.sch.t0) / s.periodNs + 1 else 0

/-! ### Promotion (R298) -/

/-- The next chunk of a slot after tick j: its tick and chunk. -/
def nextChunk (plan : Map TickPlan) (slot j : Nat) : Option (Nat × Nat × Nat) :=
  plan.findSome? fun (k, tp) => if j < k then (tp.chunks.find? fun c => c.1 == slot).map fun c => (k, c.2.1, c.2.2) else none

/-- Move what one request can of its next chunk into tick j; the Boolean says whether it moved whole. Once the boundary before the
tick is made, no move may need a new page (R235, R284). -/
def State.promoteOne (s : State) (j slot : Nat) : Bool × State :=
  let r := s.req slot
  let plan := s.sch.plan
  match nextChunk plan slot j with
  | none => (false, s)
  | some (k, pos, cnt) =>
    let tp := mapGet plan j
    let chs := (tp.map (·.chunks)).getD []
    let have_ := chs.find? fun c => c.1 == slot
    let free := match tp with
      | some t => t.model == r.model
      | none => s.nextFits plan j r.model
    if !free || (r.tree && r.treeBase ≤ pos) || (have_.isNone && pos == r.matched) then (false, s)
    else
      let start := (have_.map (·.2.1)).getD pos
      let had := (have_.map (·.2.2)).getD 0
      let rest := chs.filter fun c => c.1 != slot
      let cap := s.capOf (s.isSwitch plan j r.model)
      let made := s.chunkEdits r start had
      let ok (n : Nat) : Bool :=
        let x := (s.contsOf rest).add (r.contOf start (had + n))
        let ed := s.chunkEdits r start (had + n)
        decide (x.nseq ≤ 1024 && x.ntok ≤ 65536 && s.costOf r.model x ≤ cap
          && s.tickEdits rest + s.booked j + ed ≤ 7168 && (s.sch.bnd < j || ed ≤ made))
      match ((List.range (cnt / 128)).map fun i => 128 * (cnt / 128 - i)).find? ok with
      | none => (false, s)
      | some n =>
        let put := (slot, start, had + n)
        let chs' := if have_.isSome then chs.map fun c => if c.1 = slot then put else c else chs ++ [put]
        let plan := mapUpd plan j { model := r.model } fun t => { t with chunks := chs' }
        let plan := mapUpd plan k { model := r.model } fun t => { t with
          chunks := t.chunks.filterMap fun c => if c.1 = slot then (if n = cnt then none else some (slot, pos + n, cnt - n)) else some c }
        (n == cnt, { s with sch := { s.sch with plan := plan } })

/-- Move chunk after chunk of a request into tick j, on a fuel of chunks. -/
def State.promoteAll (j slot : Nat) : Nat → State → State
  | 0, s => s
  | f + 1, s =>
    let (whole, s) := s.promoteOne j slot
    if whole then State.promoteAll j slot f s else s

/-- Slots in an order of two keys. -/
def sortSlots (key : Req → Nat × Nat) (l : Map Req) : List Nat :=
  (sortBy (fun a b => decide ((key a.2).1 < (key b.2).1 || ((key a.2).1 = (key b.2).1 && (key a.2).2 ≤ (key b.2).2))) l).map (·.1)

/-- Requests that hold work: accepted and not ended. -/
def Req.live (r : Req) : Bool := r.held || r.st == .admitted || r.st == .running || r.st == .exporting

/-- Promotion at the freeze of tick j (R298): where the unused class-G share is positive, class-P requests in ascending commit
tick, then in order of admission. -/
def State.promote (s : State) (j : Nat) : State :=
  let tp := mapGet s.sch.plan j
  let chs := (tp.map (·.chunks)).getD []
  let m := ((tp.map (·.model)).orElse fun _ => s.trainModel).getD 0
  let cap := s.capOf (match tp with
    | some t => s.isSwitch s.sch.plan j t.model
    | none => false)
  if s.costG m chs < s.gcapOf cap then
    (sortSlots (fun r => (r.commit, r.order)) (s.sch.reqs.filter fun x => x.2.live && !x.2.cls)).foldl
      (fun s n => State.promoteAll j n (s.sch.plan.length + 1) s) s
  else s

/-! ### Removal and re-planning (R302, R304) -/

/-- Take a slot's chunks out of the plan; a frozen tick runs them with slot 0xFFFF (R302). -/
def planDrop (plan : Map TickPlan) (slot : Nat) : Map TickPlan :=
  plan.map fun (j, t) => (j, { t with
    chunks := if t.frozen then t.chunks.map fun c => if c.1 = slot then (0xFFFF, c.2) else c
              else t.chunks.filter fun c => c.1 != slot })

/-- The copy on write of a slot serves the first of its placed chunks. -/
def State.copyFor (s : State) (n : Nat) (chs : List (Nat × Nat × Nat)) : State :=
  { s with sch := { s.sch with copies := s.sch.copies.map fun c =>
      if c.slot = n && !c.comp then { c with tick := (chs.head?.map (·.1)).getD c.tick } else c } }

/-- Re-plan from tick j on (R304): every tick not yet run is planned afresh, each request up to its commit tick − 1; one that
cannot be placed expires at the next boundary. -/
def State.replan (s : State) (j : Nat) : State :=
  let s := { s with sch := { s.sch with plan := [], lastFreeze := if j = 0 then none else some (j - 1), notBefore := s.tickStart j } }
  (sortSlots (fun r => (r.commit, r.order)) (s.sch.reqs.filter fun x => x.2.live && decide (x.2.done < x.2.length))).foldl
    (fun s n =>
      let r := s.req n
      match (s.place r s.sch.plan j (r.commit - 1) 0 (some n)).1 with
      | some chs => ({ s with sch := { s.sch with plan := planAdd s.sch.plan n r.model chs } }).copyFor n chs
      | none => s.setReq n { r with expire := true }) s

end Sys2Proof.Machine
end

