-- ==== Sys2Proof/Machine/Admit.lean ====
section
/-! DEFINITION. The decisions of admission (R282, R293–R297, R368–R374, R444): the checks of Table 16.6 in table order, prompts
accepted or refused, cancellations, and the model slots and variants that LOAD_MODEL and INSTALL_VARIANT fill. -/
namespace Sys2Proof.Machine

/-! ### Answers -/

/-- Post a completion of a command that is no accepted request. A CID that was already outstanding stays so. -/
def State.answerCmd (s : State) (q : Nat) (e : Sqe) (status detail hint : Nat) : State :=
  let o := (s.queue q).outst
  let s := (s.postCqe { cid := e.cid.toNat, q := q, status := status, detail := detail, value := hint, time := s.stamp }).drew
  if detail = 3 then s.setQueue q { s.queue q with outst := o } else s

/-- Value of a completion that is no refusal: the tick of its posting (Table 16.5). -/
def State.answerOk (s : State) (q : Nat) (e : Sqe) : State := s.answerCmd q e 0 0 (s.tickOf s.stamp)

/-- Refuse a PREFILL, counting the refusal by cause. -/
def State.refuse (s : State) (q : Nat) (e : Sqe) (status detail hint : Nat) : State :=
  let c := s.sch
  let s := { s with sch := { c with
    nRef := wrapAdd 32 c.nRef 1
    rInv := if status = 3 then wrapAdd 16 c.rInv 1 else c.rInv
    rDead := if status = 2 then wrapAdd 16 c.rDead 1 else c.rDead
    rQfull := if detail = 0x14 then wrapAdd 16 c.rQfull 1 else c.rQfull
    rCap := if status = 1 && (detail == 0x15 || detail == 0x16) then wrapAdd 16 c.rCap 1 else c.rCap } }
  (s.upWin s.stamp fun w => { w with refused := min 0xFFFF (w.refused + 1) }).answerCmd q e status detail hint

/-! ### The checks of Table 16.6 -/

/-- Bit i of FLAGS. -/
def sqeFlag (e : Sqe) (i : Nat) : Bool := bit e.flags.toNat i

/-- Bytes of the auxiliary block. -/
def State.aux (s : State) (e : Sqe) (o n : Nat) : List Byte := memReads s.hst.mem (e.aux.toNat + o) n

/-- Rows 1 to 3, common to every command: reserved fields, OPC and FLAGS, an outstanding CID. -/
def State.commonCheck (s : State) (e : Sqe) (dup : Bool) : Nat :=
  let opc := e.opc.toNat
  let p := e.ptr.toNat
  if e.rsv != 0 || e.rsv2 != 0 || 16 ≤ e.flags.toNat || (opc = 2 && (bits p 6 10 != 0 || bits p 32 32 != 0))
      || (opc = 1 && sqeFlag e 1 && 0x108 ≤ e.auxlen.toNat && !s.hst.bad e.aux.toNat e.auxlen.toNat && leNat (s.aux e 0x106 2) != 0) then 1
  else if !([1, 2, 0x10, 0x11, 0x12, 0x13].contains opc) || (opc != 1 && e.flags != 0) then 2
  else if dup then 3 else 0

/-- Whether a host read that a command needs ends in an error completion (row 4). -/
def State.dmaFails (s : State) (e : Sqe) : Bool :=
  (e.opc == 1 && s.hst.bad e.ptr.toNat (4 * e.ntok.toNat)) || (e.auxlen != 0 && s.hst.bad e.aux.toNat e.auxlen.toNat)

/-- Page size of a PREFILL: LOGP, or the model's default. -/
def sqeLogp (e : Sqe) (m : Model) : Nat := if e.logp = 0 then m.logp else e.logp.toNat

/-- Lv of a PREFILL. -/
def State.varLen (s : State) (e : Sqe) : Nat := ((mapGet s.hst.variants e.variant.toNat).map (·.len)).getD 0

/-- Whether a variant serves a PREFILL: installed, usable, of the same geometry (R268). -/
def State.variantOk (s : State) (e : Sqe) (m : Model) : Bool :=
  e.variant == 0xFFFF ||
  match mapGet s.hst.variants e.variant.toNat with
  | none => false
  | some v =>
    let cls (a : Nat) : Nat := ((s.pgm.frameAt a).map (·.cls)).getD 0
    !v.filling && v.usable && v.logp == (sqeLogp e m) && v.nl == m.nl && v.geo.all (· == (m.nkv, m.d, m.kvfmt))
      && v.frames.all fun f => cls f == m.frameClass v.logp

/-- Exported layers of a PREFILL. -/
def sqeLayers (e : Sqe) (m : Model) : Nat := if e.nlx = 0 then m.nl - e.l0.toNat else e.nlx.toNat

/-- Token IDs of a PREFILL. -/
def State.tokensOf (s : State) (e : Sqe) : List Nat :=
  (List.range e.ntok.toNat).map fun i => leNat (memReads s.hst.mem (e.ptr.toNat + 4 * i) 4)

/-- Parents of a tree's nodes (R369). -/
def State.parentsOf (s : State) (e : Sqe) : List Nat :=
  (List.range (leNat (s.aux e 0x104 2))).map fun i => leNat (s.aux e (0x108 + 2 * i) 2)

/-- Global list of a PREFILL (R259, R369). -/
def State.globalOf (s : State) (e : Sqe) : List Nat :=
  if e.auxlen = 0 then []
  else (List.range (min 64 (leNat (s.aux e 0 4)))).map fun i => leNat (s.aux e (4 + 4 * i) 4)

/-- Row 0x0B: TREE without CLASS G, R266, too many nodes, an auxiliary block too short. -/
def State.treeBad (s : State) (e : Sqe) : Bool :=
  (e.auxlen != 0 && decide (e.auxlen.toNat < 260)) ||
  (sqeFlag e 1 &&
    (!sqeFlag e 0 || decide (e.auxlen.toNat < 0x108)
      || (let n := leNat (s.aux e 0x104 2)
          n == 0 || decide (256 < n) || decide (e.ntok.toNat < n) || decide (e.auxlen.toNat < 0x108 + 2 * n)
            || !((s.parentsOf e).zipIdx.all fun (p, i) => p == 0xFFFF || decide (p < i)))))

/-- Row 0x0C: the parameters of eviction. -/
def scoreBad (e : Sqe) (m : Model) : Bool :=
  sqeFlag e 2 && (!isPow2 e.we.toNat || e.we.toNat < 16 || 1024 < e.we.toNat
    || (bits e.theta.toNat 23 8 == 255 && bits e.theta.toNat 0 23 != 0) || m.scoring.isEmpty)

/-- Whether a sequence of `n` positions lies beyond R249 at a page size, where that is one. -/
def Model.tooLong (m : Model) (logp n : Nat) : Bool :=
  4 ≤ logp && logp ≤ 11 && decide (2 ^ 28 / m.frameBytes logp * 2 ^ logp < n)

/-- The checks of a PREFILL that answer 0x03, in table order; 0 where all pass. -/
def State.prefillCheck (s : State) (e : Sqe) (dup : Bool) : Nat :=
  let c := s.commonCheck e dup
  if c != 0 then c
  else if s.dmaFails e then 4
  else
    match s.model e.model.toNat with
    | none => 5
    | some m =>
      if 15 < e.model.toNat || m.filling || !m.usable then 5
      else if !s.variantOk e m then 6
      else if !s.xpt.en || !s.targetUsable e.target.toNat then 7
      else
        let len := s.varLen e + e.ntok.toNat
        if e.ntok = 0 || m.tooLong (sqeLogp e m) len || len ≤ e.firstpos.toNat || m.nl < e.l0.toNat + e.nlx.toNat
            || m.nl ≤ e.l0.toNat then 8
        else if (s.tokensOf e).any fun t => decide (m.vocab ≤ t) then 9
        else if (sqeLogp e m) < 4 || 11 < (sqeLogp e m) || (m.retrieval && (sqeLogp e m) < 7) then 0xA
        else if s.treeBad e then 0xB
        else if scoreBad e m then 0xC else 0

/-! ### The prefix cache (R270, R272) -/

/-- The longest cached prefix from page j on, on a fuel of pages: matched positions and the frames of each page. -/
def State.prefixFrom (s : State) (m : Model) (vdig lv p : Nat) (tokens : List Nat) (top : Nat) :
    Nat → Nat → Nat → Map (List Nat) → Nat × Map (List Nat) × List Nat
  | 0, _, matched, refs => (matched, refs, [])
  | n + 1, j, matched, refs =>
    let key := digest (keyInput m.digest vdig p (tokens.take (j * p - lv)))
    match mapGet s.pgm.index key with
    | none => (matched, refs, [])
    | some e =>
      let s0 := max (j * p) lv
      let lim := min (top - s0) (j * p + e.nv - s0)
      let r := (((List.range lim).find? fun i => e.tokens[i]? != tokens[s0 - lv + i]?)).getD lim
      if r = 0 then (matched, refs, [])
      else
        let refs := mapSet refs j (e.frames.take m.nl)
        let (a, b, ks) := if s0 + r < (j + 1) * p then (s0 + r, refs, []) else
          s.prefixFrom m vdig lv p tokens top n (j + 1) (s0 + r) refs
        (a, b, key :: ks)

/-- Pages of a variant, mapped by reference (R268). -/
def variantRefs (v : Variant) : Map (List Nat) :=
  let n := ceilDiv v.len (2 ^ v.logp)
  (List.range n).map fun pg => (pg, (List.range v.nl).map fun l => v.frames.getD (l * n + pg) 0)

/-- Positions that a PREFILL maps by reference, the frames of their pages, and the index entries hit. -/
def State.findPrefix (s : State) (e : Sqe) (m : Model) (tokens : List Nat) (top : Nat) : Nat × Map (List Nat) × List Nat :=
  let v := if e.variant = 0xFFFF then none else mapGet s.hst.variants e.variant.toNat
  let lv := (v.map (·.len)).getD 0
  let refs := (v.map variantRefs).getD []
  let p := 2 ^ (sqeLogp e m)
  if s.pgm.pxEn then
    s.prefixFrom m ((v.map (·.digest)).getD 0) lv p tokens top (ceilDiv (lv + tokens.length) p) (lv / p) lv refs
  else (lv, refs, [])

/-! ### Accepting (R292, R296, R297, R315) -/

/-- The lowest slot that no request holds and no stream still uses. -/
def State.freeSlot (s : State) : Option Nat :=
  (List.range 8192).find? fun n => (mapGet s.sch.reqs n).isNone && !(s.stream n).active

/-- The request that a PREFILL makes, before it has a slot and a commit tick. -/
def State.newReq (s : State) (q stamp : Nat) (e : Sqe) (m : Model) (fp : Nat × Map (List Nat) × List Nat) (tokens : List Nat) : Req :=
  { held := true, cls := sqeFlag e 0, tree := sqeFlag e 1, score := sqeFlag e 2, noinsert := sqeFlag e 3, model := e.model.toNat
    variant := e.variant.toNat, logp := (sqeLogp e m), length := s.varLen e + tokens.length, done := fp.1, deadline := e.deadline.toNat
    admitAt := stamp, sq := q, cid := e.cid.toNat, matched := fp.1, target := e.target.toNat, l0 := e.l0.toNat, nlx := sqeLayers e m
    firstpos := e.firstpos.toNat, we := e.we.toNat, theta := e.theta.toNat, tokens := tokens, glist := s.globalOf e
    parents := if sqeFlag e 1 then s.parentsOf e else [], refs := fp.2.1, order := s.sch.order, lv := s.varLen e }

/-- 4 KiB blocks of HBM that a request reserves (R296): its pages less those mapped by reference, a frame a layer for a copy
on write, and its coarse index. -/
def Model.needs (m : Model) (r : Req) : Nat :=
  let f := m.frameBytes r.logp / 4096
  (ceilDiv r.length (2 ^ r.logp) - r.refs.length + b2n (r.cows r.matched)) * m.nl * f
    + ((m.coarseClass r).map fun c => m.nl * 2 ^ (c - 12)).getD 0

/-- The stream of a request, opened at the boundary that admits it (R315, R316). -/
def State.newStream (s : State) (r : Req) (m : Model) (handle : Nat) : Stream :=
  let e := s.target r.target
  { handle := handle, target := r.target, limit := tCred e, rto := tRto e, rate := s.startRate r.target
    l0 := r.l0, nlx := r.nlx, firstpos := r.firstpos, m := r.length, lv := r.lv, logp := r.logp, nkv := m.nkv, d := m.d
    kvfmt := m.kvfmt, mdig := m.digest, vdig := ((mapGet s.hst.variants r.variant).map (·.digest)).getD 0
    variant := r.variant, tokens := r.tokens, waits := r.score, mOpen := r.tree, we := r.we }

/-- Address of a page of a layer of a sequence slot (R249). -/
def pageVa (slot layer page frame : Nat) : Nat := 2 ^ 54 + slot * 2 ^ 36 + layer * 2 ^ 29 + page * frame

/-- Accept a request into a slot with its placed chunks: the notice, the mappings by reference, the copy on write and the
reservation (R272, R277, R292, R296, R370). -/
def State.accept (s : State) (slot : Nat) (r : Req) (m : Model) (keys : List Nat) (chs : List (Nat × Nat × Nat)) (endRound : Nat) :
    State :=
  let g := nextGen (mapGetD s.sch.gens slot 0) slot
  let h := g * 8192 + slot
  let c := commitOf chs
  let r := { r with commit := c, xstream := h, reserve := m.needs r }
  let f := m.frameBytes r.logp
  let maps := r.refs.flatMap fun (pg, fs) => fs.zipIdx.map fun (fr, l) =>
    EditKind.map slot (pageVa slot l pg f) fr (m.frameClass r.logp) true false
  let p := maps.foldl (fun p k => p.queue false k) s.pgm
  let p := if p.pxEn then { p with
      lookups := wrapAdd 32 p.lookups 1, hits := wrapAdd 32 p.hits (keys.length * m.nl)
      index := p.index.map fun (k, e) => (k, if keys.contains k then { e with hit := p.epoch } else e) } else p
  let cow := if r.cows r.matched then
      (match chs with
       | (j, _, _) :: _ => (s.cowSlot r endRound j).map fun (a, b) =>
           { slot := slot, page := r.matched / 2 ^ r.logp, rows := r.matched % 2 ^ r.logp
             old := mapGetD r.refs (r.matched / 2 ^ r.logp) [], comp := false, path := [], tick := j, start := a, fin := b : Copy }
       | [] => none) else none
  let t := s.stamp
  let x := s.newStream r m h
  let s := { s with
    pgm := p
    xpt := { s.xpt with soon := mapSet s.xpt.soon slot x }
    sch := { s.sch with
      reqs := mapSet s.sch.reqs slot r, gens := mapSet s.sch.gens slot g, order := s.sch.order + 1
      plan := planAdd s.sch.plan slot r.model chs, nAcc := wrapAdd 32 s.sch.nAcc 1
      copies := s.sch.copies ++ cow.toList } }
  (s.upWin t fun w => { w with accepted := min 0xFFFF (w.accepted + 1) }).drew.postCqe
    { cid := r.cid, q := r.sq, status := 0, notice := true, slot := slot, value := c, handle := h, time := t }

/-- Whether a commit tick misses a deadline or the horizon (R297). -/
def State.misses (s : State) (chs : Option (List (Nat × Nat × Nat))) (deadline horizon : Nat) : Bool :=
  match chs with
  | none => true
  | some l => decide (horizon < commitOf l) || decide (deadline < s.tickStart (commitOf l + 1) - 1)

/-- The state with a plan that holds only committed background work (R297). -/
def State.idlePlan (s : State) : State :=
  { s with pgm := { s.pgm with edits := [], migs := [] }, sch := { s.sch with plan := [], copies := [] } }

/-- PREFILL decided in a round that starts at `a` (R293–R297, R374). -/
def State.prefillAt (s : State) (a : Nat) (b : Sub) : State :=
  let e := b.e
  let q := b.q
  let c := s.prefillCheck e b.dup
  if c != 0 then s.refuse q e 3 c 0
  else if !s.sch.run then s.refuse q e 1 0x13 0
  else if b.full then s.refuse q e 1 0x14 0
  else
    match s.model e.model.toNat with
    | none => s.refuse q e 3 5 0
    | some m =>
      let tokens := s.tokensOf e
      let len := s.varLen e + tokens.length
      let top := if sqeFlag e 1 then len - (s.parentsOf e).length else len - 1
      let fp := s.findPrefix e m tokens top
      let r := s.newReq q b.stamp e m fp tokens
      let held := (s.sch.reqs.map (·.2.reserve)).foldl (· + ·) 0
      let horizon := s.tickOf s.pwr.tb + 511
      let early := s.earliest a
      let short := decide (s.pgm.free false < m.needs r + held) || !s.roomFor (r.refs.length * m.nl) || s.freeSlot.isNone
      let (chs, lim) := s.place r s.sch.plan early horizon (a + 500000) none
      if short || s.misses chs r.deadline horizon then
        let hint := ((chs.map commitOf).filter fun c => decide (c ≤ horizon)).getD 0
        if s.idlePlan.misses (s.idlePlan.place r [] early horizon (a + 500000) none).1 r.deadline horizon then s.refuse q e 2 0x16 hint
        else if short || lim then s.refuse q e 1 0x15 0
        else s.refuse q e 1 0x16 hint
      else
        match s.freeSlot with
        | none => s.refuse q e 1 0x15 0
        | some n => s.accept n r m fp.2.2 (chs.getD []) (a + 500000)

/-! ### Cancellation (R300, R372) -/

/-- CANCEL (R372, R444). -/
def State.cancelAt (s : State) (b : Sub) : State :=
  let e := b.e
  let c := s.commonCheck e b.dup
  let tq := bits e.ptr.toNat 0 6
  let tc := bits e.ptr.toNat 16 16
  if c != 0 then s.answerCmd b.q e 3 c 0
  else
    match s.sch.subs.find? fun x => x.q == tq && x.e.cid.toNat == tc && !x.dup with
    | some x =>
      let s := { s with sch := { s.sch with subs := s.sch.subs.filter fun y => y != x } }
      (s.answerCmd x.q x.e 4 0 (s.tickOf s.stamp)).answerOk b.q e
    | none =>
      match s.sch.reqs.find? fun (_, r) => r.sq == tq && r.cid == tc && r.live && !r.posted with
      | some (n, r) =>
        s.setReq n { r with cancelAt := some (r.cancelAt.getD b.stamp), cancelBy := r.cancelBy ++ [(b.q, e.cid.toNat)] }
      | none =>
        if s.sch.reqs.any fun (_, r) => r.sq == tq && r.cid == tc then s.answerCmd b.q e 3 0xE 0
        else s.answerCmd b.q e 3 0xD 0

/-! ### Model slots (R373, R413, R414, R444) -/

/-- Whether a request that is not FREE names a model slot. -/
def State.modelNamed (s : State) (m : Nat) : Bool := s.sch.reqs.any fun (_, r) => r.model == m

/-- Whether a request that is not FREE names a variant. -/
def State.variantNamed (s : State) (v : Nat) : Bool := s.sch.reqs.any fun (_, r) => r.variant == v

/-- LOAD_MODEL: the checks of its round; the slot is then filling. -/
def State.loadModelAt (s : State) (b : Sub) : State :=
  let e := b.e
  let m := e.model.toNat
  let c := s.commonCheck e b.dup
  if c != 0 then s.answerCmd b.q e 3 c 0
  else if 15 < m then s.answerCmd b.q e 3 5 0
  else if (s.model m).isSome || s.modelNamed m then s.answerCmd b.q e 3 0xF 0
  else
    let x : Model := { image := e.ptr.toNat, bytes := e.ntok.toNat, digest := 0, sq := b.q, cid := e.cid.toNat, filling := true
                       usable := false, fin := s.now }
    { s with hst := { s.hst with models := mapSet s.hst.models m x } }

/-- UNLOAD_MODEL: the slot is empty at once, and its weight frames are released. -/
def State.unloadModelAt (s : State) (b : Sub) : State :=
  let e := b.e
  let m := e.model.toNat
  let c := s.commonCheck e b.dup
  if c != 0 then s.answerCmd b.q e 3 c 0
  else
    match s.model m with
    | none => s.answerCmd b.q e 3 5 0
    | some x =>
      if 15 < m || x.filling then s.answerCmd b.q e 3 5 0
      else if s.modelNamed m then s.answerCmd b.q e 3 0xF 0
      else
        ({ s with pgm := s.pgm.release1 x.weights, hst := { s.hst with models := mapDel s.hst.models m } }).answerOk b.q e

/-- Retrieval heads of a row of the head table, and whether the row is well formed (Table 18.7). -/
def headRow (row : List Byte) (nqh : Nat) : Option (Nat × Bool) :=
  let modes := (List.range nqh).map fun i => fieldLe row (4 + i) 1
  let nr := (modes.filter (· == 2)).length
  let np := fieldLe row 0 1
  if 1 < fieldLe row 1 1 || fieldLe row 2 2 != 0 || modes.any (fun x => decide (2 < x)) || (0 < nr && (np = 0 || 64 < np)) then none
  else some (nr, fieldLe row 1 1 == 1)

/-- The cost table's checks (R289): BASE does not decrease, and is subadditive. -/
def baseOk (base : List Nat) : Bool :=
  ((base.zip (base.drop 1)).all fun x => decide (x.1 ≤ x.2)) &&
    base.zipIdx.all fun (v, i) => ((base.drop (i + 1)).zip base).all fun x => decide (x.1 ≤ v + x.2)

/-- The frames that cover a range, where every one is in ALLOC with count 1; none otherwise. -/
def Pgm.ownFrames (p : Pgm) (a n : Nat) : Option (List Nat) :=
  let fs := p.frames.filter fun (b, f) => decide (b * 4096 < a + n && a < b * 4096 + 2 ^ f.cls)
  let cover := (fs.map fun (b, f) => min (a + n) (b * 4096 + 2 ^ f.cls) - max a (b * 4096)).foldl (· + ·) 0
  if cover = n && fs.all (fun (_, f) => f.st == .alloc && f.refcnt == 1) then some (fs.map fun x => x.1 * 4096) else none

/-- Bytes of a range of HBM, none where any block of it is bad. -/
def State.readGood (s : State) (a n : Nat) : Option (List Byte) × State :=
  if hbmEnd < a + n then (none, s)
  else
    let (l, bad, s) := s.readMem a n
    (if bad.isEmpty then some l else none, s)

/-- Whether a header's fields are in range and its parts lie within the image (R413). -/
def headerOk (h : List Byte) (bytes : Nat) : Bool :=
  let f (o n : Nat) : Nat := fieldLe h o n
  let len := f 0x40 8
  f 0 4 == 0x4D494D5A && f 4 2 == 1 && f 6 2 < 2 && 1 ≤ f 0xC 2 && f 0xC 2 ≤ 8192 && f 0xE 1 ≤ 64 && 4 ≤ f 0xF 1 && f 0xF 1 ≤ 11
    && f 0x10 2 < f 0xC 2 && 1 ≤ f 0x12 1 && f 0x12 1 ≤ 128 && [1, 2, 4, 8, 16].contains (f 0x13 1) && [64, 128, 256].contains (f 0x14 2)
    && [1, 2, 3, 4].contains (f 0x16 1) && f 0x48 8 == 0 && (h.drop 0x48).all (· == 0)
    && f 0x20 8 + 32 * f 0xC 2 + 512 * f 0xE 1 ≤ len && f 0x28 8 + 0x840 ≤ len && f 0x30 8 + f 0x12 1 * (4 + f 0x17 1) ≤ len
    && f 0x38 8 + 48 * f 0x1C 4 ≤ len && 0x100 ≤ len && len + (if f 6 2 = 1 then 5261 else 0) ≤ bytes

/-- The checks of LOAD_MODEL on an image that was read, up to its weights (R414, 1–5): the model it holds, and its weight
regions as address, length and digest. -/
def State.parseModel (s : State) (x : Model) (img : List Byte) : Option (Model × List (Nat × Nat × Nat)) :=
  let h := img.take 0x100
  let f (o n : Nat) : Nat := fieldLe h o n
  if !headerOk h x.bytes then none
  else
    let len := f 0x40 8
    let dig := digest (img.take len)
    let signed := f 6 2 == 1
    let key := sliceBytes img len 1952
    let sig := sliceBytes img (len + 1952) 3309
    let (ms, op) := match s.sec.prof with
      | some p => (p.modelSig, p.opkey)
      | none => (true, 0)
    let cost := sliceBytes img (f 0x28 8) 0x840
    let base := (List.range 512).map fun i => fieldLe cost (0x40 + 4 * i) 4
    let rows := (List.range (f 0x12 1)).map fun l => headRow (sliceBytes img (f 0x30 8 + l * (4 + f 0x17 1)) (4 + f 0x17 1)) (f 0x17 1)
    let scoring := (rows.zipIdx.filter fun r => (r.1.map (·.2)).getD false).map (·.2)
    if (ms || signed) && !(signed && digest key == op && Config.verify key (asciiBytes "ZENOR-MODEL-1") (leBytes 32 dig) sig) then none
    else if !baseOk base || fieldLe cost 0x38 8 != 0 then none
    else if f 8 4 != runsN s.serveRuns || fieldLe cost 0x34 4 != f 8 4 then none
    else if rows.any (fun r => match r with
        | none => true
        | some (n, _) => decide (8 < n)) || 4 < scoring.length then none
    else
      some ({ x with
        digest := dig, ntrain := f 8 4, nbun := f 0xC 2, nch := f 0xE 1, logp := f 0xF 1, entry := f 0x10 2, nl := f 0x12 1
        nkv := f 0x13 1, d := f 0x14 2, kvfmt := f 0x16 1, nqh := f 0x17 1, vocab := f 0x18 4, prog := f 0x20 8
        progDigest := digest (sliceBytes img (f 0x20 8) (32 * f 0xC 2 + 512 * f 0xE 1))
        pair := fieldLe cost 0x20 4, seqC := fieldLe cost 0x24 4, lastC := fieldLe cost 0x28 4, scoreC := fieldLe cost 0x2C 4
        nodeC := fieldLe cost 0x30 4, base := base, cost := leBytes 32 dig ++ cost.drop 32
        retrieval := rows.any fun r => match r with
          | some (n, _) => decide (0 < n)
          | none => false
        scoring := scoring, filling := false },
        (List.range (f 0x1C 4)).map fun i =>
          let o := f 0x38 8 + 48 * i
          (fieldLe img o 8, fieldLe img (o + 8) 8, fieldLe img (o + 16) 32))

/-- The check of the weight regions (R414, 6): their frames, none where one fails. -/
def State.checkWeights (s : State) (ws : List (Nat × Nat × Nat)) : Option (List Nat) × State :=
  ws.foldl (fun (acc : Option (List Nat) × State) w =>
    match acc.1, acc.2.pgm.ownFrames w.1 w.2.1 with
    | some fs, some gs =>
      let (l, s) := acc.2.readGood w.1 w.2.1
      (match l with
       | some l => if digest l = w.2.2 then some ((fs ++ gs).eraseDups) else none
       | none => none, s)
    | _, _ => (none, acc.2)) (some [], s)

/-- A completion of a command that a queue's submission brought. -/
def State.postFor (s : State) (q cid status detail : Nat) : State :=
  (s.postCqe { cid := cid, q := q, status := status, detail := detail, value := if status = 0 then s.tickOf s.stamp else 0
               time := s.stamp }).drew

/-- MODEL_LOAD_DONE: the checks of a filling slot end (R414, R444). -/
def State.modelDone (s : State) (m : Nat) : State :=
  match s.model m with
  | none => s
  | some x =>
    if !x.filling || s.now < x.fin then s
    else
      let (img, s) := s.readGood x.image x.bytes
      let fail (s : State) : State := ({ s with hst := { s.hst with models := mapDel s.hst.models m } }).postFor x.sq x.cid 3 0x10
      match img.bind fun l => s.parseModel x l with
      | none => fail s
      | some (y, ws) =>
        let (fs, s) := s.checkWeights ws
        match fs with
        | none => fail s
        | some fs =>
          ({ s with pgm := s.pgm.later (fs.map .inc), hst := { s.hst with models := mapSet s.hst.models m { y with weights := fs } } }).postFor x.sq x.cid 0 0

/-! ### Variants (R268, R269, R373, R444) -/

/-- The variant descriptor of INSTALL_VARIANT, none where a number is out of range or the block is too short. -/
def State.variantDesc (s : State) (e : Sqe) : Option (Nat × Nat × Nat × Nat × List Nat) :=
  let h := s.aux e 0 36
  let lv := fieldLe h 0 2
  let logp := fieldLe h 2 1
  let nl := fieldLe h 3 1
  let n := ceilDiv lv (2 ^ logp) * nl
  if e.auxlen.toNat < 36 || lv = 0 || 512 < lv || logp < 4 || 11 < logp || nl = 0 || 128 < nl || e.auxlen.toNat < 36 + 8 * n then none
  else some (lv, logp, nl, fieldLe h 4 32, (List.range n).map fun i => leNat (s.aux e (36 + 8 * i) 8))

/-- INSTALL_VARIANT: the checks of its round; the variant is then filling. -/
def State.installAt (s : State) (b : Sub) : State :=
  let e := b.e
  let v := e.variant.toNat
  let c := s.commonCheck e b.dup
  if c != 0 then s.answerCmd b.q e 3 c 0
  else if s.dmaFails e then s.answerCmd b.q e 3 4 0
  else
    match s.variantDesc e with
    | none => s.answerCmd b.q e 3 6 0
    | some (lv, logp, nl, dig, fs) =>
      if 4095 < v then s.answerCmd b.q e 3 6 0
      else if (mapGet s.hst.variants v).isSome || s.variantNamed v then s.answerCmd b.q e 3 0xF 0
      else
        let x : Variant := ⟨lv, logp, nl, dig, fs, b.q, e.cid.toNat, true, false, e.model.toNat, s.now, none⟩
        { s with hst := { s.hst with variants := mapSet s.hst.variants v x } }

/-- REMOVE_VARIANT (R269). -/
def State.removeAt (s : State) (b : Sub) : State :=
  let e := b.e
  let v := e.variant.toNat
  let c := s.commonCheck e b.dup
  if c != 0 then s.answerCmd b.q e 3 c 0
  else
    match mapGet s.hst.variants v with
    | none => s.answerCmd b.q e 3 6 0
    | some x =>
      if x.filling then s.answerCmd b.q e 3 6 0
      else if s.variantNamed v then s.answerCmd b.q e 3 0xF 0
      else
        ({ s with
          pgm := s.pgm.queueDrop false (8192 + v)
          hst := { s.hst with variants := mapDel s.hst.variants v } }).answerOk b.q e

/-- Bytes of the valid rows of a variant's pages, in layer, page and section order (R268); none where a block of them is bad. -/
def State.variantRows (s : State) (x : Variant) (m : Model) : Option (List Byte) × State :=
  let psize := 2 ^ x.logp
  let n := ceilDiv x.len psize
  x.frames.zipIdx.foldl (fun (acc : Option (List Byte) × State) (f, i) =>
    let (l, s) := acc.2.pageRows f m.nkv psize m.rb (min psize (x.len - i % n * psize))
    (acc.1.bind fun a => l.map (a ++ ·), s)) (some [], s)

/-- The model that a variant's installation named, where it is loaded. -/
def State.variantModel (s : State) (x : Variant) : Option Model := (s.model x.model).filter fun m => !m.filling

/-- Whether a variant's pages have its digest (R268): a free value where the model it named, whose geometry the pages have, is not
loaded. -/
def State.variantHolds (s : State) (x : Variant) : Bool × State :=
  match s.variantModel x with
  | none => (Config.freeNat 8 s.free % 2 == 0, s.drew)
  | some m =>
    let (l, s) := s.variantRows x m
    (l.any fun l => digest l == x.digest, s)

/-- VARIANT_INSTALL_DONE: the checks of a filling variant end (R444); its pages are adopted at the next boundary. -/
def State.variantDone (s : State) (v : Nat) : State :=
  match mapGet s.hst.variants v with
  | none => s
  | some x =>
    if !x.filling || s.now < x.fin || !s.roomFor x.frames.length then s
    else
      let fail (s : State) (d : Nat) : State := ({ s with hst := { s.hst with variants := mapDel s.hst.variants v } }).postFor x.sq x.cid 3 d
      let cls := ((x.frames.head?.bind fun f => s.pgm.frameAt f).map (·.cls)).getD 12
      let okFrame (f : Nat) : Bool := match s.pgm.frameAt f with
        | some y => y.st == .alloc && y.refcnt == 1 && y.cls == cls
        | none => false
      if !x.frames.all okFrame || x.frames.eraseDups.length != x.frames.length then fail s 0x11
      else
        let (good, s) := s.variantHolds x
        if !good then fail s 0x12
        else
          let n := ceilDiv x.len (2 ^ x.logp)
          let p := x.frames.zipIdx.foldl (fun p (f, i) =>
            p.queue false (.map (8192 + v) (2 ^ 53 + v * 2 ^ 32 + i / n * 2 ^ 25 + i % n * 2 ^ cls) f cls true true)) s.pgm
          let geo := (s.variantModel x).map fun m => (m.nkv, m.d, m.kvfmt)
          ({ s with pgm := p, hst := { s.hst with variants := mapSet s.hst.variants v { x with filling := false, geo := geo } } }).postFor
            x.sq x.cid 0 0

/-! ### Rounds (R282, R444) -/

/-- Decide one submission in a round that starts at `a`. -/
def State.decideSub (s : State) (a : Nat) (b : Sub) : State :=
  match b.e.opc.toNat with
  | 1 => s.prefillAt a b
  | 2 => s.cancelAt b
  | 0x10 => s.loadModelAt b
  | 0x11 => s.unloadModelAt b
  | 0x12 => s.installAt b
  | 0x13 => s.removeAt b
  | _ => s.answerCmd b.q b.e 3 (if s.commonCheck b.e b.dup = 1 then 1 else 2) 0

/-- Decide the submissions a round takes, one at a time, on a fuel of their number. -/
def State.decideRound (a : Nat) : Nat → State → State
  | 0, s => s
  | n + 1, s =>
    match (sortBy (fun (x y : Sub) => decide (x.stamp < y.stamp || (x.stamp = y.stamp && x.q ≤ y.q))) s.sch.subs).find? fun x =>
        decide (x.stamp < a) with
    | none => s
    | some b => State.decideRound a n (({ s with sch := { s.sch with subs := s.sch.subs.erase b } }).decideSub a b)

/-- Whether the decisions of round r are due. -/
def State.roundDue (s : State) (r : Nat) : Bool := s.sch.round < r && decide (250000 * r + 250000 ≤ s.pwr.tb)

/-- ADMISSION_ROUND (R282): the round's decisions, posted 250 µs after its start. -/
def admissionRound (r : Nat) (s : State) : State :=
  if !s.roundDue r then s
  else
    let s := State.decideRound (250000 * r) s.sch.subs.length s
    { s with sch := { s.sch with round := r } }

/-- A command entry that a queue brings by itself, decided as in a round that starts now. -/
def State.submit (s : State) (q : Nat) (opc : BitVec 8) (e : Sqe) : State :=
  let x := s.queue q
  if !s.barUp || !x.en || x.draining then s
  else
    let dup := x.outst.contains e.cid.toNat
    let full := opc == 1 && decide (4096 ≤ (s.sch.subs.filter fun y => y.e.opc == 1 && !y.full).length)
    let b : Sub := ⟨q, s.stamp, { e with opc := opc }, dup, full⟩
    let s := s.setQueue q { x with outst := if dup then x.outst else x.outst ++ [e.cid.toNat] }
    s.drew.decideSub s.pwr.tb b

/-! ### Commands -/

/-- ADMISSION_ROUND (R282). -/
def execAdmissionRound (r : Nat) (s : State) : Host.Outcome State Fault Refusal := .next (admissionRound r s)

/-- PREFILL (R293–R297). -/
def execPrefill (q : Fin 64) (e : Sqe) (s : State) : Host.Outcome State Fault Refusal := .next (s.submit q.val 0x01 e)

/-- CANCEL (R372). -/
def execCancel (q : Fin 64) (e : Sqe) (s : State) : Host.Outcome State Fault Refusal := .next (s.submit q.val 0x02 e)

/-- LOAD_MODEL (R373, R414). -/
def execLoadModel (q : Fin 64) (e : Sqe) (s : State) : Host.Outcome State Fault Refusal := .next (s.submit q.val 0x10 e)

/-- MODEL_LOAD_DONE (R414, R444). -/
def execModelLoadDone (m : Fin 16) (s : State) : Host.Outcome State Fault Refusal := .next (s.modelDone m.val)

/-- UNLOAD_MODEL (R373). -/
def execUnloadModel (q : Fin 64) (e : Sqe) (s : State) : Host.Outcome State Fault Refusal := .next (s.submit q.val 0x11 e)

/-- INSTALL_VARIANT (R373). -/
def execInstallVariant (q : Fin 64) (e : Sqe) (s : State) : Host.Outcome State Fault Refusal := .next (s.submit q.val 0x12 e)

/-- VARIANT_INSTALL_DONE (R268, R444). -/
def execVariantInstallDone (v : BitVec 12) (s : State) : Host.Outcome State Fault Refusal := .next (s.variantDone v.toNat)

/-- REMOVE_VARIANT (R269). -/
def execRemoveVariant (q : Fin 64) (e : Sqe) (s : State) : Host.Outcome State Fault Refusal := .next (s.submit q.val 0x13 e)

end Sys2Proof.Machine
end

