-- ==== Sys2Proof/Machine/Anchors.lean ====
section
/-! DEFINITION. The S slot (Table 9.9): signals, anchors, fences and the tick wait, and the events that release an anchor
(§8.3, §10.5, R145). -/
namespace Sys2Proof.Machine

/-! ### Operands -/

/-- Module and physical bridle of a unit-relative address of a kite's unit (R211). -/
def State.bridleAt (s : State) (kt : Kite) (u : Nat) : Option (Nat × Nat) := brunsAt (s.unitBruns kt.unit) u

/-- SIG's checks (R200). -/
def chkSig (f : SSig) : Option Exc :=
  illegalIf (f.rsv != 0 || (if f.areg = 0 then f.sa != 0 || f.amt == 0 else f.amt != 0))

/-- Amount of a SIG (R200). -/
def sigAmt (kt : Kite) (f : SSig) : Nat := if f.areg = 0 then f.amt.toNat else kt.s32 f.sa

/-- WAIT's and ARRIVE's checks (R201, R166). -/
def chkWait (kt : Kite) (f : SWait) : Option Exc :=
  orExc (illegalIf (if f.mreg = 0 then decide (27 < f.tf.toNat) else f.min != 0)) (frameBar kt)

/-- WAITR's checks (R202). -/
def chkWaitr (kt : Kite) (f : SWaitr) : Option Exc :=
  orExc (illegalIf (decide (16384 < f.thr.toNat) || !(kt.reel f.reel.toNat).en)) (frameBar kt)

/-- Checks of FENCE. -/
def chkFence (f : SZ) : Option Exc := illegalIf (f.rsv != 0)

/-- Checks of TICKWAIT. -/
def chkTickwait (kt : Kite) (f : SZ) : Option Exc := orExc (illegalIf (f.rsv != 0)) (frameBar kt)

/-! ### Signals (R200, R158, R161) -/

/-- A signal issued in local cycle `t`: it leaves at the end of `t`, or once the last fence lets it. -/
def Kite.sendSig (kt : Kite) (t u amt : Nat) : Kite := { kt with sigs := kt.sigs ++ [⟨u, amt, max t kt.fenceT, kt.fenceTv⟩] }

/-- SIG (R200): out of range it sends nothing and is logged (R211); an amount of 0 sends no signal. -/
def effSig (k : Nat) (f : SSig) (s : State) : State :=
  let kt := s.kite k
  let u := kt.s32 f.sb
  let amt := sigAmt kt f
  let kt' := kt.readHaz k 4 (if f.areg = 0 then [.s f.sb.toNat] else [.s f.sb.toNat, .s f.sa.toNat])
  if (s.bridleAt kt u).isNone then
    { (s.putKite k (kt'.event k .s evBridleRange u)) with brd := { s.brd with nRange := satAdd 16 s.brd.nRange 1 } }
  else if amt = 0 then s.putKite k kt'
  else s.putKite k (kt'.sendSig (kt.t s.cyc) u amt)

/-! ### Anchors (R156, R157, R212, R219, R220) -/

/-- Start an anchor in local cycle `t`. -/
def Kite.startAnchor (kt : Kite) (t : Nat) (on : AnchorOn) (fd : Nat) (m : Nat × Nat) : Kite :=
  { kt with st := .anchor, anchor := some ⟨on, fd, t + m.1, m.2, 0, false⟩ }

/-- Register a wait at its home (R219). A notice takes 16 cycles, so its expiry is judged in the last fabric cycle that ends by
p + TMO − 16 (R220). -/
def State.register (s : State) (k b theta : Nat) (m : Nat × Nat) : State :=
  { s with brd := { s.brd with waits := s.brd.waits ++
      [⟨k, b, theta, s.fabFrom s.cyc, if m.2 = 0 then none else some (s.cyc + m.1 + m.2 - 16)⟩] } }

/-- A hold of kite `k` in its planned wait moves p, and with it the expiry of its wait, by a cycle (R156, R220). -/
def State.shiftWaits (s : State) (k : Nat) : State :=
  let kt := s.kite k
  match kt.anchor with
  | some a =>
    if kt.hold.isSome && a.late = 0 then
      { s with brd := { s.brd with waits := s.brd.waits.map fun w =>
          if w.kite = k then { w with expiry := w.expiry.map (· + 1) } else w } }
    else s
  | none => s

/-- WAIT and ARRIVE (R156, R158, R212). -/
def effWait (k : Nat) (arrive : Bool) (f : SWait) (s : State) : State :=
  let kt := s.kite k
  let t := kt.t s.cyc
  let u := kt.s32 f.sb
  let theta := (kt.s f.sb).toNat / 2 ^ 32
  let m := waitTimes kt f
  let place := s.bridleAt kt u
  let kt' := kt.readHaz k 4 (if f.mreg = 0 then [.s f.sb.toNat] else [.s f.sb.toNat, .s f.tf.toNat])
  let kt' := if arrive && place.isSome then kt'.sendSig t u 1 else kt'
  match place.bind fun x => if s.isMe x.1 then some x.2 else none with
  | some b => (s.putKite k (kt'.startAnchor t (.bridle b) f.fd.toNat m)).register k b theta m
  | none =>
    { (s.putKite k ((kt'.startAnchor t .refused f.fd.toNat m).event k .s evWaitRefused u)) with
      brd := { s.brd with nRefused := satAdd 16 s.brd.nRefused 1 } }

/-- WAITR (R202). -/
def effWaitr (k t : Nat) (f : SWaitr) (kt : Kite) : Kite :=
  (kt.readHaz k 4 [.s f.st.toNat]).startAnchor t (.reel f.reel.toNat (f.kind == 1) f.thr.toNat) f.fd.toNat (waitrTimes kt f)

/-- FENCE in local cycle `t` (R161): later signals leave when the writes of the vector memory unit and of the running chain
are made, and no earlier than the end of t + 4. -/
def effFence (t : Nat) (kt : Kite) : Kite :=
  let vst := match kt.vMem with
    | some r => (match r.kind with
      | .st _ => r.t0 + r.occ - 1
      | _ => 0)
    | none => 0
  let chain := match kt.chain with
    | some c => (c.runs.filter fun r => let w := stageW c.stages r.stage; isStore w || isSend w).foldl
        (fun a r => max a (r.start + r.occ - 1)) 0
    | none => 0
  { kt with fenceT := t + 4, fenceTv := max kt.fenceTv (max vst chain) }

/-! ### Releases -/

/-- An anchor releases at the end of local cycle `t`: Fd is readable from the next cycle, in which the next bundle issues. -/
def Kite.releaseAnchor (kt : Kite) (t : Nat) (a : Anchor) (ok : Bool) : Kite :=
  settle t 9 { (kt.setReg (.f a.fd) (if ok then 1 else 0)) with st := .issuing, anchor := none }

/-- Whether a hold other than the anchor's own freezes the kite. -/
def Kite.frozenElse (kt : Kite) : Bool :=
  match kt.hold with
  | none => false
  | some .anchorLate => false
  | some _ => true

/-- Whether a notice for a kite's anchor has arrived by the end of the present cycle (R220). -/
def State.noticed (s : State) (k : Nat) (a : Anchor) : Bool :=
  match a.on with
  | .bridle b => s.brd.notices.any fun n => n.kite == k && n.bridle == b && decide (n.cyc ≤ s.cyc)
  | _ => false

/-- Whether a reel anchor's count holds at the end of the present cycle (R145). -/
def Kite.reelMet (kt : Kite) (a : Anchor) : Bool :=
  match a.on with
  | .reel r room thr => if room then decide (thr ≤ (kt.reel r).room) else decide (thr ≤ (kt.reel r).fill)
  | _ => false

/-- BRIDLE_NOTICE: the kite holds its anchor's condition; an anchor past its planned release releases (R156). Notices that
no anchor matches are discarded (R219). -/
def bridleNotice (k : Nat) (s : State) : State :=
  let kt := s.kite k
  let rest := s.brd.notices.filter fun n => !(n.kite == k && decide (n.cyc ≤ s.cyc))
  let s' := { s with brd := { s.brd with notices := rest } }
  match kt.anchor with
  | none => s'
  | some a =>
    if s.noticed k a || kt.reelMet a then
      let kt := { kt with anchor := some { a with got := true } }
      s'.putKite k (if a.late = 0 then kt else kt.releaseAnchor (kt.t s.cyc) a true)
    else s'

/-- PLANNED_RELEASE: at the end of p an anchor whose condition is held, or that was refused, releases (R156, R212). -/
def plannedRelease (k : Nat) (s : State) : State :=
  let kt := s.kite k
  match kt.anchor with
  | none => s
  | some a =>
    let refused := a.on == .refused
    if !kt.frozenElse && decide (a.p ≤ kt.t s.cyc) && (a.got || refused) then
      s.putKite k (kt.releaseAnchor (kt.t s.cyc) a (!refused))
    else s

/-- ANCHOR_TIMEOUT: no condition by the end of p + TMO (R156). -/
def anchorTimeout (k : Nat) (s : State) : State :=
  let kt := s.kite k
  match kt.anchor with
  | none => s
  | some a =>
    if a.tmo != 0 && a.late == a.tmo && !a.got && a.on != .refused then
      let kt := kt.releaseAnchor (kt.t s.cyc) a false
      s.putKite k ({ kt with hTimeout := satAdd 16 kt.hTimeout 1 }.event k .s evAnchorTimeout)
    else s

/-! ### Commands -/

/-- SIG (R200). -/
def execSig (k : Fin 256) (f : SSig) (s : State) : Host.Outcome State Fault Refusal :=
  .next (s.issue k 4 (chkSig f) (effSig k f))

/-- WAIT (R156). -/
def execWait (k : Fin 256) (f : SWait) (s : State) : Host.Outcome State Fault Refusal :=
  .next (s.issue k 4 (chkWait (s.kite k) f) (effWait k false f))

/-- ARRIVE (R158). -/
def execArrive (k : Fin 256) (f : SWait) (s : State) : Host.Outcome State Fault Refusal :=
  .next (s.issue k 4 (chkWait (s.kite k) f) (effWait k true f))

/-- WAITR (R202). -/
def execWaitr (k : Fin 256) (f : SWaitr) (s : State) : Host.Outcome State Fault Refusal :=
  execSlot k 4 (fun kt => chkWaitr kt f) (fun t _ kt => effWaitr k t f kt) s

/-- FENCE (R161). -/
def execFence (k : Fin 256) (f : SZ) (s : State) : Host.Outcome State Fault Refusal :=
  execSlot k 4 (fun _ => chkFence f) (fun t _ kt => effFence t kt) s

/-- TICKWAIT (R159). -/
def execTickwait (k : Fin 256) (f : SZ) (s : State) : Host.Outcome State Fault Refusal :=
  execSlot k 4 (fun kt => chkTickwait kt f) (fun _ _ kt => { kt with st := .tickwait }) s

/-- PLANNED_RELEASE (R156). -/
def execPlannedRelease (k : Fin 256) (s : State) : Host.Outcome State Fault Refusal := .next (plannedRelease k s)

/-- BRIDLE_NOTICE (R156). -/
def execBridleNotice (k : Fin 256) (s : State) : Host.Outcome State Fault Refusal := .next (bridleNotice k s)

/-- ANCHOR_TIMEOUT (R156). -/
def execAnchorTimeout (k : Fin 256) (s : State) : Host.Outcome State Fault Refusal := .next (anchorTimeout k s)

end Sys2Proof.Machine
end

