-- ==== Sys2Proof/Machine/Tele.lean ====
section
/-! DEFINITION. Telemetry (§19.3): tick records, their delivery to the host and over the ports, and the writes of TEL that have
rules of their own. -/
namespace Sys2Proof.Machine

/-- What a tick's record gathers, by tick. -/
def State.upTick (s : State) (j : Nat) (f : Win → Win) : State :=
  { s with tel := { s.tel with wins := mapUpd s.tel.wins j {} f } }

/-- A die's sensors. -/
def State.die (s : State) (d : Nat) : Die := mapGetD s.pwr.dies d {}

/-- A tick record (Table 19.4). -/
def State.recordOf (s : State) (j : Nat) : List Byte :=
  let w := mapGetD s.tel.wins j {}
  let ev := b2n w.overrun + 2 * b2n w.lost + 4 * b2n w.cut + 8 * b2n w.thermal + 16 * b2n w.high
  leBytes 8 j ++ leBytes 4 w.l ++ leBytes 4 w.u ++ leBytes 4 w.holdMax ++ leBytes 2 w.duty ++ leBytes 2 w.power
    ++ (List.range 4).map (fun d => BitVec.ofNat 8 (s.die d).tj) ++ (List.range 4).map (fun d => BitVec.ofNat 8 (s.die d).mem)
    ++ leBytes 1 (s.die 4).tj ++ leBytes 1 (s.die 4).mem ++ leBytes 1 ev ++ leBytes 1 0 ++ leBytes 2 w.accepted
    ++ leBytes 2 w.refused ++ leBytes 2 w.done ++ leBytes 2 w.ended ++ leBytes 4 w.latMax ++ leBytes 4 w.marginMin ++ leBytes 4 0
    ++ leBytes 8 w.latSum

/-- Write a record to the host ring (R424). -/
def State.recordHost (s : State) (j : Nat) (l : List Byte) : State :=
  if !s.tel.tEn then s
  else
    let (ok, s) := s.hostPut (s.tel.tHost + j % 2 ^ s.tel.tLogd * 64) l
    if ok then s else { s with tel := { s.tel with tFail := satAdd 32 s.tel.tFail 1 } }

/-- Send a record as a TELEMETRY message (R325, R425); one that cannot leave is counted. -/
def State.recordPorts (s : State) (j : Nat) (l : List Byte) : State :=
  if !s.tel.xEn then s
  else
    let e := s.target s.tel.xTarget
    let msg := header 6 0 88 0xFFFFFFFF j s.pwr.tb ++ l
    let lost : State := { s with tel := { s.tel with xFail := satAdd 32 s.tel.xFail 1 } }
    if !s.xpt.en || tKind e = 0 || 3 < tKind e then lost
    else if tKind e = 3 then
      let (ok, s) := s.enqueue (s.ownMsg (tDst e) 0x31 (leBytes 2 (fieldLe e 0x14 2) ++ leBytes 2 0 ++ msg))
      if ok then s else lost
    else if (s.port (tPort e)).st != 2 then lost
    else s.sendFrame e msg

/-- Write the record of tick j (R423). -/
def State.tickRecord (s : State) (j : Nat) : State :=
  let s := s.upTick j fun w => { w with power := min 0xFFFF s.pwr.last }
  let l := s.recordOf j
  let s := { s with tel := { s.tel with recs := mapSet s.tel.recs (j % 1024) l, wins := mapDel s.tel.wins j } }
  (s.recordHost j l).recordPorts j l

/-- TXCFG_WRITE (R425): enabling with a target that is unusable, or of kind 4, is ignored. -/
def txcfgWrite (v : Nat) (s : State) : State :=
  let t := bits v 1 8
  if bit v 0 && (!s.targetUsable t || tKind (s.target t) == 4) then s.ignoredReg uHost
  else { s with tel := { s.tel with xEn := bit v 0, xTarget := t } }

/-- LOG_TAIL_WRITE (R421): TAIL moves forward, up to HEAD. -/
def logTail (v : Nat) (s : State) : State :=
  if s.tel.unread < (v + 2 ^ 32 - s.tel.tail) % 2 ^ 32 then s.ignoredReg uHost
  else { s with tel := { s.tel with tail := v } }

/-- TXCFG_WRITE (R425). -/
def execTxcfgWrite (v : BitVec 64) (s : State) : Host.Outcome State Fault Refusal := .next (if s.glbUp then txcfgWrite v.toNat s else s)

/-- LOG_TAIL_WRITE (R421). -/
def execLogTailWrite (v : BitVec 32) (s : State) : Host.Outcome State Fault Refusal := .next (if s.glbUp then logTail v.toNat s else s)

end Sys2Proof.Machine
end

