-- ==== Sys2Proof/Machine/Clocks.lean ====
section
/-! DEFINITION. Clocks, power, temperature and ageing (file 17) and the PPS input (R430). -/
namespace Sys2Proof.Machine

/-! ### The timebase (R359, R386, R387, R430) -/

/-- A measurement by the source that steers the timebase: the frequency correction that follows is the servo's, within
±50 ppm; the manual gives no law of the servo. -/
def State.measure (s : State) (offset : Int) : State :=
  let ppb : Int := ((Config.freeNat 10 s.free % 100001 : Nat) : Int) - 50000
  { s.drew with pwr := { s.pwr with
      locked := true, measAt := s.now, ppb := ppb
      offset := max (-2147483648) (min 2147483647 offset) } }

/-- PTP_MESSAGE: one exchange of the slave clock of the port that LNK.PTP names. -/
def ptpMessage (p : Nat) (m : PtpF) (s : State) : State :=
  let l := s.lnk
  let x := s.port p
  if !l.ptpEn || l.ptpPort != p || l.ptpDomain != m.domain.toNat || l.ptpTransport != m.transport.toNat || m.transport = 3
      || x.st != 2 || x.mode = 0 then s
  else if s.pwr.src = 1 then s.measure m.offset
  else s

/-- How far the timebase is past the multiple of 10⁹ it is nearest to. -/
def ppsOffset (tb : Nat) : Int :=
  let r := tb % 1000000000
  if r < 500000000 then (r : Int) else (r : Int) - 1000000000

/-- PPS: a pulse of `width` ns. One that is too short, or more than 1 ms from the instant expected, is discarded. -/
def pps (width : Nat) (s : State) : State :=
  let o := ppsOffset s.pwr.tb
  if width < 1000 || o < -1000000 || 1000000 < o then s
  else
    let s := { s with pins := { s.pins with ppsAt := some s.now } }
    if s.pwr.src = 2 then s.measure o else s

/-- Whether the source has supplied no measurement for 8 s. -/
def State.sourceLost (s : State) : Bool :=
  s.pwr.locked && s.pwr.src != 0 && decide (s.pwr.measAt + 8000000000 ≤ s.now)

/-- TIMEBASE_SOURCE_TIMEOUT: free-running with the last correction. -/
def sourceTimeout (s : State) : State :=
  if s.sourceLost then ({ s with pwr := { s.pwr with locked := false } }).log ⟨.c, uPwr, evTbUnlocked, 0xFFFF, 0xFFFF, 0⟩ else s

/-- TB_SET: accepted while the scheduler is stopped. Admission goes on with the round that the new time lies in. -/
def tbSet (v : Nat) (s : State) : State :=
  if !s.barUp then s
  else if !s.sch.stopped then s.ignoredReg uPwr
  else { s with pwr := { s.pwr with tb := v, frac := 0 }, sch := { s.sch with round := v / 250000 - 1 } }

/-! ### Stopped domains (R380, R384) -/

/-- Domains that stand only in minimal mode: arithmetic, fabric and step scheduler, by their place in Table 17.1. -/
def servingDomains : List Nat := List.range 8 ++ [99]

/-- WAKE_REQUEST: a stopped domain runs again, within the bounds of R384. Those that minimal mode holds stay stopped. -/
def wakeRequest (d : Nat) (s : State) : State :=
  if servingDomains.contains d then s
  else
    let s := { s with pwr := { s.pwr with stopped := s.pwr.stopped.filter fun x => x != d } }
    if pcieDomains.contains d then s.crossAgain else s

/-! ### Flash records of the margin plan (R395, R397, R398) -/

/-- The margin record as the module keeps it. -/
def State.marginNow (s : State) : Margin :=
  { vdie := (List.range 4).map fun d => (s.die d).vdie, steps := (List.range 4).map fun d => (s.die d).steps
    hours := s.pwr.hours, taken := s.pwr.taken, armed := s.pwr.armed, proj := s.pwr.proj }

/-- Write the margin record (R400). -/
def State.saveMargin (s : State) : State :=
  let (a, b) := writeRec s.sec.primary.margin s.sec.recovery.margin s.marginNow
  { s with sec := { s.sec with primary := { s.sec.primary with margin := a }, recovery := { s.sec.recovery with margin := b } } }

/-- MARGIN_PLAN_SAVE: once a day. -/
def State.saveDue (s : State) : Bool := decide (s.pwr.dayAt + 86400000000000 ≤ s.now)

def marginSave (s : State) : State :=
  if s.saveDue then ({ s with pwr := { s.pwr with dayAt := s.now } }).saveMargin else s

/-- MSTEP_ARM: the host arms the margin step. It survives every cause of a reset. -/
def mstepArm (arm : Bool) (s : State) : State :=
  if !s.barUp || !arm || s.pwr.taken || s.pwr.armed then s
  else ({ s with pwr := { s.pwr with armed := true } }).saveMargin

/-! ### Ageing (R395, R396) -/

/-- VMAX, and a step, in units of 0.1 mV. -/
def vmax : Nat := 8000
def vstep : Nat := 25

/-- The ageing reserve: the smallest of the dies (R396). -/
def State.reserve (s : State) : Nat := ((List.range 4).map fun d => (vmax - (s.die d).vdie) / vstep).foldl min (vmax / vstep)

/-- Project again: the date, in days of service, is the module's fit, whose method the manual does not give (R396). -/
def State.forecast (s : State) : State :=
  let proj := Config.freeNat 11 s.free % 2 ^ 32
  let low := decide (proj ≤ s.pwr.hours / 24 + 365 || s.reserve < 4)
  let s' := { s.drew with pwr := { s.pwr with proj := proj, low := low } }
  if low && !s.pwr.low then s'.log ⟨.c, uPwr, evAgeingLow, 0xFFFF, 0xFFFF, 0⟩ else s'

/-- Change a die. -/
def State.upDie (s : State) (d : Nat) (f : Die → Die) : State :=
  { s with pwr := { s.pwr with dies := mapUpd s.pwr.dies d {} f } }

/-- Whether a step of the margin plan can be taken: a die asks for one, none is in thermal emergency, and no step runs. -/
def State.planStepDue (s : State) : Bool :=
  (List.range 4).any (fun d => (s.die d).wants) && !(List.range 4).any (fun d => (s.die d).emerg) && s.sch.cur.isNone

/-- MARGIN_PLAN_STEP. -/
def marginStep (s : State) : State :=
  if !s.planStepDue then s
  else
    ((List.range 4).foldl (fun s d =>
      if (s.die d).wants then
        s.upDie d fun x => { x with wants := false, vdie := min vmax (x.vdie + vstep), steps := min 0xFFFF (x.steps + 1) }
      else s) s).forecast

/-- The hourly slack of one die: a step asked for, or, at VMAX, the margin step due and armed (R395, R397). -/
def State.hourDie (s : State) (d : Nat) : State :=
  match (s.die d).hourMin with
  | none => s
  | some m =>
    let s := s.upDie d fun x => { x with hourly := min m 255, hourMin := none, wants := decide (m < 20 && x.vdie < vmax) }
    if m < 20 && (s.die d).vdie ≥ vmax && !s.pwr.due && !s.pwr.taken then
      (({ s with pwr := { s.pwr with due := true, armed := true } }).saveMargin).log ⟨.c, uPwr, evMarginDue, d, 0xFFFF, 0⟩
    else s

/-- The end of an hour of service. -/
def State.hourEnd (s : State) : State :=
  if s.now < s.pwr.hourAt + 3600000000000 then s
  else
    let s := (List.range 4).foldl State.hourDie s
    ({ s with pwr := { s.pwr with hourAt := s.now, hours := s.pwr.hours + 1 } }).forecast

/-! ### Sensors (R391–R394, R397) -/

/-- Junction, memory and slack of die d in a sample (d = 4: the I/O die and the loft). -/
def sensorsOf (x : Sensors) : Nat → Nat × Nat × Nat
  | 0 => (x.tj0, x.hbm0, x.slack0)
  | 1 => (x.tj1, x.hbm1, x.slack1)
  | 2 => (x.tj2, x.hbm2, x.slack2)
  | 3 => (x.tj3, x.hbm3, x.slack3)
  | _ => (x.io, x.loft, 0xFF)

/-- A warning, logged once per entry (R392, Table 17.3). -/
def State.warn (s : State) (d tj mem : Nat) : State :=
  let x := s.die d
  let j := decide (95 ≤ tj)
  let m := decide (85 ≤ mem)
  let n := b2n (j && !x.warnJ) + b2n (m && !x.warnM)
  let s := s.upDie d fun x => { x with warnJ := j, warnM := m }
  (List.range n).foldl (fun s _ => s.log ⟨.c, uPwr, evThermalWarn, d, 0xFFFF, 0⟩) s

/-- The emergency of a compute die: entered at a threshold, ended when every sensor has stayed 5 °C below for 1 ms (R392). -/
def State.judge (s : State) (d tj mem : Nat) : State :=
  let x := s.die d
  if !x.emerg then
    if 105 ≤ tj || 95 ≤ mem then
      (s.upDie d fun x => { x with emerg := true, entries := satAdd 16 x.entries 1, coolAt := none }).log
        ⟨.s, uPwr, evThermal 0, d, 0xFFFF, 0⟩
    else s
  else if tj ≤ 100 && mem ≤ 90 then
    let t := x.coolAt.getD s.now
    s.upDie d fun x => { x with coolAt := some t, emerg := decide (s.now < t + 1000000) }
  else s.upDie d fun x => { x with coolAt := none }

/-- One die's part of a sample. -/
def State.sampleDie (x : Sensors) (s : State) (d : Nat) : State :=
  let (tj, mem, sl) := sensorsOf x d
  let s := (s.upDie d fun y => { y with
    tj := min tj 255, mem := min mem 255, nowPs := if d < 4 then min sl 255 else y.nowPs
    hourMin := if d < 4 then some (min sl (y.hourMin.getD sl)) else none }).warn d tj mem
  if d < 4 then s.judge d tj mem else s

/-- The sensor at or above a critical threshold, if any: its number in Table 19.5, and its die (Table 17.3). -/
def sensorsCritical (x : Sensors) : Option (Nat × Nat) :=
  (List.range 5).findSome? fun d =>
    let (tj, mem, _) := sensorsOf x d
    if 115 ≤ tj then some (if d < 4 then 2 + d else 10, d)
    else if 105 ≤ mem then some (if d < 4 then 6 + d else 11, d)
    else none

/-- The die whose slack is below 8 ps while a margin step waits for its reset (R397). -/
def sensorsSlack (x : Sensors) : Option Nat := (List.range 4).find? fun d => decide ((sensorsOf x d).2.2 < 8)

/-- SENSOR_SAMPLE: every sensor is stored and judged. -/
def sensorSample (x : Sensors) (s : State) : State :=
  let s := { s with
    pwr := { s.pwr with sumW := s.pwr.sumW + x.power, samples := s.pwr.samples + 1 }
    pins := { s.pins with vin := x.vin % 65536, iin := x.iin % 65536 } }
  let s := ((List.range 5).foldl (State.sampleDie x) s).hourEnd
  match sensorsCritical x with
  | some (n, d) =>
    let s := { s with pins := { s.pins with thermtripN := false } }
    if s.minimal then s else s.fatal ⟨.f, uPwr, evThermal 1, d, 0xFFFF, 0⟩ 0x08 (some n)
  | none =>
    match sensorsSlack x with
    | some d => if s.pwr.armed && !s.minimal then s.fatal ⟨.f, uPwr, 0, d, 0xFFFF, 0⟩ 0x09 (some d) else s
    | none => s

/-! ### Commands -/

/-- PTP_MESSAGE (R359). -/
def execPtpMessage (p : Fin 96) (m : PtpF) (s : State) : Host.Outcome State Fault Refusal := .next (ptpMessage p.val m s)
/-- PPS (R430). -/
def execPps (width : Nat) (s : State) : Host.Outcome State Fault Refusal := .next (pps width s)
/-- TIMEBASE_SOURCE_TIMEOUT (R386). -/
def execTimebaseSourceTimeout (s : State) : Host.Outcome State Fault Refusal := .next (sourceTimeout s)
/-- TB_SET (R387). -/
def execTbSet (v : BitVec 64) (s : State) : Host.Outcome State Fault Refusal := .next (tbSet v.toNat s)
/-- WAKE_REQUEST (R384). -/
def execWakeRequest (d : Fin 100) (s : State) : Host.Outcome State Fault Refusal := .next (wakeRequest d.val s)
/-- SENSOR_SAMPLE (R391). -/
def execSensorSample (x : Sensors) (s : State) : Host.Outcome State Fault Refusal := .next (sensorSample x s)
/-- MARGIN_PLAN_STEP (R395). -/
def execMarginPlanStep (s : State) : Host.Outcome State Fault Refusal := .next (marginStep s)
/-- MARGIN_PLAN_SAVE (R395). -/
def execMarginPlanSave (s : State) : Host.Outcome State Fault Refusal := .next (marginSave s)
/-- MSTEP_ARM (R397). -/
def execMstepArm (arm : Bool) (s : State) : Host.Outcome State Fault Refusal := .next (mstepArm arm s)

end Sys2Proof.Machine
end

