-- ==== Sys2Proof/Machine/Host.lean ====
section
/-! DEFINITION. The host interface (file 16): queue configuration, doorbells and the fetching of submissions, interrupts, the
bulk data port and the loss of the link. -/
namespace Sys2Proof.Machine

/-! ### Queue configuration (R366, R367) -/

/-- QCFG as it reads. -/
def Queue.cfg (x : Queue) : Nat := b2n x.en + 2 * x.logd + 2 ^ 5 * x.vec + 2 ^ 11 * x.ccount + 2 ^ 23 * x.ctime

/-- Whether something of a queue remains that keeps its EN at 1: a request that is not FREE, or a command whose completion is
still to be posted (R367). -/
def State.queueBusy (s : State) (q : Nat) : Bool :=
  !(s.queue q).outst.isEmpty || s.sch.reqs.any fun x => (x.2.held || x.2.st != .free) && x.2.sq == q && !x.2.mute

/-- EN becomes 0 once nothing of a draining queue remains. -/
def queueDisableDone (q : Nat) (s : State) : State :=
  let x := s.queue q
  if x.draining && !s.queueBusy q then s.setQueue q { x with en := false, draining := false, tails := [], held := [] } else s

/-- A write of QCFG. -/
def qcfgWrite (q v : Nat) (s : State) : State :=
  let x := s.queue q
  if !s.glbUp then s
  else if x.en then
    if !bit v 0 then queueDisableDone q (s.setQueue q { x with draining := true, tails := [] })
    else if v % 2 ^ 39 = x.cfg then s
    else s.ignoredReg uHost q
  else
    let y : Queue := { x with logd := bits v 1 4, vec := bits v 5 6, ccount := bits v 11 12, ctime := bits v 23 16 }
    if !bit v 0 then s.setQueue q y
    else if s.ready && 1 ≤ y.logd && y.logd ≤ 12 && 1 ≤ y.ccount && y.vec ≤ 62 && y.sqBase % 4096 = 0 && y.cqBase % 4096 = 0 then
      let s := s.setQueue q { y with
        en := true, draining := false, sqHead := 0, sqTail := 0, tails := [], cqHead := 0, cqTail := 0, phase := true, held := []
        irqN := 0, irqAt := none }
      { s with hst := { s.hst with linkUp := true, master := true } }
    else s.ignoredReg uHost q

/-- A write of a ring base: while EN = 1 only the present value is accepted. -/
def queueBaseWrite (q : Nat) (cq : Bool) (v : Nat) (s : State) : State :=
  let x := s.queue q
  if !s.glbUp then s
  else if x.en then (if v = (if cq then x.cqBase else x.sqBase) then s else s.ignoredReg uHost q)
  else s.setQueue q (if cq then { x with cqBase := v } else { x with sqBase := v })

/-! ### Submissions (R368, R371, R375) -/

/-- A submission entry from its 64 bytes (Table 16.4). -/
def sqeOf (l : List Byte) : Sqe :=
  { opc := .ofNat 8 (fieldLe l 0 1), flags := .ofNat 8 (fieldLe l 1 1), cid := .ofNat 16 (fieldLe l 2 2)
    model := .ofNat 16 (fieldLe l 4 2), variant := .ofNat 16 (fieldLe l 6 2), ptr := .ofNat 64 (fieldLe l 8 8)
    ntok := .ofNat 32 (fieldLe l 0x10 4), target := .ofNat 8 (fieldLe l 0x14 1), logp := .ofNat 8 (fieldLe l 0x15 1)
    l0 := .ofNat 8 (fieldLe l 0x16 1), nlx := .ofNat 8 (fieldLe l 0x17 1), deadline := .ofNat 64 (fieldLe l 0x18 8)
    firstpos := .ofNat 32 (fieldLe l 0x20 4), we := .ofNat 16 (fieldLe l 0x24 2), rsv := .ofNat 16 (fieldLe l 0x26 2)
    theta := .ofNat 32 (fieldLe l 0x28 4), auxlen := .ofNat 32 (fieldLe l 0x2C 4), aux := .ofNat 64 (fieldLe l 0x30 8)
    rsv2 := .ofNat 64 (fieldLe l 0x38 8) }

/-- Take an entry into the admission queue with the stamp of its doorbell. -/
def State.takeEntry (s : State) (q stamp : Nat) (e : Sqe) : State :=
  let x := s.queue q
  let dup := x.outst.contains e.cid.toNat
  let full := e.opc == 1 && decide (4096 ≤ (s.sch.subs.filter fun y => y.e.opc == 1 && !y.full).length)
  let s := s.setQueue q { x with outst := if dup then x.outst else x.outst ++ [e.cid.toNat] }
  { s with sch := { s.sch with subs := s.sch.subs ++ [⟨q, stamp, e, dup, full⟩] } }

/-- Fetch one entry of a ring: one that the host answers with an error completion has undefined bytes. -/
def State.fetchEntry (s : State) (q stamp : Nat) : State :=
  let x := s.queue q
  let s := s.setQueue q { x with sqHead := (x.sqHead + 1) % x.depth }
  match s.hostRead (x.sqBase + 64 * x.sqHead) 64 with
  | some l => s.takeEntry q stamp (sqeOf l)
  | none => (s.takeEntry q stamp (sqeOf ((List.range 64).map fun i => Config.freeByte 0 (64 * s.free + i)))).drew

/-- Fetch the entries that tail doorbells have announced, in ring order, while the queue holds no completion entry (R371) and is
not being disabled (R367); on a fuel of entries and doorbells. -/
def State.fetch (q : Nat) : Nat → State → State
  | 0, s => s
  | n + 1, s =>
    let x := s.queue q
    if !x.en || x.draining || !x.held.isEmpty then s
    else
      match x.tails with
      | [] => s
      | (t, stamp) :: rest =>
        if x.sqHead = t then State.fetch q n (s.setQueue q { x with tails := rest })
        else State.fetch q n (s.fetchEntry q stamp)

/-- Entries and doorbells that can still be fetched. -/
def Queue.work (x : Queue) : Nat := x.tails.length * (x.depth + 1)

/-- A doorbell write answered other than by the first row of Table 16.7. -/
def State.badDoorbell (s : State) (q row : Nat) : State :=
  let s := s.log ⟨.v, uHost, evPartner 2 row, q, 0xFFFF, 0⟩
  { s with hst := { s.hst with doorbell := satAdd 32 s.hst.doorbell 1 } }

/-- The row of Table 16.7 that answers a doorbell write of an index. -/
def Queue.doorbellRow (x : Queue) (cq : Bool) (bytes v : Nat) : Nat :=
  if !x.en then 2
  else if bytes != 4 then 5
  else if x.depth ≤ v then 3
  else if cq && decide (x.cqUsed < (v + x.depth - x.cqHead) % x.depth) then 4
  else 1

/-- SQ_TAIL_DOORBELL (R368, R375). -/
def sqTail (q bytes v : Nat) (s : State) : State :=
  let x := s.queue q
  match x.doorbellRow false bytes v with
  | 1 =>
    let x' := { x with sqTail := v, tails := if x.draining then [] else x.tails ++ [(v, s.stamp)] }
    State.fetch q x'.work (s.setQueue q x').drew
  | r => s.badDoorbell q r

/-- CQ_HEAD_DOORBELL (R371, R375): room is freed, held entries are written, and fetching goes on. -/
def cqHead (q bytes v : Nat) (s : State) : State :=
  let x := s.queue q
  match x.doorbellRow true bytes v with
  | 1 =>
    let s := State.drainHeld q x.held.length (s.setQueue q { x with cqHead := v })
    State.fetch q x.work s
  | r => s.badDoorbell q r

/-- Whether the interrupt delay of a queue has passed (R378). -/
def State.irqDue (s : State) (q : Nat) : Bool :=
  let x := s.queue q
  decide (0 < x.irqN) && match x.irqAt with
  | some t => decide (t + 1000 * x.ctime ≤ s.now)
  | none => false

/-! ### The link (R365, R380) -/

/-- PCIE_LINK_DOWN: queues off, bus mastering cleared, every request that is not FREE cancelled without a completion. -/
def pcieLinkDown (s : State) : State :=
  let t := s.stamp
  let qs := s.hst.queues.map fun (e : Nat × Queue) =>
    (e.1, { e.2 with en := false, draining := false, tails := [], held := [], outst := [], irqN := 0, irqAt := none })
  let rs := s.sch.reqs.map fun (e : Nat × Req) =>
    (e.1, if e.2.st == ReqSt.free && !e.2.held then e.2 else { e.2 with mute := true, cancelAt := some (e.2.cancelAt.getD t) })
  let s := { s with hst := { s.hst with linkUp := false, master := false, queues := qs, waits := [] }, sch := { s.sch with reqs := rs } }
  ((mapKeys s.xpt.streams).foldl State.cutStream s).drew

/-- D3HOT: the PCIe domains stop, or run again, and what waited at their crossing goes on (R380, R384). -/
def d3hot (enter : Bool) (s : State) : State :=
  let st := s.pwr.stopped.filter fun d => !pcieDomains.contains d
  let s := { s with hst := { s.hst with d3 := enter }, pwr := { s.pwr with stopped := if enter then st ++ pcieDomains else st } }
  if enter then s else s.crossAgain

/-! ### The bulk data port (R376, R377, R412) -/

/-- Size of the window. -/
def bdpWindow : Nat := 2 ^ 24

/-- The event that refuses a write of an address (Table 16.8); none where it is written. -/
def Pgm.bdpRefuses (p : Pgm) (a : Nat) : Option Nat :=
  if !inTiers a then some evBdpRange
  else
    match p.frameOf (a / 4096) with
    | some (_, f) =>
      if f.st = .table then some evPtProtected
      else if f.st = .alloc && f.refcnt = 1 && a < extBase then none
      else some evBdpProtected
    | none => some evBdpProtected

/-- Pieces of a range that lie in one 4 KiB block each: address, and its bytes. -/
def pieces (a : Nat) (l : List Byte) : List (Nat × List Byte) :=
  let h := 4096 - a % 4096
  (a, l.take h) :: (chunksOf 4096 (l.drop h)).zipIdx.map fun (c, i) => (a + h + 4096 * i, c)

/-- An access of the port that is refused: logged and counted once, with its first refused address. -/
def State.bdpRefused (s : State) (ev a : Nat) (write : Bool) : State :=
  let s := s.log ⟨.v, uHost, ev, 0xFFFF, 0xFFFF, a⟩
  let h := s.hst
  { s with
    hst := { h with
      bdpCount := satAdd 15 h.bdpCount 1
      bdpErr := h.bdpErr || write
      bdpFirst := if write && !h.bdpErr then a % 2 ^ 48 else h.bdpFirst }
    pgm := if ev = evPtProtected then { s.pgm with nPtprot := satAdd 16 s.pgm.nPtprot 1 } else s.pgm }

/-- BDP_ADDR after an access of `n` bytes at offset `o` (R376). -/
def State.bdpMove (s : State) (o n : Nat) : State :=
  if n = 0 || o + n < bdpWindow then s
  else { s with hst := { s.hst with bdpAddr := wrapAdd 48 s.hst.bdpAddr bdpWindow } }

/-- A host write through BAR2, by frames (R377), or into the staging buffer in minimal mode (R412). -/
def bdpWrite (o : Nat) (data : List Byte) (s : State) : State :=
  let l := data.take (bdpWindow - o)
  if s.minimal then
    { s with sec := { s.sec with staging := l.zipIdx.foldl (fun m (b, i) => mapSet m (o + i) b) s.sec.staging } }
  else if !s.barUp then s
  else
    let a := s.hst.bdpAddr + o
    let ps := (pieces a l).filter fun x => !x.2.isEmpty
    let s' := ps.foldl (fun s x => match s.pgm.bdpRefuses x.1 with
      | none => { s with pgm := s.pgm.write x.1 x.2 }
      | some _ => s) s
    let s' := match ps.findSome? fun x => (s.pgm.bdpRefuses x.1).map fun e => (x.1, e) with
      | some (b, e) => s'.bdpRefused e b true
      | none => s'
    s'.bdpMove o l.length

/-- A host read through BAR2: data, data marked poisoned, or Unsupported Request (Table 16.8). -/
def bdpRead (o n : Nat) (s : State) : State :=
  let n := min n (bdpWindow - o)
  if s.minimal then s.emit (.read ((List.range n).map fun i => mapGetD s.sec.staging (o + i) 0) false)
  else if !s.barUp then s
  else
    let a := s.hst.bdpAddr + o
    match (List.range n).find? fun i => !inTiers (a + i) with
    | some i => ((s.bdpRefused evBdpRange (a + i) false).emit .unsupported).bdpMove o n
    | none =>
      let (l, bad, s) := s.readMem a n
      (s.emit (.read l (!bad.isEmpty))).bdpMove o n

/-- A write of BDP_ADDR, a multiple of 4,096. -/
def bdpAddrWrite (v : Nat) (s : State) : State :=
  if s.glbUp then { s with hst := { s.hst with bdpAddr := v % 2 ^ 48 / 4096 * 4096 } } else s

/-! ### Commands -/

/-- SQ_TAIL_DOORBELL (R375). -/
def execSqTailDoorbell (q : Fin 64) (bytes : Nat) (v : BitVec 32) (s : State) : Host.Outcome State Fault Refusal :=
  .next (sqTail q.val bytes v.toNat s)
/-- CQ_HEAD_DOORBELL (R375). -/
def execCqHeadDoorbell (q : Fin 64) (bytes : Nat) (v : BitVec 32) (s : State) : Host.Outcome State Fault Refusal :=
  .next (cqHead q.val bytes v.toNat s)
/-- QCFG_WRITE (R366). -/
def execQcfgWrite (q : Fin 64) (v : BitVec 64) (s : State) : Host.Outcome State Fault Refusal := .next (qcfgWrite q.val v.toNat s)
/-- QUEUE_BASE_WRITE (R366). -/
def execQueueBaseWrite (q : Fin 64) (cq : Bool) (v : BitVec 64) (s : State) : Host.Outcome State Fault Refusal :=
  .next (queueBaseWrite q.val cq v.toNat s)
/-- QUEUE_DISABLE_DONE (R367). -/
def execQueueDisableDone (q : Fin 64) (s : State) : Host.Outcome State Fault Refusal := .next (queueDisableDone q.val s)
/-- INTERRUPT_TIMEOUT (R378). -/
def execInterruptTimeout (q : Fin 64) (s : State) : Host.Outcome State Fault Refusal :=
  .next (if s.irqDue q.val then s.queueIrq q.val else s)
/-- BDP_ADDR_WRITE (R376). -/
def execBdpAddrWrite (v : BitVec 64) (s : State) : Host.Outcome State Fault Refusal := .next (bdpAddrWrite v.toNat s)
/-- BDP_WRITE (R377). -/
def execBdpWrite (o : BitVec 24) (data : List Byte) (s : State) : Host.Outcome State Fault Refusal := .next (bdpWrite o.toNat data s)
/-- BDP_READ (R377). -/
def execBdpRead (o : BitVec 24) (n : Nat) (s : State) : Host.Outcome State Fault Refusal := .next (bdpRead o.toNat n s)
/-- PCIE_LINK_DOWN (R365). -/
def execPcieLinkDown (s : State) : Host.Outcome State Fault Refusal := .next (pcieLinkDown s)
/-- D3HOT (R380). -/
def execD3hot (enter : Bool) (s : State) : Host.Outcome State Fault Refusal := .next (d3hot enter s)

end Sys2Proof.Machine
end

