-- ==== Sys2Proof/Machine/Ports.lean ====
section
/-! DEFINITION. The ports (file 15): bring-up, link states and their timers, flits that complete no message, replay,
Ethernet frames, flow control, messages in transit and those of Yaphor. -/
namespace Sys2Proof.Machine

/-! ### Bring-up (R339–R342) -/

/-- A port begins to train: an enabled port that is not quarantined, a Lerbo port only while the module ID is set (R341). The
peer's ID stays that of the last HELLO. -/
def State.train (s : State) (p : Nat) : State :=
  let x := s.port p
  if !x.en || (x.mode = 0 && s.lnk.modId = 0xFFFFF) then (s.setPort p { x with st := 0, since := s.now }).quadPower (p / 4)
  else
    (s.setPort p { x with
      st := 1, since := s.now, equal := false, hello := false, txSeq := 0, rxSeq := 0, buf := [], txq := []
      credit := [0, 0, 0, 0], rxOwed := [0, 0, 0, 0], held := [0, 0, 0, 0], freed := [0, 0, 0, 0], aackSent := 0, helloSeq := none
      replayAt := none, replayN := 0 }).quadPower (p / 4)

/-- Resend the flits of the replay buffer from its `i`-th on, as they were sent (R348). -/
def State.resendFrom (s : State) (p i : Nat) : State := ((s.port p).buf.drop i).foldl (fun s b => s.emit (.flit p b.bytes)) s

/-- A port is UP: after a retraining Lerbo resumes by replay from the peer's AACK (R342). -/
def State.portUp (s : State) (p : Nat) : State :=
  let x := s.port p
  let s' := s.setPort p { x with st := 2, since := s.now, aackAt := s.now }
  if x.mode != 0 then s'
  else (State.pump p 1024 (if x.st = 3 then s'.resendFrom p 0 else s')).fill p

/-- The payload of a HELLO (R341, R347): code 1, the module ID, and the buffer of each channel. -/
def State.helloBytes (s : State) : List Byte :=
  leBytes 1 1 ++ leBytes 3 s.lnk.modId ++ (List.range 4).flatMap fun c => leBytes 2 (chanBuf c)

/-- A Lerbo port whose lanes are equalised and whose peer's HELLO has come: UP, or DOWN where a retraining finds another peer
(R342). -/
def State.helloDone (s : State) (p : Nat) : State :=
  let x := s.port p
  if !(x.equal && x.hello) then s
  else if x.st = 3 && x.peer != x.peer0 then s.portStops p 4
  else s.portUp p

/-- EQUALISATION_DONE: a Lerbo port sends its HELLO, a CTRL flit like any other (R345); an Ethernet port with lock is UP. -/
def equalisationDone (p : Nat) (lock : Bool) (s : State) : State :=
  let x := s.port p
  if x.st != 1 && x.st != 3 then s
  else if x.mode = 0 then ((s.setPort p { x with equal := true }).sendFlit p 3 0 false 0 s.helloBytes none).helloDone p
  else if lock then s.portUp p
  else s

/-- A write of PCFG (R339): MODE only while DISABLED; EN starts or ends training; UNQUAR releases a quarantined port. -/
def unquar (p : Nat) (s : State) : State := if s.barUp && (s.port p).st == 5 then s.train p else s

/-- PCFG_WRITE. -/
def pcfgWrite (p v : Nat) (s : State) : State :=
  if !s.barUp then s
  else
    let x := s.port p
    let mode := bits v 0 2
    let en := bit v 2
    let s := if x.st != 0 && mode != x.mode then s.ignoredReg uPort p else s
    let s := s.setPort p { x with mode := if x.st = 0 then mode else x.mode, en := en }
    let s := if x.st = 0 then (if en then s.train p else s)
      else if !en && x.st != 5 then s.portStops p 0
      else s
    if bit v 3 then unquar p s else s

/-- PLL_LOCK_LOSS: the enabled ports of the quad go to DOWN (R340), one that waits for the module ID too; a quarantined one stays
so (R361), and one that is DOWN. -/
def pllLockLoss (q : Nat) (s : State) : State :=
  (List.range 4).foldl (fun s i =>
    let p := 4 * q + i
    let x := s.port p
    if x.en && x.st != 4 && x.st != 5 then s.portStops p 4 else s) s

/-! ### Timers of a port (R341, R342, R348) -/

/-- Whether a port has been in a state for `ns`. -/
def State.portFor (s : State) (p st ns : Nat) : Bool :=
  let x := s.port p
  x.st == st && decide (x.since + ns ≤ s.now)

/-- 500 ms of training have passed. -/
def State.trainDue (s : State) (p : Nat) : Bool := s.portFor p 1 500000000
/-- 10 ms of retraining have passed. -/
def State.retrainDue (s : State) (p : Nat) : Bool := s.portFor p 3 10000000
/-- 1 s in DOWN has passed. -/
def State.downDue (s : State) (p : Nat) : Bool := s.portFor p 4 1000000000
/-- 100 µs without progress of AACK have passed. -/
def State.aackDue (s : State) (p : Nat) : Bool :=
  let x := s.port p
  x.st == 2 && x.mode == 0 && !x.buf.isEmpty && decide (x.aackAt + 100000 ≤ s.now)
/-- 2 µs have passed since the last REPLAY. -/
def State.replayDue (s : State) (p : Nat) : Bool :=
  let x := s.port p
  x.st == 2 && match x.replayAt with
  | some t => decide (t + 2000 ≤ s.now)
  | none => false

/-- Send a REPLAY of the FSEQ expected: a CTRL flit, sequenced and kept for replay; the eighth for one FSEQ retrains the port
(R342, R345, R348). A sender whose buffer is full sends only IDLE flits. -/
def State.sendReplay (s : State) (p : Nat) : State :=
  let x := s.port p
  if 1024 ≤ x.buf.length then s.setPort p { x with replayAt := some s.now }
  else
    let s := (s.setPort p { x with
      replayAt := some s.now, replayN := x.replayN + 1, replays := satAdd 16 x.replays 1 }).sendFlit p 3 0 false 0
        (leBytes 1 2 ++ leBytes 2 x.rxSeq) none
    if 8 ≤ x.replayN + 1 then s.retrain p else s

/-! ### Flits (R345, R348, Table 15.6) -/

/-- A sequenced flit that is not the one expected is dropped; one REPLAY is sent (R348). -/
def State.outOfOrder (s : State) (p : Nat) : State := if (s.port p).replayAt.isSome then s else s.sendReplay p

/-- What every flit taken brings: AACK and credit (R345). -/
def State.linkIn (s : State) (p aack credVc cred : Nat) : State := (s.takeAack p aack).takeCredit p credVc cred

/-- A sequenced flit is the one expected: it is taken, which is progress. -/
def State.seqIn (s : State) (p : Nat) : State :=
  let x := s.port p
  s.setPort p { x with rxSeq := (x.rxSeq + 1) % 4096, rxUnits := wrapAdd 48 x.rxUnits 1, replayAt := none, replayN := 0 }

/-- HELLO: the peer's module ID, and its buffers as the initial credit. A retraining keeps the credit it had, and takes a HELLO
ahead of its turn; when the peer's replay brings that flit again in its turn it says nothing new. Any other while UP is a violation
(Table 15.6, row 8). -/
def hello (p : Nat) (f : HelloF) (s : State) : State :=
  let x := s.port p
  let c := f.ctrl
  let q := c.fseq.toNat
  if x.mode != 0 then s
  else if x.st = 2 then
    if q != x.rxSeq then s.outOfOrder p
    else
      let s := (s.linkIn p c.aack.toNat c.credVc.toNat c.cred.toNat).seqIn p
      if x.helloSeq = some q then (State.pump p 1024 (s.setPort p { s.port p with helloSeq := none })).fill p
      else (s.violate p 8).retrain p
  else if x.st = 1 then
    ((s.setPort p { x with
      hello := true, peer := f.id.toNat, credit := [f.buf0.toNat, f.buf1.toNat, f.buf2.toNat, f.buf3.toNat]
      rxSeq := (q + 1) % 4096 }).takeAack p c.aack.toNat).helloDone p
  else if x.st = 3 then
    ((s.setPort p { x with
      hello := true, peer := f.id.toNat, rxSeq := if q = x.rxSeq then (q + 1) % 4096 else x.rxSeq
      helloSeq := if q = x.rxSeq then none else some q }).takeAack p c.aack.toNat).helloDone p
  else s

/-- REPLAY: resend from the named FSEQ. -/
def replay (p : Nat) (f : ReplayF) (s : State) : State :=
  let x := s.port p
  let c := f.ctrl
  if x.st != 2 || x.mode != 0 then s
  else if c.fseq.toNat != x.rxSeq then s.outOfOrder p
  else
    let s := (s.linkIn p c.aack.toNat c.credVc.toNat c.cred.toNat).seqIn p
    let s := match (s.port p).buf.findIdx? fun b => b.fseq == f.fseq.toNat with
      | some i => s.resendFrom p i
      | none => s
    (State.pump p 1024 s).fill p

/-- A CTRL flit: HELLO or REPLAY by its payload's first byte; another code is a reserved encoding (Table 15.6, row 1). -/
def State.ctrlFlit (s : State) (p : Nat) (l : List Byte) : State :=
  let c : CtrlF := ⟨.ofNat 12 (fFseq l), .ofNat 12 (fAack l), .ofNat 14 (fCred l), .ofNat 2 (fCredVc l)⟩
  let b (i : Nat) : BitVec 14 := .ofNat 14 (fieldLe l (0x10 + 2 * i) 2)
  match fieldLe l 0xC 1 with
  | 1 => hello p ⟨c, .ofNat 20 (fieldLe l 0xD 3), b 0, b 1, b 2, b 3⟩ s
  | 2 => replay p ⟨c, .ofNat 12 (fieldLe l 0xD 2)⟩ s
  | _ => if fFseq l != (s.port p).rxSeq then s.outOfOrder p
    else ((s.linkIn p (fAack l) (fCredVc l) (fCred l)).seqIn p).violate p 1

/-- A flit of a message, in sequence: the buffer it takes, and its breaches (Table 15.6, rows 1 to 3), which discard the message's
flits so far. -/
def State.flitIn (s : State) (p : Nat) (l : List Byte) : State :=
  let x := s.port p
  let vc := fVc l
  let owed := x.rxOwed.getD vc 0
  let stray := (fKind l = 2 && owed = 0) || (fKind l = 1 && owed != 0)
  let excess := decide (chanBuf vc ≤ x.held.getD vc 0)
  -- a first flit cuts a message that was not complete; one in the midst of none is discarded itself
  let n := if excess || (fKind l = 2 && owed = 0) then 0 else if fKind l = 1 then 1 else owed + 1
  let s := s.setPort p { x with
    rxOwed := x.rxOwed.set vc n, held := x.held.set vc (x.held.getD vc 0 + 1), freed := x.freed.set vc (x.freed.getD vc 0 + (owed + 1 - n)) }
  if fBad l then s.violate p 1 else if excess then s.violate p 2 else if stray then s.violate p 3 else s

/-- FLIT. A flit that fails its CRC or lies in an uncorrectable codeword is discarded and counted as class C (R345); an IDLE flit
brings AACK and credit; a sequenced one is taken in its turn. -/
def flit (p : Nat) (f : FlitF) (s : State) : State :=
  let x := s.port p
  let l := f.bytes
  if x.st != 2 || x.mode != 0 then s
  else
    let s := s.fecIn p f.corr f.unc
    if f.uncorr || !fGood l then { s with tel := { s.tel with cnt := mapUpd s.tel.cnt 0 0 fun c => wrapAdd 64 c 1 } }
    else if (s.port p).st != 2 then s
    else if fKind l = 0 then
      let s := s.linkIn p (fAack l) (fCredVc l) (fCred l)
      let s := if fBad l then s.violate p 1 else s
      (State.pump p 1024 s).fill p
    else if fKind l = 3 && !fBad l then s.ctrlFlit p l
    else if fFseq l != x.rxSeq then s.outOfOrder p
    else
      let s := (s.linkIn p (fAack l) (fCredVc l) (fCred l)).seqIn p
      let s := if fKind l = 1 || fKind l = 2 then s.flitIn p l else s.violate p 1
      (State.pump p 1024 s).fill p

/-! ### Ethernet (R356–R358) -/

/-- Destination addresses of PTP (R357; IEEE 1588-2019, Annexes D, E and F). -/
def ptpMacs : List Nat :=
  [0x011B19000000, 0x0180C200000E, 0x01005E000181, 0x01005E00006B, 0x333300000181, 0x33330000006B]

/-- What a frame carries above its MAC addresses. -/
inductive Above where
  | yaphor (src : Nat) (dport : Nat) (msg : List Byte)
  | ptp
  | other
  deriving DecidableEq, Repr

/-- A UDP datagram: its destination port and payload where LEN and checksum hold. `pseudo` is the sum of its pseudo-header. -/
def udpOf (pseudo : Nat) (v4 : Bool) (l : List Byte) : Option (Nat × List Byte) :=
  let n := fieldBe l 4 2
  if l.length < 8 || n < 8 || l.length < n then none
  else
    let d := l.take n
    let ck := fieldBe l 6 2
    let sum := inetSum (beBytes 8 pseudo ++ d)
    if (ck = 0 && v4) || sum = 65535 then some (fieldBe l 2 2, d.drop 8) else none

/-- The network layer of a frame: IPv4 without options or fragments, IPv6 without extension headers, or PTP (Table 15.5). -/
def aboveOf (etype : Nat) (l : List Byte) : Above :=
  let up (src : Nat) (u : Option (Nat × List Byte)) : Above := match u with
    | some (dp, m) => if dp = 319 || dp = 320 then .ptp else .yaphor src dp m
    | none => .other
  if etype = 0x88F7 then .ptp
  else if etype = 0x0800 then
    let n := fieldBe l 2 2
    if fieldBe l 0 1 != 0x45 || l.length < n || n < 28 || fieldBe l 9 1 != 17 || fieldBe l 6 2 % 0x4000 != 0
        || inetSum (l.take 20) != 65535 then .other
    else up (fieldBe l 12 4) (udpOf (inetSum (sliceBytes l 12 8) + 17 + (n - 20)) true ((l.take n).drop 20))
  else if etype = 0x86DD then
    let n := fieldBe l 4 2
    if fieldBe l 0 1 / 16 != 6 || l.length < 40 + n || fieldBe l 6 1 != 17 then .other
    else up (fieldBe l 8 16) (udpOf (inetSum (sliceBytes l 8 32) + 17 + n) false ((l.take (40 + n)).drop 40))
  else .other

/-- Targets that use a port (R357). -/
def State.portTargets (s : State) (p : Nat) : List (List Byte) :=
  (s.xpt.targets.map (·.2)).filter fun e => (tKind e == 1 || tKind e == 2) && tPort e == p

/-- Largest frame a port takes, FCS included (Table 15.5). -/
def State.frameMax (s : State) (p : Nat) : Nat := if (s.portTargets p).any fun e => bit (tFlags e) 1 then 9216 else 1518

/-- A message from a receiver (Table 14.7): ACK, NAK or CREDIT; any other is a violation. -/
def State.fromReceiver (s : State) (rx : YRx) (msg : List Byte) : State :=
  match fieldBe msg 3 1 with
  | 3 => ack rx msg s
  | 4 => nak rx msg s
  | 5 => credit rx msg s
  | _ => s.msgViolation rx msg 1

/-- A frame that R357 does not accept. -/
def State.dropFrame (s : State) (p : Nat) : State :=
  let x := s.port p
  s.setPort p { x with dropped := satAdd 16 x.dropped 1 }

/-- A frame that is accepted. -/
def State.takeFrame (s : State) (p : Nat) : State :=
  let x := s.port p
  s.setPort p { x with rxUnits := wrapAdd 48 x.rxUnits 1 }

/-- ETHERNET_FRAME: `f` is the frame from its destination MAC to the byte before its FCS. The effect of a PTP message is that of
PTP_MESSAGE. Codewords that the PCS could not correct retrain the port as they do a Lerbo port (R341, R342). -/
def ethernetFrame (p : Fin 96) (c : FrameF) (f : List Byte) (s : State) : State :=
  let s := if (s.port p.val).st = 2 && (s.port p.val).mode != 0 then s.fecIn p.val c.corr c.unc else s
  let x := s.port p.val
  if x.st != 2 || x.mode = 0 then s
  else if !c.fcs then s.setPort p.val { x with fecUnc := satAdd 16 x.fecUnc 1 }
  else
    let tagged := fieldBe f 12 2 == 0x8100
    let l := f.drop (if tagged then 18 else 14)
    let ts := s.portTargets p.val
    let dst := fieldBe f 0 6
    let tagOk := !tagged || ts.any fun e => bit (tFlags e) 2 && tTag e % 4096 == fieldBe f 14 2 % 4096
    if f.length < 14 || s.frameMax p.val < f.length + 4 || !(dst == x.mac || ptpMacs.contains dst) || !tagOk then s.dropFrame p.val
    else
      match aboveOf (fieldBe f (if tagged then 16 else 12) 2) l with
      | .ptp => s.takeFrame p.val
      | .yaphor src dp msg =>
        if ts.any fun e => fieldLe e 0x0C 2 == dp then
          (s.takeFrame p.val).fromReceiver ⟨p, false, .ofNat 128 src⟩ msg
        else s.dropFrame p.val
      | .other => s.dropFrame p.val

/-- PFC: the named priorities pause for their quanta of 512 bit times at the port's rate; a quanta of 0 ends a pause. -/
def pfc (p en quanta : Nat) (s : State) : State :=
  let x := s.port p
  if x.st != 2 || x.mode = 0 then s
  else
    let paused := (List.range 8).foldl (fun m i =>
      if bit en i then mapSet m i (s.now + ceilDiv (bits quanta (16 * i) 16 * 512000) (modeRate x.mode)) else m) x.paused
    s.setPort p { x with paused := paused }

/-! ### Messages over Lerbo (R337, R353) -/

/-- A YAPHOR message for this module: it is placed as a receiver places it, or acts on the stream whose receiver sent it. A
TELEMETRY message is not answered (R325). -/
def State.yaphorIn (s : State) (rx : YRx) (ctx : Nat) (msg : List Byte) : State :=
  match fieldBe msg 3 1 with
  | 3 => s.fromReceiver rx msg
  | 4 => s.fromReceiver rx msg
  | 5 => s.fromReceiver rx msg
  | 6 => s
  | _ => s.rxMessage rx.src.toNat ctx msg

/-- YAPHOR; a reserved field that is not zero is a violation (R7). -/
def yaphor (r : LRx) (ctx rsv : Nat) (msg : List Byte) (s : State) : State :=
  let (ok, s) := s.lerboRx r 0x31 (leBytes 2 ctx ++ leBytes 2 rsv ++ msg)
  if !ok then s
  else if rsv != 0 then s.violate r.port.val 1
  else s.yaphorIn ⟨r.port, true, r.src.setWidth 128⟩ ctx msg

/-- Deliver the messages that this module has sent to itself (R353): of those it sends by module ID only a stream's can name it. -/
def State.deliverLoop (s : State) : State :=
  s.lnk.loop.foldl (fun s m =>
    if m.mtype = 0x31 then s.yaphorIn ⟨0, true, .ofNat 128 m.src⟩ (fieldLe m.body 0 2) (m.body.drop 4) else s)
    { s with lnk := { s.lnk with loop := [] } }

/-! ### Commands -/

/-- EQUALISATION_DONE (R341). -/
def execEqualisationDone (p : Fin 96) (lock : Bool) (s : State) : Host.Outcome State Fault Refusal :=
  .next (equalisationDone p.val lock s)
/-- HELLO (R341). -/
def execHello (p : Fin 96) (f : HelloF) (s : State) : Host.Outcome State Fault Refusal := .next (hello p.val f s)
/-- FLIT (R345, R348). -/
def execFlit (p : Fin 96) (f : FlitF) (s : State) : Host.Outcome State Fault Refusal := .next (flit p.val f s)
/-- REPLAY (R348). -/
def execReplay (p : Fin 96) (f : ReplayF) (s : State) : Host.Outcome State Fault Refusal := .next (replay p.val f s)
/-- REPLAY_RETRY (R348). -/
def execReplayRetry (p : Fin 96) (s : State) : Host.Outcome State Fault Refusal :=
  .next (if s.replayDue p.val then s.sendReplay p.val else s)
/-- AACK_TIMEOUT (R342). -/
def execAackTimeout (p : Fin 96) (s : State) : Host.Outcome State Fault Refusal :=
  .next (if s.aackDue p.val then s.retrain p.val else s)
/-- LANE_LOCK_LOSS (R342): an UP port retrains; lanes that were being equalised begin again. -/
def execLaneLockLoss (p : Fin 96) (s : State) : Host.Outcome State Fault Refusal :=
  .next ((s.setPort p.val { s.port p.val with equal := false }).retrain p.val)
/-- RETRAIN_TIMEOUT (R342). -/
def execRetrainTimeout (p : Fin 96) (s : State) : Host.Outcome State Fault Refusal :=
  .next (if s.retrainDue p.val then s.portStops p.val 4 else s)
/-- TRAINING_TIMEOUT (R341). -/
def execTrainingTimeout (p : Fin 96) (s : State) : Host.Outcome State Fault Refusal :=
  .next (if s.trainDue p.val then s.portStops p.val 4 else s)
/-- DOWN_RETRY (R341). -/
def execDownRetry (p : Fin 96) (s : State) : Host.Outcome State Fault Refusal :=
  .next (if s.downDue p.val then s.train p.val else s)
/-- PLL_LOCK_LOSS (R340). -/
def execPllLockLoss (q : Fin 24) (s : State) : Host.Outcome State Fault Refusal := .next (pllLockLoss q.val s)
/-- PCFG_WRITE (R339). -/
def execPcfgWrite (p : Fin 96) (v : BitVec 64) (s : State) : Host.Outcome State Fault Refusal := .next (pcfgWrite p.val v.toNat s)
/-- UNQUAR (R361). -/
def execUnquar (p : Fin 96) (s : State) : Host.Outcome State Fault Refusal := .next (unquar p.val s)
/-- ETHERNET_FRAME (R357). -/
def execEthernetFrame (p : Fin 96) (f : FrameF) (frame : List Byte) (s : State) : Host.Outcome State Fault Refusal :=
  .next (ethernetFrame p f frame s)
/-- PFC (R358). -/
def execPfc (p : Fin 96) (en : BitVec 8) (quanta : BitVec 128) (s : State) : Host.Outcome State Fault Refusal :=
  .next (pfc p.val en.toNat quanta.toNat s)
/-- YAPHOR (R337). -/
def execYaphor (r : LRx) (ctx : BitVec 16) (rsv : BitVec 16) (msg : List Byte) (s : State) : Host.Outcome State Fault Refusal :=
  .next (yaphor r ctx.toNat rsv.toNat msg s)
/-- LERBO_FORWARD (R353): a message in transit; one for this module is not this command's. -/
def execLerboForward (r : LRx) (mtype : BitVec 8) (body : List Byte) (s : State) : Host.Outcome State Fault Refusal :=
  .next (s.lerboRx r mtype.toNat body).2

/-! ### Export (file 14) -/

/-- TARGET_WRITE (R317). -/
def execTargetWrite (t : Fin 256) (w : Fin 8) (v : BitVec 64) (s : State) : Host.Outcome State Fault Refusal :=
  .next (if s.barUp then targetWrite t.val w.val v.toNat s else s)
/-- PAGE_DATA (R324). -/
def execPageData (s : Fin 8192) (st : State) : Host.Outcome State Fault Refusal := .next (pageData s.val st)
/-- MANIFEST (R326). -/
def execManifest (s : Fin 8192) (st : State) : Host.Outcome State Fault Refusal := .next (manifest s.val st)
/-- ACK (R331). -/
def execAck (rx : YRx) (msg : List Byte) (s : State) : Host.Outcome State Fault Refusal := .next (ack rx msg s)
/-- NAK (R328). -/
def execNak (rx : YRx) (msg : List Byte) (s : State) : Host.Outcome State Fault Refusal := .next (nak rx msg s)
/-- CREDIT (R324). -/
def execCredit (rx : YRx) (msg : List Byte) (s : State) : Host.Outcome State Fault Refusal := .next (credit rx msg s)
/-- RETRANSMIT_TIMEOUT (R330). -/
def execRetransmitTimeout (s : Fin 8192) (st : State) : Host.Outcome State Fault Refusal := .next (retransmit s.val st)
/-- RATE_INCREASE (R332). -/
def execRateIncrease (s : Fin 8192) (st : State) : Host.Outcome State Fault Refusal := .next (rateIncrease s.val st)
/-- SEALED_TIMEOUT (R329). -/
def execSealedTimeout (s : Fin 8192) (st : State) : Host.Outcome State Fault Refusal := .next (sealedTimeout s.val st)

end Sys2Proof.Machine
end

