-- ==== Sys2Proof/Machine/Boot.lean ====
section
/-! DEFINITION. Resets and the boot chain (§18.1–§18.3, R434, R435), updates of flash (§18.4), attestation (§18.6) and PLDM
sensors (R426). -/
namespace Sys2Proof.Machine

/-! ### Module reset and power (R400, R411, R422, R434, R435) -/

/-- A device whose write is cut short: a component no longer verifies; a record's older copy stands (R400, R411). -/
def Flash.spoil (f : Flash) (kind : Nat) : Flash :=
  let bad (c : Option Comp) : Option Comp := c.map fun x => { x with good := false }
  match kind with
  | 1 => { f with fs := bad f.fs }
  | 2 => { f with mg := bad f.mg }
  | _ => { f with kt := bad f.kt }

/-- A reset during an update leaves the component that was being written unverifiable. -/
def Sec.cutUpdate (x : Sec) : Sec :=
  match x.busy with
  | some (.comp dev kind _) => if dev then { x with recovery := x.recovery.spoil kind } else { x with primary := x.primary.spoil kind }
  | _ => x

/-- The whole module is reset: nothing stays but the flash devices, the inputs, and what is outside the module. -/
def State.moduleReset (s : State) : State :=
  let sec := s.sec.cutUpdate
  { State.reset with
    pending := s.pending, free := s.free, out := s.out
    hst := { State.reset.hst with mem := s.hst.mem, errs := s.hst.errs }
    pins := { s.pins with thermtripN := true, ppsAt := none, vin := 0, iin := 0 }
    sec := { Sec.reset with primary := sec.primary, recovery := sec.recovery } }

/-- PERST: a low level of 1 µs resets the module; a shorter one is ignored; the rise lets the boot chain start. -/
def perst (level : Bool) (ns : Nat) (s : State) : State :=
  if level then { s with pins := { s.pins with perstN := true } }
  else if ns < 1000 then s
  else
    let s := s.moduleReset
    { s with pins := { s.pins with perstN := false } }

/-- PWR_GOOD_RISE: the module is still held in reset by PERST_N. -/
def pwrGoodRise (s : State) : State :=
  if s.pins.pwrGood then s
  else
    let s := s.moduleReset
    { s with pins := { s.pins with pwrGood := true } }

/-- POWER_LOSS: PWR_GOOD falls, every clock stops and nothing computed is kept; the full sequence of R435 is needed. -/
def powerLoss (s : State) : State :=
  let s := s.moduleReset
  { s with pins := { s.pins with pwrGood := false, perstN := false }, pwr := { s.pwr with stopped := List.range 100 } }

/-! ### The boot chain (R404–R408) -/

/-- The floor of a kind. -/
def floorOf (f : Nat × Nat × Nat) : Nat → Nat
  | 1 => f.1
  | 2 => f.2.1
  | _ => f.2.2

/-- The floor record in force. -/
def Sec.floor (x : Sec) : Nat × Nat × Nat := (readRec x.primary.floor_ x.recovery.floor_).getD (0, 0, 0)

/-- A device's component of a kind. -/
def Flash.comp (f : Flash) : Nat → Option Comp
  | 1 => f.fs
  | 2 => f.mg
  | _ => f.kt

/-- The first kind of a set that does not verify (R405, R410). -/
def Sec.failing (x : Sec) (dev : Bool) : Option Nat :=
  [1, 2, 3].find? fun k => match (if dev then x.recovery else x.primary).comp k with
    | some c => !c.good || decide (c.svn < floorOf x.floor k)
    | none => true

/-- Change the failed-start count of the boot record. -/
def Sec.setFails (x : Sec) (n : Nat) : Sec := x.setBoot { x.boot with fails := n }

/-- A start that fails at a stage: minimal mode where the rule says so or the count stands at 3; else the module is reset and
starts again (R406). -/
def State.failStart (s : State) (stage code detail : Nat) (own : Bool) : State :=
  if own || s.sec.boot.fails = 3 then ({ s with sec := { s.sec with stage := stage } }).enterMinimal code detail
  else s.moduleReset

/-- PLIM and DLIM of a profile (Table 17.2). -/
def profileLimits : Nat → Nat × Nat
  | 0 => (2600, 1000)
  | 1 => (2200, 770)
  | 2 => (1800, 540)
  | _ => (1400, 300)

/-- Stage 2's choice of profile (R408): its number and record, and whether the built-in one stands in. -/
def Sec.choose (x : Sec) : Nat × Profile × Bool :=
  let n := if x.boot.next.1 then x.boot.next.2 % 4 else x.pins
  match ((readRec x.primary.profs x.recovery.profs).getD []).getD n (false, Profile.builtIn) with
  | (true, p) => (n, p, false)
  | _ => (n, Profile.builtIn, true)

/-- The kite map (R14): on each compute die the logical kites are the first E enabled physical kites, in ascending order; the model
answers 64 × die + bit of the die's mask for each logical kite. -/
def Ident.kiteMap (i : Ident) : List Nat :=
  [i.map0, i.map1, i.map2, i.map3].zipIdx.flatMap fun m =>
    (((List.range 64).filter fun b => bit m.1 b).take (if i.full then 64 else 60)).map fun b => 64 * m.2 + b

/-- Stage 3: clocks, memory, kite map, margin plan, profile and ports (R229, R245, R397, R398, R408). -/
def State.bringUp (s : State) (n : Nat) (p : Profile) (i : Ident) : State :=
  let mg := (readRec s.sec.primary.margin s.sec.recovery.margin).getD ⟨[], [], 0, false, false, 0⟩
  let step := mg.armed && !mg.taken
  let die (d : Nat) : Die :=
    let v := i.vsol.getD d 7500
    { vsol := v, vdie := if step then v else mg.vdie.getD d v, steps := if step then 0 else mg.steps.getD d 0 }
  let bad := (readRec s.sec.primary.retired s.sec.recovery.retired).getD []
  let cut (l : List (Nat × Nat)) : List (Nat × Nat) := bad.foldl (fun l b => ivSub l b 1) l
  let s := { s with
    pwr := { s.pwr with
      stopped := s.pwr.stopped.filter fun d => !servingDomains.contains d
      active := n, plim := (profileLimits n).1, dlim := (profileLimits n).2
      dies := (List.range 4).map fun d => (d, die d)
      hours := mg.hours, taken := mg.taken || step, armed := false, proj := mg.proj }
    pgm := { s.pgm with
      freeH := cut [(0, hbmEnd / 4096)], freeL := cut [(loftBase / 4096, (extBase - loftBase) / 4096)]
      pool := [(poolBase / 4096, (loftEnd - poolBase) / 4096)], resBase := extBase, resSize := 32
      frames := bad.foldl (fun m b => mapSet m b { st := .retired, cls := 12, retire := true }) s.pgm.frames }
    sec := { s.sec with kmap := i.kiteMap }
    sch := { s.sch with period := p.period, ballast := p.ballast, gshare := p.gshare }
    lnk := { s.lnk with ports := (List.range 96).map fun k =>
      (k, ({ mode := p.ports.getD k 0 % 4, en := bit (p.ports.getD k 0) 2, mac := (i.mac + k) % 2 ^ 48 } : Port)) } }
  let s := if step then s.saveMargin else s
  (List.range 96).foldl (fun s k => if (s.port k).en then s.train k else s) s

/-- The limit that a stage exceeds: a failed start with reason TIMEOUT (R404). -/
def State.slowStart (s : State) (stage : Nat) : State := s.failStart stage 5 (stage + 1) false

/-- Stages 3 and 4, and READY. -/
def State.bootLate (s : State) (env : BootEnv) (n : Nat) (p : Profile) (i : Ident) (builtIn : Bool) : State :=
  if env.slow = some 2 then s.slowStart 2
  else
    match env.memFail with
    | some u => s.failStart 2 6 u.toNat false
    | none =>
      let s := s.bringUp n p i
      let s := if builtIn then s.log ⟨.c, uBoot, evProfileDefault, 0xFFFF, 0xFFFF, 0⟩ else s
      let s := { s with sec := { s.sec with stage := 3 } }
      if env.slow = some 3 then s.slowStart 3
      else
        match env.testFail with
        | some (k, c) =>
          let (r, s) := s.logRecord ⟨.f, uKite, 0, k.toNat, 0xFFFF, 0⟩
          ({ s with sec := s.sec.setBoot { s.sec.boot with fatal := some r } }).failStart 3 7 (k.toNat + 256 * c.toNat) true
        | none => { s with sec := { s.sec.setFails 0 with stage := 4 } }

/-- Stage 2. -/
def State.bootSecond (s : State) (env : BootEnv) : State :=
  if env.slow = some 1 then s.slowStart 1
  else
    match readRec s.sec.primary.ident s.sec.recovery.ident with
    | none => s.failStart 1 3 0 false
    | some i =>
      let s := { s with sec := { s.sec with ident := some i, identOk := true } }
      if !env.unseals then s.failStart 1 4 0 false
      else
        let (n, p, builtIn) := s.sec.choose
        let s := { s with sec := { (if s.sec.boot.next.1 then s.sec.setBoot { s.sec.boot with next := (false, 0) } else s.sec) with prof := some p } }
        s.bootLate env n p i builtIn

/-- The boot chain: from stage 1 to READY, to minimal mode, or back to the next start. -/
def State.boot (s : State) (env : BootEnv) : State :=
  let s := { s with sec := { s.sec with recPin := !env.recoveryN, pins := env.profileSel.toNat } }
  if !env.recoveryN then s.failStart 0 1 0 true
  else
    let s := { s with sec := s.sec.setFails (min 3 (s.sec.boot.fails + 1)) }
    if env.slow = some 0 then s.slowStart 0
    else
      match s.sec.failing false, s.sec.failing true with
      | some _, some k => s.failStart 0 2 k false
      | a, _ =>
        let dev := a.isSome
        let f := if dev then s.sec.recovery else s.sec.primary
        let s := { s with sec := { s.sec with
          set := dev, fwDig := [1, 2, 3].map fun k => ((f.comp k).map Comp.digest).getD 0 } }
        s.bootSecond env

/-- Whether nothing holds the module in reset (R434, R435). -/
def State.released (s : State) : Bool := s.pins.pwrGood && s.pins.perstN

/-- MODULE_RESET: the module is reset and its start runs. -/
def moduleResetCmd (env : BootEnv) (s : State) : State :=
  let s := s.moduleReset
  if s.released then s.boot env else s

/-- BOOT_STAGE_TIMEOUT: a start that has not ended fails at a stage. -/
def bootTimeout (stage : Nat) (s : State) : State :=
  if !s.released || 3 < s.sec.stage then s
  else
    let s := if s.sec.stage = 0 then { s with sec := s.sec.setFails (min 3 (s.sec.boot.fails + 1)) } else s
    s.slowStart stage

/-! ### Updates (R409–R412) -/

/-- Set the status of the last update command. -/
def State.updStatus (s : State) (c : Nat) : State := { s with sec := { s.sec with status := c } }

/-- Bytes at the staging location, none where memory gives bad data (R412). An access outside the memory tiers is logged as class V
and reads zeros (R226). -/
def State.staged (s : State) (o n : Nat) : Option (List Byte) × State :=
  if s.minimal then (some ((List.range n).map fun i => mapGetD s.sec.staging (o + i) 0), s)
  else if !(inTiers (s.sec.addr + o) && inTiers (s.sec.addr + o + n - 1)) then
    (some (List.replicate n 0), s.ignoredReg uBoot)
  else
    let (l, bad, s) := s.readMem (s.sec.addr + o) n
    (if bad.isEmpty then some l else none, s)

/-- Largest payload of a kind (Table 18.4). -/
def kindLimit : Nat → Nat
  | 1 => 1043219
  | 2 => 15723283
  | 3 => 16771859
  | _ => 60179

/-- Whether a component's header breaks Table 18.4. -/
def badHeader (h : List Byte) : Bool :=
  let k := fieldLe h 4 1
  fieldLe h 0 4 != 0x57465A56 || k = 0 || 4 < k || fieldLe h 5 3 != 0 || kindLimit k < fieldLe h 0xC 4

/-- Whether a component's digest and signature verify (R405). -/
def componentGood (l : List Byte) (n : Nat) : Bool :=
  let key := sliceBytes l 0x30 1952
  digest (sliceBytes l 0x800 n) == fieldLe l 0x10 32 && digest key == Config.romKeyDigest
    && Config.verify key [] (l.take (0x800 + n)) (sliceBytes l (0x800 + n) 3309)

/-- Whether every stored component has an SVN at or above new floors (R410). -/
def Sec.floorSafe (x : Sec) (f : Nat × Nat × Nat) : Bool :=
  [x.primary, x.recovery].all fun d => [1, 2, 3].all fun k => match d.comp k with
    | some c => decide (floorOf f k ≤ c.svn)
    | none => false

/-- The check of a staged component: the status that refuses it, or the write it leads to. -/
def Sec.componentOp (x : Sec) (dev : Bool) (l : List Byte) : Nat ⊕ FlashOp :=
  let k := fieldLe l 4 1
  let n := fieldLe l 0xC 4
  let svn := fieldLe l 8 2
  if !componentGood l n then .inl 2
  else if k = 4 then
    let old := x.floor
    let f := (max old.1 (fieldLe l 0x800 2), max old.2.1 (fieldLe l 0x802 2), max old.2.2 (fieldLe l 0x804 2))
    if x.floorSafe f then .inr (.floor_ f) else .inl 7
  else if svn < floorOf x.floor k then .inl 3
  else .inr (.comp dev k ⟨true, svn, fieldLe l 0xA 2, fieldLe l 0x10 32⟩)

/-- COMPONENT (R411). -/
def component (dev : Bool) (s : State) : State :=
  if !s.glbUp then s
  else
    let s := { s with sec := { s.sec with dev := dev } }
    if s.sec.busy.isSome then s.updStatus 4
    else if s.sec.lockUpd then s.updStatus 5
    else
      let (h, s) := s.staged 0 0x800
      match h with
      | none => s.updStatus 2
      | some h =>
        if badHeader h then s.updStatus 1
        else
          let (l, s) := s.staged 0 (0x800 + fieldLe h 0xC 4 + 3309)
          match l with
          | none => s.updStatus 2
          | some l =>
            match s.sec.componentOp dev l with
            | .inl c => s.updStatus c
            | .inr op => { s with sec := { s.sec with busy := some op } }

/-- A profile record of the staging location, none where a field is out of range (Table 18.5). -/
def profileOf (l : List Byte) (i : Nat) : Option Profile :=
  let ports := (List.range 96).map fun p => fieldLe l (0x10 + p) 1
  let per := fieldLe l 4 4
  let bal := fieldLe l 8 1
  if fieldLe l 0 1 != i || 1 < fieldLe l 1 1 || fieldLe l 2 2 != 0 || per < 1000 || 100000 < per || bal < 10 || 250 < bal
      || 50 < fieldLe l 9 1 || fieldLe l 0xA 6 != 0 || ports.any (fun p => decide (8 ≤ p)) then none
  else some ⟨fieldLe l 1 1 == 1, per, bal, fieldLe l 9 1, ports, fieldLe l 0x70 32⟩

/-- PROFILES (R409): four records of 144 bytes; refused in minimal mode, which does not accept it. -/
def profiles (s : State) : State :=
  if !s.barUp then s
  else if s.sec.busy.isSome then s.updStatus 4
  else if s.sec.lockProf then s.updStatus 5
  else
    let (l, s) := s.staged 0 576
    match l with
    | none => s.updStatus 2
    | some l =>
      let ps := (List.range 4).map fun i => profileOf (sliceBytes l (144 * i) 144) i
      if ps.any Option.isNone then s.updStatus 1
      else { s with sec := { s.sec with busy := some (.profs (ps.filterMap id)) } }

/-- Put a component on a device. -/
def Flash.setComp (f : Flash) (kind : Nat) (c : Comp) : Flash :=
  match kind with
  | 1 => { f with fs := some c }
  | 2 => { f with mg := some c }
  | _ => { f with kt := some c }

/-- What a write leaves in flash when it ends well. -/
def Sec.writeOp (x : Sec) : FlashOp → Sec
  | .comp dev k c => if dev then { x with recovery := x.recovery.setComp k c } else { x with primary := x.primary.setComp k c }
  | .floor_ f =>
    let (a, b) := writeRec x.primary.floor_ x.recovery.floor_ f
    { x with primary := { x.primary with floor_ := a }, recovery := { x.recovery with floor_ := b } }
  | .profs ps =>
    let (a, b) := writeRec x.primary.profs x.recovery.profs (ps.map fun p => (true, p))
    { x with primary := { x.primary with profs := a }, recovery := { x.recovery with profs := b } }

/-- UPDATE_DONE: the write has ended and been compared. -/
def updateDone (ok : Bool) (s : State) : State :=
  match s.sec.busy with
  | none => s
  | some op => { s with sec := { (if ok then s.sec.writeOp op else s.sec.cutUpdate) with busy := none, status := if ok then 0 else 6 } }

/-- RESET (R417): SEC.UPDATE resets the module. -/
def resetCmd (s : State) : State := if s.glbUp then s.moduleReset else s

/-- PROFILE_NEXT_WRITE (R409): refused while SEC.LOCK.PROF is 1. -/
def profileNext (v : Nat) (s : State) : State :=
  if !s.glbUp || s.sec.lockProf then s
  else { s with sec := s.sec.setBoot { s.sec.boot with next := (bit v 2, v % 4) } }

/-! ### Attestation (R415, R416) -/

/-- Response and error codes of SPDM 1.4 (DMTF DSP0274). -/
def spdmError : Nat := 0x7F

/-- An SPDM response: nothing answers while PWR_GOOD is low (R428). -/
def State.respond (s : State) (code : Nat) (data : List Byte) : State := s.emit (.spdm code data)

/-- Whether the management bus answers. -/
def State.smbUp (s : State) : Bool := s.pins.pwrGood && s.glbUp

/-- A request's frame: its version, and how far the exchange has come; `ready` says what must precede it. -/
def State.spdm (s : State) (f : SpdmF) (version : Nat) (ready : Bool) (go : State → State) : State :=
  if !s.smbUp then s
  else if f.version.toNat != version then s.respond spdmError [0x41, 0]
  else if !ready then s.respond spdmError [0x04, 0]
  else go s

/-- GET_VERSION: SPDM 1.4 alone; the exchange begins again. -/
def getVersion (f : SpdmF) (s : State) : State :=
  s.spdm f 0x10 true fun s =>
    ({ s with sec := { s.sec with spdmVer := true, spdmCap := false, spdmAlg := false } }).respond 0x04 [0, 1, 0x00, 0x14]

/-- GET_CAPABILITIES: CERT_CAP, CHAL_CAP and signed, fresh measurements; no session, mutual authentication or provisioning. -/
def getCapabilities (f : SpdmF) (s : State) : State :=
  s.spdm f 0x14 s.sec.spdmVer fun s =>
    ({ s with sec := { s.sec with spdmCap := true, spdmAlg := false } }).respond 0x61 (leBytes 4 0x36)

/-- NEGOTIATE_ALGORITHMS: ML-DSA-65 and SHA3-384, where the requester offers both. -/
def negotiate (f : SpdmF) (s : State) : State :=
  s.spdm f 0x14 s.sec.spdmCap fun s =>
    if bit f.asym.toNat 1 && bit f.hash.toNat 4 then
      ({ s with sec := { s.sec with spdmAlg := true } }).respond 0x63 (leBytes 8 2 ++ leBytes 4 16)
    else s.respond spdmError [0x01, 0]

/-- The certificate chain of slot 0. -/
def State.certChain (s : State) : List Byte := (s.sec.ident.map (·.cert)).getD []

/-- GET_DIGESTS. -/
def getDigests (f : SpdmF) (s : State) : State :=
  s.spdm f 0x14 s.sec.spdmAlg fun s => s.respond 0x01 ([1] ++ sha3x384 s.certChain)

/-- GET_CERTIFICATE: a portion of slot 0's chain; no other slot is provisioned. -/
def getCertificate (f : SpdmF) (s : State) : State :=
  s.spdm f 0x14 s.sec.spdmAlg fun s =>
    let l := s.certChain.drop f.off.toNat
    if f.p1.toNat % 16 != 0 || l.isEmpty then s.respond spdmError [0x01, 0]
    else
      let part := l.take f.len.toNat
      s.respond 0x02 (leBytes 2 part.length ++ leBytes 2 (l.length - part.length) ++ part)

/-- Digest of a profile record's bytes (Table 18.5). -/
def profileDigest (n : Nat) (p : Profile) : Nat :=
  digest (leBytes 1 n ++ leBytes 1 (b2n p.modelSig) ++ leBytes 2 0 ++ leBytes 4 p.period ++ leBytes 1 p.ballast
    ++ leBytes 1 p.gshare ++ leBytes 6 0 ++ (List.range 96).map (fun i => BitVec.ofNat 8 (p.ports.getD i 0)) ++ leBytes 32 p.opkey)

/-- Higher write count of the two copies of a record. -/
def recCount {α : Type} (a b : FRec α) : Nat := max (if a.good then a.count else 0) (if b.good then b.count else 0)

/-- A measurement (Table 18.8). -/
def State.measurement (s : State) (i : Nat) : Option Nat :=
  let x := s.sec
  match i with
  | 0 => none
  | 1 => some Config.romDigest
  | 2 => some (x.fwDig.getD 0 0)
  | 3 => some (x.fwDig.getD 1 0)
  | 4 => some (x.fwDig.getD 2 0)
  | 5 => some (Config.recordDigest 0 (recCount x.primary.ident x.recovery.ident))
  | 6 => some (profileDigest s.pwr.active (x.prof.getD Profile.builtIn))
  | 7 => some (Config.recordDigest 1 (recCount x.primary.floor_ x.recovery.floor_))
  | 8 => some (Config.recordDigest 2 (recCount x.primary.margin x.recovery.margin))
  | _ =>
    if 16 ≤ i && i < 32 then
      some (match mapGet s.hst.models (i - 16) with
        | some m => if m.filling then 0 else m.digest
        | none => 0)
    else none

/-- Indices of Table 18.8. -/
def measureIdx : List Nat := (List.range 8).map (· + 1) ++ (List.range 16).map (· + 16)

/-- Measurements as bytes: index and digest. -/
def State.measures (s : State) (is : List Nat) : List Byte :=
  is.flatMap fun i => leBytes 1 i ++ leBytes 32 ((s.measurement i).getD 0)

/-- Sign a response with the identity key: hedged ML-DSA-65, 3,309 bytes. SPDM 1.4 says how the response enters its transcript. -/
def State.spdmSign (s : State) (response : List Byte) : List Byte × State :=
  let l := Config.signature s.pubKey [] response s.free
  ((List.range 3309).map fun i => l.getD i 0, s.drew)

/-- CHALLENGE: digest of the chain, a fresh nonce, the measurement summary asked for, and the signature. -/
def challenge (f : SpdmF) (s : State) : State :=
  s.spdm f 0x14 s.sec.spdmAlg fun s =>
    if f.p1.toNat != 0 || s.certChain.isEmpty then s.respond spdmError [0x01, 0]
    else
      let sum := if f.p2 = 0 then [] else sha3x384 (s.measures measureIdx)
      let nonce := (List.range 32).map fun i => Config.freeByte 1 (32 * s.free + i)
      let d := sha3x384 s.certChain
      let (sig, s) := s.drew.spdmSign (d ++ nonce ++ sum)
      s.respond 0x03 (d ++ nonce ++ sum ++ sig)

/-- GET_MEASUREMENTS: the number of measurements, one of them, or all, as of one instant; signed where asked. -/
def getMeasurements (f : SpdmF) (s : State) : State :=
  s.spdm f 0x14 s.sec.spdmAlg fun s =>
    let op := f.p2.toNat
    let is := if op = 0 then some [] else if op = 0xFF then some measureIdx else if measureIdx.contains op then some [op] else none
    match is with
    | none => s.respond spdmError [0x01, 0]
    | some is =>
      let n := if op = 0 then measureIdx.length else is.length
      let d := leBytes 1 n ++ s.measures is
      if bit f.p1.toNat 0 then
        let (sig, s) := s.spdmSign d
        s.respond 0x60 (d ++ sig)
      else s.respond 0x60 d

/-! ### PLDM (R426) -/

/-- The latest tick record. -/
def State.lastRecord (s : State) : Option (List Byte) :=
  s.tel.recs.foldl (fun (b : Option (List Byte)) r => match b with
    | none => some r.2
    | some x => if fieldLe x 0 8 < fieldLe r.2 0 8 then some r.2 else b) none

/-- Sum of a field over the records of the last 1,000 ticks. -/
def State.lastThousand (s : State) (f : List Byte → Nat) : Nat :=
  match s.lastRecord with
  | none => 0
  | some x => ((s.tel.recs.filter fun r => decide (fieldLe x 0 8 < fieldLe r.2 0 8 + 1000)).map fun r => f r.2).foldl (· + ·) 0

/-- A numeric sensor (Table 19.5): from the latest tick record, or the latest sample in minimal mode and before any record. -/
def State.sensor (s : State) (id : Nat) : Option Nat :=
  let rcd := if s.minimal then none else s.lastRecord
  let by_ (o n : Nat) (v : Nat) : Nat := match rcd with
    | some x => fieldLe x o n
    | none => v
  if id = 1 then some (by_ 0x16 2 s.pwr.last)
  else if 2 ≤ id && id ≤ 5 then some (by_ (0x18 + (id - 2)) 1 (s.die (id - 2)).tj)
  else if 6 ≤ id && id ≤ 9 then some (by_ (0x1C + (id - 6)) 1 (s.die (id - 6)).mem)
  else if id = 10 then some (by_ 0x20 1 (s.die 4).tj)
  else if id = 11 then some (by_ 0x21 1 (s.die 4).mem)
  else if id = 12 then some s.reserve
  else if id = 13 then some (s.pwr.proj - s.pwr.hours / 24)
  else if id = 14 then some (s.lastThousand fun x => fieldLe x 0x26 2)
  else if id = 15 then some (s.lastThousand fun x => fieldLe x 0x22 1 % 2)
  else none

/-- PLDM_SENSOR_REQUEST. -/
def pldmSensor (id : Nat) (s : State) : State :=
  if !s.smbUp then s
  else
    match s.sensor id with
    | some v => s.emit (.pldm id v)
    | none => s.emit (.pldmInvalid id)

/-! ### Commands -/

/-- PERST (R435). -/
def execPerst (level : Bool) (ns : Nat) (s : State) : Host.Outcome State Fault Refusal := .next (perst level ns s)
/-- MODULE_RESET (R404). -/
def execModuleReset (env : BootEnv) (s : State) : Host.Outcome State Fault Refusal := .next (moduleResetCmd env s)
/-- BOOT_STAGE_TIMEOUT (R404). -/
def execBootStageTimeout (stage : Fin 4) (s : State) : Host.Outcome State Fault Refusal := .next (bootTimeout stage.val s)
/-- PWR_GOOD_RISE (R434). -/
def execPwrGoodRise (s : State) : Host.Outcome State Fault Refusal := .next (pwrGoodRise s)
/-- POWER_LOSS (R434). -/
def execPowerLoss (s : State) : Host.Outcome State Fault Refusal := .next (powerLoss s)
/-- COMPONENT (R411). -/
def execComponent (dev : Bool) (s : State) : Host.Outcome State Fault Refusal := .next (component dev s)
/-- PROFILES (R409). -/
def execProfiles (s : State) : Host.Outcome State Fault Refusal := .next (profiles s)
/-- UPDATE_DONE (R411). -/
def execUpdateDone (ok : Bool) (s : State) : Host.Outcome State Fault Refusal := .next (updateDone ok s)
/-- RESET (R417). -/
def execReset (s : State) : Host.Outcome State Fault Refusal := .next (resetCmd s)
/-- PROFILE_NEXT_WRITE (R409). -/
def execProfileNextWrite (v : BitVec 64) (s : State) : Host.Outcome State Fault Refusal := .next (profileNext v.toNat s)
/-- GET_VERSION (R415). -/
def execGetVersion (f : SpdmF) (s : State) : Host.Outcome State Fault Refusal := .next (getVersion f s)
/-- GET_CAPABILITIES (R415). -/
def execGetCapabilities (f : SpdmF) (s : State) : Host.Outcome State Fault Refusal := .next (getCapabilities f s)
/-- NEGOTIATE_ALGORITHMS (R415). -/
def execNegotiateAlgorithms (f : SpdmF) (s : State) : Host.Outcome State Fault Refusal := .next (negotiate f s)
/-- GET_DIGESTS (R415). -/
def execGetDigests (f : SpdmF) (s : State) : Host.Outcome State Fault Refusal := .next (getDigests f s)
/-- GET_CERTIFICATE (R415). -/
def execGetCertificate (f : SpdmF) (s : State) : Host.Outcome State Fault Refusal := .next (getCertificate f s)
/-- CHALLENGE (R415). -/
def execChallenge (f : SpdmF) (s : State) : Host.Outcome State Fault Refusal := .next (challenge f s)
/-- GET_MEASUREMENTS (R416). -/
def execGetMeasurements (f : SpdmF) (s : State) : Host.Outcome State Fault Refusal := .next (getMeasurements f s)
/-- PLDM_SENSOR_REQUEST (R426). -/
def execPldmSensorRequest (id : BitVec 16) (s : State) : Host.Outcome State Fault Refusal := .next (pldmSensor id.toNat s)

end Sys2Proof.Machine
end

