-- ==== Sys2Proof/Machine/Sched.lean ====
section
/-! DEFINITION. The ticks of the step scheduler (§13.1, §13.2, §13.6–§13.8, §13.11): start and stop, the freeze, the tick start
and its step go, the end of a step and its cut, copies on the page copy path, and members of a spanning train. -/
namespace Sys2Proof.Machine

/-! ### Start and stop (R280, R311, R314) -/

/-- Entry cycles of the serving train's kites so far. -/
def State.entries (s : State) : Nat := (s.serveKites.map fun k => (s.kite k).mEntry).foldl (· + ·) 0

/-- SCH.TICK_CFG as it reads. -/
def Sch.tickCfg (x : Sch) : Nat := x.period + x.ballast * 2 ^ 17 + x.gshare * 2 ^ 25 + x.xshare * 2 ^ 32

/-- Send SCHED_CTL to every member (Table 15.4). -/
def State.schedCtl (s : State) (kind tick : Nat) (rest : List Byte) : State :=
  s.members.foldl (fun s m => s.lerboSend m 0x04 (leBytes 1 kind ++ leBytes 7 0 ++ leBytes 8 tick ++ rest)) s

/-- RUN_WRITE: RUN = 1 on a stopped scheduler fixes T0, the first multiple of P at least 1 ms later (R280). -/
def runWrite (run : Bool) (s : State) : State :=
  if !s.barUp then s
  else if run && s.sch.stopped then
    let t0 := ceilDiv (s.pwr.tb + 1000000) s.periodNs * s.periodNs
    let s := { s with
      tel := { s.tel with wins := [] }
      sch := { s.sch with
        run := true, stopped := false, t0 := t0, t0Set := true, plan := [], lastFreeze := none, cur := none, bnd := 0, bndTb := 0
        lostFrom := none, notBefore := 0, nextTick := 0, reports := [], bgPlan := [], bgNow := [], bgDone := [], duty0 := s.entries } }
    s.schedCtl 1 0 (leBytes 8 t0 ++ leBytes 8 s.sch.tickCfg)
  else { s with sch := { s.sch with run := run } }

/-! ### Background slots (R307, R308, R246) -/

/-- MiB of a tier. -/
def tierMib (loft : Bool) : Nat := if loft then 1769472 else 589824

/-- Where a uniform 24-hour pass would stand `ahead` ns from now, in MiB begun. -/
def State.scrubPlace (s : State) (loft : Bool) (ahead : Nat) : Nat :=
  let st := if loft then s.pgm.scrubStart.2 else s.pgm.scrubStart.1
  min (tierMib loft) (ceilDiv ((s.now + ahead - st) * tierMib loft) 86400000000000)

/-- Where an idle slot brings a pass: two ticks ahead of a uniform one, so that it ends within 24 hours (R246). -/
def State.scrubTarget (s : State) (loft : Bool) : Nat := s.scrubPlace loft (2 * s.periodNs)

/-- Position of a tier's pass. -/
def Pgm.scrubAt (p : Pgm) (loft : Bool) : Nat := if loft then p.scrubPos.2 else p.scrubPos.1

/-- Whether a tier's scrubber is more than one hour behind (MEM.SCRUB.BEHIND). -/
def State.scrubBehind (s : State) (loft : Bool) : Bool :=
  decide (s.pgm.scrubAt loft + tierMib loft / 24 < s.scrubPlace loft 0)

/-- The space, address and class of the granule that wear levelling moves next: a loft frame in ALLOC with count 1 that a leaf
maps, the lowest above the last one moved. -/
def State.wearNext (s : State) : Option Nat :=
  let c := s.sch.wearAt
  let fs := (s.pgm.spaces.flatMap fun (_, sp) => sp.leaves.map (·.frame)).filter fun a => isLoft a && (match s.pgm.frameAt a with
    | some f => f.st == .alloc && f.refcnt == 1
    | none => false)
  let low (l : List Nat) : Option Nat := l.foldl (fun (b : Option Nat) a => match b with
    | some x => some (min x a)
    | none => some a) none
  (low (fs.filter fun a => decide (c < a))).orElse fun _ => low fs

/-- Key of a background task: stacks 0–7, loft controllers from 16, scrubbers 48 and 49, wear levelling 50. -/
def bgTasks : List (Nat × Nat × Nat) :=
  ((List.range 8).map fun h => (h, 4000, 32000000)) ++ (List.range 12).map fun c => (16 + c, 8000, 64000000)

/-- Whether wear levelling has moved less than 1 GiB in the trailing hour that ends with tick j (R308). -/
def State.wearDue (s : State) (j : Nat) : Bool :=
  let w := s.sch.wear.filter fun x => decide (j < x.1 + ceilDiv 3600000000000 s.periodNs)
  decide ((w.map (·.2)).foldl (· + ·) 0 < 2 ^ 30) && s.wearNext.isSome

/-- Plan the slots of tick j (R308): due tasks in the order of Table 13.8 as committed slots within BR, a slot of up to BR with half
of what is left; then the scrubs that idle time may go on with. -/
def State.planSlots (s : State) (j : Nat) : State :=
  let p := s.periodNs
  let due (k win : Nat) : Bool := match mapGet s.sch.bgDone k with
    | some t => decide (t + ceilDiv win p ≤ j)
    | none => true
  let (ks, used) := bgTasks.foldl (fun (acc : List Nat × Nat) t =>
    if due t.1 t.2.2 && decide (acc.2 + t.2.1 ≤ p / 100) then (acc.1 ++ [t.1], acc.2 + t.2.1) else acc) (([] : List Nat), 0)
  let want := ([false, true].filter s.scrubBehind).map (48 + b2n ·) ++ if s.wearDue j then [50] else []
  let (big, _) := want.foldl (fun (acc : List Nat × Nat) k =>
    let t := (p / 100 - acc.2) / 2
    if t = 0 then acc else (acc.1 ++ [k], acc.2 + t)) (([] : List Nat), used)
  let idle := ([false, true].filter fun l => !big.contains (48 + b2n l) && decide (s.pgm.scrubAt l < s.scrubTarget l)).map (48 + b2n ·)
  { s with sch := { s.sch with
      bgDone := ks.foldl (fun m k => mapSet m k j) s.sch.bgDone, bgPlan := mapSet s.sch.bgPlan j (ks ++ big ++ idle)
      nBg := wrapAdd 32 s.sch.nBg (ks.length + big.length) } }

/-! ### The physical map as the scheduler writes it (R226) -/

/-- Write at a physical address: memory, the scratchpad of a kite, or bridle records by their words; outside the regions, and in the
reserved extent, which is the page manager's own, a class V event and nothing else (R226, R236). -/
def State.physWrite (s : State) (a : Nat) (l : List Byte) : State :=
  if writable a then { s with pgm := s.pgm.write a l }
  else
    match padAddr a, recordAddr a with
    | some (k, o), _ =>
      if s.kiteOn k then s.putKite (Fin.ofNat 256 k) (l.zipIdx.foldl (fun kt (b, i) => kt.storeBytes k (o + i) 1 b.toNat) (s.kite (Fin.ofNat 256 k)))
      else s.ignoredReg uSch
    | none, some _ => (List.range (l.length / 4)).foldl (fun s i =>
        let b := (a + 4 * i - 0x50000000000) / 16
        let v := fieldLe l (4 * i) 4
        if (a + 4 * i) % 16 = 0 then brdCount b v s else if (a + 4 * i) % 16 = 4 then brdAddW b v s else s) s
    | none, none => s.ignoredReg uSch

/-- Bytes at a physical address as the scheduler reads them: zero outside memory and the scratchpads. -/
def State.physBytes (s : State) (a n : Nat) : List Byte :=
  if inTiers a then s.pgm.bytes a n
  else
    match padAddr a with
    | some (k, o) =>
      if s.kiteOn k then (List.range n).map fun i => BitVec.ofNat 8 ((s.kite (Fin.ofNat 256 k)).rowRaw k ((o + i) / 512) / 2 ^ (8 * ((o + i) % 512)))
      else List.replicate n 0
    | none => List.replicate n 0

/-! ### The freeze (R286, R287, R254) -/

/-- Give a slot a private page at a virtual address, unless it has one: ALLOC in HBM and a MAP that adopts (R254). Its contents are
undefined. -/
def State.needPage (s : State) (n va cls : Nat) : State :=
  if (s.pgm.futureLeaf n va).isSome then s
  else
    match s.pgm.alloc false cls with
    | none => s.faultSlot n 6
    | some (a, p) =>
      let r := s.req n
      ({ s with pgm := (p.undefine a (2 ^ cls)).queue false (.map n va a cls false true) }).setReq n
        { r with reserve := r.reserve - 2 ^ (cls - 12) }

/-- Begin the copy of a page of a slot that has become write-protected since, with the rows below `pos`, for the step of tick j
(R254, R277). -/
def State.needCopy (s : State) (n pg pos j : Nat) (r : Req) (m : Model) : State :=
  let ls := (List.range m.nl).map fun l => s.pgm.futureLeaf n (pageVa n l pg (m.frameBytes r.logp))
  if !(ls.any fun l => l.any (·.wp)) || s.sch.copies.any (fun c => c.slot == n && c.page == pg && !c.comp) then s
  else
    let rows := pos - pg * 2 ^ r.logp
    let start := max s.pwr.tb ((s.sch.copies.map (·.fin)).foldl max 0)
    let c : Copy := { slot := n, page := pg, rows := rows, old := ls.map fun l => (l.map (·.frame)).getD 0, comp := false, path := []
                      tick := j, start := start, fin := start + copyNs (m.nl * 2 * m.nkv * rows * m.rb) }
    { s with sch := { s.sch with copies := s.sch.copies ++ [c] } }

/-- The pages that the appends of a chunk of tick j need, and, with its request's first chunk, its coarse index (R254, R261). -/
def State.needPages (s : State) (j : Nat) (c : Nat × Nat × Nat) : State :=
  let r := s.req c.1
  match s.model r.model with
  | none => s
  | some m =>
    if !r.live then s
    else
      let f := m.frameBytes r.logp
      let p0 := c.2.1 / 2 ^ r.logp
      let pages := (List.range ((c.2.1 + c.2.2 - 1) / 2 ^ r.logp + 1 - p0)).map (p0 + ·)
      let s := pages.foldl (fun s pg =>
        ((List.range m.nl).foldl (fun s l => s.needPage c.1 (pageVa c.1 l pg f) (m.frameClass r.logp)) s).needCopy c.1 pg c.2.1 j r m) s
      match m.coarseClass r with
      | some k => (List.range m.nl).foldl (fun s l => s.needPage c.1 (pageVa c.1 l 0 0 + 2 ^ 28) k) s
      | none => s

/-- Apply what the scheduler has queued for some slots when the boundary that begins their step is made already, so that the step
finds its pages mapped (R254). -/
def Pgm.lateEdits (p : Pgm) (slots : List Nat) : Pgm :=
  let mine (e : Edit) : Bool := !e.host && (match e.kind with
    | .map n _ _ _ _ _ => slots.contains n
    | .unmap n _ => slots.contains n
    | _ => false)
  let (q, c) := (p.edits.filter mine).foldl Pgm.applyEdit ({ p with edits := p.edits.filter fun e => !mine e }, {})
  c.decs.foldl Pgm.decFrame (c.incs.foldl Pgm.incFrame q)

/-- A length table entry (Table 12.2). -/
def State.ltEntry (s : State) (c : Nat × Nat × Nat) : List Byte :=
  let r := s.req c.1
  let x := r.contOf c.2.1 c.2.2
  leBytes 2 c.1 ++ leBytes 2 (x.nlast + 2 * b2n (x.nodes != 0) + 4 * x.nscore) ++ leBytes 4 c.2.1 ++ leBytes 4 c.2.2
    ++ leBytes 2 x.nodes ++ leBytes 2 0

/-- The step descriptor of tick j (Table 13.2). -/
def State.stepDescOf (s : State) (j : Nat) (t : TickPlan) : List Byte :=
  let x := s.contsOf t.chunks
  leBytes 8 j ++ leBytes 8 (s.pgm.epoch + (j - s.sch.bnd)) ++ leBytes 4 t.l ++ leBytes 2 t.chunks.length ++ leBytes 2 (ceilDiv x.ntok 128)
    ++ leBytes 4 x.ntok ++ leBytes 4 x.pairs ++ leBytes 2 t.model ++ List.replicate 222 0 ++ t.chunks.flatMap s.ltEntry

/-- First address of the descriptor of tick j (R287). -/
def State.descAt (s : State) (j : Nat) : Nat := s.sch.stepBase + j % 4 * 65536

/-- Send a descriptor to every member, up to 8,192 bytes a message (R312). -/
def State.sendDesc (s : State) (j : Nat) (d : List Byte) : State :=
  s.members.foldl (fun s m => (chunksOf 8192 d).zipIdx.foldl (fun s (c, i) =>
    s.lerboSend m 0x03 (leBytes 8 j ++ leBytes 4 (8192 * i) ++ leBytes 4 c.length ++ c)) s) s

/-- Whether the freeze of tick j is due. -/
def State.freezeDue (s : State) (j : Nat) : Bool :=
  !s.sch.stopped && j == (s.sch.lastFreeze.map (· + 1)).getD 0 && decide (s.tickStart j ≤ s.pwr.tb + 1500000)

/-- PLAN_FREEZE (R286). -/
def planFreeze (j : Nat) (s : State) : State :=
  if !s.freezeDue j then s
  else
    let s := (s.planSlots j).promote j
    let s := { s with sch := { s.sch with lastFreeze := some j } }
    match mapGet s.sch.plan j with
    | none => s
    | some t =>
      let s := t.chunks.foldl (fun s c => s.needPages j c) s
      let s := if j ≤ s.sch.bnd then { s with pgm := s.pgm.lateEdits (t.chunks.map (·.1)) } else s
      let t := { t with frozen := true, l := s.costOf t.model (s.contsOf t.chunks) }
      let s := { s with sch := { s.sch with plan := mapSet s.sch.plan j t } }
      if t.chunks.isEmpty then s
      else
        let d := s.stepDescOf j t
        (s.physWrite (s.descAt j) d).sendDesc j d

/-! ### Launching the serving train (R294, R305, R314) -/

/-- The launch of the program of a model slot, with ARG the descriptor ring (R294). -/
def State.modelLaunch (s : State) (m : Model) : LDesc :=
  let zb := ((mapGet s.brd.launches s.trainUnit).map (·.zb)).getD false
  ⟨s.trainUnit, runsN s.serveRuns, m.image + m.prog, m.progDigest, m.nbun, m.nch, zb, m.entry, s.sch.stepBase⟩

/-- Load every kite of the train on this module with a program and start it, whether or not it runs. -/
def State.reload (s : State) (l : LDesc) : State :=
  let (img, _, s) := s.readMem l.image l.imageLen
  let s := (s.mine ((s.unitRuns l.unit).getD [])).foldl (fun s x => s.setKite x.2 (loadImage img l (s.kite x.2))) s
  s.go l

/-- A model switch at the start of a switch tick. -/
def State.switchTo (s : State) (m : Nat) : State :=
  match s.model m with
  | none => s
  | some x =>
    let s := s.reload (s.modelLaunch x)
    { s with sch := { s.sch with swModel := some m } }

/-- The launch that a cut step's train is given again: its image. -/
def State.relaunchDesc (s : State) : Option LDesc :=
  match s.sch.swModel.bind s.model with
  | some x => some (s.modelLaunch x)
  | none => mapGet s.brd.launches s.trainUnit

/-- Relaunch the train that a cut left: at once on one module, by R214 where it spans modules and no command is in progress. -/
def State.tryRelaunch (s : State) : State :=
  match s.sch.relaunch with
  | none => s
  | some l =>
    if s.members.isEmpty then s.reload l
    else if s.unitBusy then s else s.launchWith l true

/-- Whether the relaunch of the serving train is in progress. -/
def State.relaunching (s : State) : Bool :=
  s.sch.relaunch.isSome && s.brd.op.any fun o => o.kind == 3 && o.unit == s.trainUnit

/-! ### The tick start and the step go (R285, R294, R159) -/

/-- Whether the serving train is launched (R285). -/
def State.trainUp (s : State) : Bool := (mapGet s.brd.launches s.trainUnit).isSome

/-- Mean duty of a tick that ends (Table 19.4). -/
def State.endDuty (s : State) (j : Nat) : State :=
  let e := s.entries
  let n := max 1 (s.serveKites.length * s.tickN)
  let s := if j = 0 then s else s.upTick (j - 1) fun w => { w with duty := min 0xFFFF ((e - s.sch.duty0) * 1000 / n) }
  { s with sch := { s.sch with duty0 := e } }

/-- The average input power of a tick that ends (R390): above 99.5 % of PLIM it is logged and lowers the profile capacity by
N ÷ 100, to no less than 80 %; each 1,000 ticks without restore as much. -/
def State.endPower (s : State) (j : Nat) : State :=
  let p := s.pwr
  if p.samples = 0 || j = 0 then { s with pwr := { p with sumW := 0, samples := 0 } }
  else
    let avg := p.sumW / p.samples
    let p := { p with last := min 0xFFFF avg, max_ := max p.max_ (min 0xFFFF avg), sumW := 0, samples := 0 }
    if p.plim * 995 < avg * 1000 then
      let s := (s.log ⟨.c, uPwr, evPowerHigh, 0xFFFF, 0xFFFF, 0⟩).upTick (j - 1) fun w => { w with high := true }
      { s with pwr := { p with high := satAdd 16 p.high 1, calm := 0, capLow := min (p.capLow + s.tickN / 100) (s.capP / 5) } }
    else
      let again := decide (1000 ≤ p.calm + 1)
      { s with pwr := { p with
          calm := if again then 0 else p.calm + 1, capLow := if again then p.capLow - s.tickN / 100 else p.capLow } }

/-- Whether tick j starts now. -/
def State.tickDue (s : State) (j : Nat) : Bool :=
  !s.sch.stopped && j == s.sch.nextTick && decide (s.tickStart j ≤ s.pwr.tb)

/-- Whether the scheduler comes to a stop at the start of tick j: RUN = 0, and nothing planned, running or held. -/
def State.comesToStop (s : State) (j : Nat) : Bool :=
  !s.sch.run && s.sch.bnd == j && s.sch.cur.isNone && s.sch.reqs.isEmpty && s.sch.plan.all fun x => x.2.chunks.isEmpty

/-- Whether tick j is lost: the boundary before it is late, a go must still wait, or the train's relaunch has failed (R285, R304,
R312, R314). -/
def State.tickLost (s : State) (j : Nat) : Bool :=
  let t := s.tickStart j
  s.sch.bnd < j || (j != 0 && decide (t ≤ s.sch.bndTb)) || t < s.sch.notBefore || s.sch.relaunch.isSome
    || (!s.members.isEmpty && j != 0 && decide (t ≤ s.sch.bndTb + 50000))

/-- Lose tick j: what it held is planned afresh after the boundary (R304). -/
def State.loseTick (s : State) (j : Nat) : State :=
  let s := s.upTick j fun w => { w with lost := true }
  { s with sch := { s.sch with
      nLost := satAdd 16 s.sch.nLost 1, lostFrom := if s.sch.notBefore ≤ s.tickStart j then some j else s.sch.lostFrom } }

/-- TICK_START (R285, R294, R304): a model switch launches the train; work without a launched train is lost. -/
def tickStart (j : Nat) (s : State) : State :=
  if !s.tickDue j then s
  else if s.comesToStop j then
    ({ s with sch := { s.sch with stopped := true, plan := [] } }).schedCtl 3 j []
  else
    let s := (s.endDuty j).endPower j
    let lost := s.tickLost j
    let tp := mapGet s.sch.plan j
    let sw := tp.any fun t => s.isSwitch s.sch.plan j t.model
    let s := { s with sch := { s.sch with nextTick := j + 1, plan := mapDel s.sch.plan j } }
    if lost then s.loseTick j
    else
      match tp with
      | none => s
      | some p =>
        let s := if sw then s.switchTo p.model else s
        if p.chunks.isEmpty then s
        else if !s.trainUp then s.loseTick j
        else { s with sch := { s.sch with
          cur := some ⟨j, s.tickStart j + (if sw then 400040 else 40), none, p.l, p.model, p.chunks, none, false⟩ } }

/-- Whether copies that the step of tick j needs are still to be completed (R277). -/
def State.copiesOwed (s : State) (j : Nat) : Bool := s.sch.copies.any fun c => !c.comp && decide (c.tick ≤ j)

/-- Whether the step go is due. -/
def State.goDue (s : State) : Bool := match s.sch.cur with
  | some c => c.go.isNone && decide (c.goAt ≤ s.pwr.tb) && !s.copiesOwed c.tick
  | none => false

/-- Positions mapped by reference are exported from the step of the first chunk on (R316). -/
def State.shipMatched (s : State) (c : Nat × Nat × Nat) : State :=
  let r := s.req c.1
  match s.model r.model with
  | none => s
  | some m =>
    if c.2.1 != r.matched || r.matched ≤ r.firstpos || !r.live then s
    else
      let ps := (List.range (r.matched - r.firstpos)).map (r.firstpos + ·)
      (List.range r.nlx).foldl (fun s l => (List.range (2 * m.nkv)).foldl (fun s sg => s.markFinal c.1 (r.l0 + l) sg ps) s) s

/-- A kite at the step go: it leaves TICKWAIT in cycle G (R159). -/
def goFrom (cyc : Nat) (kt : Kite) : Kite :=
  if kt.st = .tickwait then
    { kt with st := .issuing, goCycle := cyc, goLag := kt.lag, stepDone := false, stepTh := false }
  else kt

/-- Whether a reserved field of the length table in the ring is not zero (R255). -/
def State.ltBad (s : State) (j : Nat) : Bool :=
  let a := s.descAt j
  (List.range (min 1024 (leNat (s.physBytes (a + 0x14) 2)))).any fun i =>
    let e := s.physBytes (a + 0x100 + 16 * i) 16
    8 ≤ fieldLe e 2 2 || fieldLe e 0xE 2 != 0

/-- STEP_GO (R159): every kite at TICKWAIT is released in the present cycle. -/
def stepGo (s : State) : State :=
  match s.sch.cur with
  | none => s
  | some c =>
    if !s.goDue then s
    else if s.ltBad c.tick then s.fatal ⟨.f, uSch, 0, 0xFFFF, 0xFFFF, 0⟩ 0x0B
    else
      let s := { s with sch := { s.sch with cur := some { c with go := some s.cyc } } }
      let s := s.serveKites.foldl (fun s k => s.setKite k (goFrom s.cyc (s.kite k))) s
      c.chunks.foldl State.shipMatched s

/-! ### The end of a step (R160, R288, R303, R313) -/

/-- Change the stream of a slot, be it open or still to open. -/
def State.upStream (s : State) (n : Nat) (f : Stream → Stream) : State :=
  match mapGet s.xpt.soon n with
  | some x => { s with xpt := { s.xpt with soon := mapSet s.xpt.soon n (f x) } }
  | none => s.setStream n (f (s.stream n))

/-- Digests of a request's model and variant, 0 for none: what R42 lets its results depend on, beside its tokens. -/
def State.digestsOf (s : State) (r : Req) : Nat × Nat :=
  (((s.model r.model).map (·.digest)).getD 0, ((mapGet s.hst.variants r.variant).map (·.digest)).getD 0)

/-- The leaf weights that the scoring layers give each position, row by row, in the order of R264. -/
def State.massLeaves (s : State) (r : Req) (m : Model) : List (List Nat) :=
  let (dm, dv) := s.digestsOf r
  let w := min r.we r.length
  m.scoring.flatMap fun l => (List.range m.nqh).flatMap fun h => (List.range w).map fun i =>
    let q := r.length - w + i
    rowLeaves ((List.range r.length).map fun k =>
      if q < k then layFp32.infEnc true else (Config.scoreOf dm dv r.tokens r.parents l h q k).toNat)

/-- The kept-position bitmap of a SCORE request (R264, R265). -/
def State.keptMap (s : State) (r : Req) (m : Model) : List Bool :=
  let ls := s.massLeaves r m
  (List.range r.length).map fun p =>
    let x := fp32 (treeSum (ls.map (·.getD p 0)))
    x.isNan || !(x.lt (fp32 r.theta)) || decide (p < r.lv) || r.glist.contains p || decide (r.length ≤ p + r.we)

/-- What the end of a step gives a chunk's request: positions computed, and with its last chunk the first token (R299) and
the bitmap. -/
def State.chunkDone (s : State) (c : Nat × Nat × Nat) : State :=
  let r := s.req c.1
  if !r.live then s
  else
    let last := c.2.1 + c.2.2 == r.length
    let tok := (Config.firstToken (s.digestsOf r).1 (s.digestsOf r).2 r.tokens r.parents).toNat
    let s := s.setReq c.1 { r with
      done := max r.done (c.2.1 + c.2.2), lastEnded := r.lastEnded || last, firstTok := if last then some tok else r.firstTok }
    if last then s.upStream c.1 fun x =>
      { x with firstTok := some tok, lastDone := true, kept := if r.score then (s.model r.model).map (s.keptMap r) else x.kept, waits := false }
    else s

/-- Whether a kite has issued the STEPEND of a step with go in cycle g. -/
def Kite.ended (kt : Kite) (g : Nat) : Bool := kt.stepDone && kt.goCycle == g

/-- A member's report of a tick. -/
def State.reportOf (s : State) (m tick : Nat) : Option Report := s.sch.reports.find? fun r => r.modId == m && r.tick == tick

/-- The end of a step: its ballast use, an overrun or a cost mismatch (R288, R303). -/
def State.endStep (s : State) (c : StepRun) (g : Nat) : State :=
  let ks := s.serveKites.map s.kite
  let rs := s.members.filterMap fun m => s.reportOf m c.tick
  let u := ((ks.map fun k => k.stepCycles - c.l) ++ rs.map fun r => r.last - c.l).foldl max 0
  let h := ((ks.map (·.stepHolds)) ++ rs.map (·.holds)).foldl max 0
  let late := decide (s.tickBC < u)
  let th := late && ks.any fun k => k.stepTh
  let mis := u != 0 && h == 0
  let s := { s with sch := { s.sch with
    cur := some { c with ended := some s.pwr.tb, go := some g }, planned := c.l % 2 ^ 32, used := u % 2 ^ 32
    nOver := satAdd 16 s.sch.nOver (b2n late), nTherm := satAdd 16 s.sch.nTherm (b2n th), nMis := satAdd 16 s.sch.nMis (b2n mis)
    reports := s.sch.reports.filter fun r => r.tick != c.tick } }
  let s := if late then s.log ⟨.s, uSch, evOverrun, 0xFFFF, 0xFFFF, 0⟩ else s
  let s := if mis then s.log ⟨.s, uSch, evCostMismatch, 0xFFFF, 0xFFFF, 0⟩ else s
  let s := s.upTick c.tick fun w => { w with l := c.l, u := u, holdMax := h, overrun := late, thermal := w.thermal || th }
  if s.sch.following then s else c.chunks.foldl State.chunkDone s

/-- STEP_DONE of a member to its lead (R313). -/
def State.reportStep (s : State) (c : StepRun) : State :=
  let ks := s.serveKites.map s.kite
  s.lerboSend s.sch.leadId 0x13
    (leBytes 8 c.tick ++ leBytes 4 ((ks.map (·.stepCycles)).foldl max 0) ++ leBytes 4 ((ks.map (·.stepHolds)).foldl max 0))

/-- Take a step as ended when its kites, and every member, have reported (R160, R313). -/
def State.stepWatch (s : State) : State :=
  match s.sch.cur with
  | none => s
  | some c =>
    match c.go, c.ended with
    | some g, none =>
      if s.serveKites.all (fun k => (s.kite k).ended g)
          && (s.sch.following || s.members.all fun m => (s.reportOf m c.tick).isSome) then
        if s.sch.following then { (s.reportStep c) with sch := { s.sch with cur := none } } else s.endStep c g
      else s
    | _, _ => s

/-- Whether a step has not ended by the end of its window. -/
def State.cutDue (s : State) (j : Nat) : Bool := match s.sch.cur with
  | some c => c.tick == j && c.ended.isNone && decide (s.tickStart (j + 1) ≤ s.pwr.tb)
  | none => false

/-- Halt the kites of the serving train that have not issued STEPEND, each as HALT_REQ halts it (R305, R442). -/
def State.haltLate (s : State) (g : Option Nat) : State :=
  s.serveKites.foldl (fun s k => if g.any (s.kite k).ended then s else haltReq k s) s

/-- STEP_CUT (R305, R314). -/
def stepCut (j : Nat) (s : State) : State :=
  match s.sch.cur with
  | none => s
  | some c =>
    if !s.cutDue j then s
    else
      let g := c.go.getD s.cyc
      let s := s.haltLate c.go
      if s.sch.following then { s with sch := { s.sch with cur := none, mayReload := true } }
      else
        let silent := s.members.any fun m => (s.reportOf m j).isNone
        let used := s.cyc - g - c.l
        let l := s.relaunchDesc
        let s := { s with
          sch := { s.sch with
            cur := some { c with ended := some s.pwr.tb, cut := true }, nCut := satAdd 16 s.sch.nCut 1, planned := c.l % 2 ^ 32
            used := used % 2 ^ 32, relaunch := l, lostFrom := some j }
          brd := { s.brd with launches := mapDel s.brd.launches s.trainUnit } }
        let s := s.upTick j fun w => { w with l := c.l, u := used, cut := true }
        c.chunks.foldl (fun s ch =>
          let r := s.req ch.1
          if !r.live then s else if silent then s.faultSlot ch.1 7 else s.setReq ch.1 { r with expire := true })
          (if s.members.isEmpty then s else s.tryRelaunch)

/-! ### The page copy path (R277, R278, R267) -/

/-- Write a copy's rows of one layer's page: rows 0 to v − 1 of every section. -/
def State.copyRows (s : State) (m : Model) (psize rows old new_ : Nat) : State :=
  (List.range (2 * m.nkv)).foldl (fun s sg =>
    let o := sg * psize * m.rb
    let (l, bad, s) := s.readMem (old + o) (rows * m.rb)
    { s with pgm := (s.pgm.write (new_ + o) l).poison (bad.map fun b => (b * 64 - old + new_) / 64) }) s

/-- A copy on write ends: a private frame takes the place of each layer's page that is write-protected, its rows beyond those copied
undefined (R277). Where the boundary that begins the step is made already, the new mapping serves at once. -/
def State.cowDone (s : State) (c : Copy) (r : Req) (m : Model) : State :=
  let f := m.frameBytes r.logp
  let cls := m.frameClass r.logp
  let s := c.old.zipIdx.foldl (fun s (old, l) =>
    let va := pageVa c.slot l c.page f
    if !((s.pgm.futureLeaf c.slot va).any (·.wp)) then s
    else
      match s.pgm.alloc false cls with
      | none => s.faultSlot c.slot 6
      | some (a, p) =>
        let s := ({ s with pgm := p.undefine a (2 ^ cls) }).copyRows m (2 ^ r.logp) c.rows old a
        let p := (s.pgm.queue false (.unmap c.slot va)).queue false (.map c.slot va a cls false true)
        ({ s with pgm := p }).setReq c.slot { s.req c.slot with reserve := (s.req c.slot).reserve - 2 ^ (cls - 12) }) s
  let p := { s.pgm with cow := wrapAdd 32 s.pgm.cow 1 }
  { s with pgm := if c.tick ≤ s.sch.bnd then p.lateEdits [c.slot] else p }

/-- The accepted path of a tree: the model program's choice, a root node and descendants of it (R266). -/
def Req.pathTo (r : Req) : Nat → Nat → List Nat
  | 0, _ => []
  | n + 1, i =>
    let p := r.parents.getD i 0xFFFF
    if p < i then r.pathTo n p ++ [i] else [i]

/-- Physical address of a row of a slot. -/
def State.rowPhys (s : State) (n l sg pos : Nat) (r : Req) (m : Model) : Option Nat :=
  (rowVa n l (sg / 2) (sg % 2) pos (2 ^ r.logp) m.nkv m.rb).bind fun va =>
    ((mapGet s.pgm.spaces n).bind fun sp => sp.leafAt (va - spaceBase n)).map fun x => x.phys va

/-- Do something for every layer and section of a model's rows. -/
def Model.eachSection (m : Model) (f : State → Nat → Nat → State) (s : State) : State :=
  (List.range m.nl).foldl (fun s l => (List.range (2 * m.nkv)).foldl (fun s sg => f s l sg) s) s

/-- Copy one accepted row to its place in every layer and section, bad blocks poisoned there (R278). -/
def State.compactRow (s : State) (n frm dest : Nat) (r : Req) (m : Model) : State :=
  m.eachSection (fun s l sg =>
    match s.rowPhys n l sg frm r m, s.rowPhys n l sg dest r m with
    | some a, some b =>
      let (x, bad, s) := s.readMem a m.rb
      { s with pgm := (s.pgm.write b x).poison (bad.map fun k => (k * 64 - a + b) / 64) }
    | _, _ => s) s

/-- The row of a rejected node is dropped: undefined (R267). -/
def State.dropRow (s : State) (n pos : Nat) (r : Req) (m : Model) : State :=
  m.eachSection (fun s l sg =>
    match s.rowPhys n l sg pos r m with
    | some a => { s with pgm := s.pgm.undefine a m.rb }
    | none => s) s

/-- A compaction ends (R267): accepted rows in place, the rest dropped, the accepted rows final. -/
def State.compactDone (s : State) (c : Copy) (r : Req) (m : Model) : State :=
  let tb := r.treeBase
  let s := c.path.zipIdx.foldl (fun s (n, k) => if n = k then s else s.compactRow c.slot (tb + n) (tb + k) r m) s
  let len := tb + c.path.length
  let s := (List.range (r.length - len)).foldl (fun s i => s.dropRow c.slot (len + i) r m) s
  let f := m.frameBytes r.logp
  let psize := 2 ^ r.logp
  let gone := (List.range (ceilDiv r.length psize)).filter fun pg => decide (len ≤ pg * psize)
  let p := gone.foldl (fun p pg => (List.range m.nl).foldl (fun p l => p.queue false (.unmap c.slot (pageVa c.slot l pg f))) p) s.pgm
  let toks := r.tokens.take (tb - r.lv) ++ c.path.map fun n => r.tokens.getD (tb - r.lv + n) 0
  let s := ({ s with pgm := { p with compact := wrapAdd 16 p.compact 1 } }).setReq c.slot { r with
    length := len, done := len, tokens := toks, parents := [], tree := true }
  let s := s.upStream c.slot fun x => { x with m := len, mOpen := false, tokens := toks }
  let ps := (List.range c.path.length).map (tb + ·)
  (List.range r.nlx).foldl (fun s l => (List.range (2 * m.nkv)).foldl (fun s sg => s.markFinal c.slot (r.l0 + l) sg ps) s) s

/-- Whether the first copy of the path is complete. -/
def State.copyDue (s : State) : Bool := match s.sch.copies with
  | c :: _ => decide (c.fin ≤ s.pwr.tb)
  | [] => false

/-- PAGE_COPY_DONE: the first copy of the path is complete. -/
def pageCopyDone (s : State) : State :=
  match s.sch.copies with
  | [] => s
  | c :: rest =>
    if !s.copyDue then s
    else
      let r := s.req c.slot
      let s := { s with sch := { s.sch with copies := rest } }
      match s.model r.model with
      | none => s
      | some m => if !r.live then s else if c.comp then s.compactDone c r m else s.cowDone c r m

/-- Plan the compaction of a tree whose chunk has ended (R267). -/
def State.planCompact (s : State) (ch : Nat × Nat × Nat) : State :=
  let r := s.req ch.1
  match s.model r.model with
  | none => s
  | some m =>
    if !r.live || !r.tree || ch.2.1 + ch.2.2 != r.length || r.parents.isEmpty then s
    else
      let path := r.pathTo 256 (Config.acceptedNode (s.digestsOf r).1 (s.digestsOf r).2 r.tokens r.parents % r.parents.length)
      let n := (path.zipIdx.filter fun x => x.1 != x.2).length
      let start := max s.pwr.tb ((s.sch.copies.map (·.fin)).foldl max 0)
      let c : Copy := { slot := ch.1, page := 0, rows := n, old := [], comp := true, path := path, tick := s.sch.bnd
                        start := start, fin := start + copyNs (n * m.nl * 2 * m.nkv * m.rb) }
      { s with sch := { s.sch with copies := s.sch.copies ++ [c] } }

/-! ### Members of a spanning train (R310–R314) -/

/-- Whether a scheduler's message breaks row 10 of Table 15.6: not from the lead, or for a tick neither current nor next. -/
def State.rowTen (s : State) (fromOk : Bool) (tick : Nat) : Bool :=
  let n := s.tickOf s.pwr.tb
  !fromOk || !(if s.pwr.tb < s.sch.t0 then tick == 0 else tick == n || tick == n + 1)

/-- Whether a message comes from the lead that SCH.LEAD names. -/
def State.fromLead (s : State) (r : LRx) : Bool := s.sch.leadId == r.src.toNat

/-- SCHED_CTL_START: the member takes over the lead's windows (R311). -/
def memberStart (r : LRx) (tick t0 cfg rsv : Nat) (s : State) : State :=
  let (ok, s) := s.lerboRx r 0x04 (leBytes 1 1 ++ leBytes 7 rsv ++ leBytes 8 tick ++ leBytes 8 t0 ++ leBytes 8 cfg)
  if !ok then s
  else if rsv != 0 then s.violate r.port.val 1
  else if !s.fromLead r then s.violate r.port.val 10
  else if !s.sch.follow || bits cfg 0 17 = 0 then s
  else { s with sch := { s.sch with
    following := true, t0 := t0, t0Set := true, period := bits cfg 0 17, ballast := bits cfg 17 8, gshare := bits cfg 25 7
    xshare := bits cfg 32 7, nextTick := tick, boundOk := [], descGot := [], cur := none } }

/-- SCHED_CTL_BOUNDARY: the boundary before a tick is complete (R312). -/
def memberBoundary (r : LRx) (tick rsv : Nat) (s : State) : State :=
  let (ok, s) := s.lerboRx r 0x04 (leBytes 1 2 ++ leBytes 7 rsv ++ leBytes 8 tick)
  if !ok then s
  else if rsv != 0 then s.violate r.port.val 1
  else if s.sch.following then
    (if s.rowTen (s.fromLead r) tick then s.violate r.port.val 10 else { s with sch := { s.sch with boundOk := s.sch.boundOk ++ [tick] } })
  else if s.fromLead r then s
  else s.violate r.port.val 10

/-- SCHED_CTL_STOP: the member stops following (R314). -/
def memberStop (r : LRx) (tick rsv : Nat) (s : State) : State :=
  let (ok, s) := s.lerboRx r 0x04 (leBytes 1 3 ++ leBytes 7 rsv ++ leBytes 8 tick)
  if !ok then s
  else if rsv != 0 then s.violate r.port.val 1
  else if s.sch.following then
    (if s.rowTen (s.fromLead r) tick then s.violate r.port.val 10 else { s with sch := { s.sch with following := false } })
  else if s.fromLead r then s
  else s.violate r.port.val 10

/-- STEP_DESC: part of a step descriptor, written into the member's own ring (R312). -/
def memberDesc (r : LRx) (tick off : Nat) (data : List Byte) (s : State) : State :=
  let (ok, s) := s.lerboRx r 0x03 (leBytes 8 tick ++ leBytes 4 off ++ leBytes 4 data.length ++ data)
  if !ok then s
  else if data.isEmpty || 8192 < data.length || 65536 < off + data.length then s.violate r.port.val 3
  else if s.sch.following then
    (if s.rowTen (s.fromLead r) tick then s.violate r.port.val 10
     else
      let s := s.physWrite (s.descAt tick + off) data
      { s with sch := { s.sch with descGot := mapUpd s.sch.descGot tick 0 (· + data.length) } })
  else if s.fromLead r then s
  else s.violate r.port.val 10

/-- STEP_DONE: a member's report reaches the lead (R313). -/
def leadReport (r : LRx) (tick last holds : Nat) (s : State) : State :=
  let (ok, s) := s.lerboRx r 0x13 (leBytes 8 tick ++ leBytes 4 last ++ leBytes 4 holds)
  if !ok then s
  else if s.sch.stopped || s.rowTen (s.members.contains r.src.toNat) tick then s.violate r.port.val 10
  else if (s.reportOf r.src.toNat tick).isNone then
    { s with sch := { s.sch with reports := s.sch.reports ++ [⟨r.src.toNat, tick, last, holds⟩] } }
  else s

/-- Whether tick j starts on a member. -/
def State.memberDue (s : State) (j : Nat) : Bool :=
  s.sch.following && j == s.sch.nextTick && decide (s.tickStart j ≤ s.pwr.tb)

/-- The start of a tick on a member: its go, a model switch before it, or a class U event where it lacks what the go needs (R312). A
step whose descriptor it holds in part is cut on it as on its lead (R314). The record of the tick before the last is complete. -/
def memberTick (j : Nat) (s : State) : State :=
  if !s.memberDue j then s
  else
    let got := mapGetD s.sch.descGot j 0
    let d := s.physBytes (s.descAt j) 0x100
    let whole := decide (0x100 ≤ got) && decide (0x100 + 16 * fieldLe d 0x14 2 ≤ got)
    let bound := s.sch.boundOk.contains j || j == 0
    let m := fieldLe d 0x20 2
    let sw := s.trainModel != some m
    let s := if j < 2 then s else s.tickRecord (j - 2)
    let s := (s.endDuty j).endPower j
    let s := { s with sch := { s.sch with
      nextTick := j + 1, boundOk := s.sch.boundOk.filter fun t => decide (j < t), descGot := s.sch.descGot.filter fun x => decide (j < x.1)
      mayReload := !bound } }
    if whole && bound then
      let s := if sw then s.switchTo m else s
      { s with sch := { s.sch with
          cur := some ⟨j, s.tickStart j + (if sw then 400040 else 40), none, fieldLe d 0x10 4, m, [], none, false⟩ } }
    else
      let s := s.log ⟨.u, uSch, evMove 6, 0xFFFF, 0xFFFF, j⟩
      if got = 0 then s
      else { s with sch := { s.sch with cur := some ⟨j, s.tickStart (j + 2), none, 0, 0, [], none, false⟩ } }

/-! ### Commands -/

/-- RUN_WRITE (R280). -/
def execRunWrite (run : Bool) (s : State) : Host.Outcome State Fault Refusal := .next (runWrite run s)

/-- TICK_START (R285, R312). -/
def execTickStart (j : Nat) (s : State) : Host.Outcome State Fault Refusal :=
  .next (if s.sch.following then memberTick j s else tickStart j s)

/-- STEP_GO (R159). -/
def execStepGo (s : State) : Host.Outcome State Fault Refusal := .next (stepGo s)

/-- PLAN_FREEZE (R286). -/
def execPlanFreeze (j : Nat) (s : State) : Host.Outcome State Fault Refusal := .next (planFreeze j s)

/-- STEP_CUT (R305, R314). -/
def execStepCut (j : Nat) (s : State) : Host.Outcome State Fault Refusal := .next (stepCut j s)

/-- PAGE_COPY_DONE (R277, R267). -/
def execPageCopyDone (s : State) : Host.Outcome State Fault Refusal := .next (pageCopyDone s)

/-- STEP_DESC (R312). -/
def execStepDesc (r : LRx) (tick : BitVec 64) (off : BitVec 32) (data : List Byte) (s : State) : Host.Outcome State Fault Refusal :=
  .next (memberDesc r tick.toNat off.toNat data s)

/-- SCHED_CTL_START (R311). -/
def execSchedCtlStart (r : LRx) (tick t0 cfg : BitVec 64) (rsv : BitVec 56) (s : State) : Host.Outcome State Fault Refusal :=
  .next (memberStart r tick.toNat t0.toNat cfg.toNat rsv.toNat s)

/-- SCHED_CTL_BOUNDARY (R312). -/
def execSchedCtlBoundary (r : LRx) (tick : BitVec 64) (rsv : BitVec 56) (s : State) : Host.Outcome State Fault Refusal :=
  .next (memberBoundary r tick.toNat rsv.toNat s)

/-- SCHED_CTL_STOP (R314). -/
def execSchedCtlStop (r : LRx) (tick : BitVec 64) (rsv : BitVec 56) (s : State) : Host.Outcome State Fault Refusal :=
  .next (memberStop r tick.toNat rsv.toNat s)

/-- STEP_DONE (R313). -/
def execStepDone (r : LRx) (tick : BitVec 64) (last holds : BitVec 32) (s : State) : Host.Outcome State Fault Refusal :=
  .next (leadReport r tick.toNat last.toNat holds.toNat s)

end Sys2Proof.Machine
end

