-- ==== Sys2Proof/Machine/Bound.lean ====
section
/-! DEFINITION. The step boundary (R17, R240, R291–R302): the epoch boundary of the page manager, the insertion of finished
prompts into the prefix index, the states and outcomes of requests, and what the scheduler does as it completes. -/
namespace Sys2Proof.Machine

/-! ### Insertion into the prefix index (R273) -/

/-- Frames of a page of a slot, by layer; none unless every layer is mapped. -/
def State.pageFrames (s : State) (n pg : Nat) (r : Req) (m : Model) : Option (List Nat) :=
  (List.range m.nl).foldr (fun l acc =>
    match acc, (mapGet s.pgm.spaces n).bind fun sp => sp.leafAt (pageVa n l pg (m.frameBytes r.logp) - spaceBase n) with
    | some fs, some x => some (x.frame :: fs)
    | _, _ => none) (some [])

/-- Page digests of frames, one after another; none once a block of one is bad. -/
def State.pageDigests (s : State) (fs : List Nat) (nkv psize rb nv : Nat) : Option (List Nat) × State :=
  fs.foldl (fun (acc : Option (List Nat) × State) f =>
    let (l, s) := acc.2.pageRows f nkv psize rb nv
    (acc.1.bind fun ds => l.map fun x => ds ++ [digest x], s)) (some [], s)

/-- Insert one page: an entry under its context key, an INCREF of its frames, their leaves write-protected (R273, R276). A page that
cannot be read has no digest and is left out. -/
def State.insertPage (s : State) (n pg : Nat) (r : Req) (m : Model) : State :=
  let psize := 2 ^ r.logp
  let nv := min psize (r.length - pg * psize)
  let x := s.stream n
  let key (p : Nat) : Nat := digest (keyInput m.digest x.vdig psize (r.tokens.take (p - r.lv)))
  let ckey := key (pg * psize)
  match s.pageFrames n pg r m with
  | none => s
  | some fs =>
    if (s.pgm.entryOf ckey).any fun e => decide (nv ≤ e.nv) then s
    else
      let (ds, s) := s.pageDigests fs m.nkv psize m.rb nv
      match ds with
      | none => s
      | some ds =>
        let s0 := max (pg * psize) r.lv
        let e : PEntry := ⟨key (pg * psize + nv), m.digest, pg, nv, m.nl, false, s.pgm.epoch, fs, ds,
          (r.tokens.drop (s0 - r.lv)).take (pg * psize + nv - s0), 0⟩
        let p := fs.foldl (fun p f => (p.queue false (.inc f)).protectFrame f) (s.pgm.putEntry ckey e)
        { s with pgm := p }

/-- Queue the DROPSPACE of a slot's space, and release its reservation (R302). -/
def State.dropReq (s : State) (n : Nat) : State :=
  let p := s.pgm
  let none_ := (mapGet p.spaces n).isNone && (p.future n).isEmpty
  ({ s with pgm := if none_ then p else p.queueDrop false n }).setReq n
    { s.req n with dropped := true, reserve := 0, inserting := none }

/-- Insert the pages of a request that is DONE while the boundary's edits allow (R284), on a fuel of pages; then its space is
dropped. -/
def State.insertFrom (n : Nat) (m : Model) : Nat → State → State
  | 0, s => s
  | k + 1, s =>
    let r := s.req n
    match r.inserting with
    | none => s
    | some pg =>
      if r.length ≤ pg * 2 ^ r.logp then s.dropReq n
      else if !s.roomFor m.nl then s
      else State.insertFrom n m k ((s.insertPage n pg r m).setReq n { r with inserting := some (pg + 1) })

/-- Insert what is ready: requests whose migrations have ended. -/
def State.insertReady (s : State) : State :=
  (s.sch.reqs.filter fun x => x.2.inserting.isSome).foldl (fun s x =>
    if s.pgm.migs.any fun g => g.space == x.1 then s
    else
      match s.model x.2.model with
      | some m => State.insertFrom x.1 m (x.2.length / 2 ^ x.2.logp + 2) s
      | none => s.dropReq x.1) s

/-- Begin the insertion of a request that is DONE: frames with count 1 migrate to the loft first (R273). -/
def State.beginInsert (s : State) (n : Nat) : State :=
  let r := s.req n
  match s.model r.model with
  | none => s.dropReq n
  | some m =>
    let p0 := r.lv / 2 ^ r.logp
    let pages := (List.range (ceilDiv r.length (2 ^ r.logp) - p0)).map (p0 + ·)
    let s := pages.foldl (fun s pg => (List.range m.nl).foldl (fun s l =>
      let va := pageVa n l pg (m.frameBytes r.logp)
      match (mapGet s.pgm.spaces n).bind fun sp => sp.leafAt (va - spaceBase n) with
      | some x => if isLoft x.frame then s else (s.migrate false n va true).2
      | none => s) s) s
    s.setReq n { s.req n with inserting := some p0 }

/-! ### States and outcomes of requests (R291, R292, R299–R302) -/

/-- Rewrite the length table entries of a slot in the descriptors of frozen ticks (R302). -/
def State.voidDescs (s : State) (n : Nat) : State :=
  s.sch.plan.foldl (fun s (j, t) =>
    if !t.frozen then s
    else t.chunks.zipIdx.foldl (fun s (c, i) =>
      if c.1 = n then s.physWrite (s.descAt j + 0x100 + 16 * i) (leBytes 2 0xFFFF) else s) s) s

/-- A request ends: its chunks leave the plan, its copies are given up, its space is dropped (R302). -/
def State.leave (s : State) (n : Nat) : State :=
  let s := s.voidDescs n
  let s := { s with sch := { s.sch with
    plan := planDrop s.sch.plan n, copies := s.sch.copies.filter fun c => c.slot != n } }
  s.dropReq n

/-- Post the CANCEL commands that wait for a request's end (R372). -/
def State.postCancels (s : State) (l : List (Nat × Nat)) (status detail : Nat) : State :=
  l.foldl (fun s x => s.postFor x.1 x.2 status detail) s

/-- An ADMITTED request's stream opens (R315). -/
def State.admitReq (s : State) (n : Nat) : State :=
  let s := s.setReq n { s.req n with held := false, st := .admitted }
  match mapGet s.xpt.soon n with
  | some x => { s with xpt := { s.xpt with streams := mapSet s.xpt.streams n { x with st := .opened }, soon := mapDel s.xpt.soon n } }
  | none => s

/-- End a request early: its completion, its stream's abort manifest, its release. -/
def State.endReq (s : State) (n status : Nat) (st : ReqSt) : State :=
  let s := s.complete n status
  let r := s.req n
  let s := s.postCancels r.cancelBy 0 0
  let s := s.setReq n { s.req n with st := st, cancelBy := [], cancelAt := none }
  let s := { s with sch := { s.sch with
    nExp := if st = ReqSt.expired then wrapAdd 32 s.sch.nExp 1 else s.sch.nExp
    nCan := if st = ReqSt.cancelled then wrapAdd 32 s.sch.nCan 1 else s.sch.nCan } }
  (s.stopStream n .aborted status).leave n

/-- A CANCEL that no round has decided yet, of an admitted command whose completion is not posted, acts at the first boundary after
its stamp (R300, R372). -/
def State.takeCancels (s : State) : State :=
  s.sch.subs.foldl (fun s b =>
    let tq := bits b.e.ptr.toNat 0 6
    let tc := bits b.e.ptr.toNat 16 16
    if b.e.opc.toNat != 2 || !(decide (b.stamp < s.pwr.tb)) || s.commonCheck b.e b.dup != 0
        || s.sch.subs.any (fun x => x.q == tq && x.e.cid.toNat == tc && !x.dup) then s
    else
      match s.sch.reqs.find? fun (_, r) => r.sq == tq && r.cid == tc && r.live && !r.posted with
      | some (n, r) =>
        ({ s with sch := { s.sch with subs := s.sch.subs.filter fun y => y != b } }).setReq n
          { r with cancelAt := some (r.cancelAt.getD b.stamp), cancelBy := r.cancelBy ++ [(b.q, b.e.cid.toNat)] }
      | none => s) s

/-- The outcome that falls on a request at a boundary: a fault before expiry, expiry before cancellation (R301). -/
def State.outcome (s : State) (n : Nat) : State :=
  let r := s.req n
  if !r.live then s
  else if r.posted then (s.postCancels r.cancelBy 3 0xE).setReq n { r with cancelBy := [], cancelAt := none }
  else
    match r.fault with
    | some f => s.endReq n f .faulted
    | none =>
      if r.expire then s.endReq n 5 .expired
      else
        match r.cancelAt with
        | some t => if t < s.pwr.tb then s.endReq n 4 .cancelled else s
        | none => s

/-- RUNNING and EXPORTING (Table 13.5): `ran` holds the slots of the step that ended, `next` those of the step to come. -/
def State.advance (s : State) (ran next : List Nat) (n : Nat) : State :=
  let r := s.req n
  if r.lastEnded && (r.st == .admitted || r.st == .running) then s.setReq n { r with st := .exporting }
  else if r.st == .admitted && (ran.contains n || next.contains n) then s.setReq n { r with st := .running }
  else s

/-- DONE: the first boundary after the completion was posted. -/
def State.finish (s : State) (n : Nat) : State :=
  let r := s.req n
  if r.posted && (r.st == .exporting || r.st == .running || r.st == .admitted) then
    let s := s.setReq n { r with st := .done }
    if s.pgm.pxInsert && !r.noinsert then s.beginInsert n else s.leave n
  else s

/-- FREE: requests whose DROPSPACE is complete (R302, R449). -/
def State.freeReqs (s : State) : State :=
  let held (n : Nat) : Bool := (s.pgm.edits.any fun e => e.kind.isDrop && e.kind.about.1 == some n) || s.pgm.dropping.any fun d => d.space == n
  { s with sch := { s.sch with reqs := s.sch.reqs.filter fun x => !(x.2.dropped && !held x.1) } }

/-- Slots loaded or installed become usable at the first boundary after the posting (R444). -/
def State.makeUsable (s : State) : State :=
  { s with hst := { s.hst with
      models := s.hst.models.map fun (m, x) => (m, { x with usable := x.usable || !x.filling })
      variants := s.hst.variants.map fun (v, x) => (v, { x with usable := x.usable || !x.filling }) } }

/-! ### The boundary -/

/-- What the scheduler and the index queue for the boundary itself: finished prompts' entries, the pages of the step to come, and
removals of entries (R254, R273, R274). -/
def State.preBoundary (s : State) : State :=
  let b := s.sch.bnd
  let s := (((mapGet s.sch.plan (b + 1)).map (·.chunks)).getD []).foldl (fun s c => s.needPages (b + 1) c) s.insertReady
  pxTrim s

/-- Whether the next step boundary is due: 4 µs and 8 ns an edit after the end of its step, or 48 ns after the start of a tick
that runs none (R240, R285), once the copies that the step to come needs are complete (R277) and no relaunch of the train is in
progress (R305, R314). -/
def State.boundaryDue (s : State) : Bool :=
  let b := s.sch.bnd
  !s.sch.stopped && !s.copiesOwed (b + 1) && !s.relaunching &&
  match s.sch.cur with
  | some c =>
    if c.tick = b then
      match c.ended with
      | some e => decide (e + 4000 + 8 * boundaryEdits s.preBoundary ≤ s.pwr.tb)
      | none => false
    else decide (b < s.sch.nextTick && s.tickStart b + 48 ≤ s.pwr.tb)
  | none => decide (b < s.sch.nextTick && s.tickStart b + 48 ≤ s.pwr.tb)

/-- The requests' part of a boundary. -/
def State.reqBoundary (s : State) (ran next : List Nat) : State :=
  let ns (s : State) : List Nat := mapKeys s.sch.reqs
  let s := s.freeReqs.takeCancels
  let s := (ns s).foldl (fun s n => if (s.req n).held then s.admitReq n else s) s
  let s := (ns s).foldl State.outcome s
  let s := (ns s).foldl (State.advance · ran next) s
  (ns s).foldl State.finish s

/-- STEP_BOUNDARY (R17, R240, R285, R302, R304, R305, R308, R312, R423). -/
def stepBoundary (s : State) : State :=
  if !s.boundaryDue then s
  else
    let b := s.sch.bnd
    let run := s.sch.cur.filter fun c => c.tick == b
    let chunks := ((run.filter fun c => !c.cut).map (·.chunks)).getD []
    let next := (((mapGet s.sch.plan (b + 1)).map (·.chunks)).getD []).map (·.1)
    let s := epochBoundary s.preBoundary
    let s := s.makeUsable.reqBoundary (((run.map (·.chunks)).getD []).map (·.1)) next
    let s := chunks.foldl State.planCompact s
    let s := { s with sch := { s.sch with
      bnd := b + 1, bndTb := s.pwr.tb, cur := if run.isSome then none else s.sch.cur
      bgNow := s.sch.bgNow ++ mapGetD s.sch.bgPlan b [], bgPlan := mapDel s.sch.bgPlan b } }
    let s := s.tryRelaunch
    let s := match s.sch.lostFrom with
      | some _ =>
        let s := s.replan (ceilDiv (s.pwr.tb + 1500000 - s.sch.t0) s.periodNs)
        { s with sch := { s.sch with lostFrom := none } }
      | none => s
    let s := if b = 0 then s else s.tickRecord (b - 1)
    if s.members.isEmpty || s.tickStart (b + 1) ≤ s.pwr.tb + 50000 || s.sch.relaunch.isSome then s else s.schedCtl 2 (b + 1) []

/-- EXPORT_DEADLINE: no manifest by T_c + P (R299). -/
def exportDeadline (n : Nat) (s : State) : State :=
  let r := s.req n
  if !r.live || r.posted || s.pwr.tb < s.tickStart (r.commit + 1) then s
  else (s.stopStream n .aborted 8).faultSlot n 8

/-- STEP_BOUNDARY (R240). -/
def execStepBoundary (s : State) : Host.Outcome State Fault Refusal := .next (stepBoundary s)

/-- EXPORT_DEADLINE (R299). -/
def execExportDeadline (s : Fin 8192) (st : State) : Host.Outcome State Fault Refusal := .next (exportDeadline s.val st)

end Sys2Proof.Machine
end

