-- ==== Sys2Proof/Machine/KiteCtl.lean ====
section
/-! DEFINITION. The host's commands to a kite's window and the events of its banks: halt and resume (R442), program and
chain memory (R104, R153), reels (R141, R146), bank power (R147–R149) and repairs (R137). The windows of kites that do
not exist ignore writes (R3). -/
namespace Sys2Proof.Machine

/-! ### Halt and resume -/

/-- RESUME (R442): a keel halted by a request issues again from PC; open arms and loops keep their place. -/
def resume (k : Nat) (s : State) : State :=
  let kt := s.kite k
  if kt.st = .halted && kt.byReq then
    s.putKite k { kt with st := .issuing, byReq := false, frames := kt.frames.map (shiftFrame (kt.t s.cyc - kt.haltAt)) }
  else s

/-- HALT_REQ (R442). -/
def execHaltReq (k : Fin 256) (s : State) : Host.Outcome State Fault Refusal := .next (if s.kteUp k then haltReq k s else s)

/-- RESUME (R442). -/
def execResume (k : Fin 256) (s : State) : Host.Outcome State Fault Refusal := .next (if s.kteUp k then resume k s else s)

/-! ### Program and chain memory -/

/-- PMEM_DATA_WRITE (R153): ignored while the keel runs. -/
def execPmemDataWrite (k : Fin 256) (w : Fin 4) (v : BitVec 64) (s : State) : Host.Outcome State Fault Refusal :=
  let kt := s.kite k
  .next (if !s.kteUp k then s
    else s.putKite k (if kt.stopped then pmemWrite k w.val v.toNat kt else kt.ignored k))

/-- PMEM_DATA_READ (R153): a word of the bundle at ADDR; word 3 advances ADDR. -/
def execPmemDataRead (k : Fin 256) (w : Fin 4) (s : State) : Host.Outcome State Fault Refusal :=
  let kt := s.kite k
  .next (if !s.kteUp k then s.emit (.word 0)
    else
      let v := BitVec.ofNat 64 (kt.bundle k kt.pmAddr / 2 ^ (64 * w.val))
      (s.putKite k (if w = 3 then { kt with pmAddr := (kt.pmAddr + 1) % 8192 } else kt)).emit (.word v))

/-- CHAINMEM_WRITE (R104): 64 bits at offset `off` of chain memory, accepted only while the keel is stopped. -/
def execChainmemWrite (k : Fin 256) (off : BitVec 15) (v : BitVec 64) (s : State) : Host.Outcome State Fault Refusal :=
  let kt := s.kite k
  .next (if !s.kteUp k then s
    else if 0x110 ≤ off.toNat % 0x200 then s.badReg
    else s.putKite k (if kt.stopped then chainMemWrite k off.toNat v.toNat kt else kt.ignored k))

/-! ### Reels and banks -/

/-- REEL_CFG_WRITE (R141, R146). -/
def execReelCfgWrite (k : Fin 256) (r : Fin 32) (v : BitVec 64) (s : State) : Host.Outcome State Fault Refusal :=
  .next (if s.kteUp k then s.putKite k (reelCfg k (s.peerReels k) r.val v.toNat (s.kite k)) else s)

/-- OFF_REQ (R147). -/
def execOffReq (k : Fin 256) (mask : BitVec 16) (s : State) : Host.Outcome State Fault Refusal :=
  .next (if s.kteUp k then s.putKite k (offReq s.cyc mask.toNat (s.kite k)) else s)

/-- ON_REQ (R147, R149). -/
def execOnReq (k : Fin 256) (mask : BitVec 16) (s : State) : Host.Outcome State Fault Refusal :=
  .next (if s.kteUp k then s.putKite k (onReq s.cyc mask.toNat (s.kite k)) else s)

/-- Whether a bank of state CLOSING goes OFF at the end of cycle `cyc`. -/
def Kite.bankOffDue (kt : Kite) (cyc b : Nat) : Bool :=
  match (kt.bank b).st with
  | .closing c => decide (c < cyc) && !kt.bankNamed b
  | _ => false

/-- Whether a power-down has failed after 80,000 cycles (R147). -/
def Kite.bankCloseDue (kt : Kite) (cyc b : Nat) : Bool :=
  match (kt.bank b).st with
  | .closing c => decide (c + 80000 ≤ cyc) && kt.bankNamed b
  | _ => false

/-- Whether a waking bank is ON from the next cycle (R149). -/
def Kite.bankWakeDue (kt : Kite) (cyc b : Nat) : Bool :=
  match (kt.bank b).st with
  | .waking c => decide (c + 2500 ≤ cyc)
  | _ => false

/-- BANK_POWER_OFF (R147). -/
def execBankPowerOff (k : Fin 256) (b : Fin 16) (s : State) : Host.Outcome State Fault Refusal :=
  let kt := s.kite k
  .next (if kt.bankOffDue s.cyc b then s.putKite k (kt.bankGoesOff b) else s)

/-- BANK_CLOSE_TIMEOUT (R147). -/
def execBankCloseTimeout (k : Fin 256) (b : Fin 16) (s : State) : Host.Outcome State Fault Refusal :=
  let kt := s.kite k
  .next (if kt.bankCloseDue s.cyc b then
    s.putKite k { kt.setBank b .on with pwrBusy := kt.pwrBusy ||| 2 ^ b.val } else s)

/-- BANK_WAKE_DONE (R149). -/
def execBankWakeDone (k : Fin 256) (b : Fin 16) (s : State) : Host.Outcome State Fault Refusal :=
  let kt := s.kite k
  .next (if kt.bankWakeDue s.cyc b then s.putKite k (kt.setBank b .on) else s)

/-- REPAIR (R137): the row whose two bank cycles have come to their end is written back corrected. -/
def execRepair (k : Fin 256) (s : State) : Host.Outcome State Fault Refusal :=
  let kt := s.kite k
  .next (match kt.repaired with
    | some r => s.putKite k { kt with repairQ := kt.repairQ.filter fun x => x != r, soft := mapDel kt.soft r, repaired := none }
    | none => s)

end Sys2Proof.Machine
end

