-- ==== Sys2Proof/Machine/MatrixOps.lean ====
section
/-! DEFINITION. The M slot (Table 9.4) and the events of the matrix engine: last updates, deflation, the end of a seed, and the
test drain. -/
namespace Sys2Proof.Machine

/-- MSET (R82): Sets arrangement, formats, passes, tail and masks for later MFEEDs. -/
def execMset (k : Fin 256) (f : MSetF) (s : State) : Host.Outcome State Fault Refusal :=
  execSlot k 1 (fun _ => illegalIf (msetCfg f).isNone) (fun _ _ kt => { kt with mcfgNext := msetCfg f }) s

/-- MFEED (R75): Starts or queues a matrix pass over KT tiles, inflating the array if needed. -/
def execMfeed (k : Fin 256) (f : MFeedF) (s : State) : Host.Outcome State Fault Refusal :=
  execSlot k 1 (fun kt => chkMfeed kt f) (fun t _ kt => effMfeed k t f kt) s

/-- PASS_LAST_UPDATE (R76): The last group update of a pass is made and the pass completes. -/
def execPassLastUpdate (k : Fin 256) (s : State) : Host.Outcome State Fault Refusal :=
  let kt := s.kite k
  .next (if kt.hold.isNone && kt.lastUpdateDue (kt.t s.cyc) then s.putKite k (passesEnd k (kt.t s.cyc) kt) else s)

/-- DEFLATION (R80): After 256 idle cycles the panel pairs switch off in turn. -/
def execDeflation (k : Fin 256) (s : State) : Host.Outcome State Fault Refusal :=
  let kt := s.kite k
  .next (if kt.hold.isNone && kt.deflates (kt.t s.cyc) then s.putKite k (deflate (kt.t s.cyc) kt) else s)

/-- MSWAP (R73): Exchanges active and shadow accumulator sets, holding until the shadow set is released. -/
def execMswap (k : Fin 256) (f : MSwapF) (s : State) : Host.Outcome State Fault Refusal :=
  execSlot k 1 (fun _ => illegalIf (f.rsv != 0)) (fun t _ kt => effMswap k t kt) s

/-- MSEED (R74): Loads the shadow set from 256 scratchpad rows of ACC40 containers. -/
def execMseed (k : Fin 256) (f : MSeedF) (s : State) : Host.Outcome State Fault Refusal :=
  execSlot k 1 (fun _ => illegalIf (f.rsv != 0)) (fun t tv kt => effMseed k t tv f kt) s

/-- MSEED_COMPLETE (R74): At MSEED's last cycle the seed replaces the set's contents. -/
def execMseedComplete (k : Fin 256) (s : State) : Host.Outcome State Fault Refusal :=
  let kt := s.kite k
  .next (if kt.seedDue then s.putKite k (seedEnd k (kt.tv s.cyc) kt) else s)

/-- MZERO (R74): Sets every accumulator of the named set to +0. -/
def execMzero (k : Fin 256) (f : MZeroF) (s : State) : Host.Outcome State Fault Refusal :=
  execSlot k 1 (fun _ => illegalIf (f.rsv != 0)) (fun t tv kt => effMzero k t tv f kt) s

/-- TEST_DRAIN (R86): A write of KTE.MTEST.GO starts a test drain of one set to scratchpad. -/
def execTestDrain (k : Fin 256) (v : BitVec 64) (s : State) : Host.Outcome State Fault Refusal :=
  .next (if s.kteUp k then s.putKite k (mtestWrite k s.cyc v.toNat (s.kite k)) else s)

/-- TEST_DRAIN_DONE (R86): The 64-cycle test drain finishes and DONE returns to 1. -/
def execTestDrainDone (k : Fin 256) (s : State) : Host.Outcome State Fault Refusal :=
  let kt := s.kite k
  .next (if kt.drainDue then s.putKite k (drainEnd kt) else s)

end Sys2Proof.Machine
end

