-- ==== Sys2Proof/Machine/Memcmd.lean ====
section
/-! DEFINITION. The commands of the page manager and of the prefix index (Tables 11.6, 12.6), the end of migration copies and
of epochs (R241, R242), and the background tasks of the memory controllers (R246, R308). A write of a PGM register reaches its
block only where BAR0 serves it (R417). -/
namespace Sys2Proof.Machine

/-- A command of the page manager: without effect while BAR0 does not serve its block (R417). -/
def State.pgmCmd (s : State) (f : State → State) : Host.Outcome State Fault Refusal := .next (if s.barUp then f s else s)

/-- ALLOC (R237). -/
def execAlloc (s : State) : Host.Outcome State Fault Refusal := s.pgmCmd pgmAlloc
/-- MAP (R239, R447). -/
def execMap (s : State) : Host.Outcome State Fault Refusal := s.pgmCmd pgmMap
/-- UNMAP (R239). -/
def execUnmap (s : State) : Host.Outcome State Fault Refusal := s.pgmCmd pgmUnmap
/-- INCREF (R239). -/
def execIncref (s : State) : Host.Outcome State Fault Refusal := s.pgmCmd pgmIncref
/-- DECREF (R239). -/
def execDecref (s : State) : Host.Outcome State Fault Refusal := s.pgmCmd pgmDecref
/-- DROPSPACE (R448, R449). -/
def execDropspace (s : State) : Host.Outcome State Fault Refusal := s.pgmCmd pgmDropspace
/-- MIGRATE (R242). -/
def execMigrate (s : State) : Host.Outcome State Fault Refusal := s.pgmCmd pgmMigrate
/-- INSERT (R275). -/
def execInsert (s : State) : Host.Outcome State Fault Refusal := s.pgmCmd pxInsert
/-- REMOVE (R271, Table 12.6). -/
def execRemove (s : State) : Host.Outcome State Fault Refusal := s.pgmCmd pxRemove
/-- FLUSH (R271, Table 12.6). -/
def execFlush (s : State) : Host.Outcome State Fault Refusal := s.pgmCmd pxFlush

/-- Whether a migration of a frame has completed its copy by now (R242, R278). -/
def State.migDue (s : State) (frame : Nat) : Bool := s.pgm.copying.any fun m => m.old == frame && m.left == 0

/-- MIGRATE_COPY_DONE (R242). -/
def execMigrateCopyDone (frame : BitVec 48) (s : State) : Host.Outcome State Fault Refusal :=
  .next (if s.migDue frame.toNat then migrateCopyDone frame.toNat s else s)

/-- EPOCH_RETIRE (R241). -/
def execEpochRetire (s : State) : Host.Outcome State Fault Refusal := .next (epochRetire s)

/-! ### Background slots -/

/-- Whether a task may use its slot: planned for the tick, and no step runs (R246, R308). -/
def State.slotOpen (s : State) (k : Nat) : Bool := s.sch.bgNow.contains k && s.sch.cur.isNone

/-- Whether background work may run: no step does, and the page copy path has no committed copy in hand (R307). -/
def State.bgOpen (s : State) : Bool :=
  s.sch.cur.isNone && s.sch.copies.all fun c => !(decide (c.start ≤ s.pwr.tb && s.pwr.tb < c.fin))

/-- Background work of one cycle beside the slots: the migration in hand goes on, and corrected blocks are rewritten (R242, R243). -/
def State.background (s : State) : State :=
  if s.bgOpen then { s with pgm := (s.pgm.copyOn (if s.pwr.taken then 25 else 24)).rewriteAll } else s

/-- A task has used its slot. -/
def State.useSlot (s : State) (k : Nat) : State :=
  { s with sch := { s.sch with bgNow := s.sch.bgNow.filter fun x => x != k } }

/-- The blocks with an error that a scrub of `n` MiB from position `pos` finds, in rising order; those of RETIRED frames are
left out (R246). -/
def Pgm.scrubFinds (p : Pgm) (loft : Bool) (pos n : Nat) : List Nat :=
  let lo := ((if loft then loftBase else 0) + pos * 2 ^ 20) / 64
  let hi := lo + n * 16384
  let l := (p.weak ++ p.broken ++ p.poisoned ++ p.onDie ++ p.linkBad).filter fun b => decide (lo ≤ b && b < hi) && !(match p.frameOf (b / 64) with
    | some (_, f) => f.st == .retired
    | none => false)
  sortBy (fun a b => decide (a ≤ b)) l.eraseDups

/-- Move a tier's scrubber on; at the end of a pass every CECNT is 0 and the next pass begins (R246). -/
def State.scrubMove (s : State) (loft : Bool) (n : Nat) : State :=
  let p := s.pgm
  let at_ := p.scrubAt loft + n
  if at_ < tierMib loft then
    { s with pgm := { p with scrubPos := if loft then (p.scrubPos.1, at_) else (at_, p.scrubPos.2) } }
  else
    { s with pgm := { p with
        scrubPos := if loft then (p.scrubPos.1, 0) else (0, p.scrubPos.2)
        scrubPasses := if loft then (p.scrubPasses.1, wrapAdd 16 p.scrubPasses.2 1) else (wrapAdd 16 p.scrubPasses.1 1, p.scrubPasses.2)
        scrubStart := if loft then (p.scrubStart.1, s.now) else (s.now, p.scrubStart.2)
        frames := p.frames.map fun (b, f) => (b, { f with cecnt := 0 })
        marks := (p.marks.filter fun x => x.2.1).map fun (b, x) => (b, (x.1, 0)) } }

/-- PATROL_SCRUB: a slot reads `mib` MiB of a tier, rewriting corrected blocks and poisoning uncorrectable ones (R246,
Table 11.8). -/
def patrolScrub (loft : Bool) (mib : Nat) (s : State) : State :=
  if !s.slotOpen (48 + b2n loft) then s
  else
    let n := min mib (tierMib loft - s.pgm.scrubAt loft)
    let s' := (s.pgm.scrubFinds loft (s.pgm.scrubAt loft) n).foldl (fun s b => (s.touchBlock b).2) s
    (({ s' with pgm := s'.pgm.rewriteAll }).scrubMove loft n).useSlot (48 + b2n loft)

/-- PATROL_SCRUB (R246). -/
def execPatrolScrub (tier : Fin 2) (mib : Nat) (s : State) : Host.Outcome State Fault Refusal :=
  .next (patrolScrub (tier == 1) mib s)

/-- HBM_PHY_CALIBRATION: the slot of a stack's controller is used; no value in memory changes (R308, Table 13.8). -/
def execHbmPhyCalibration (h : Fin 8) (s : State) : Host.Outcome State Fault Refusal :=
  .next (if s.slotOpen h.val then s.useSlot h.val else s)

/-- LOFT_CALIBRATION: likewise for a loft controller (R308, Table 13.8). -/
def execLoftCalibration (c : Fin 12) (s : State) : Host.Outcome State Fault Refusal :=
  .next (if s.slotOpen (16 + c.val) then s.useSlot (16 + c.val) else s)

/-- The space and address of a leaf that maps a frame. -/
def Pgm.leafOf (p : Pgm) (a : Nat) : Option (Nat × Nat) :=
  p.spaces.findSome? fun (n, sp) => (sp.leaves.find? fun l => l.frame == a).map fun l => (n, spaceBase n + l.off)

/-- LOFT_WEAR_LEVELLING: a loft frame moves to another on the page copy path, with the steps of a migration (R242, R308). -/
def wearLevelling (a : Nat) (s : State) : State :=
  if !s.slotOpen 50 then s
  else
    let s := s.useSlot 50
    match s.pgm.leafOf a with
    | none => s
    | some (n, va) =>
      if !isLoft a then s
      else
        let z := ((s.pgm.frameAt a).map fun f => 2 ^ f.cls).getD 0
        let (c, s) := s.migrate false n va true
        if c = 0 then
          { s with sch := { s.sch with wear := (s.sch.bnd - 1, z) :: s.sch.wear, wearAt := a } }
        else s

/-- LOFT_WEAR_LEVELLING (R308). -/
def execLoftWearLevelling (frame : BitVec 48) (s : State) : Host.Outcome State Fault Refusal := .next (wearLevelling frame.toNat s)

end Sys2Proof.Machine
end

