-- ==== Sys2Proof/Machine/MoveSlot.lean ====
section
/-! DEFINITION. The D slot (Tables 9.7, 9.8) and the completion of its descriptors: what each instruction posts on its move
channel (§8.6). -/
namespace Sys2Proof.Machine

/-- The fields of R195 that every D-slot instruction shares: SB is 0 with BV = 0. -/
def bvBad (bv : BitVec 1) (sb : BitVec 5) : Bool := bv == 0 && sb != 0

/-- ROW of a D-slot instruction that names a reel: its number, where the field is well formed. -/
def sprBad (spr : BitVec 1) (row : BitVec 14) : Bool := spr == 1 && decide (32 ≤ row.toNat)

/-- The reel of a D-slot instruction, and its row. -/
def sprReel (spr : BitVec 1) (row : BitVec 14) : Option Nat := if spr = 1 then some (row.toNat % 32) else none

/-- Scalar registers a descriptor reads, its completion bridle's included. -/
def dReads (bv : BitVec 1) (sb : BitVec 5) (rs : List (BitVec 5)) : List SReg :=
  (rs ++ if bv = 1 then [sb] else []).map fun r => .s r.toNat

/-- DMOV's and DPAGE's checks (R195). -/
def chkDm (f : DM) : Option Exc := illegalIf (f.rsv != 0 || f.rsv2 != 0 || bvBad f.bv f.sb || sprBad f.spr f.row)

/-- DSEND's checks. -/
def chkDs (f : DS) : Option Exc := illegalIf (f.rsv != 0 || f.rsv2 != 0 || bvBad f.bv f.sb || sprBad f.spr f.row)

/-- DEXPORT's checks. -/
def chkDx (f : DX) : Option Exc := illegalIf (f.rsv2 != 0 || bvBad f.bv f.sb)

/-- DFILL's checks. -/
def chkDf (f : DF) : Option Exc := illegalIf (f.rsv != 0 || f.rsv2 != 0 || bvBad f.bv f.sb)

/-- DCOPY's checks. -/
def chkDc (f : DC) : Option Exc := illegalIf (f.rsv2 != 0 || bvBad f.bv f.sb)

/-- Post the descriptor of a D-slot instruction that issues in the present cycle, its operands read now (R195). -/
def effPost (k : Nat) (reads : List SReg) (raw : Kite → Raw) (ch : BitVec 2) (bv : BitVec 1) (sb : BitVec 5) (s : State) : State :=
  let kt := s.kite k
  (s.putKite k (kt.readHaz k 3 reads)).postD k s.cyc ⟨ch.toNat, raw kt, bridleOf kt bv sb, kt.ipc⟩

/-- DMOV (R196). -/
def execDmov (k : Fin 256) (f : DM) (s : State) : Host.Outcome State Fault Refusal :=
  .next (s.issue k 3 (chkDm f) (effPost k (dReads f.bv f.sb [f.sm, f.ss])
    (fun kt => .mem (f.dir == 1) (kt.s f.sm) (kt.s f.ss) f.row.toNat (sprReel f.spr f.row) (rowsOf f.nrows)) f.ch f.bv f.sb))

/-- DPAGE (R196). -/
def execDpage (k : Fin 256) (f : DM) (s : State) : Host.Outcome State Fault Refusal :=
  .next (s.issue k 3 (chkDm f) (effPost k (dReads f.bv f.sb [f.sm, f.ss])
    (fun kt => .page (f.dir == 1) (kt.s f.sm) (kt.s f.ss) f.row.toNat (sprReel f.spr f.row) (rowsOf f.nrows)) f.ch f.bv f.sb))

/-- DSEND (R197). -/
def execDsend (k : Fin 256) (f : DS) (s : State) : Host.Outcome State Fault Refusal :=
  .next (s.issue k 3 (chkDs f) (effPost k (dReads f.bv f.sb [f.sd])
    (fun kt => .send (kt.s f.sd) f.row.toNat (sprReel f.spr f.row) (rowsOf f.nrows)) f.ch f.bv f.sb))

/-- DEXPORT (R198). -/
def execDexport (k : Fin 256) (f : DX) (s : State) : Host.Outcome State Fault Refusal :=
  .next (s.issue k 3 (chkDx f) (effPost k (dReads f.bv f.sb [f.ss])
    (fun kt => .note (kt.s32 f.ss) f.layer.toNat f.head.toNat f.kind.toNat f.tmap.toNat (zeroAs 4096 f.ntok.toNat)) f.ch f.bv f.sb))

/-- DFILL (R138). -/
def execDfill (k : Fin 256) (f : DF) (s : State) : Host.Outcome State Fault Refusal :=
  .next (s.issue k 3 (chkDf f) (effPost k (dReads f.bv f.sb [f.sv])
    (fun kt => .fill (kt.s32 f.sv) f.row.toNat (rowsOf f.nrows)) f.ch f.bv f.sb))

/-- DCOPY (R139). -/
def execDcopy (k : Fin 256) (f : DC) (s : State) : Host.Outcome State Fault Refusal :=
  .next (s.issue k 3 (chkDc f) (effPost k (dReads f.bv f.sb [])
    (fun _ => .copy (f.dir == 1) f.srow.toNat f.drow.toNat (rowsOf f.nrows)) f.ch f.bv f.sb))

/-- MOVE_COMPLETE (R168). -/
def execMoveComplete (k : Fin 256) (ch : Fin 4) (s : State) : Host.Outcome State Fault Refusal :=
  .next (moveComplete k ch.val s)

/-- WRITE (R351): rows of a remote DSEND. -/
def execWrite (r : LRx) (f : LWrite) (rows : List Byte) (s : State) : Host.Outcome State Fault Refusal :=
  .next (writeRows r f rows s)

/-- WRITE_DONE (R351). -/
def execWriteDone (r : LRx) (tag : BitVec 64) (status : BitVec 8) (rsv : BitVec 56) (s : State) :
    Host.Outcome State Fault Refusal :=
  .next (writeDone r tag.toNat status.toNat rsv.toNat s)

end Sys2Proof.Machine
end

