-- ==== Sys2Proof/Machine/Regs.lean ====
section
/-! DEFINITION. The registers of BAR0 (Tables 16.2 and 16.3): what each reads as, and a write of 8 or of 4 bytes by the access
codes of its fields (R7–R9). -/
namespace Sys2Proof.Machine

/-! ### What registers read as -/

/-- Eight bytes of a list as a word. -/
def wordAt (l : List Byte) (o : Nat) : Nat := fieldLe l o 8

/-- Eight bytes of a byte table as a word. -/
def mapWord (m : Map Byte) (o : Nat) : Nat := leNat ((List.range 8).map fun i => mapGetD m (o + i) 0)

/-- A signed number in a field of w bits. -/
def signedField (w : Nat) (x : Int) : Nat := wrapI w x

/-- A log record (Table 19.2). -/
def LogRec.bytes (r : LogRec) : List Byte :=
  leBytes 8 r.time ++ leBytes 4 r.seq ++ leBytes 1 r.ev.cls.code ++ leBytes 1 r.ev.unit ++ leBytes 2 r.ev.event ++ leBytes 2 r.ev.loc
    ++ leBytes 2 r.ev.slot ++ leBytes 4 r.count ++ leBytes 8 r.ev.info

/-- A request table entry (Table 13.4); a slot that is held reads as FREE (R292). -/
def State.rteBytes (s : State) (n : Nat) : List Byte :=
  let r := s.req n
  if r.held || r.st == .free then List.replicate 64 0
  else
    leBytes 1 r.st.code ++ leBytes 1 (b2n r.cls + 2 * b2n r.tree + 4 * b2n r.score + 8 * b2n r.noinsert) ++ leBytes 2 r.model
      ++ leBytes 2 r.variant ++ leBytes 1 r.logp ++ leBytes 1 r.status ++ leBytes 4 r.length ++ leBytes 4 r.done
      ++ leBytes 8 (((mapGet s.pgm.spaces n).map Space.root).getD 0) ++ leBytes 8 r.deadline ++ leBytes 8 r.commit ++ leBytes 8 r.admitAt
      ++ leBytes 4 r.xstream ++ leBytes 2 r.sq ++ leBytes 2 r.cid ++ leBytes 4 r.matched ++ leBytes 4 0

/-- GLB. -/
def State.readGlb (s : State) (o : Nat) : Option Nat :=
  let i := s.sec.ident
  let h := s.hst
  if o = 0 then
    some (match i with
      | some i => fields [(9, if i.full then 256 else 240), (7, if i.full then 64 else 60), (1, b2n i.b0), (1, b2n s.sec.identOk)]
      | none => 0)
  else if o = 8 then some ((i.map Ident.map0).getD 0)
  else if o = 0x10 then some ((i.map Ident.map1).getD 0)
  else if o = 0x18 then some ((i.map Ident.map2).getD 0)
  else if o = 0x20 then some ((i.map Ident.map3).getD 0)
  else if o = 0x28 then some ((i.map Ident.serial).getD 0 % 2 ^ 64)
  else if o = 0x30 then some ((i.map Ident.serial).getD 0 / 2 ^ 64 % 2 ^ 64)
  else if o = 0x100 then
    some (fields [(2, s.pins.smbAddr), (1, match s.pins.ppsAt with
      | some t => b2n (decide (s.now < t + 2000000000))
      | none => 0), (13, 0), (16, s.pins.vin), (16, s.pins.iin)])
  else if 0x20000 ≤ o && o < 0x21000 then
    let x := s.queue ((o - 0x20000) / 0x40)
    match o % 0x40 with
    | 0 => some x.sqBase
    | 8 => some x.cqBase
    | 0x10 => some x.cfg
    | 0x18 => some (fields [(1, b2n x.draining), (12, x.sqHead), (12, x.cqTail), (13, x.held.length)])
    | _ => none
  else if o = 0x30000 then some h.bdpAddr
  else if o = 0x30008 then some (fields [(48, h.bdpFirst), (1, b2n h.bdpErr), (15, h.bdpCount)])
  else if o = 0x30010 then some (fields [(32, h.doorbell), (16, h.badreg)])
  else if o = 0x40000 then some (fields [(4, 0), (1, b2n s.unitBusy), (3, 0), (4, s.brd.status), (20, 0), (32, s.brd.cmdUnit)])
  else if 0x41000 ≤ o && o < 0x42000 then some (mapWord s.brd.desc (o - 0x41000))
  else none

/-- SCH. -/
def State.readSch (s : State) (o : Nat) : Option Nat :=
  let c := s.sch
  if 0x10000 ≤ o && o < 0x90000 then some (wordAt (s.rteBytes ((o - 0x10000) / 64)) (o % 64))
  else if 0xA0000 ≤ o && o < 0xB0000 then
    (if 0x840 ≤ o % 0x1000 then none
     else some (match s.model ((o - 0xA0000) / 0x1000) with
      | some m => wordAt m.cost (o % 0x1000)
      | none => 0))
  else
    match o with
    | 0x00 => some (fields [(1, b2n c.run), (1, b2n c.stopped)])
    | 0x08 => some c.tickCfg
    | 0x10 => some (s.tickOf s.pwr.tb)
    | 0x18 => some c.t0
    | 0x20 => some c.stepBase
    | 0x28 => some c.serve
    | 0x30 => some (fields [(32, c.planned), (32, c.used)])
    | 0x40 => some (fields [(32, c.nAcc), (32, c.nRef)])
    | 0x48 => some (fields [(16, c.rCap), (16, c.rDead), (16, c.rInv), (16, c.rQfull)])
    | 0x50 => some (fields [(16, c.nOver), (16, c.nTherm), (16, c.nLost), (16, c.nCut)])
    | 0x58 => some (fields [(32, c.nExp), (32, c.nCan)])
    | 0x60 => some (fields [(32, c.nBg), (16, c.nMis)])
    | 0x68 => some (fields [(13, (c.subs.filter fun b => b.e.opc == 1 && !b.full).length), (51, c.round)])
    | 0x70 => some (fields [(20, c.leadId), (1, b2n c.follow)])
    | _ => none

/-- PGM. -/
def State.readPgm (s : State) (o : Nat) : Option Nat :=
  let p := s.pgm
  if 0x4000 ≤ o && o < 0x8000 then some (mapWord p.pxDesc (o - 0x4000))
  else
    match o with
    | 0x00 => some p.epoch
    | 0x08 => some p.oldest
    | 0x10 => some (fields [(8, 0), (1, 0), (3, 0), (4, p.status), (17, p.qlen)])
    | 0x18 => some p.arg0
    | 0x20 => some p.arg1
    | 0x28 => some p.arg2
    | 0x40 => some (fields [(40, p.free false), (24, p.quar false)])
    | 0x48 => some (fields [(40, p.free true), (24, p.quar true)])
    | 0x50 => some (fields [(48, p.resBase), (16, p.resSize)])
    | 0x58 => some (fields [(16, p.nPtprot), (16, p.nAbandon), (16, p.nRetired), (16, p.nNoframe)])
    | 0x100 => some (fields [(1, b2n p.pxEn), (1, b2n p.pxInsert), (6, 0), (16, p.loWater), (16, p.hiWater)])
    | 0x108 => some (fields [(8, 0), (4, p.pxStatus)])
    | 0x110 => some (fields [(19, p.index.length), (29, p.pxRemoved)])
    | 0x118 => some (fields [(32, p.lookups), (32, p.hits)])
    | 0x120 => some (fields [(32, p.cow), (16, p.wpWrite), (16, p.compact)])
    | _ => none

/-- XPT. -/
def State.readXpt (s : State) (o : Nat) : Option Nat :=
  let x := s.xpt
  if 0x800 ≤ o && o < 0x1000 then
    let v := mapGetD x.viol ((o - 0x800) / 8) (0, 0)
    some (fields [(32, v.1), (8, v.2)])
  else if 0x4000 ≤ o && o < 0x4800 then
    let c := mapGetD x.rx ((o - 0x4000) / 0x20) (0, 0, 0, 0)
    some (match o % 0x20 with
      | 0 => c.1
      | 8 => c.2.1
      | 0x10 => c.2.2.1
      | _ => c.2.2.2)
  else if 0x10000 ≤ o && o < 0x14000 then some (wordAt (s.target ((o - 0x10000) / 0x40)) (o % 0x40))
  else if 0x20000 ≤ o && o < 0x40000 then
    let st := s.stream ((o - 0x20000) / 0x10)
    some (if o % 0x10 = 0 then fields [(3, st.st.code), (29, 0), (32, st.handle)] else fields [(32, st.next), (32, st.ackedSeq)])
  else
    match o with
    | 0 => some (fields [(1, b2n x.en), (1, b2n x.rxen)])
    | 0x10 => some (fields [(32, x.retx), (16, x.failed), (16, x.lost)])
    | _ => none

/-- LNK. -/
def State.readLnk (s : State) (o : Nat) : Option Nat :=
  let l := s.lnk
  if o < 0x60000 then
    let x := s.port (o / 0x1000)
    match o % 0x1000 with
    | 0 => some (fields [(2, x.mode), (1, b2n x.en)])
    | 8 => some (fields [(3, x.st), (20, if x.mode = 0 then x.peer else 0xFFFFF)])
    | 0x10 => some x.mac
    | 0x18 => some (fields [(24, x.fecCorr), (16, x.fecUnc), (16, x.replays), (8, x.retrains)])
    | 0x20 => some (fields [(48, x.txUnits)])
    | 0x28 => some (fields [(48, x.rxUnits), (16, x.dropped)])
    | 0x30 => some (fields [(32, x.violN), (8, x.violLast), (16, x.quar)])
    | _ => none
  else if o = 0x60000 then some (fields [(20, l.modId), (1, b2n l.lock)])
  else if o = 0x60008 then some (fields [(7, l.ptpPort), (1, b2n l.ptpEn), (8, l.ptpDomain), (2, l.ptpTransport)])
  else if 0x61000 ≤ o && o < 0x61080 then some (mapGetD l.lroute ((o - 0x61000) / 8) 0)
  else if 0x100000 ≤ o && o < 0x180000 then some (mapGetD l.route ((o - 0x100000) / 8) 0)
  else none

/-- MEM. -/
def State.readMemBlk (s : State) (o : Nat) : Option Nat :=
  let p := s.pgm
  if o = 0 then some (fields [(32, p.scrubPos.1), (16, p.scrubPasses.1), (1, b2n (s.scrubBehind false))])
  else if o = 8 then some (fields [(32, p.scrubPos.2), (16, p.scrubPasses.2), (1, b2n (s.scrubBehind true))])
  else if 0x100 ≤ o && o < 0x140 then
    let c := mapGetD p.eccH ((o - 0x100) / 8) (0, 0)
    some (fields [(32, c.1), (16, c.2)])
  else if 0x200 ≤ o && o < 0x260 then
    let c := mapGetD p.eccL ((o - 0x200) / 8) (0, 0, 0)
    some (fields [(24, c.1), (24, c.2.1), (16, c.2.2)])
  else none

/-- BRD. -/
def State.readBrd (s : State) (o : Nat) : Option Nat :=
  let b := s.brd
  if o < 0x100000 then
    let i := o / 16
    some (if o % 16 = 0 then s.bcount i
      else fields [(1, b2n (s.bridleTrain i).isSome), (12, (s.bridleTrain i).getD 0), (9, (b.waits.filter fun w => w.bridle == i).length)])
  else if o = 0x100000 then some (fields [(16, b.nRange), (16, b.nRefused), (16, b.nDrop), (16, b.nLost)])
  else none

/-- PWR. -/
def State.readPwr (s : State) (o : Nat) : Option Nat :=
  let p := s.pwr
  if 0x200 ≤ o && o < 0x228 then
    let d := s.die ((o - 0x200) / 8)
    some (fields [(8, d.tj), (8, d.mem), (1, b2n d.emerg), (15, 0), (16, d.entries)])
  else if 0x300 ≤ o && o < 0x320 then
    let d := s.die ((o - 0x300) / 8)
    some (fields [(8, d.hourly), (8, d.nowPs)])
  else if 0x340 ≤ o && o < 0x360 then
    let d := s.die ((o - 0x340) / 8)
    some (fields [(16, d.vdie), (16, d.vsol), (16, vmax), (16, d.steps)])
  else
    match o with
    | 0x00 => some p.tb
    | 0x08 => some (fields [(2, p.src), (1, b2n p.locked), (29, 0), (32, signedField 32 p.offset)])
    | 0x10 => some 0
    | 0x18 => some (fields [(24, signedField 24 p.ppb)])
    | 0x100 => some (fields [(2, p.active), (12, p.plim), (10, p.dlim)])
    | 0x108 => some (fields [(16, p.last), (16, p.max_), (16, p.high)])
    | 0x400 => some (fields [(16, s.reserve), (32, p.proj), (1, b2n p.low), (1, b2n p.due), (1, b2n p.taken)])
    | 0x408 => some (fields [(1, 0), (1, b2n p.armed)])
    | _ => none

/-- SEC. -/
def State.readSec (s : State) (o : Nat) : Option Nat :=
  let x := s.sec
  let b := x.boot
  match o with
  | 0x00 => some (fields [(3, x.stage), (1, b2n x.set), (2, b.fails), (1, b2n x.recPin)])
  | 0x08 => some (fields [(8, x.code), (16, x.detail), (3, x.failStage)])
  | 0x10 => some (fields [(2, b.next.2), (1, b2n b.next.1), (2, x.pins)])
  | 0x18 => some (fields [(4, 0), (1, b2n x.dev), (1, b2n x.busy.isSome), (2, 0), (4, x.status)])
  | 0x20 => some x.addr
  | 0x28 => some (fields [(1, b2n x.lockProf), (1, b2n x.lockUpd), (1, b2n x.lock)])
  | 0x30 => some (fields [(16, x.floor.1), (16, x.floor.2.1), (16, x.floor.2.2)])
  | _ => none

/-- TEL. -/
def State.readTel (s : State) (o : Nat) : Option Nat :=
  let t := s.tel
  if 0x10 ≤ o && o < 0x40 then some (mapGetD t.cnt ((o - 0x10) / 8) 0)
  else if 0x1000 ≤ o && o < 0x1020 then some (((s.sec.boot.fatal).map fun r => wordAt r.bytes (o - 0x1000)).getD 0)
  else if 0x10000 ≤ o && o < 0x30000 then some (((mapGet t.ring ((o - 0x10000) / 0x20)).map fun r => wordAt r.bytes (o % 0x20)).getD 0)
  else if 0x40000 ≤ o && o < 0x50000 then some (((mapGet t.recs ((o - 0x40000) / 0x40)).map fun l => wordAt l (o % 0x40)).getD 0)
  else
    match o with
    | 0x00 => some t.thresh
    | 0x08 => some (fields [(32, t.head), (32, t.tail)])
    | 0x40 => some t.lost
    | 0x48 => some (fields [(1, b2n t.tEn), (4, t.tLogd), (27, 0), (32, t.tFail)])
    | 0x50 => some t.tHost
    | 0x58 => some (fields [(1, b2n t.xEn), (8, t.xTarget), (23, 0), (32, t.xFail)])
    | _ => none

/-- The blocks of BAR0 (Table 16.3). -/
inductive Blk where
  | glb | sch | pgm | xpt | lnk | mem | kte | brd | pwr | sec | tel
  deriving DecidableEq, Repr

/-- Block and offset within it. -/
def blockOf (off : Nat) : Blk × Nat :=
  if off < 0x100000 then (.glb, off)
  else if off < 0x200000 then (.sch, off - 0x100000)
  else if off < 0x300000 then (.pgm, off - 0x200000)
  else if off < 0x400000 then (.xpt, off - 0x300000)
  else if off < 0x800000 then (.lnk, off - 0x400000)
  else if off < 0x1000000 then (.mem, off - 0x800000)
  else if off < 0x2000000 then (.kte, off - 0x1000000)
  else if off < 0x3000000 then (.brd, off - 0x2000000)
  else if off < 0x3800000 then (.pwr, off - 0x3000000)
  else if off < 0x3C00000 then (.sec, off - 0x3800000)
  else (.tel, off - 0x3C00000)

/-- Whether BAR0 serves a block (R404, R417). -/
def State.serves (s : State) (b : Blk) : Bool := match b with
  | .glb => s.glbUp
  | .sec => s.glbUp
  | .tel => s.glbUp
  | _ => s.barUp

/-- The register at an offset that is a multiple of 8, as it reads; none where there is no register. -/
def State.regRead (s : State) (off : Nat) : Option Nat :=
  match blockOf off with
  | (.glb, o) => s.readGlb o
  | (.sch, o) => s.readSch o
  | (.pgm, o) => s.readPgm o
  | (.xpt, o) => s.readXpt o
  | (.lnk, o) => s.readLnk o
  | (.mem, o) => s.readMemBlk o
  | (.kte, o) =>
    let k := o / 0x10000
    (kteRead k s.cyc (s.kite k) (o % 0x10000)).map fun v => if s.kiteOn k then v.toNat else 0
  | (.brd, o) => s.readBrd o
  | (.pwr, o) => s.readPwr o
  | (.sec, o) => s.readSec o
  | (.tel, o) => s.readTel o

/-! ### Writes -/

/-- A write: which halves of the register it carries, and its bits in place. -/
structure RegW where
  lo : Bool
  hi : Bool
  v : Nat
  deriving DecidableEq, Repr

/-- The written bits over a register's present value. -/
def RegW.over (w : RegW) (cur : Nat) : Nat :=
  (if w.lo then w.v % 2 ^ 32 else cur % 2 ^ 32) + 2 ^ 32 * (if w.hi then w.v / 2 ^ 32 % 2 ^ 32 else cur / 2 ^ 32 % 2 ^ 32)

/-- Bytes of a write put into a byte table at `o`. -/
def RegW.bytes (w : RegW) (m : Map Byte) (o : Nat) : Map Byte :=
  (leBytes 8 (w.over (mapWord m o))).zipIdx.foldl (fun m (b, i) => mapSet m (o + i) b) m

/-- A write of a register with a condition: otherwise ignored as a whole and logged (Table 19.3). -/
def State.regIf (s : State) (c : Bool) (unit : Nat) (t : State) : State := if c then t else s.ignoredReg unit

/-- UNIT_CMD: UNIT is set, and OP runs with it. -/
def State.writeUnitCmd (s : State) (w : RegW) : State :=
  if s.unitBusy then s.ignoredReg uHost
  else
    let s := if w.hi then { s with brd := { s.brd with cmdUnit := w.v / 2 ^ 32 % 2 ^ 32 } } else s
    match if w.lo then w.v % 16 else 0 with
    | 1 => unitDefine s
    | 2 => unitDelete s.brd.cmdUnit s
    | 3 => unitLaunch s
    | 4 => unitHalt s.brd.cmdUnit s
    | _ => s

def State.writeGlb (s : State) (o : Nat) (w : RegW) : State :=
  if 0x20000 ≤ o && o < 0x21000 then
    let q := (o - 0x20000) / 0x40
    let x := s.queue q
    match o % 0x40 with
    | 0 => queueBaseWrite q false (w.over x.sqBase) s
    | 8 => queueBaseWrite q true (w.over x.cqBase) s
    | 0x10 => qcfgWrite q (w.over x.cfg) s
    | _ => s
  else if o = 0x30000 then bdpAddrWrite (w.over s.hst.bdpAddr) s
  else if o = 0x30008 then { s with hst := { s.hst with bdpErr := s.hst.bdpErr && !(w.hi && bit w.v 48) } }
  else if o = 0x40000 then s.writeUnitCmd w
  else if 0x41000 ≤ o && o < 0x42000 then { s with brd := { s.brd with desc := w.bytes s.brd.desc (o - 0x41000) } }
  else s

/-- Whether a value of TICK_CFG is in range. -/
def tickCfgOk (v : Nat) : Bool :=
  decide (1000 ≤ bits v 0 17 && bits v 0 17 ≤ 100000 && 10 ≤ bits v 17 8 && bits v 17 8 ≤ 250 && bits v 25 7 ≤ 50
    && 1 ≤ bits v 32 7 && bits v 32 7 ≤ 100)

def State.writeSch (s : State) (o : Nat) (w : RegW) : State :=
  let c := s.sch
  match o with
  | 0x00 => if w.lo then runWrite (bit w.v 0) s else s
  | 0x08 =>
    let v := w.over c.tickCfg
    s.regIf (c.stopped && tickCfgOk v) uSch
      { s with sch := { c with period := bits v 0 17, ballast := bits v 17 8, gshare := bits v 25 7, xshare := bits v 32 7 } }
  | 0x20 => s.regIf c.stopped uSch { s with sch := { c with stepBase := w.over c.stepBase % 2 ^ 48 } }
  | 0x28 => if w.lo then s.regIf c.stopped uSch { s with sch := { c with serve := w.v % 2 ^ 32 } } else s
  | 0x70 =>
    if w.lo then
      s.regIf (!(c.follow && c.following)) uSch { s with sch := { c with leadId := w.v % 2 ^ 20, follow := bit w.v 20 } }
    else s
  | _ => s

def State.writePgm (s : State) (o : Nat) (w : RegW) : State :=
  let p := s.pgm
  if 0x4000 ≤ o && o < 0x8000 then { s with pgm := { p with pxDesc := w.bytes p.pxDesc (o - 0x4000) } }
  else
    match o with
    | 0x10 =>
      (match if w.lo then w.v % 256 else 0 with
       | 1 => pgmAlloc s
       | 2 => pgmMap s
       | 3 => pgmUnmap s
       | 4 => pgmIncref s
       | 5 => pgmDecref s
       | 6 => pgmDropspace s
       | 7 => pgmMigrate s
       | _ => s)
    | 0x18 => { s with pgm := { p with arg0 := w.over p.arg0 } }
    | 0x20 => { s with pgm := { p with arg1 := w.over p.arg1 } }
    | 0x28 => { s with pgm := { p with arg2 := w.over p.arg2 } }
    | 0x100 =>
      let v := w.over (((s.readPgm 0x100).getD 0))
      { s with pgm := { p with pxEn := bit v 0, pxInsert := bit v 1, loWater := bits v 8 16, hiWater := bits v 24 16 } }
    | 0x108 =>
      (match if w.lo then w.v % 16 else 0 with
       | 1 => pxInsert s
       | 2 => pxRemove s
       | 3 => pxFlush s
       | _ => s)
    | _ => s

def State.writeXpt (s : State) (o : Nat) (w : RegW) : State :=
  let x := s.xpt
  if 0x4000 ≤ o && o < 0x4800 then
    let c := mapGetD x.rx ((o - 0x4000) / 0x20) (0, 0, 0, 0)
    let c := match o % 0x20 with
      | 0 => (w.over c.1 % 2 ^ 48, c.2)
      | 8 => (c.1, w.over c.2.1 % 2 ^ 48, c.2.2)
      | 0x10 => (c.1, c.2.1, w.over c.2.2.1 % 2 ^ 48, c.2.2.2)
      | _ => (c.1, c.2.1, c.2.2.1, w.over c.2.2.2 % 2 ^ 32)
    { s with xpt := { x with rx := mapSet x.rx ((o - 0x4000) / 0x20) c } }
  else if 0x10000 ≤ o && o < 0x14000 then
    let t := (o - 0x10000) / 0x40
    targetWrite t (o % 0x40 / 8) (w.over (wordAt (s.target t) (o % 0x40))) s
  else if o = 0 && w.lo then { s with xpt := { x with en := bit w.v 0, rxen := bit w.v 1 } }
  else s

/-- MODID: once locked, a write of another value is refused and logged (R9). A Lerbo port that waited for an ID trains (R341). -/
def State.writeModid (s : State) (v : Nat) : State :=
  let l := s.lnk
  let id := v % 2 ^ 20
  if l.lock then
    (if id != l.modId || !bit v 20 then s.log ⟨.v, uPort, evRegLocked, 0xFFFF, 0xFFFF, 0⟩ else s)
  else
    let s := { s with lnk := { l with modId := id, lock := bit v 20 } }
    (List.range 96).foldl (fun s p =>
      let x := s.port p
      if x.en && x.mode == 0 && x.st == 0 then s.train p else s) s

def State.writeLnk (s : State) (o : Nat) (w : RegW) : State :=
  let l := s.lnk
  if o < 0x60000 then
    let p := o / 0x1000
    match o % 0x1000 with
    | 0 => if w.lo then pcfgWrite p w.v s else s
    | 0x10 => s.setPort p { s.port p with mac := w.over (s.port p).mac % 2 ^ 48 }
    | _ => s
  else if o = 0x60000 then (if w.lo then s.writeModid w.v else s)
  else if o = 0x60008 then
    (if w.lo then { s with lnk := { l with
        ptpPort := bits w.v 0 7, ptpEn := bit w.v 7, ptpDomain := bits w.v 8 8, ptpTransport := bits w.v 16 2 } }
     else s)
  else if o < 0x61080 then
    let i := (o - 0x61000) / 8
    { s with lnk := { l with lroute := mapSet l.lroute i (w.over (mapGetD l.lroute i 0) % 2 ^ 36) } }
  else
    let i := (o - 0x100000) / 8
    { s with lnk := { l with route := mapSet l.route i (w.over (mapGetD l.route i 0) % 2 ^ 36) } }

/-- A host's write to a kite's window (R104, R141, R147, R153, R442). -/
def State.writeKte (s : State) (k o : Nat) (w : RegW) : State :=
  let kt := s.kite k
  if !s.kiteOn k then s
  else if 0x8000 ≤ o then
    let cur := kt.chainWord k ((o - 0x8000) / 0x200 * 32 + (o - 0x8000) % 0x200 / 16) / 2 ^ (64 * (o / 8 % 2))
    s.putKite k (if kt.stopped then chainMemWrite k (o - 0x8000) (w.over (cur % 2 ^ 64)) kt else kt.ignored k)
  else if 0x208 ≤ o && o < 0x228 then
    let i := (o - 0x208) / 8
    s.putKite k (if kt.stopped then pmemWrite k i (w.over (kt.staged k i)) kt else kt.ignored k)
  else if !w.lo then s
  else
    match o with
    | 0x000 =>
      let s := if bit w.v 0 then haltReq k s else s
      if bit w.v 1 then resume k s else s
    | 0x200 => s.putKite k (if kt.stopped then { kt with pmAddr := w.v % 2 ^ 13 } else kt.ignored k)
    | _ => s.putKite k (csrWrite k (s.peerReels k) s.cyc o (BitVec.ofNat 64 w.v) kt)

def State.writeBrd (s : State) (o : Nat) (w : RegW) : State :=
  if o < 0x100000 && o % 16 = 0 then
    let s := if w.lo then brdCount (o / 16) (w.v % 2 ^ 32) s else s
    if w.hi then brdAddW (o / 16) (w.v / 2 ^ 32 % 2 ^ 32) s else s
  else s

/-- TB_CTL.SRC: a new source starts without a measurement; FREE runs from the reference alone (R386). -/
def State.writeTbCtl (s : State) (v : Nat) : State :=
  let p := s.pwr
  if v = p.src then s
  else { s with pwr := { p with src := v, locked := false, measAt := s.now, ppb := if v = 0 then 0 else p.ppb } }

def State.writePwr (s : State) (o : Nat) (w : RegW) : State :=
  match o with
  | 0x08 => if w.lo then s.writeTbCtl (w.v % 4) else s
  | 0x10 => tbSet (w.over 0) s
  | 0x408 => if w.lo then mstepArm (bit w.v 0) s else s
  | _ => s

/-- SEC.LOCK: its fields stand once LOCK is set (R9). -/
def State.writeLock (s : State) (v : Nat) : State :=
  let x := s.sec
  if x.lock then
    (if bit v 0 != x.lockProf || bit v 1 != x.lockUpd || !bit v 2 then s.log ⟨.v, uBoot, evRegLocked, 0xFFFF, 0xFFFF, 0⟩ else s)
  else { s with sec := { x with lockProf := bit v 0, lockUpd := bit v 1, lock := bit v 2 } }

def State.writeSec (s : State) (o : Nat) (w : RegW) : State :=
  match o with
  | 0x10 => if w.lo then profileNext (w.v % 8) s else s
  | 0x18 =>
    if !w.lo then s
    else
      let s := { s with sec := { s.sec with dev := bit w.v 4 } }
      (match w.v % 16 with
       | 1 => component (bit w.v 4) s
       | 2 => profiles s
       | 3 => resetCmd s
       | _ => s)
  | 0x20 => { s with sec := { s.sec with addr := w.over s.sec.addr % 2 ^ 48 } }
  | 0x28 => if w.lo then s.writeLock w.v else s
  | _ => s

def State.writeTel (s : State) (o : Nat) (w : RegW) : State :=
  let t := s.tel
  match o with
  | 0x00 => if w.lo then { s with tel := { t with thresh := w.v % 2 ^ 13 } } else s
  | 0x08 => if w.hi then logTail (w.v / 2 ^ 32 % 2 ^ 32) s else s
  | 0x48 => if w.lo then { s with tel := { t with tEn := bit w.v 0, tLogd := bits w.v 1 4 } } else s
  | 0x50 => if t.tEn then s.ignoredReg uHost else { s with tel := { t with tHost := w.over t.tHost } }
  | 0x58 => if w.lo then txcfgWrite w.v s else s
  | _ => s

/-- A write of a block's register. -/
def State.writeBlk (s : State) (b : Blk) (o : Nat) (w : RegW) : State :=
  match b with
  | .glb => s.writeGlb o w
  | .sch => s.writeSch o w
  | .pgm => s.writePgm o w
  | .xpt => s.writeXpt o w
  | .lnk => s.writeLnk o w
  | .mem => s
  | .kte => s.writeKte (o / 0x10000) (o % 0x10000) w
  | .brd => s.writeBrd o w
  | .pwr => s.writePwr o w
  | .sec => s.writeSec o w
  | .tel => s.writeTel o w

/-- REGISTER_WRITE: 8 bytes at a multiple of 8, or (`half`) the low 4 bytes of `v` at a multiple of 4. A block that BAR0 does not
serve ignores it; an offset with no register is logged (R363). -/
def registerWrite (off : Nat) (half : Bool) (v : Nat) (s : State) : State :=
  let up := half && off % 8 == 4
  let w : RegW := ⟨!up, !half || up, if up then v % 2 ^ 32 * 2 ^ 32 else if half then v % 2 ^ 32 else v⟩
  let a := off / 8 * 8
  let (b, o) := blockOf a
  if !s.serves b then s
  else if b == .kte && !s.kiteOn (o / 0x10000) then s
  else if (s.regRead a).isNone || off % (if half then 4 else 8) != 0 then s.badReg
  else s.writeBlk b o w

/-- REGISTER_WRITE (R8, R9, R363). -/
def execRegisterWrite (off : BitVec 26) (half : Bool) (v : BitVec 64) (s : State) : Host.Outcome State Fault Refusal :=
  .next (registerWrite off.toNat half v.toNat s)

end Sys2Proof.Machine
end

