-- ==== Sys2Proof/Machine/Scalar.lean ====
section
/-! DEFINITION. The C slot (§9.3): scalar arithmetic, compares, scratchpad and register accesses, balanced branches and loops,
STEPEND and HALT, with the ends of their paddings. -/
namespace Sys2Proof.Machine

/-- ADD (R182): C-slot scalar add: SD := SA + SB, wrapping modulo 2^64. -/
def execAdd (k : Fin 256) (f : CR) (s : State) : Host.Outcome State Fault Refusal :=
  execSlot k 0 (fun _ => chkCr f) (fun t _ kt => effAlu 1 (fun a b => a + b) k t f kt) s

/-- SUB (R182): C-slot scalar subtract: SD := SA - SB. -/
def execSub (k : Fin 256) (f : CR) (s : State) : Host.Outcome State Fault Refusal :=
  execSlot k 0 (fun _ => chkCr f) (fun t _ kt => effAlu 1 (fun a b => a - b) k t f kt) s

/-- AND (R182): C-slot bitwise AND of two scalar registers. -/
def execAnd (k : Fin 256) (f : CR) (s : State) : Host.Outcome State Fault Refusal :=
  execSlot k 0 (fun _ => chkCr f) (fun t _ kt => effAlu 1 (fun a b => a &&& b) k t f kt) s

/-- OR (R182): C-slot bitwise OR of two scalar registers. -/
def execOr (k : Fin 256) (f : CR) (s : State) : Host.Outcome State Fault Refusal :=
  execSlot k 0 (fun _ => chkCr f) (fun t _ kt => effAlu 1 (fun a b => a ||| b) k t f kt) s

/-- XOR (R182): C-slot bitwise XOR of two scalar registers. -/
def execXor (k : Fin 256) (f : CR) (s : State) : Host.Outcome State Fault Refusal :=
  execSlot k 0 (fun _ => chkCr f) (fun t _ kt => effAlu 1 (fun a b => a ^^^ b) k t f kt) s

/-- SHL (R182): C-slot shift left by SB[5:0]. -/
def execShl (k : Fin 256) (f : CR) (s : State) : Host.Outcome State Fault Refusal :=
  execSlot k 0 (fun _ => chkCr f) (fun t _ kt => effAlu 1 (fun a b => a <<< shCount b) k t f kt) s

/-- SHR (R182): C-slot logical shift right by SB[5:0]. -/
def execShr (k : Fin 256) (f : CR) (s : State) : Host.Outcome State Fault Refusal :=
  execSlot k 0 (fun _ => chkCr f) (fun t _ kt => effAlu 1 (fun a b => a >>> shCount b) k t f kt) s

/-- SRA (R182): C-slot arithmetic shift right by SB[5:0]. -/
def execSra (k : Fin 256) (f : CR) (s : State) : Host.Outcome State Fault Refusal :=
  execSlot k 0 (fun _ => chkCr f) (fun t _ kt => effAlu 1 (fun a b => a.sshiftRight (shCount b)) k t f kt) s

/-- MUL (R182): C-slot multiply giving the low 64 bits, latency 3. -/
def execMul (k : Fin 256) (f : CR) (s : State) : Host.Outcome State Fault Refusal :=
  execSlot k 0 (fun _ => chkCr f) (fun t _ kt => effAlu 3 (fun a b => a * b) k t f kt) s

/-- SEL (R182): C-slot select of SA or SB by a flag. -/
def execSel (k : Fin 256) (f : CR) (s : State) : Host.Outcome State Fault Refusal :=
  execSlot k 0 (fun _ => chkCr f) (fun t _ kt => effSel k t f kt) s

/-- MOV (R182): C-slot register move; SB must be 0. -/
def execMov (k : Fin 256) (f : CR) (s : State) : Host.Outcome State Fault Refusal :=
  execSlot k 0 (fun _ => chkMov f) (fun t _ kt => effAlu 1 (fun a _ => a) k t f kt) s

/-- ADDI (R182): C-slot add of a sign-extended 16-bit immediate. -/
def execAddi (k : Fin 256) (f : CI) (s : State) : Host.Outcome State Fault Refusal :=
  execSlot k 0 (fun _ => none) (fun t _ kt => effAluI 1 (fun a i => a + i.signExtend 64) k t f kt) s

/-- ANDI (R182): C-slot AND with a zero-extended immediate. -/
def execAndi (k : Fin 256) (f : CI) (s : State) : Host.Outcome State Fault Refusal :=
  execSlot k 0 (fun _ => none) (fun t _ kt => effAluI 1 (fun a i => a &&& i.zeroExtend 64) k t f kt) s

/-- ORI (R182): C-slot OR with a zero-extended immediate. -/
def execOri (k : Fin 256) (f : CI) (s : State) : Host.Outcome State Fault Refusal :=
  execSlot k 0 (fun _ => none) (fun t _ kt => effAluI 1 (fun a i => a ||| i.zeroExtend 64) k t f kt) s

/-- XORI (R182): C-slot XOR with a zero-extended immediate. -/
def execXori (k : Fin 256) (f : CI) (s : State) : Host.Outcome State Fault Refusal :=
  execSlot k 0 (fun _ => none) (fun t _ kt => effAluI 1 (fun a i => a ^^^ i.zeroExtend 64) k t f kt) s

/-- SHLI (R182): C-slot shift left by an immediate count. -/
def execShli (k : Fin 256) (f : CI) (s : State) : Host.Outcome State Fault Refusal :=
  execSlot k 0 (fun _ => chkShi f) (fun t _ kt => effAluI 1 (fun a i => a <<< i.toNat) k t f kt) s

/-- SHRI (R182): C-slot logical shift right by an immediate count. -/
def execShri (k : Fin 256) (f : CI) (s : State) : Host.Outcome State Fault Refusal :=
  execSlot k 0 (fun _ => chkShi f) (fun t _ kt => effAluI 1 (fun a i => a >>> i.toNat) k t f kt) s

/-- SRAI (R182): C-slot arithmetic shift right by an immediate count. -/
def execSrai (k : Fin 256) (f : CI) (s : State) : Host.Outcome State Fault Refusal :=
  execSlot k 0 (fun _ => chkShi f) (fun t _ kt => effAluI 1 (fun a i => a.sshiftRight i.toNat) k t f kt) s

/-- MULI (R182): C-slot multiply by a sign-extended immediate. -/
def execMuli (k : Fin 256) (f : CI) (s : State) : Host.Outcome State Fault Refusal :=
  execSlot k 0 (fun _ => none) (fun t _ kt => effAluI 3 (fun a i => a * i.signExtend 64) k t f kt) s

/-- LI (R182): C-slot load of a sign-extended 21-bit immediate. -/
def execLi (k : Fin 256) (f : CL) (s : State) : Host.Outcome State Fault Refusal :=
  execSlot k 0 (fun _ => none) (fun t _ kt => kt.result k (.s f.sd.toNat) (t + 1) (f.imm.signExtend 64)) s

/-- LIH (R182): C-slot insert of a 16-bit immediate into one quarter of SD. -/
def execLih (k : Fin 256) (f : CH) (s : State) : Host.Outcome State Fault Refusal :=
  execSlot k 0 (fun _ => illegalIf (f.rsv != 0))
    (fun t _ kt => (kt.readHaz k 0 [.s f.sd.toNat]).result k (.s f.sd.toNat) (t + 1) (lihValue (kt.s f.sd) f.h f.imm)) s

/-- CMP (R183): C-slot compare of two scalars into a flag by COND. -/
def execCmp (k : Fin 256) (f : CC) (s : State) : Host.Outcome State Fault Refusal :=
  execSlot k 0 (fun _ => illegalIf (f.rsv != 0))
    (fun t _ kt => (kt.readHaz k 0 [.s f.sa.toNat, .s f.sb.toNat]).result k (.f f.fd.toNat) (t + 1) (flagWord (condHolds f.cond (kt.s f.sa) (kt.s f.sb)))) s

/-- CMPI (R183): C-slot compare of a scalar with an immediate into a flag. -/
def execCmpi (k : Fin 256) (f : CCI) (s : State) : Host.Outcome State Fault Refusal :=
  execSlot k 0 (fun _ => illegalIf (f.cond == 6 || f.cond == 7))
    (fun t _ kt => (kt.readHaz k 0 [.s f.sa.toNat]).result k (.f f.fd.toNat) (t + 1) (flagWord (condHolds f.cond (kt.s f.sa) (f.imm.signExtend 64)))) s

/-- LD (R184): Scalar load of 1 to 8 scratchpad bytes into a scalar register. -/
def execLd (k : Fin 256) (f : CM) (s : State) : Host.Outcome State Fault Refusal :=
  execSlot k 0 (fun kt => chkMem false kt f) (fun t _ kt => effLd k t f kt) s

/-- ST (R184): Scalar store of 1 to 8 bytes into one scratchpad chunk. -/
def execSt (k : Fin 256) (f : CM) (s : State) : Host.Outcome State Fault Refusal :=
  execSlot k 0 (fun kt => chkMem true kt f) (fun t _ kt => effSt k t f kt) s

/-- CSRR (R185): Keel reads a 64-bit register of its own KTE window. -/
def execCsrr (k : Fin 256) (f : CS) (s : State) : Host.Outcome State Fault Refusal :=
  execSlot k 0 (fun _ => chkCsr f) (fun t _ kt => effCsrr t f kt) s

/-- CSRW (R185): Keel writes a 64-bit register of its own KTE window. -/
def execCsrw (k : Fin 256) (f : CS) (s : State) : Host.Outcome State Fault Refusal :=
  execSlot k 0 (fun _ => chkCsr f) (fun t _ kt => effCsrw k t f kt) s

/-- BRB (R164): Balanced branch runs one arm and pads to a declared length. -/
def execBrb (k : Fin 256) (f : CB) (s : State) : Host.Outcome State Fault Refusal :=
  execSlot k 0 (fun kt => chkBrb kt f) (fun t _ kt => effBrb k t f kt) s

/-- End the padding of the innermost construct, and of every outer one that ends with it, at the end of the present local
cycle: of a loop, or of a branch (R164, R165). -/
def State.padEnds (s : State) (k : Fin 256) (loop : Bool) : State :=
  let kt := s.kite k
  let t := kt.t s.cyc
  let inner := match kt.frames with
    | .loop _ _ _ _ _ _ :: _ => true
    | _ => false
  if kt.st == .padding && kt.hold.isNone && padDue t kt && inner == loop then s.putKite k (closePads t 9 kt) else s

/-- BRB_JOIN (R164): At t + LEN the branch padding ends and the join bundle issues next. -/
def execBrbJoin (k : Fin 256) (s : State) : Host.Outcome State Fault Refusal :=
  .next (s.padEnds k false)

/-- LOOP (R165): Counted loop runs its body n times without bubbles. -/
def execLoop (k : Fin 256) (f : CP) (s : State) : Host.Outcome State Fault Refusal :=
  execSlot k 0 (fun kt => chkLoop kt f) (fun t _ kt => effLoop k t f kt) s

/-- LOOP_PAD_END (R165): The (MAX - n) x L padding after a register-count loop runs out. -/
def execLoopPadEnd (k : Fin 256) (s : State) : Host.Outcome State Fault Refusal :=
  .next (s.padEnds k true)

/-- STEPEND (R160): Kite records its step cycles and reports arrival to the step scheduler. -/
def execStepend (k : Fin 256) (f : CZ) (s : State) : Host.Outcome State Fault Refusal :=
  .next (s.issue k 0 (chkStepend (s.kite k) f) fun s => s.putKite k (effStepend s.cyc (s.kite k)))

/-- HALT (R154): Keel stops at the end of its issue cycle; units in flight complete. -/
def execHalt (k : Fin 256) (f : CZ) (s : State) : Host.Outcome State Fault Refusal :=
  execSlot k 0 (fun kt => chkHalt kt f) (fun _ _ kt => { kt with haltEnd := true }) s

end Sys2Proof.Machine
end

