-- ==== Sys2Proof/Machine/VectorOps.lean ====
section
/-! DEFINITION. The V slot (Table 9.6), and the end of a chain. -/
namespace Sys2Proof.Machine

/-- VADD (R94): Vector add over n elements. -/
def execVadd (k : Fin 256) (f : VA) (s : State) : Host.Outcome State Fault Refusal :=
  execSlot k 2 (fun kt => orExc (chkVa .add f) (chkVaCount kt s.cyc f)) (fun _ tv kt => issueV k tv (.alu .add f) kt) s

/-- VSUB (R94): Vector subtract. -/
def execVsub (k : Fin 256) (f : VA) (s : State) : Host.Outcome State Fault Refusal :=
  execSlot k 2 (fun kt => orExc (chkVa .sub f) (chkVaCount kt s.cyc f)) (fun _ tv kt => issueV k tv (.alu .sub f) kt) s

/-- VMUL (R94): Vector multiply. -/
def execVmul (k : Fin 256) (f : VA) (s : State) : Host.Outcome State Fault Refusal :=
  execSlot k 2 (fun kt => orExc (chkVa .mul f) (chkVaCount kt s.cyc f)) (fun _ tv kt => issueV k tv (.alu .mul f) kt) s

/-- VFMA (R94): Vector fused multiply-add with one rounding. -/
def execVfma (k : Fin 256) (f : VA) (s : State) : Host.Outcome State Fault Refusal :=
  execSlot k 2 (fun kt => orExc (chkVa .fma f) (chkVaCount kt s.cyc f)) (fun _ tv kt => issueV k tv (.alu .fma f) kt) s

/-- VMIN (R45): Vector minimum by the mirror of max_nan. -/
def execVmin (k : Fin 256) (f : VA) (s : State) : Host.Outcome State Fault Refusal :=
  execSlot k 2 (fun kt => orExc (chkVa .min f) (chkVaCount kt s.cyc f)) (fun _ tv kt => issueV k tv (.alu .min f) kt) s

/-- VMAX (R45): Vector maximum by max_nan. -/
def execVmax (k : Fin 256) (f : VA) (s : State) : Host.Outcome State Fault Refusal :=
  execSlot k 2 (fun kt => orExc (chkVa .max f) (chkVaCount kt s.cyc f)) (fun _ tv kt => issueV k tv (.alu .max f) kt) s

/-- VNEG (R188): Vector sign inversion. -/
def execVneg (k : Fin 256) (f : VA) (s : State) : Host.Outcome State Fault Refusal :=
  execSlot k 2 (fun kt => orExc (chkVa .neg f) (chkVaCount kt s.cyc f)) (fun _ tv kt => issueV k tv (.alu .neg f) kt) s

/-- VABS (R188): Vector sign clear. -/
def execVabs (k : Fin 256) (f : VA) (s : State) : Host.Outcome State Fault Refusal :=
  execSlot k 2 (fun kt => orExc (chkVa .abs f) (chkVaCount kt s.cyc f)) (fun _ tv kt => issueV k tv (.alu .abs f) kt) s

/-- VCEQ (R188): Vector equal compare writing INT32 1 or 0. -/
def execVceq (k : Fin 256) (f : VA) (s : State) : Host.Outcome State Fault Refusal :=
  execSlot k 2 (fun kt => orExc (chkVa .ceq f) (chkVaCount kt s.cyc f)) (fun _ tv kt => issueV k tv (.alu .ceq f) kt) s

/-- VCNE (R188): Vector not-equal compare. -/
def execVcne (k : Fin 256) (f : VA) (s : State) : Host.Outcome State Fault Refusal :=
  execSlot k 2 (fun kt => orExc (chkVa .cne f) (chkVaCount kt s.cyc f)) (fun _ tv kt => issueV k tv (.alu .cne f) kt) s

/-- VCLT (R188): Vector less-than compare. -/
def execVclt (k : Fin 256) (f : VA) (s : State) : Host.Outcome State Fault Refusal :=
  execSlot k 2 (fun kt => orExc (chkVa .clt f) (chkVaCount kt s.cyc f)) (fun _ tv kt => issueV k tv (.alu .clt f) kt) s

/-- VCLE (R188): Vector less-or-equal compare. -/
def execVcle (k : Fin 256) (f : VA) (s : State) : Host.Outcome State Fault Refusal :=
  execSlot k 2 (fun kt => orExc (chkVa .cle f) (chkVaCount kt s.cyc f)) (fun _ tv kt => issueV k tv (.alu .cle f) kt) s

/-- VCGT (R188): Vector greater-than compare. -/
def execVcgt (k : Fin 256) (f : VA) (s : State) : Host.Outcome State Fault Refusal :=
  execSlot k 2 (fun kt => orExc (chkVa .cgt f) (chkVaCount kt s.cyc f)) (fun _ tv kt => issueV k tv (.alu .cgt f) kt) s

/-- VCGE (R188): Vector greater-or-equal compare. -/
def execVcge (k : Fin 256) (f : VA) (s : State) : Host.Outcome State Fault Refusal :=
  execSlot k 2 (fun kt => orExc (chkVa .cge f) (chkVaCount kt s.cyc f)) (fun _ tv kt => issueV k tv (.alu .cge f) kt) s

/-- VSEL (R188): Vector select by an INT32 selector. -/
def execVsel (k : Fin 256) (f : VA) (s : State) : Host.Outcome State Fault Refusal :=
  execSlot k 2 (fun kt => orExc (chkVa .sel f) (chkVaCount kt s.cyc f)) (fun _ tv kt => issueV k tv (.alu .sel f) kt) s

/-- VAND (R188): Vector bitwise AND on INT32. -/
def execVand (k : Fin 256) (f : VA) (s : State) : Host.Outcome State Fault Refusal :=
  execSlot k 2 (fun kt => orExc (chkVa .and f) (chkVaCount kt s.cyc f)) (fun _ tv kt => issueV k tv (.alu .and f) kt) s

/-- VOR (R188): Vector bitwise OR on INT32. -/
def execVor (k : Fin 256) (f : VA) (s : State) : Host.Outcome State Fault Refusal :=
  execSlot k 2 (fun kt => orExc (chkVa .or f) (chkVaCount kt s.cyc f)) (fun _ tv kt => issueV k tv (.alu .or f) kt) s

/-- VXOR (R188): Vector bitwise XOR on INT32. -/
def execVxor (k : Fin 256) (f : VA) (s : State) : Host.Outcome State Fault Refusal :=
  execSlot k 2 (fun kt => orExc (chkVa .xor f) (chkVaCount kt s.cyc f)) (fun _ tv kt => issueV k tv (.alu .xor f) kt) s

/-- VSHL (R188): Vector shift left on INT32. -/
def execVshl (k : Fin 256) (f : VA) (s : State) : Host.Outcome State Fault Refusal :=
  execSlot k 2 (fun kt => orExc (chkVa .shl f) (chkVaCount kt s.cyc f)) (fun _ tv kt => issueV k tv (.alu .shl f) kt) s

/-- VSHR (R188): Vector logical shift right on INT32. -/
def execVshr (k : Fin 256) (f : VA) (s : State) : Host.Outcome State Fault Refusal :=
  execSlot k 2 (fun kt => orExc (chkVa .shr f) (chkVaCount kt s.cyc f)) (fun _ tv kt => issueV k tv (.alu .shr f) kt) s

/-- VSRA (R188): Vector arithmetic shift right on INT32. -/
def execVsra (k : Fin 256) (f : VA) (s : State) : Host.Outcome State Fault Refusal :=
  execSlot k 2 (fun kt => orExc (chkVa .sra f) (chkVaCount kt s.cyc f)) (fun _ tv kt => issueV k tv (.alu .sra f) kt) s

/-- CVT (R95): Converts n elements between formats, optionally scaled by 2^EXP, with one rounding. -/
def execCvt (k : Fin 256) (f : VK) (s : State) : Host.Outcome State Fault Refusal :=
  execSlot k 2 (fun _ => chkCvt f) (fun _ tv kt => issueV k tv (.cvt f) kt) s

/-- VEXP2 (R102): SFU correctly rounded 2^x. -/
def execVexp2 (k : Fin 256) (f : VF) (s : State) : Host.Outcome State Fault Refusal :=
  execSlot k 2 (fun _ => chkVf f) (fun _ tv kt => issueV k tv (.sfn .exp2 f) kt) s

/-- VLOG2 (R102): SFU correctly rounded log2. -/
def execVlog2 (k : Fin 256) (f : VF) (s : State) : Host.Outcome State Fault Refusal :=
  execSlot k 2 (fun _ => chkVf f) (fun _ tv kt => issueV k tv (.sfn .log2 f) kt) s

/-- VRCP (R102): SFU correctly rounded reciprocal. -/
def execVrcp (k : Fin 256) (f : VF) (s : State) : Host.Outcome State Fault Refusal :=
  execSlot k 2 (fun _ => chkVf f) (fun _ tv kt => issueV k tv (.sfn .rcp f) kt) s

/-- VRSQRT (R102): SFU correctly rounded reciprocal square root. -/
def execVrsqrt (k : Fin 256) (f : VF) (s : State) : Host.Outcome State Fault Refusal :=
  execSlot k 2 (fun _ => chkVf f) (fun _ tv kt => issueV k tv (.sfn .rsqrt f) kt) s

/-- VSQRT (R102): SFU correctly rounded square root. -/
def execVsqrt (k : Fin 256) (f : VF) (s : State) : Host.Outcome State Fault Refusal :=
  execSlot k 2 (fun _ => chkVf f) (fun _ tv kt => issueV k tv (.sfn .sqrt f) kt) s

/-- VSINPI (R102): SFU correctly rounded sin of pi x. -/
def execVsinpi (k : Fin 256) (f : VF) (s : State) : Host.Outcome State Fault Refusal :=
  execSlot k 2 (fun _ => chkVf f) (fun _ tv kt => issueV k tv (.sfn .sinpi f) kt) s

/-- VCOSPI (R102): SFU correctly rounded cos of pi x. -/
def execVcospi (k : Fin 256) (f : VF) (s : State) : Host.Outcome State Fault Refusal :=
  execSlot k 2 (fun _ => chkVf f) (fun _ tv kt => issueV k tv (.sfn .cospi f) kt) s

/-- VTANH (R102): SFU correctly rounded tanh. -/
def execVtanh (k : Fin 256) (f : VF) (s : State) : Host.Outcome State Fault Refusal :=
  execSlot k 2 (fun _ => chkVf f) (fun _ tv kt => issueV k tv (.sfn .tanh f) kt) s

/-- VLOGI (R102): SFU correctly rounded logistic. -/
def execVlogi (k : Fin 256) (f : VF) (s : State) : Host.Outcome State Fault Refusal :=
  execSlot k 2 (fun _ => chkVf f) (fun _ tv kt => issueV k tv (.sfn .logi f) kt) s

/-- VERF (R102): SFU correctly rounded erf. -/
def execVerf (k : Fin 256) (f : VF) (s : State) : Host.Outcome State Fault Refusal :=
  execSlot k 2 (fun _ => chkVf f) (fun _ tv kt => issueV k tv (.sfn .erf f) kt) s

/-- VSHUF (R98): Vector shuffle by XOR, rotate, broadcast, repeat, stretch, transpose or gather. -/
def execVshuf (k : Fin 256) (f : VH) (s : State) : Host.Outcome State Fault Refusal :=
  execSlot k 2 (fun kt => orExc (chkVshuf f) (chkVshufCount kt s.cyc f)) (fun _ tv kt => issueV k tv (.shuf f) kt) s

/-- VTREE (R99): One level of the aligned binary tree in lane or block form. -/
def execVtree (k : Fin 256) (f : VT) (s : State) : Host.Outcome State Fault Refusal :=
  execSlot k 2 (fun _ => chkVtree f) (fun _ tv kt => issueV k tv (.tree f) kt) s

/-- VACC (R96): Reads a block of the shadow accumulator set into a register, releasing it with LAST. -/
def execVacc (k : Fin 256) (f : VQ) (s : State) : Host.Outcome State Fault Refusal :=
  execSlot k 2 (fun kt => chkVacc kt f) (fun _ tv kt => issueV k tv (.acc f) kt) s

/-- VSUM (R101): Reduces a vector to one scalar written to Sd. -/
def execVsum (k : Fin 256) (f : VU) (s : State) : Host.Outcome State Fault Refusal :=
  execSlot k 2 (fun _ => chkVsum f) (fun _ tv kt => issueV k tv (.sum f) kt) s

/-- VLD (R193): Loads whole scratchpad rows into a vector register. -/
def execVld (k : Fin 256) (f : VM) (s : State) : Host.Outcome State Fault Refusal :=
  execSlot k 2 (fun _ => chkVm f) (fun _ tv kt => issueV k tv (.ld f) kt) s

/-- VST (R193): Stores a vector register into whole scratchpad rows. -/
def execVst (k : Fin 256) (f : VM) (s : State) : Host.Outcome State Fault Refusal :=
  execSlot k 2 (fun _ => chkVm f) (fun _ tv kt => issueV k tv (.st f) kt) s

/-- VCHAIN (R118): Runs a chain program over NT tiles in slices, stage by stage. -/
def execVchain (k : Fin 256) (f : VX) (s : State) : Host.Outcome State Fault Refusal :=
  execSlot k 2 (fun kt => chkVchain kt k f) (fun _ tv kt => effVchain k tv f kt) s

/-- CHAIN_END (R119): The chain reaches tE and frees the vector units. -/
def execChainEnd (k : Fin 256) (s : State) : Host.Outcome State Fault Refusal :=
  let kt := s.kite k
  .next (if kt.chainDue (kt.tv s.cyc) then s.putKite k (chainFinish k (kt.tv s.cyc) kt) else s)

end Sys2Proof.Machine
end

