-- ==== Sys2Proof/Machine/Dispatch.lean ====
section
/-! DEFINITION. One arm for each command: a direct call of its meaning. -/
namespace Sys2Proof.Machine

def exec (i : Instr) (s : State) : Host.Outcome State Fault Refusal :=
  match i with
  | .add k f => Sys2Proof.Machine.execAdd k f s
  | .sub k f => Sys2Proof.Machine.execSub k f s
  | .and k f => Sys2Proof.Machine.execAnd k f s
  | .or k f => Sys2Proof.Machine.execOr k f s
  | .xor k f => Sys2Proof.Machine.execXor k f s
  | .shl k f => Sys2Proof.Machine.execShl k f s
  | .shr k f => Sys2Proof.Machine.execShr k f s
  | .sra k f => Sys2Proof.Machine.execSra k f s
  | .mul k f => Sys2Proof.Machine.execMul k f s
  | .sel k f => Sys2Proof.Machine.execSel k f s
  | .mov k f => Sys2Proof.Machine.execMov k f s
  | .addi k f => Sys2Proof.Machine.execAddi k f s
  | .andi k f => Sys2Proof.Machine.execAndi k f s
  | .ori k f => Sys2Proof.Machine.execOri k f s
  | .xori k f => Sys2Proof.Machine.execXori k f s
  | .shli k f => Sys2Proof.Machine.execShli k f s
  | .shri k f => Sys2Proof.Machine.execShri k f s
  | .srai k f => Sys2Proof.Machine.execSrai k f s
  | .muli k f => Sys2Proof.Machine.execMuli k f s
  | .li k f => Sys2Proof.Machine.execLi k f s
  | .lih k f => Sys2Proof.Machine.execLih k f s
  | .cmp k f => Sys2Proof.Machine.execCmp k f s
  | .cmpi k f => Sys2Proof.Machine.execCmpi k f s
  | .ld k f => Sys2Proof.Machine.execLd k f s
  | .st k f => Sys2Proof.Machine.execSt k f s
  | .csrr k f => Sys2Proof.Machine.execCsrr k f s
  | .csrw k f => Sys2Proof.Machine.execCsrw k f s
  | .brb k f => Sys2Proof.Machine.execBrb k f s
  | .brbJoin k => Sys2Proof.Machine.execBrbJoin k s
  | .loop k f => Sys2Proof.Machine.execLoop k f s
  | .loopPadEnd k => Sys2Proof.Machine.execLoopPadEnd k s
  | .stepend k f => Sys2Proof.Machine.execStepend k f s
  | .halt k f => Sys2Proof.Machine.execHalt k f s
  | .mset k f => Sys2Proof.Machine.execMset k f s
  | .mfeed k f => Sys2Proof.Machine.execMfeed k f s
  | .passLastUpdate k => Sys2Proof.Machine.execPassLastUpdate k s
  | .deflation k => Sys2Proof.Machine.execDeflation k s
  | .mswap k f => Sys2Proof.Machine.execMswap k f s
  | .mseed k f => Sys2Proof.Machine.execMseed k f s
  | .mseedComplete k => Sys2Proof.Machine.execMseedComplete k s
  | .mzero k f => Sys2Proof.Machine.execMzero k f s
  | .testDrain k v => Sys2Proof.Machine.execTestDrain k v s
  | .testDrainDone k => Sys2Proof.Machine.execTestDrainDone k s
  | .vadd k f => Sys2Proof.Machine.execVadd k f s
  | .vsub k f => Sys2Proof.Machine.execVsub k f s
  | .vmul k f => Sys2Proof.Machine.execVmul k f s
  | .vfma k f => Sys2Proof.Machine.execVfma k f s
  | .vmin k f => Sys2Proof.Machine.execVmin k f s
  | .vmax k f => Sys2Proof.Machine.execVmax k f s
  | .vneg k f => Sys2Proof.Machine.execVneg k f s
  | .vabs k f => Sys2Proof.Machine.execVabs k f s
  | .vceq k f => Sys2Proof.Machine.execVceq k f s
  | .vcne k f => Sys2Proof.Machine.execVcne k f s
  | .vclt k f => Sys2Proof.Machine.execVclt k f s
  | .vcle k f => Sys2Proof.Machine.execVcle k f s
  | .vcgt k f => Sys2Proof.Machine.execVcgt k f s
  | .vcge k f => Sys2Proof.Machine.execVcge k f s
  | .vsel k f => Sys2Proof.Machine.execVsel k f s
  | .vand k f => Sys2Proof.Machine.execVand k f s
  | .vor k f => Sys2Proof.Machine.execVor k f s
  | .vxor k f => Sys2Proof.Machine.execVxor k f s
  | .vshl k f => Sys2Proof.Machine.execVshl k f s
  | .vshr k f => Sys2Proof.Machine.execVshr k f s
  | .vsra k f => Sys2Proof.Machine.execVsra k f s
  | .cvt k f => Sys2Proof.Machine.execCvt k f s
  | .vexp2 k f => Sys2Proof.Machine.execVexp2 k f s
  | .vlog2 k f => Sys2Proof.Machine.execVlog2 k f s
  | .vrcp k f => Sys2Proof.Machine.execVrcp k f s
  | .vrsqrt k f => Sys2Proof.Machine.execVrsqrt k f s
  | .vsqrt k f => Sys2Proof.Machine.execVsqrt k f s
  | .vsinpi k f => Sys2Proof.Machine.execVsinpi k f s
  | .vcospi k f => Sys2Proof.Machine.execVcospi k f s
  | .vtanh k f => Sys2Proof.Machine.execVtanh k f s
  | .vlogi k f => Sys2Proof.Machine.execVlogi k f s
  | .verf k f => Sys2Proof.Machine.execVerf k f s
  | .vshuf k f => Sys2Proof.Machine.execVshuf k f s
  | .vtree k f => Sys2Proof.Machine.execVtree k f s
  | .vacc k f => Sys2Proof.Machine.execVacc k f s
  | .vsum k f => Sys2Proof.Machine.execVsum k f s
  | .vld k f => Sys2Proof.Machine.execVld k f s
  | .vst k f => Sys2Proof.Machine.execVst k f s
  | .vchain k f => Sys2Proof.Machine.execVchain k f s
  | .chainEnd k => Sys2Proof.Machine.execChainEnd k s
  | .dmov k f => Sys2Proof.Machine.execDmov k f s
  | .dpage k f => Sys2Proof.Machine.execDpage k f s
  | .dsend k f => Sys2Proof.Machine.execDsend k f s
  | .dexport k f => Sys2Proof.Machine.execDexport k f s
  | .dfill k f => Sys2Proof.Machine.execDfill k f s
  | .dcopy k f => Sys2Proof.Machine.execDcopy k f s
  | .moveComplete k ch => Sys2Proof.Machine.execMoveComplete k ch s
  | .sig k f => Sys2Proof.Machine.execSig k f s
  | .wait k f => Sys2Proof.Machine.execWait k f s
  | .arrive k f => Sys2Proof.Machine.execArrive k f s
  | .waitr k f => Sys2Proof.Machine.execWaitr k f s
  | .fence k f => Sys2Proof.Machine.execFence k f s
  | .tickwait k f => Sys2Proof.Machine.execTickwait k f s
  | .plannedRelease k => Sys2Proof.Machine.execPlannedRelease k s
  | .bridleNotice k => Sys2Proof.Machine.execBridleNotice k s
  | .anchorTimeout k => Sys2Proof.Machine.execAnchorTimeout k s
  | .haltReq k => Sys2Proof.Machine.execHaltReq k s
  | .resume k => Sys2Proof.Machine.execResume k s
  | .pmemDataWrite k w v => Sys2Proof.Machine.execPmemDataWrite k w v s
  | .pmemDataRead k w => Sys2Proof.Machine.execPmemDataRead k w s
  | .chainmemWrite k off v => Sys2Proof.Machine.execChainmemWrite k off v s
  | .reelCfgWrite k r v => Sys2Proof.Machine.execReelCfgWrite k r v s
  | .offReq k mask => Sys2Proof.Machine.execOffReq k mask s
  | .onReq k mask => Sys2Proof.Machine.execOnReq k mask s
  | .bankPowerOff k b => Sys2Proof.Machine.execBankPowerOff k b s
  | .bankCloseTimeout k b => Sys2Proof.Machine.execBankCloseTimeout k b s
  | .bankWakeDone k b => Sys2Proof.Machine.execBankWakeDone k b s
  | .repair k => Sys2Proof.Machine.execRepair k s
  | .define => Sys2Proof.Machine.execDefine s
  | .delete unit => Sys2Proof.Machine.execDelete unit s
  | .launch => Sys2Proof.Machine.execLaunch s
  | .launchGo => Sys2Proof.Machine.execLaunchGo s
  | .unitCmdTimeout => Sys2Proof.Machine.execUnitCmdTimeout s
  | .haltUnit unit => Sys2Proof.Machine.execHaltUnit unit s
  | .bridleEvaluation b fab => Sys2Proof.Machine.execBridleEvaluation b fab s
  | .waitExpiry b k fab => Sys2Proof.Machine.execWaitExpiry b k fab s
  | .brdCountWrite b v => Sys2Proof.Machine.execBrdCountWrite b v s
  | .brdAdd b v => Sys2Proof.Machine.execBrdAdd b v s
  | .alloc => Sys2Proof.Machine.execAlloc s
  | .map => Sys2Proof.Machine.execMap s
  | .unmap => Sys2Proof.Machine.execUnmap s
  | .incref => Sys2Proof.Machine.execIncref s
  | .decref => Sys2Proof.Machine.execDecref s
  | .dropspace => Sys2Proof.Machine.execDropspace s
  | .migrate => Sys2Proof.Machine.execMigrate s
  | .migrateCopyDone frame => Sys2Proof.Machine.execMigrateCopyDone frame s
  | .stepBoundary => Sys2Proof.Machine.execStepBoundary s
  | .epochRetire => Sys2Proof.Machine.execEpochRetire s
  | .patrolScrub tier mib => Sys2Proof.Machine.execPatrolScrub tier mib s
  | .hbmPhyCalibration h => Sys2Proof.Machine.execHbmPhyCalibration h s
  | .loftCalibration c => Sys2Proof.Machine.execLoftCalibration c s
  | .loftWearLevelling frame => Sys2Proof.Machine.execLoftWearLevelling frame s
  | .pageCopyDone => Sys2Proof.Machine.execPageCopyDone s
  | .insert => Sys2Proof.Machine.execInsert s
  | .remove => Sys2Proof.Machine.execRemove s
  | .flush => Sys2Proof.Machine.execFlush s
  | .runWrite run => Sys2Proof.Machine.execRunWrite run s
  | .tickStart j => Sys2Proof.Machine.execTickStart j s
  | .stepGo => Sys2Proof.Machine.execStepGo s
  | .planFreeze j => Sys2Proof.Machine.execPlanFreeze j s
  | .admissionRound r => Sys2Proof.Machine.execAdmissionRound r s
  | .stepCut j => Sys2Proof.Machine.execStepCut j s
  | .exportDeadline x => Sys2Proof.Machine.execExportDeadline x s
  | .sqTailDoorbell q bytes v => Sys2Proof.Machine.execSqTailDoorbell q bytes v s
  | .cqHeadDoorbell q bytes v => Sys2Proof.Machine.execCqHeadDoorbell q bytes v s
  | .prefill q e => Sys2Proof.Machine.execPrefill q e s
  | .cancel q e => Sys2Proof.Machine.execCancel q e s
  | .loadModel q e => Sys2Proof.Machine.execLoadModel q e s
  | .modelLoadDone m => Sys2Proof.Machine.execModelLoadDone m s
  | .unloadModel q e => Sys2Proof.Machine.execUnloadModel q e s
  | .installVariant q e => Sys2Proof.Machine.execInstallVariant q e s
  | .variantInstallDone v => Sys2Proof.Machine.execVariantInstallDone v s
  | .removeVariant q e => Sys2Proof.Machine.execRemoveVariant q e s
  | .qcfgWrite q v => Sys2Proof.Machine.execQcfgWrite q v s
  | .queueBaseWrite q cq v => Sys2Proof.Machine.execQueueBaseWrite q cq v s
  | .queueDisableDone q => Sys2Proof.Machine.execQueueDisableDone q s
  | .interruptTimeout q => Sys2Proof.Machine.execInterruptTimeout q s
  | .bdpAddrWrite v => Sys2Proof.Machine.execBdpAddrWrite v s
  | .bdpWrite o data => Sys2Proof.Machine.execBdpWrite o data s
  | .bdpRead o n => Sys2Proof.Machine.execBdpRead o n s
  | .pcieLinkDown => Sys2Proof.Machine.execPcieLinkDown s
  | .registerWrite off half v => Sys2Proof.Machine.execRegisterWrite off half v s
  | .targetWrite t w v => Sys2Proof.Machine.execTargetWrite t w v s
  | .pageData x => Sys2Proof.Machine.execPageData x s
  | .manifest x => Sys2Proof.Machine.execManifest x s
  | .ack rx msg => Sys2Proof.Machine.execAck rx msg s
  | .nak rx msg => Sys2Proof.Machine.execNak rx msg s
  | .credit rx msg => Sys2Proof.Machine.execCredit rx msg s
  | .retransmitTimeout x => Sys2Proof.Machine.execRetransmitTimeout x s
  | .rateIncrease x => Sys2Proof.Machine.execRateIncrease x s
  | .sealedTimeout x => Sys2Proof.Machine.execSealedTimeout x s
  | .yaphor r ctx rsv msg => Sys2Proof.Machine.execYaphor r ctx rsv msg s
  | .unitReq r tag cmd rsv desc => Sys2Proof.Machine.execUnitReq r tag cmd rsv desc s
  | .unitRsp r tag status rsv => Sys2Proof.Machine.execUnitRsp r tag status rsv s
  | .write r f rows => Sys2Proof.Machine.execWrite r f rows s
  | .writeDone r tag status rsv => Sys2Proof.Machine.execWriteDone r tag status rsv s
  | .stepDesc r tick off data => Sys2Proof.Machine.execStepDesc r tick off data s
  | .schedCtlStart r tick t0 cfg rsv => Sys2Proof.Machine.execSchedCtlStart r tick t0 cfg rsv s
  | .schedCtlBoundary r tick rsv => Sys2Proof.Machine.execSchedCtlBoundary r tick rsv s
  | .schedCtlStop r tick rsv => Sys2Proof.Machine.execSchedCtlStop r tick rsv s
  | .stepDone r tick last holds => Sys2Proof.Machine.execStepDone r tick last holds s
  | .signal r bridle amt => Sys2Proof.Machine.execSignal r bridle amt s
  | .lerboForward r mtype body => Sys2Proof.Machine.execLerboForward r mtype body s
  | .hello p f => Sys2Proof.Machine.execHello p f s
  | .replay p f => Sys2Proof.Machine.execReplay p f s
  | .replayRetry p => Sys2Proof.Machine.execReplayRetry p s
  | .aackTimeout p => Sys2Proof.Machine.execAackTimeout p s
  | .laneLockLoss p => Sys2Proof.Machine.execLaneLockLoss p s
  | .retrainTimeout p => Sys2Proof.Machine.execRetrainTimeout p s
  | .trainingTimeout p => Sys2Proof.Machine.execTrainingTimeout p s
  | .downRetry p => Sys2Proof.Machine.execDownRetry p s
  | .pllLockLoss q => Sys2Proof.Machine.execPllLockLoss q s
  | .pcfgWrite p v => Sys2Proof.Machine.execPcfgWrite p v s
  | .unquar p => Sys2Proof.Machine.execUnquar p s
  | .ethernetFrame p f frame => Sys2Proof.Machine.execEthernetFrame p f frame s
  | .pfc p en quanta => Sys2Proof.Machine.execPfc p en quanta s
  | .ptpMessage p m => Sys2Proof.Machine.execPtpMessage p m s
  | .pps width => Sys2Proof.Machine.execPps width s
  | .timebaseSourceTimeout => Sys2Proof.Machine.execTimebaseSourceTimeout s
  | .tbSet v => Sys2Proof.Machine.execTbSet v s
  | .wakeRequest d => Sys2Proof.Machine.execWakeRequest d s
  | .sensorSample x => Sys2Proof.Machine.execSensorSample x s
  | .marginPlanStep => Sys2Proof.Machine.execMarginPlanStep s
  | .marginPlanSave => Sys2Proof.Machine.execMarginPlanSave s
  | .mstepArm arm => Sys2Proof.Machine.execMstepArm arm s
  | .txcfgWrite v => Sys2Proof.Machine.execTxcfgWrite v s
  | .logTailWrite v => Sys2Proof.Machine.execLogTailWrite v s
  | .perst level ns => Sys2Proof.Machine.execPerst level ns s
  | .moduleReset env => Sys2Proof.Machine.execModuleReset env s
  | .bootStageTimeout stage => Sys2Proof.Machine.execBootStageTimeout stage s
  | .pwrGoodRise => Sys2Proof.Machine.execPwrGoodRise s
  | .powerLoss => Sys2Proof.Machine.execPowerLoss s
  | .component dev => Sys2Proof.Machine.execComponent dev s
  | .profiles => Sys2Proof.Machine.execProfiles s
  | .reset => Sys2Proof.Machine.execReset s
  | .profileNextWrite v => Sys2Proof.Machine.execProfileNextWrite v s
  | .getVersion f => Sys2Proof.Machine.execGetVersion f s
  | .getCapabilities f => Sys2Proof.Machine.execGetCapabilities f s
  | .negotiateAlgorithms f => Sys2Proof.Machine.execNegotiateAlgorithms f s
  | .getDigests f => Sys2Proof.Machine.execGetDigests f s
  | .getCertificate f => Sys2Proof.Machine.execGetCertificate f s
  | .challenge f => Sys2Proof.Machine.execChallenge f s
  | .getMeasurements f => Sys2Proof.Machine.execGetMeasurements f s
  | .pldmSensorRequest id => Sys2Proof.Machine.execPldmSensorRequest id s
  | .flit p f => Sys2Proof.Machine.execFlit p f s
  | .equalisationDone p lock => Sys2Proof.Machine.execEqualisationDone p lock s
  | .updateDone ok => Sys2Proof.Machine.execUpdateDone ok s
  | .d3hot enter => Sys2Proof.Machine.execD3hot enter s

end Sys2Proof.Machine
end

