-- ==== Sys2Proof/Decode.lean ====
section
/-! DEFINITION. The encodings of slot instructions (file 09): the fields of each format by their places in the slot, the opcode
tables, bundles cut into slots (Table 8.1, R177–R179), and an encoder over the same tables. The table of operations gives its
rows no bits, so no word spells a command. -/
namespace Sys2Proof

/-- Bits of a slot from bit `lo` upward. -/
def slotField (n w lo : Nat) : BitVec n := BitVec.ofNat n (w / 2 ^ lo)

/-- What a slot holds: nothing, an opcode that no table lists (R178), or an instruction. -/
inductive Slot where
  | nop
  | reserved
  | ins (i : Instr)
  deriving DecidableEq, Repr

/-! ### Fields -/

/-- Format CR from its slot. -/
def CR.ofWord (w : Nat) : CR :=
  ⟨slotField 5 w 21, slotField 5 w 16, slotField 5 w 11, slotField 3 w 8, slotField 8 w 0⟩

/-- Fields of format CR in its slot. -/
def CR.word (f : CR) : Nat :=
  f.sd.toNat * 2 ^ 21 + f.sa.toNat * 2 ^ 16 + f.sb.toNat * 2 ^ 11 + f.fl.toNat * 2 ^ 8 + f.rsv.toNat

/-- Format CI from its slot. -/
def CI.ofWord (w : Nat) : CI :=
  ⟨slotField 5 w 21, slotField 5 w 16, slotField 16 w 0⟩

/-- Fields of format CI in its slot. -/
def CI.word (f : CI) : Nat :=
  f.sd.toNat * 2 ^ 21 + f.sa.toNat * 2 ^ 16 + f.imm.toNat

/-- Format CL from its slot. -/
def CL.ofWord (w : Nat) : CL :=
  ⟨slotField 5 w 21, slotField 21 w 0⟩

/-- Fields of format CL in its slot. -/
def CL.word (f : CL) : Nat :=
  f.sd.toNat * 2 ^ 21 + f.imm.toNat

/-- Format CH from its slot. -/
def CH.ofWord (w : Nat) : CH :=
  ⟨slotField 5 w 21, slotField 3 w 18, slotField 2 w 16, slotField 16 w 0⟩

/-- Fields of format CH in its slot. -/
def CH.word (f : CH) : Nat :=
  f.sd.toNat * 2 ^ 21 + f.rsv.toNat * 2 ^ 18 + f.h.toNat * 2 ^ 16 + f.imm.toNat

/-- Format CC from its slot. -/
def CC.ofWord (w : Nat) : CC :=
  ⟨slotField 3 w 23, slotField 5 w 18, slotField 5 w 13, slotField 3 w 10, slotField 10 w 0⟩

/-- Fields of format CC in its slot. -/
def CC.word (f : CC) : Nat :=
  f.fd.toNat * 2 ^ 23 + f.sa.toNat * 2 ^ 18 + f.sb.toNat * 2 ^ 13 + f.cond.toNat * 2 ^ 10 + f.rsv.toNat

/-- Format CCI from its slot. -/
def CCI.ofWord (w : Nat) : CCI :=
  ⟨slotField 3 w 23, slotField 5 w 18, slotField 3 w 15, slotField 15 w 0⟩

/-- Fields of format CCI in its slot. -/
def CCI.word (f : CCI) : Nat :=
  f.fd.toNat * 2 ^ 23 + f.sa.toNat * 2 ^ 18 + f.cond.toNat * 2 ^ 15 + f.imm.toNat

/-- Format CM from its slot. -/
def CM.ofWord (w : Nat) : CM :=
  ⟨slotField 5 w 21, slotField 5 w 16, slotField 2 w 14, slotField 1 w 13, slotField 13 w 0⟩

/-- Fields of format CM in its slot. -/
def CM.word (f : CM) : Nat :=
  f.sr.toNat * 2 ^ 21 + f.sbase.toNat * 2 ^ 16 + f.size.toNat * 2 ^ 14 + f.sign.toNat * 2 ^ 13 + f.imm.toNat

/-- Format CS from its slot. -/
def CS.ofWord (w : Nat) : CS :=
  ⟨slotField 5 w 21, slotField 13 w 8, slotField 8 w 0⟩

/-- Fields of format CS in its slot. -/
def CS.word (f : CS) : Nat :=
  f.sr.toNat * 2 ^ 21 + f.off.toNat * 2 ^ 8 + f.rsv.toNat

/-- Format CB from its slot and its extension word (R179, R186). -/
def CB.ofWord (w x : Nat) : CB :=
  ⟨slotField 1 w 25, slotField 1 w 24, slotField 5 w 19, slotField 13 w 6, slotField 6 w 0, slotField 16 x 16, slotField 3 x 13, slotField 13 x 0⟩

/-- Fields of format CB in its slot. -/
def CB.word (f : CB) : Nat :=
  f.csrc.toNat * 2 ^ 25 + f.inv.toNat * 2 ^ 24 + f.reg.toNat * 2 ^ 19 + f.offj.toNat * 2 ^ 6 + f.rsv.toNat

/-- Fields of format CB in its extension word. -/
def CB.xword (f : CB) : Nat :=
  f.len.toNat * 2 ^ 16 + f.rsvx.toNat * 2 ^ 13 + f.offt.toNat

/-- Format CP from its slot and its extension word (R179, R186). -/
def CP.ofWord (w x : Nat) : CP :=
  ⟨slotField 1 w 25, slotField 13 w 12, slotField 12 w 0, slotField 32 x 0⟩

/-- Fields of format CP in its slot. -/
def CP.word (f : CP) : Nat :=
  f.csrc.toNat * 2 ^ 25 + f.body.toNat * 2 ^ 12 + f.rsv.toNat

/-- Fields of format CP in its extension word. -/
def CP.xword (f : CP) : Nat :=
  f.ext.toNat

/-- Format CZ from its slot. -/
def CZ.ofWord (w : Nat) : CZ :=
  ⟨slotField 26 w 0⟩

/-- Fields of format CZ in its slot. -/
def CZ.word (f : CZ) : Nat :=
  f.rsv.toNat

/-- Format MSetF from its slot. -/
def MSetF.ofWord (w : Nat) : MSetF :=
  ⟨slotField 3 w 55, slotField 4 w 51, slotField 4 w 47, slotField 2 w 45, slotField 7 w 38,
    slotField 10 w 28, slotField 10 w 18, slotField 18 w 0⟩

/-- Fields of format MSetF in its slot. -/
def MSetF.word (f : MSetF) : Nat :=
  f.arr.toNat * 2 ^ 55 + f.fmta.toNat * 2 ^ 51 + f.fmtb.toNat * 2 ^ 47 + f.passes.toNat * 2 ^ 45 + f.ktail.toNat * 2 ^ 38
    + f.rows.toNat * 2 ^ 28 + f.cols.toNat * 2 ^ 18 + f.rsv.toNat

/-- Format MFeedF from its slot. -/
def MFeedF.ofWord (w : Nat) : MFeedF :=
  ⟨slotField 14 w 44, slotField 14 w 30, slotField 8 w 22, slotField 1 w 21, slotField 1 w 20,
    slotField 1 w 19, slotField 2 w 17, slotField 1 w 16, slotField 1 w 15, slotField 10 w 5,
    slotField 1 w 4, slotField 4 w 0⟩

/-- Fields of format MFeedF in its slot. -/
def MFeedF.word (f : MFeedF) : Nat :=
  f.abase.toNat * 2 ^ 44 + f.bbase.toNat * 2 ^ 30 + f.kt.toNat * 2 ^ 22 + f.ora.toNat * 2 ^ 21 + f.orb.toNat * 2 ^ 20
    + f.zero.toNat * 2 ^ 19 + f.psel.toNat * 2 ^ 17 + f.srca.toNat * 2 ^ 16 + f.srcb.toNat * 2 ^ 15 + f.gstr.toNat * 2 ^ 5
    + f.tail.toNat * 2 ^ 4 + f.rsv.toNat

/-- Format MSwapF from its slot. -/
def MSwapF.ofWord (w : Nat) : MSwapF :=
  ⟨slotField 58 w 0⟩

/-- Fields of format MSwapF in its slot. -/
def MSwapF.word (f : MSwapF) : Nat :=
  f.rsv.toNat

/-- Format MSeedF from its slot. -/
def MSeedF.ofWord (w : Nat) : MSeedF :=
  ⟨slotField 14 w 44, slotField 44 w 0⟩

/-- Fields of format MSeedF in its slot. -/
def MSeedF.word (f : MSeedF) : Nat :=
  f.row.toNat * 2 ^ 44 + f.rsv.toNat

/-- Format MZeroF from its slot. -/
def MZeroF.ofWord (w : Nat) : MZeroF :=
  ⟨slotField 1 w 57, slotField 57 w 0⟩

/-- Fields of format MZeroF in its slot. -/
def MZeroF.word (f : MZeroF) : Nat :=
  f.set.toNat * 2 ^ 57 + f.rsv.toNat

/-- Format VA from its slot. -/
def VA.ofWord (w : Nat) : VA :=
  ⟨slotField 5 w 53, slotField 5 w 48, slotField 5 w 43, slotField 2 w 41, slotField 4 w 37,
    slotField 4 w 33, slotField 5 w 28, slotField 15 w 13, slotField 1 w 12, slotField 12 w 0⟩

/-- Fields of format VA in its slot. -/
def VA.word (f : VA) : Nat :=
  f.vd.toNat * 2 ^ 53 + f.va.toNat * 2 ^ 48 + f.vb.toNat * 2 ^ 43 + f.bmode.toNat * 2 ^ 41 + f.fmt.toNat * 2 ^ 37
    + f.logb.toNat * 2 ^ 33 + f.vc.toNat * 2 ^ 28 + f.rsv.toNat * 2 ^ 13 + f.cns.toNat * 2 ^ 12 + f.nel.toNat

/-- Format VK from its slot. -/
def VK.ofWord (w : Nat) : VK :=
  ⟨slotField 5 w 53, slotField 5 w 48, slotField 4 w 44, slotField 4 w 40, slotField 8 w 32,
    slotField 19 w 13, slotField 1 w 12, slotField 12 w 0⟩

/-- Fields of format VK in its slot. -/
def VK.word (f : VK) : Nat :=
  f.vd.toNat * 2 ^ 53 + f.vs.toNat * 2 ^ 48 + f.sfmt.toNat * 2 ^ 44 + f.dfmt.toNat * 2 ^ 40 + f.exp.toNat * 2 ^ 32
    + f.rsv.toNat * 2 ^ 13 + f.cns.toNat * 2 ^ 12 + f.nel.toNat

/-- Format VF from its slot. -/
def VF.ofWord (w : Nat) : VF :=
  ⟨slotField 5 w 53, slotField 5 w 48, slotField 35 w 13, slotField 1 w 12, slotField 12 w 0⟩

/-- Fields of format VF in its slot. -/
def VF.word (f : VF) : Nat :=
  f.vd.toNat * 2 ^ 53 + f.va.toNat * 2 ^ 48 + f.rsv.toNat * 2 ^ 13 + f.cns.toNat * 2 ^ 12 + f.nel.toNat

/-- Format VH from its slot. -/
def VH.ofWord (w : Nat) : VH :=
  ⟨slotField 5 w 53, slotField 5 w 48, slotField 5 w 43, slotField 3 w 40, slotField 4 w 36,
    slotField 12 w 24, slotField 11 w 13, slotField 1 w 12, slotField 12 w 0⟩

/-- Fields of format VH in its slot. -/
def VH.word (f : VH) : Nat :=
  f.vd.toNat * 2 ^ 53 + f.va.toNat * 2 ^ 48 + f.vb.toNat * 2 ^ 43 + f.pat.toNat * 2 ^ 40 + f.fmt.toNat * 2 ^ 36
    + f.parm.toNat * 2 ^ 24 + f.rsv.toNat * 2 ^ 13 + f.cns.toNat * 2 ^ 12 + f.nel.toNat

/-- Format VT from its slot. -/
def VT.ofWord (w : Nat) : VT :=
  ⟨slotField 5 w 53, slotField 5 w 48, slotField 1 w 47, slotField 2 w 45, slotField 4 w 41,
    slotField 4 w 37, slotField 13 w 24, slotField 11 w 13, slotField 13 w 0⟩

/-- Fields of format VT in its slot. -/
def VT.word (f : VT) : Nat :=
  f.vd.toNat * 2 ^ 53 + f.va.toNat * 2 ^ 48 + f.form.toNat * 2 ^ 47 + f.top.toNat * 2 ^ 45 + f.lg1.toNat * 2 ^ 41
    + f.lg2.toNat * 2 ^ 37 + f.lm.toNat * 2 ^ 24 + f.rsv.toNat * 2 ^ 13 + f.low.toNat

/-- Format VQ from its slot. -/
def VQ.ofWord (w : Nat) : VQ :=
  ⟨slotField 5 w 53, slotField 3 w 50, slotField 9 w 41, slotField 9 w 32, slotField 9 w 23,
    slotField 9 w 14, slotField 1 w 13, slotField 2 w 11, slotField 1 w 10, slotField 5 w 5,
    slotField 1 w 4, slotField 4 w 0⟩

/-- Fields of format VQ in its slot. -/
def VQ.word (f : VQ) : Nat :=
  f.vd.toNat * 2 ^ 53 + f.g.toNat * 2 ^ 50 + f.i0.toNat * 2 ^ 41 + f.j0.toNat * 2 ^ 32 + f.ni.toNat * 2 ^ 23
    + f.nj.toNat * 2 ^ 14 + f.order.toNat * 2 ^ 13 + f.fmt.toNat * 2 ^ 11 + f.scl.toNat * 2 ^ 10 + f.sc.toNat * 2 ^ 5
    + f.last.toNat * 2 ^ 4 + f.rsv.toNat

/-- Format VU from its slot. -/
def VU.ofWord (w : Nat) : VU :=
  ⟨slotField 5 w 53, slotField 5 w 48, slotField 3 w 45, slotField 32 w 13, slotField 1 w 12,
    slotField 12 w 0⟩

/-- Fields of format VU in its slot. -/
def VU.word (f : VU) : Nat :=
  f.sd.toNat * 2 ^ 53 + f.va.toNat * 2 ^ 48 + f.kind.toNat * 2 ^ 45 + f.rsv.toNat * 2 ^ 13 + f.cns.toNat * 2 ^ 12
    + f.nel.toNat

/-- Format VM from its slot. -/
def VM.ofWord (w : Nat) : VM :=
  ⟨slotField 5 w 53, slotField 1 w 52, slotField 3 w 49, slotField 1 w 48, slotField 5 w 43,
    slotField 14 w 29, slotField 16 w 13, slotField 1 w 12, slotField 12 w 0⟩

/-- Fields of format VM in its slot. -/
def VM.word (f : VM) : Nat :=
  f.vr.toNat * 2 ^ 53 + f.pair.toNat * 2 ^ 52 + f.w.toNat * 2 ^ 49 + f.rs.toNat * 2 ^ 48 + f.sb.toNat * 2 ^ 43
    + f.row.toNat * 2 ^ 29 + f.rsv.toNat * 2 ^ 13 + f.cns.toNat * 2 ^ 12 + f.nel.toNat

/-- Format VX from its slot. -/
def VX.ofWord (w : Nat) : VX :=
  ⟨slotField 6 w 52, slotField 10 w 42, slotField 10 w 32, slotField 10 w 22, slotField 1 w 21,
    slotField 1 w 20, slotField 8 w 12, slotField 5 w 7, slotField 7 w 0⟩

/-- Fields of format VX in its slot. -/
def VX.word (f : VX) : Nat :=
  f.ch.toNat * 2 ^ 52 + f.tr.toNat * 2 ^ 42 + f.tc.toNat * 2 ^ 32 + f.sr.toNat * 2 ^ 22 + f.order.toNat * 2 ^ 21
    + f.last.toNat * 2 ^ 20 + f.nt.toNat * 2 ^ 12 + f.sp.toNat * 2 ^ 7 + f.rsv.toNat

/-- Format DM from its slot. -/
def DM.ofWord (w : Nat) : DM :=
  ⟨slotField 2 w 56, slotField 1 w 55, slotField 5 w 50, slotField 5 w 45, slotField 1 w 44,
    slotField 14 w 30, slotField 14 w 16, slotField 3 w 13, slotField 1 w 12, slotField 5 w 7,
    slotField 7 w 0⟩

/-- Fields of format DM in its slot. -/
def DM.word (f : DM) : Nat :=
  f.ch.toNat * 2 ^ 56 + f.dir.toNat * 2 ^ 55 + f.sm.toNat * 2 ^ 50 + f.ss.toNat * 2 ^ 45 + f.spr.toNat * 2 ^ 44
    + f.row.toNat * 2 ^ 30 + f.nrows.toNat * 2 ^ 16 + f.rsv.toNat * 2 ^ 13 + f.bv.toNat * 2 ^ 12 + f.sb.toNat * 2 ^ 7
    + f.rsv2.toNat

/-- Format DS from its slot. -/
def DS.ofWord (w : Nat) : DS :=
  ⟨slotField 2 w 56, slotField 1 w 55, slotField 14 w 41, slotField 14 w 27, slotField 5 w 22,
    slotField 9 w 13, slotField 1 w 12, slotField 5 w 7, slotField 7 w 0⟩

/-- Fields of format DS in its slot. -/
def DS.word (f : DS) : Nat :=
  f.ch.toNat * 2 ^ 56 + f.spr.toNat * 2 ^ 55 + f.row.toNat * 2 ^ 41 + f.nrows.toNat * 2 ^ 27 + f.sd.toNat * 2 ^ 22
    + f.rsv.toNat * 2 ^ 13 + f.bv.toNat * 2 ^ 12 + f.sb.toNat * 2 ^ 7 + f.rsv2.toNat

/-- Format DX from its slot. -/
def DX.ofWord (w : Nat) : DX :=
  ⟨slotField 2 w 56, slotField 5 w 51, slotField 7 w 44, slotField 4 w 40, slotField 1 w 39,
    slotField 14 w 25, slotField 12 w 13, slotField 1 w 12, slotField 5 w 7, slotField 7 w 0⟩

/-- Fields of format DX in its slot. -/
def DX.word (f : DX) : Nat :=
  f.ch.toNat * 2 ^ 56 + f.ss.toNat * 2 ^ 51 + f.layer.toNat * 2 ^ 44 + f.head.toNat * 2 ^ 40 + f.kind.toNat * 2 ^ 39
    + f.tmap.toNat * 2 ^ 25 + f.ntok.toNat * 2 ^ 13 + f.bv.toNat * 2 ^ 12 + f.sb.toNat * 2 ^ 7 + f.rsv2.toNat

/-- Format DF from its slot. -/
def DF.ofWord (w : Nat) : DF :=
  ⟨slotField 2 w 56, slotField 5 w 51, slotField 14 w 37, slotField 14 w 23, slotField 10 w 13,
    slotField 1 w 12, slotField 5 w 7, slotField 7 w 0⟩

/-- Fields of format DF in its slot. -/
def DF.word (f : DF) : Nat :=
  f.ch.toNat * 2 ^ 56 + f.sv.toNat * 2 ^ 51 + f.row.toNat * 2 ^ 37 + f.nrows.toNat * 2 ^ 23 + f.rsv.toNat * 2 ^ 13
    + f.bv.toNat * 2 ^ 12 + f.sb.toNat * 2 ^ 7 + f.rsv2.toNat

/-- Format DC from its slot. -/
def DC.ofWord (w : Nat) : DC :=
  ⟨slotField 2 w 56, slotField 1 w 55, slotField 14 w 41, slotField 14 w 27, slotField 14 w 13,
    slotField 1 w 12, slotField 5 w 7, slotField 7 w 0⟩

/-- Fields of format DC in its slot. -/
def DC.word (f : DC) : Nat :=
  f.ch.toNat * 2 ^ 56 + f.dir.toNat * 2 ^ 55 + f.srow.toNat * 2 ^ 41 + f.drow.toNat * 2 ^ 27 + f.nrows.toNat * 2 ^ 13
    + f.bv.toNat * 2 ^ 12 + f.sb.toNat * 2 ^ 7 + f.rsv2.toNat

/-- Format SSig from its slot. -/
def SSig.ofWord (w : Nat) : SSig :=
  ⟨slotField 5 w 24, slotField 1 w 23, slotField 5 w 18, slotField 2 w 16, slotField 16 w 0⟩

/-- Fields of format SSig in its slot. -/
def SSig.word (f : SSig) : Nat :=
  f.sb.toNat * 2 ^ 24 + f.areg.toNat * 2 ^ 23 + f.sa.toNat * 2 ^ 18 + f.rsv.toNat * 2 ^ 16 + f.amt.toNat

/-- Format SWait from its slot. -/
def SWait.ofWord (w : Nat) : SWait :=
  ⟨slotField 5 w 24, slotField 3 w 21, slotField 1 w 20, slotField 5 w 15, slotField 15 w 0⟩

/-- Fields of format SWait in its slot. -/
def SWait.word (f : SWait) : Nat :=
  f.sb.toNat * 2 ^ 24 + f.fd.toNat * 2 ^ 21 + f.mreg.toNat * 2 ^ 20 + f.tf.toNat * 2 ^ 15 + f.min.toNat

/-- Format SWaitr from its slot. -/
def SWaitr.ofWord (w : Nat) : SWaitr :=
  ⟨slotField 5 w 24, slotField 3 w 21, slotField 1 w 20, slotField 5 w 15, slotField 15 w 0⟩

/-- Fields of format SWaitr in its slot. -/
def SWaitr.word (f : SWaitr) : Nat :=
  f.reel.toNat * 2 ^ 24 + f.fd.toNat * 2 ^ 21 + f.kind.toNat * 2 ^ 20 + f.st.toNat * 2 ^ 15 + f.thr.toNat

/-- Format SZ from its slot. -/
def SZ.ofWord (w : Nat) : SZ :=
  ⟨slotField 29 w 0⟩

/-- Fields of format SZ in its slot. -/
def SZ.word (f : SZ) : Nat :=
  f.rsv.toNat

/-! ### Opcodes -/

/-- The C slot and its extension word `x` (Table 9.2). -/
def decodeC (k : Fin 256) (w : Nat) (x : Nat) : Slot :=
  if w = 0 then .nop
  else
    match w / 2 ^ 26 % 2 ^ 6 with
    | 0x01 => .ins (.add k (CR.ofWord w))
    | 0x02 => .ins (.sub k (CR.ofWord w))
    | 0x03 => .ins (.and k (CR.ofWord w))
    | 0x04 => .ins (.or k (CR.ofWord w))
    | 0x05 => .ins (.xor k (CR.ofWord w))
    | 0x06 => .ins (.shl k (CR.ofWord w))
    | 0x07 => .ins (.shr k (CR.ofWord w))
    | 0x08 => .ins (.sra k (CR.ofWord w))
    | 0x09 => .ins (.mul k (CR.ofWord w))
    | 0x0A => .ins (.sel k (CR.ofWord w))
    | 0x0B => .ins (.mov k (CR.ofWord w))
    | 0x11 => .ins (.addi k (CI.ofWord w))
    | 0x13 => .ins (.andi k (CI.ofWord w))
    | 0x14 => .ins (.ori k (CI.ofWord w))
    | 0x15 => .ins (.xori k (CI.ofWord w))
    | 0x16 => .ins (.shli k (CI.ofWord w))
    | 0x17 => .ins (.shri k (CI.ofWord w))
    | 0x18 => .ins (.srai k (CI.ofWord w))
    | 0x19 => .ins (.muli k (CI.ofWord w))
    | 0x1A => .ins (.li k (CL.ofWord w))
    | 0x1B => .ins (.lih k (CH.ofWord w))
    | 0x20 => .ins (.cmp k (CC.ofWord w))
    | 0x21 => .ins (.cmpi k (CCI.ofWord w))
    | 0x24 => .ins (.ld k (CM.ofWord w))
    | 0x25 => .ins (.st k (CM.ofWord w))
    | 0x26 => .ins (.csrr k (CS.ofWord w))
    | 0x27 => .ins (.csrw k (CS.ofWord w))
    | 0x28 => .ins (.brb k (CB.ofWord w x))
    | 0x29 => .ins (.loop k (CP.ofWord w x))
    | 0x3E => .ins (.stepend k (CZ.ofWord w))
    | 0x3F => .ins (.halt k (CZ.ofWord w))
    | _ => .reserved

/-- The M slot (Table 9.4). -/
def decodeM (k : Fin 256) (w : Nat) : Slot :=
  if w = 0 then .nop
  else
    match w / 2 ^ 58 % 2 ^ 6 with
    | 0x01 => .ins (.mset k (MSetF.ofWord w))
    | 0x02 => .ins (.mfeed k (MFeedF.ofWord w))
    | 0x03 => .ins (.mswap k (MSwapF.ofWord w))
    | 0x04 => .ins (.mseed k (MSeedF.ofWord w))
    | 0x05 => .ins (.mzero k (MZeroF.ofWord w))
    | _ => .reserved

/-- The V slot (Table 9.6). -/
def decodeV (k : Fin 256) (w : Nat) : Slot :=
  if w = 0 then .nop
  else
    match w / 2 ^ 58 % 2 ^ 6 with
    | 0x01 => .ins (.vadd k (VA.ofWord w))
    | 0x02 => .ins (.vsub k (VA.ofWord w))
    | 0x03 => .ins (.vmul k (VA.ofWord w))
    | 0x04 => .ins (.vfma k (VA.ofWord w))
    | 0x05 => .ins (.vmin k (VA.ofWord w))
    | 0x06 => .ins (.vmax k (VA.ofWord w))
    | 0x07 => .ins (.vneg k (VA.ofWord w))
    | 0x08 => .ins (.vabs k (VA.ofWord w))
    | 0x09 => .ins (.vceq k (VA.ofWord w))
    | 0x0A => .ins (.vcne k (VA.ofWord w))
    | 0x0B => .ins (.vclt k (VA.ofWord w))
    | 0x0C => .ins (.vcle k (VA.ofWord w))
    | 0x0D => .ins (.vcgt k (VA.ofWord w))
    | 0x0E => .ins (.vcge k (VA.ofWord w))
    | 0x0F => .ins (.vsel k (VA.ofWord w))
    | 0x10 => .ins (.vand k (VA.ofWord w))
    | 0x11 => .ins (.vor k (VA.ofWord w))
    | 0x12 => .ins (.vxor k (VA.ofWord w))
    | 0x13 => .ins (.vshl k (VA.ofWord w))
    | 0x14 => .ins (.vshr k (VA.ofWord w))
    | 0x15 => .ins (.vsra k (VA.ofWord w))
    | 0x18 => .ins (.cvt k (VK.ofWord w))
    | 0x20 => .ins (.vexp2 k (VF.ofWord w))
    | 0x21 => .ins (.vlog2 k (VF.ofWord w))
    | 0x22 => .ins (.vrcp k (VF.ofWord w))
    | 0x23 => .ins (.vrsqrt k (VF.ofWord w))
    | 0x24 => .ins (.vsqrt k (VF.ofWord w))
    | 0x25 => .ins (.vsinpi k (VF.ofWord w))
    | 0x26 => .ins (.vcospi k (VF.ofWord w))
    | 0x27 => .ins (.vtanh k (VF.ofWord w))
    | 0x28 => .ins (.vlogi k (VF.ofWord w))
    | 0x29 => .ins (.verf k (VF.ofWord w))
    | 0x30 => .ins (.vshuf k (VH.ofWord w))
    | 0x31 => .ins (.vtree k (VT.ofWord w))
    | 0x32 => .ins (.vacc k (VQ.ofWord w))
    | 0x33 => .ins (.vsum k (VU.ofWord w))
    | 0x34 => .ins (.vld k (VM.ofWord w))
    | 0x35 => .ins (.vst k (VM.ofWord w))
    | 0x3C => .ins (.vchain k (VX.ofWord w))
    | _ => .reserved

/-- The D slot (Table 9.7). -/
def decodeD (k : Fin 256) (w : Nat) : Slot :=
  if w = 0 then .nop
  else
    match w / 2 ^ 58 % 2 ^ 6 with
    | 0x01 => .ins (.dmov k (DM.ofWord w))
    | 0x02 => .ins (.dpage k (DM.ofWord w))
    | 0x03 => .ins (.dsend k (DS.ofWord w))
    | 0x04 => .ins (.dexport k (DX.ofWord w))
    | 0x05 => .ins (.dfill k (DF.ofWord w))
    | 0x06 => .ins (.dcopy k (DC.ofWord w))
    | _ => .reserved

/-- The S slot (Table 9.9). -/
def decodeS (k : Fin 256) (w : Nat) : Slot :=
  if w = 0 then .nop
  else
    match w / 2 ^ 29 % 2 ^ 3 with
    | 0b001 => .ins (.sig k (SSig.ofWord w))
    | 0b010 => .ins (.wait k (SWait.ofWord w))
    | 0b011 => .ins (.arrive k (SWait.ofWord w))
    | 0b100 => .ins (.waitr k (SWaitr.ofWord w))
    | 0b101 => .ins (.fence k (SZ.ofWord w))
    | 0b110 => .ins (.tickwait k (SZ.ofWord w))
    | _ => .reserved

/-! ### Bundles -/

/-- The five slots of a bundle, in the order C, M, V, D, S (Table 8.1). A bundle with BRB or LOOP issues no S instruction. -/
def decodeBundle (k : Fin 256) (b : Nat) : List Slot :=
  let s := b % 2 ^ 32
  let c := b / 2 ^ 224 % 2 ^ 32
  let x := c / 2 ^ 26 = 0x28 || c / 2 ^ 26 = 0x29
  [decodeC k c s, decodeM k (b / 2 ^ 160 % 2 ^ 64), decodeV k (b / 2 ^ 96 % 2 ^ 64), decodeD k (b / 2 ^ 32 % 2 ^ 64),
    if x then .nop else decodeS k s]

/-! ### Encoding -/

/-- The word of a C-slot instruction. -/
def encodeC : Instr → Option Nat
  | .add _ f => some (0x01 * 2 ^ 26 + f.word)
  | .sub _ f => some (0x02 * 2 ^ 26 + f.word)
  | .and _ f => some (0x03 * 2 ^ 26 + f.word)
  | .or _ f => some (0x04 * 2 ^ 26 + f.word)
  | .xor _ f => some (0x05 * 2 ^ 26 + f.word)
  | .shl _ f => some (0x06 * 2 ^ 26 + f.word)
  | .shr _ f => some (0x07 * 2 ^ 26 + f.word)
  | .sra _ f => some (0x08 * 2 ^ 26 + f.word)
  | .mul _ f => some (0x09 * 2 ^ 26 + f.word)
  | .sel _ f => some (0x0A * 2 ^ 26 + f.word)
  | .mov _ f => some (0x0B * 2 ^ 26 + f.word)
  | .addi _ f => some (0x11 * 2 ^ 26 + f.word)
  | .andi _ f => some (0x13 * 2 ^ 26 + f.word)
  | .ori _ f => some (0x14 * 2 ^ 26 + f.word)
  | .xori _ f => some (0x15 * 2 ^ 26 + f.word)
  | .shli _ f => some (0x16 * 2 ^ 26 + f.word)
  | .shri _ f => some (0x17 * 2 ^ 26 + f.word)
  | .srai _ f => some (0x18 * 2 ^ 26 + f.word)
  | .muli _ f => some (0x19 * 2 ^ 26 + f.word)
  | .li _ f => some (0x1A * 2 ^ 26 + f.word)
  | .lih _ f => some (0x1B * 2 ^ 26 + f.word)
  | .cmp _ f => some (0x20 * 2 ^ 26 + f.word)
  | .cmpi _ f => some (0x21 * 2 ^ 26 + f.word)
  | .ld _ f => some (0x24 * 2 ^ 26 + f.word)
  | .st _ f => some (0x25 * 2 ^ 26 + f.word)
  | .csrr _ f => some (0x26 * 2 ^ 26 + f.word)
  | .csrw _ f => some (0x27 * 2 ^ 26 + f.word)
  | .brb _ f => some (0x28 * 2 ^ 26 + f.word)
  | .loop _ f => some (0x29 * 2 ^ 26 + f.word)
  | .stepend _ f => some (0x3E * 2 ^ 26 + f.word)
  | .halt _ f => some (0x3F * 2 ^ 26 + f.word)
  | _ => none

/-- The word of a M-slot instruction. -/
def encodeM : Instr → Option Nat
  | .mset _ f => some (0x01 * 2 ^ 58 + f.word)
  | .mfeed _ f => some (0x02 * 2 ^ 58 + f.word)
  | .mswap _ f => some (0x03 * 2 ^ 58 + f.word)
  | .mseed _ f => some (0x04 * 2 ^ 58 + f.word)
  | .mzero _ f => some (0x05 * 2 ^ 58 + f.word)
  | _ => none

/-- The word of a V-slot instruction. -/
def encodeV : Instr → Option Nat
  | .vadd _ f => some (0x01 * 2 ^ 58 + f.word)
  | .vsub _ f => some (0x02 * 2 ^ 58 + f.word)
  | .vmul _ f => some (0x03 * 2 ^ 58 + f.word)
  | .vfma _ f => some (0x04 * 2 ^ 58 + f.word)
  | .vmin _ f => some (0x05 * 2 ^ 58 + f.word)
  | .vmax _ f => some (0x06 * 2 ^ 58 + f.word)
  | .vneg _ f => some (0x07 * 2 ^ 58 + f.word)
  | .vabs _ f => some (0x08 * 2 ^ 58 + f.word)
  | .vceq _ f => some (0x09 * 2 ^ 58 + f.word)
  | .vcne _ f => some (0x0A * 2 ^ 58 + f.word)
  | .vclt _ f => some (0x0B * 2 ^ 58 + f.word)
  | .vcle _ f => some (0x0C * 2 ^ 58 + f.word)
  | .vcgt _ f => some (0x0D * 2 ^ 58 + f.word)
  | .vcge _ f => some (0x0E * 2 ^ 58 + f.word)
  | .vsel _ f => some (0x0F * 2 ^ 58 + f.word)
  | .vand _ f => some (0x10 * 2 ^ 58 + f.word)
  | .vor _ f => some (0x11 * 2 ^ 58 + f.word)
  | .vxor _ f => some (0x12 * 2 ^ 58 + f.word)
  | .vshl _ f => some (0x13 * 2 ^ 58 + f.word)
  | .vshr _ f => some (0x14 * 2 ^ 58 + f.word)
  | .vsra _ f => some (0x15 * 2 ^ 58 + f.word)
  | .cvt _ f => some (0x18 * 2 ^ 58 + f.word)
  | .vexp2 _ f => some (0x20 * 2 ^ 58 + f.word)
  | .vlog2 _ f => some (0x21 * 2 ^ 58 + f.word)
  | .vrcp _ f => some (0x22 * 2 ^ 58 + f.word)
  | .vrsqrt _ f => some (0x23 * 2 ^ 58 + f.word)
  | .vsqrt _ f => some (0x24 * 2 ^ 58 + f.word)
  | .vsinpi _ f => some (0x25 * 2 ^ 58 + f.word)
  | .vcospi _ f => some (0x26 * 2 ^ 58 + f.word)
  | .vtanh _ f => some (0x27 * 2 ^ 58 + f.word)
  | .vlogi _ f => some (0x28 * 2 ^ 58 + f.word)
  | .verf _ f => some (0x29 * 2 ^ 58 + f.word)
  | .vshuf _ f => some (0x30 * 2 ^ 58 + f.word)
  | .vtree _ f => some (0x31 * 2 ^ 58 + f.word)
  | .vacc _ f => some (0x32 * 2 ^ 58 + f.word)
  | .vsum _ f => some (0x33 * 2 ^ 58 + f.word)
  | .vld _ f => some (0x34 * 2 ^ 58 + f.word)
  | .vst _ f => some (0x35 * 2 ^ 58 + f.word)
  | .vchain _ f => some (0x3C * 2 ^ 58 + f.word)
  | _ => none

/-- The word of a D-slot instruction. -/
def encodeD : Instr → Option Nat
  | .dmov _ f => some (0x01 * 2 ^ 58 + f.word)
  | .dpage _ f => some (0x02 * 2 ^ 58 + f.word)
  | .dsend _ f => some (0x03 * 2 ^ 58 + f.word)
  | .dexport _ f => some (0x04 * 2 ^ 58 + f.word)
  | .dfill _ f => some (0x05 * 2 ^ 58 + f.word)
  | .dcopy _ f => some (0x06 * 2 ^ 58 + f.word)
  | _ => none

/-- The word of a S-slot instruction. -/
def encodeS : Instr → Option Nat
  | .sig _ f => some (0b001 * 2 ^ 29 + f.word)
  | .wait _ f => some (0b010 * 2 ^ 29 + f.word)
  | .arrive _ f => some (0b011 * 2 ^ 29 + f.word)
  | .waitr _ f => some (0b100 * 2 ^ 29 + f.word)
  | .fence _ f => some (0b101 * 2 ^ 29 + f.word)
  | .tickwait _ f => some (0b110 * 2 ^ 29 + f.word)
  | _ => none

/-- The extension word of a C-slot instruction: 0 where it has none. -/
def encodeX : Instr → Nat
  | .brb _ f => f.xword
  | .loop _ f => f.xword
  | _ => 0

/-- The command a word spells by the bits of the table: its rows give none. -/
def decodeTableWord (_nbits _w : Nat) : Option Instr := none

end Sys2Proof
end

