-- ==== Sys2Proof/Machine/KiteTick.lean ====
section
/-! DEFINITION. A kite through one arithmetic cycle (§8.1–§8.5): the end of the present cycle, the events that fall due with
it, and the beginning of the next, where the keel holds or fetches, checks and issues a bundle. -/
namespace Sys2Proof.Machine

/-! ### The end of a cycle -/

/-- Work of the matrix engine, the vector units and the chain in the cycle, after their row accesses (R78, R92, R162). -/
def kiteWork (k cyc : Nat) (kt : Kite) : Kite :=
  let t := kt.t cyc
  let tv := kt.tv cyc
  let kt := if kt.hold.isSome then kt else rampCycle t (matrixUpdates k t kt)
  if kt.vecFrozen then kt
  else
    let kt := vectorCycle k tv kt
    let kt := match kt.vAlu with
      | some r => vaccRelease k tv r kt
      | none => kt
    chainCycle k tv (chainRelease k tv kt)

/-- Signals that may leave at the end of the cycle (R161): applied at a home of this module within 80 cycles (R222). -/
def State.sigsLeave (k : Nat) (s : State) : State :=
  let kt := s.kite k
  let go (x : SigOut) : Bool := decide (x.notT ≤ kt.t s.cyc && x.notTv ≤ kt.tv s.cyc) && kt.retry.isEmpty
  let out := kt.sigs.filter go
  let s := if out.isEmpty then s else s.setKite k { kt with sigs := kt.sigs.filter fun x => !go x }
  out.foldl (fun s x => match s.bridleAt kt x.rel with
    | some (m, b) => s.signal m b x.amt (s.cyc + 80)
    | none => s) s

/-- The halts that end a cycle: HALT, a halt request of an earlier cycle, and a hazard in mode HALT (R154, R442, R174). -/
def haltsEnd (k cyc : Nat) (kt : Kite) : Kite :=
  let t := kt.t cyc
  if kt.stopped then { kt with haltEnd := false, reqEnd := false, hzStop := false }
  else if kt.hzStop then { (kt.raise k .hzHalt kt.hzSlot kt.hzPc) with hzStop := false }
  else if kt.haltEnd then
    { (settle t 9 { kt with st := .issuing }) with st := .halted, anchor := none, haltEnd := false, reqEnd := false, byReq := false }
  else if kt.reqEnd && decide (kt.haltAt ≤ cyc) then haltNow t kt
  else if kt.st = .issuing && kt.hold.isNone then settle t 9 kt
  else kt

/-- What takes effect in a kite at the end of a cycle: register writes, CSR writes, the accumulator sets, then halts. -/
def kiteEnds (k : Nat) (peers : List Nat) (cyc : Nat) (kt : Kite) : Kite :=
  let t := kt.t cyc
  let tv := kt.tv cyc
  let loc := kt.hold.isNone
  let kt := kt.applyWrites t tv (!kt.vecFrozen) loc
  let kt := if kt.vecFrozen then kt else kt.applyVec k tv
  let kt := if loc then csrWrites k peers cyc t kt else kt
  haltsEnd k cyc (setsEnd k t loc kt)

/-- The end of the present cycle for a kite. -/
def State.kiteEnd (s : State) (k : Nat) : State :=
  let s := s.bankCycle k
  let s := s.putKite k (kiteWork k s.cyc (s.kite k))
  let s := State.postChain k (State.postWaiting k s)
  let s := s.sigsLeave k
  s.putKite k (kiteEnds k (s.peerReels k) s.cyc (s.kite k))

/-! ### Events that fall due at the end of a cycle -/

/-- Whether an anchor's condition has come, by notice or by count, and is not yet noted. -/
def State.noticeDue (s : State) (k : Nat) : Bool :=
  (s.brd.notices.any fun n => n.kite == k && decide (n.cyc ≤ s.cyc)) ||
  match (s.kite k).anchor with
  | some a => !a.got && (s.kite k).reelMet a
  | none => false

/-- Whether an anchor has come to its planned release, or to its timeout. -/
def Kite.anchorEnds (kt : Kite) (cyc : Nat) : Bool × Bool :=
  match kt.anchor with
  | some a => (decide (a.p ≤ kt.t cyc) && !kt.frozenElse, a.tmo != 0 && a.late == a.tmo)
  | none => (false, false)

/-- The events of a kite that fall due with the present cycle: notices before planned releases and timeouts (R156, R221),
padding (R164, R165), the matrix engine (R74, R80, R86), the chain (R119), moves (R168) and banks (R147, R149). -/
def State.kiteEvents (s : State) (k : Fin 256) : List Instr :=
  let kt := s.kite k
  let t := kt.t s.cyc
  let run := kt.hold.isNone
  let one (b : Bool) (i : Instr) : List Instr := if b then [i] else []
  let pad := run && kt.st == .padding && padDue t kt
  let brb := match kt.frames with
    | .brb _ _ _ _ _ :: _ => true
    | _ => false
  one (s.noticeDue k) (.bridleNotice k) ++ one (kt.anchorEnds s.cyc).1 (.plannedRelease k)
    ++ one (kt.anchorEnds s.cyc).2 (.anchorTimeout k)
    ++ one (pad && brb) (.brbJoin k) ++ one (pad && !brb) (.loopPadEnd k)
    ++ one kt.seedDue (.mseedComplete k) ++ one (run && kt.deflates t) (.deflation k)
    ++ one kt.drainDue (.testDrainDone k) ++ one kt.repaired.isSome (.repair k)
    ++ one (kt.chainDue (kt.tv s.cyc)) (.chainEnd k)
    ++ (List.finRange 4).flatMap (fun (ch : Fin 4) => one (s.moveDue k ch) (.moveComplete k ch))
    ++ (List.finRange 16).flatMap fun (b : Fin 16) =>
      one (kt.bankOffDue s.cyc b) (.bankPowerOff k b) ++ one (kt.bankCloseDue s.cyc b) (.bankCloseTimeout k b)
        ++ one (kt.bankWakeDue s.cyc b) (.bankWakeDone k b)

/-! ### The beginning of a cycle -/

/-- Whether a die's emergency holds its kites in arithmetic cycle `cyc` (R392). -/
def State.thermalHold (s : State) (k cyc : Nat) : Bool :=
  (mapGetD s.pwr.dies (s.dieOf k) {}).emerg && decide (cyc % 1024 < 512)

/-- The cause for which a kite holds in the cycle that begins, `cyc` (Table 8.3). -/
def Kite.holdCause (kt : Kite) (cyc : Nat) (thermal : Bool) : Option HoldCause :=
  let t := kt.t cyc
  let late := match kt.anchor with
    | some a => decide (a.p < t) && !a.got
    | none => false
  if late then some .anchorLate
  else if kt.swapPend then some .swapHold
  else if kt.feedStarved t then some .feedStarved
  else if !kt.retry.isEmpty then some .spadNarrow
  else if kt.seedLate t || kt.passes.any (fun p => p.late false t || p.late true t) then some .spadWide
  else if kt.chainStalled (kt.tv cyc) then some .chainStall
  else if !kt.dqWait.isEmpty then some .dqFull
  else if thermal then some .thermal else none

/-- A cycle in which a kite stands for cause `c`: its clocks stand, and the cycle is counted and logged under its cause (R162,
R157, R73, R79, R132, R133, R121). The vector units run on in a SWAP_HOLD, unless a row of theirs waits for its bank or a chain
for its reel. A stopped keel holds for no cause, though what it has issued waits as in a hold: nothing is counted or logged. -/
def holdCycle (k cyc : Nat) (c : HoldCause) (kt : Kite) : Kite :=
  let stop := c != HoldCause.swapHold || kt.retry.any Narrow.isVec || kt.chainStalled (kt.tv cyc)
  let kt := { kt with hold := some c, vStop := stop, lag := kt.lag + 1, lagV := if stop then kt.lagV + 1 else kt.lagV }
  if kt.stopped then kt
  else
    let kt := { kt with hTotal := wrapAdd 48 kt.hTotal 1 }
    match c with
    | .anchorLate =>
      { (kt.event k .s evAnchorLate) with
        hAnchor := satAdd 16 kt.hAnchor 1, anchor := kt.anchor.map fun a => { a with late := a.late + 1 } }
    | .swapHold => { (kt.event k .s evSwapHold) with mSwap := satAdd 32 kt.mSwap 1 }
    | .feedStarved => { (kt.event k .s evFeedStarved) with mStarve := satAdd 32 kt.mStarve 1 }
    | .spadNarrow => { kt with confN := satAdd 16 kt.confN 1 }
    | .spadWide => { (kt.event k .s evSpadConflict (2 ^ 32)) with confW := satAdd 16 kt.confW 1 }
    | .chainStall => { (kt.event k .s evChainStall) with cStall := satAdd 16 kt.cStall 1 }
    | .dqFull => { kt with hQfull := satAdd 16 kt.hQfull 1 }
    | .thermal => { kt with hThermal := satAdd 16 kt.hThermal 1, stepTh := true }

/-- The exception an instruction raises at issue, by the state at the beginning of its cycle. -/
def slotCheck (cyc : Nat) (kt : Kite) : Instr → Option Exc
  | .add _ f => chkCr f
  | .sub _ f => chkCr f
  | .and _ f => chkCr f
  | .or _ f => chkCr f
  | .xor _ f => chkCr f
  | .shl _ f => chkCr f
  | .shr _ f => chkCr f
  | .sra _ f => chkCr f
  | .mul _ f => chkCr f
  | .sel _ f => chkCr f
  | .mov _ f => chkMov f
  | .shli _ f => chkShi f
  | .shri _ f => chkShi f
  | .srai _ f => chkShi f
  | .lih _ f => illegalIf (f.rsv != 0)
  | .cmp _ f => illegalIf (f.rsv != 0)
  | .cmpi _ f => illegalIf (f.cond == 6 || f.cond == 7)
  | .ld _ f => chkMem false kt f
  | .st _ f => chkMem true kt f
  | .csrr _ f => chkCsr f
  | .csrw _ f => chkCsr f
  | .brb _ f => chkBrb kt f
  | .loop _ f => chkLoop kt f
  | .stepend _ f => chkStepend kt f
  | .halt _ f => chkHalt kt f
  | .mset _ f => illegalIf (msetCfg f).isNone
  | .mfeed _ f => chkMfeed kt f
  | .mswap _ f => illegalIf (f.rsv != 0)
  | .mseed _ f => illegalIf (f.rsv != 0)
  | .mzero _ f => illegalIf (f.rsv != 0)
  | .vadd _ f => orExc (chkVa .add f) (chkVaCount kt cyc f)
  | .vsub _ f => orExc (chkVa .sub f) (chkVaCount kt cyc f)
  | .vmul _ f => orExc (chkVa .mul f) (chkVaCount kt cyc f)
  | .vfma _ f => orExc (chkVa .fma f) (chkVaCount kt cyc f)
  | .vmin _ f => orExc (chkVa .min f) (chkVaCount kt cyc f)
  | .vmax _ f => orExc (chkVa .max f) (chkVaCount kt cyc f)
  | .vneg _ f => orExc (chkVa .neg f) (chkVaCount kt cyc f)
  | .vabs _ f => orExc (chkVa .abs f) (chkVaCount kt cyc f)
  | .vceq _ f => orExc (chkVa .ceq f) (chkVaCount kt cyc f)
  | .vcne _ f => orExc (chkVa .cne f) (chkVaCount kt cyc f)
  | .vclt _ f => orExc (chkVa .clt f) (chkVaCount kt cyc f)
  | .vcle _ f => orExc (chkVa .cle f) (chkVaCount kt cyc f)
  | .vcgt _ f => orExc (chkVa .cgt f) (chkVaCount kt cyc f)
  | .vcge _ f => orExc (chkVa .cge f) (chkVaCount kt cyc f)
  | .vsel _ f => orExc (chkVa .sel f) (chkVaCount kt cyc f)
  | .vand _ f => orExc (chkVa .and f) (chkVaCount kt cyc f)
  | .vor _ f => orExc (chkVa .or f) (chkVaCount kt cyc f)
  | .vxor _ f => orExc (chkVa .xor f) (chkVaCount kt cyc f)
  | .vshl _ f => orExc (chkVa .shl f) (chkVaCount kt cyc f)
  | .vshr _ f => orExc (chkVa .shr f) (chkVaCount kt cyc f)
  | .vsra _ f => orExc (chkVa .sra f) (chkVaCount kt cyc f)
  | .cvt _ f => chkCvt f
  | .vexp2 _ f => chkVf f
  | .vlog2 _ f => chkVf f
  | .vrcp _ f => chkVf f
  | .vrsqrt _ f => chkVf f
  | .vsqrt _ f => chkVf f
  | .vsinpi _ f => chkVf f
  | .vcospi _ f => chkVf f
  | .vtanh _ f => chkVf f
  | .vlogi _ f => chkVf f
  | .verf _ f => chkVf f
  | .vshuf _ f => orExc (chkVshuf f) (chkVshufCount kt cyc f)
  | .vtree _ f => chkVtree f
  | .vacc _ f => chkVacc kt f
  | .vsum _ f => chkVsum f
  | .vld _ f => chkVm f
  | .vst _ f => chkVm f
  | .vchain k f => chkVchain kt k f
  | .dmov _ f => chkDm f
  | .dpage _ f => chkDm f
  | .dsend _ f => chkDs f
  | .dexport _ f => chkDx f
  | .dfill _ f => chkDf f
  | .dcopy _ f => chkDc f
  | .sig _ f => chkSig f
  | .wait _ f => chkWait kt f
  | .arrive _ f => chkWait kt f
  | .waitr _ f => chkWaitr kt f
  | .fence _ f => chkFence f
  | .tickwait _ f => chkTickwait kt f
  | _ => none

/-- The first exception of a bundle in the order C, M, V, D, S, with its slot (R175). -/
def bundleCheck (cyc : Nat) (kt : Kite) (sl : List Slot) : Option (Exc × Nat) :=
  sl.zipIdx.findSome? fun (x, i) => match x with
    | .nop => none
    | .reserved => some (.illegal, i)
    | .ins j => (slotCheck cyc kt j).map fun e => (e, i)

/-- Commands of a bundle. -/
def slotInstrs (sl : List Slot) : List Instr := sl.filterMap fun x => match x with
  | .ins i => some i
  | _ => none

/-- Fetch, check and issue in the cycle that has begun, `cyc`: the kite, and the slots of its bundle. An arm that needs more
than LEN cycles, an address above 8,191 and an exception of any slot stop the keel before any slot acts (R164, R175, R176). -/
def kiteFetch (k : Fin 256) (cyc : Nat) (kt : Kite) : Kite × List Instr :=
  if kt.stopped || kt.hold.isSome then (kt, [])
  else if armOverlong (kt.t cyc) kt then (kt.raise k .brbOverlen 7 kt.pc, [])
  else if kt.st != .issuing then (kt, [])
  else if 8191 < kt.pc then (kt.raise k .pcRange 7 (kt.pc % 8192), [])
  else
    let kt := { kt with ipc := kt.pc }
    let sl := decodeBundle k (kt.bundle k kt.pc)
    match bundleCheck cyc kt sl with
    | some (e, i) => (kt.raise k e i kt.ipc, [])
    | none => ({ kt with pc := kt.ipc + 1 }, slotInstrs sl)

/-- A kite at the beginning of cycle `cyc`, with the commands its cycle brings: the end of a pass (R76) and its bundle. -/
def kiteBegin (k : Fin 256) (cyc : Nat) (thermal : Bool) (kt : Kite) : Kite × List Instr :=
  match kt.holdCause cyc thermal with
  | some c => (holdCycle k cyc c kt, [])
  | none =>
    let (kt, is) := kiteFetch k cyc { kt with hold := none, vStop := false }
    (kt, (if kt.lastUpdateDue (kt.t cyc) then [.passLastUpdate k] else []) ++ is)

/-- The beginning of cycle `s.cyc` for a kite. -/
def State.kiteStart (acc : State × List Instr) (k : Fin 256) : State × List Instr :=
  let (s, out) := acc
  let (kt, is) := kiteBegin k s.cyc (s.thermalHold k s.cyc) (s.kite k)
  ((s.putKite k kt).shiftWaits k, out ++ is)

/-- The kites that the state lists. -/
def State.kiteList (s : State) : List (Fin 256) := (List.finRange 256).filter fun k => (mapGet s.kites k.val).isSome

end Sys2Proof.Machine
end

