-- ==== Sys2Proof/Machine/Tick.lean ====
section
/-! DEFINITION. What time brings: a period of the arithmetic clock in two halves. The first ends the present cycle in every
kite and queues the events that fall due with it; the second begins the next cycle and queues its bundles' slots. A step on an
empty queue takes one half (DESIGN CHOICE: the opcode table has no command for a clock). -/
namespace Sys2Proof.Machine

/-- The numbers of a list that lie below `n`. -/
def below (n : Nat) (l : List Nat) : List (Fin n) := l.filterMap fun i => if h : i < n then some ⟨i, h⟩ else none

/-- A list of one command if its condition holds. -/
def one (b : Bool) (i : Instr) : List Instr := if b then [i] else []

/-- Bridle homes' events of the cycle, one fabric cycle after another: an evaluation where something arrives or a wait is first
judged, then the expiry of waits (R219, R220). -/
def State.bridleEvents (s : State) : List Instr :=
  (s.fabEnds s.cyc).flatMap fun f =>
    let bs := sortBy (fun a b => decide (a ≤ b)) ((s.brd.arrivals.filter fun a => decide (a.fab ≤ f)).map (·.bridle)
      ++ (s.brd.waits.filter fun w => w.from_ == f).map (·.bridle)).eraseDups
    bs.map (fun b => .bridleEvaluation (BitVec.ofNat 16 b) f)
      ++ (s.brd.waits.filter fun w => s.waitExpired w f).map fun w => .waitExpiry (BitVec.ofNat 16 w.bridle) (Fin.ofNat 256 w.kite) f

/-- Unit commands that go on without an instruction: a launch all modules have agreed to, and one that has waited too long
(R208, R214). -/
def State.unitEvents (s : State) : List Instr :=
  one (match s.brd.op with
    | some o => o.kind == 3 && o.waiting.isEmpty && o.status == 0
    | none => false) .launchGo ++ one s.unitLate .unitCmdTimeout

/-- The step scheduler's events that are due, in the order in which a tick takes them (R240, R285, R286, R299, R305). -/
def State.schedEvents (s : State) : List Instr :=
  let cut := (s.sch.cur.map (·.tick)).getD 0
  let frz := (s.sch.lastFreeze.map (· + 1)).getD 0
  let late := (below 8192 (mapKeys s.sch.reqs)).filter fun n =>
    let r := s.req n.val
    r.live && !r.posted && decide (s.tickStart (r.commit + 1) ≤ s.pwr.tb)
  late.map .exportDeadline ++ one (s.cutDue cut) (.stepCut cut)
    ++ one (s.tickDue s.sch.nextTick || s.memberDue s.sch.nextTick) (.tickStart s.sch.nextTick)
    ++ one (s.freezeDue frz) (.planFreeze frz) ++ one s.goDue .stepGo ++ one s.boundaryDue .stepBoundary
    ++ one s.copyDue .pageCopyDone ++ one (s.barUp && s.roundDue (s.sch.round + 1)) (.admissionRound (s.sch.round + 1))

/-- Memory events that are due: loads, installs, migrations, the epoch, and background slots of the tick (R241, R242, R246,
R308, R444). -/
def State.memEvents (s : State) : List Instr :=
  let slots (k : Nat) : List Instr :=
    if h : k < 8 then [.hbmPhyCalibration ⟨k, h⟩]
    else if h : 16 ≤ k ∧ k < 28 then [.loftCalibration ⟨k - 16, by omega⟩]
    else if k = 48 then [.patrolScrub 0 (s.scrubTarget false - s.pgm.scrubAt false)]
    else if k = 49 then [.patrolScrub 1 (s.scrubTarget true - s.pgm.scrubAt true)]
    else (s.wearNext.map fun a => Instr.loftWearLevelling (BitVec.ofNat 48 a)).toList
  (below 16 ((s.hst.models.filter fun x => x.2.filling && decide (x.2.fin ≤ s.now)).map (·.1))).map .modelLoadDone
    ++ ((s.hst.variants.filter fun x => x.2.filling && decide (x.2.fin ≤ s.now)).map fun x => .variantInstallDone (BitVec.ofNat 12 x.1))
    ++ ((s.pgm.migs.filter fun m => s.migDue m.old).map fun m => .migrateCopyDone (BitVec.ofNat 48 m.old))
    ++ one (s.pgm.oldest < s.pgm.oldestNow) .epochRetire
    ++ if s.sch.cur.isNone then s.sch.bgNow.flatMap slots else []

/-- Export streams' events that are due (R324–R332). -/
def State.exportEvents (s : State) : List Instr :=
  (below 8192 (mapKeys s.xpt.streams)).flatMap fun n =>
    let x := s.stream n.val
    one (s.rtoDue n.val) (.retransmitTimeout n) ++ one (s.rateDue n.val) (.rateIncrease n)
      ++ one (x.st == .sealed && decide (x.sealedAt + 1000000000 ≤ s.now)) (.sealedTimeout n)
      ++ one (s.dataReady n.val) (.pageData n) ++ one (s.manReady n.val) (.manifest n)

/-- Port timers that have run out (R341, R342, R348). -/
def State.portEvents (s : State) : List Instr :=
  (below 96 (mapKeys s.lnk.ports)).flatMap fun p =>
    one (s.replayDue p.val) (.replayRetry p) ++ one (s.aackDue p.val) (.aackTimeout p)
      ++ one (s.retrainDue p.val) (.retrainTimeout p) ++ one (s.trainDue p.val) (.trainingTimeout p)
      ++ one (s.downDue p.val) (.downRetry p)

/-- Queue, timebase and margin plan events that are due (R367, R378, R386, R395). -/
def State.hostEvents (s : State) : List Instr :=
  (below 64 (mapKeys s.hst.queues)).flatMap (fun q =>
    one (s.irqDue q.val) (.interruptTimeout q)
      ++ one ((s.queue q.val).draining && !s.queueBusy q.val) (.queueDisableDone q))
    ++ one s.sourceLost .timebaseSourceTimeout ++ one s.planStepDue .marginPlanStep ++ one s.saveDue .marginPlanSave

/-- Everything that falls due with the end of the cycle; without the arithmetic, fabric and scheduler clocks (R417), only what
the ports, the queues and the PWR block bring. -/
def State.events (s : State) : List Instr :=
  (if s.clk then s.kiteList.flatMap s.kiteEvents ++ s.bridleEvents ++ s.unitEvents ++ s.schedEvents ++ s.memEvents ++ s.exportEvents
   else []) ++ s.portEvents ++ s.hostEvents

/-- The end of a cycle in the kites, and what the scheduler sees of it. -/
def State.kitesEnd (s : State) : State :=
  if s.clk then (s.kiteList.foldl (fun s k => s.kiteEnd k.val) s).stepWatch else s

/-- The first half of a step on an empty queue. -/
def cycleEnd (s : State) : State :=
  let s := (if s.clk then s.kitesEnd.background else s.kitesEnd).deliverLoop
  { s with pending := s.pending ++ s.events, phase := true }

/-- The timebase through one period of the arithmetic clock: 0.8 ns, or 5 ÷ 6 ns after the margin step (R386, R397). `frac` is
in units of 1 ÷ (60 × 10⁹) ns. -/
def State.passTime (s : State) : State :=
  if s.pwr.stopped.contains 97 then s
  else
    let f := s.pwr.frac + (if s.pwr.taken then 50 else 48) * ((1000000000 : Int) + s.pwr.ppb).toNat
    { s with pwr := { s.pwr with tb := (s.pwr.tb + f / 60000000000) % 2 ^ 64, frac := f % 60000000000 } }

/-- A kite's reads of its window that sample in the present cycle (R185). -/
def State.kiteSamples (s : State) (k : Fin 256) : State :=
  let kt := s.kite k
  if kt.hold.isSome then s else s.putKite k (csrReads k s.cyc (kt.t s.cyc) kt)

/-- The second half of a step on an empty queue: the next cycle begins. -/
def cycleIssue (s : State) : State :=
  let s := if s.clk then s.kiteList.foldl State.kiteSamples s else s
  let s := ({ s with cyc := s.cyc + 1, phase := false }).passTime
  let (s, is) := if s.clk then s.kiteList.foldl State.kiteStart (s, []) else (s, [])
  { s with pending := s.pending ++ is }

/-- A step on an empty queue. -/
def idle (s : State) : State := if s.phase then cycleIssue s else cycleEnd s

end Sys2Proof.Machine
end

