-- ==== Sys2Proof/Safety.lean ====
section
/-! DEFINITION. What a safe step is, and what commands leave unchanged, in the terms that statements use. -/
namespace Sys2Proof.Machine

/-- A step that goes on: the block neither stops with a fault nor refuses its command. -/
def goesOn (s : State) : Prop := ∃ t, step s = .next t

/-- Every kite outside a list keeps its state. -/
def kitesKept (ks : List Nat) (s t : State) : Prop := ∀ k, k ∉ ks → t.kite k = s.kite k

/-- Everything of the state but its kites is as before. -/
def restKept (s t : State) : Prop := t = { s with kites := t.kites }

/-- Of the state only the error log may have grown, with the vectors and messages a record raises (R419–R421). -/
def logOnly (s t : State) : Prop :=
  t = { s with tel := t.tel, out := t.out, hst := { s.hst with pendingVec := t.hst.pendingVec, waits := t.hst.waits } }

/-- Of the state only kites and the error log may differ. -/
def kitesAndLog (s t : State) : Prop :=
  t = { s with kites := t.kites, tel := t.tel, out := t.out, hst := { s.hst with pendingVec := t.hst.pendingVec, waits := t.hst.waits } }

/-- A kite that differs from `a` at most in what the hazard checker records (R174). -/
def hazardOnly (a b : Kite) : Prop :=
  b = { a with hzCode := b.hzCode, hzPc := b.hzPc, hzSlot := b.hzSlot, hzCount := b.hzCount, hzStop := b.hzStop }

/-- What a slot instruction leaves that turns kite `k` into `kt`: up to the hazard checker's record the kite is `kt`, every
other kite stands, and of the rest only the log may have grown; with the checker off nothing changes but the kite. -/
def slotDone (k : Nat) (kt : Kite) (s t : State) : Prop :=
  hazardOnly kt (t.kite k) ∧ kitesKept [k] s t ∧ kitesAndLog s t ∧ ((s.kite k).hzEn = false → t = s.setKite k kt)

/-- What an exception of kite `k` leaves (R175, R219): the kite becomes `kt`, every other kite stands, and of the rest only the
log may have grown, requests may be faulted, and the kite's registered waits and notices may be gone. -/
def slotStopped (k : Nat) (kt : Kite) (s t : State) : Prop :=
  t.kite k = kt ∧ kitesKept [k] s t ∧
  t = { s with
    kites := t.kites, tel := t.tel, out := t.out, hst := { s.hst with pendingVec := t.hst.pendingVec, waits := t.hst.waits }
    sch := { s.sch with reqs := t.sch.reqs }, brd := { s.brd with waits := t.brd.waits, notices := t.brd.notices } }

/-- The keel of kite `k` issues in the present cycle (R150, R162). -/
def issuing (s : State) (k : Nat) : Prop := (s.kite k).st = .issuing ∧ (s.kite k).hold = none

end Sys2Proof.Machine
end

