-- ==== Sys2Proof/WellFormed.lean ====
section
/-! DEFINITION. Which commands are well formed: reserved fields hold zero (R10, R178) and a transaction has a length that its
interface can carry. A command that is not well formed has a meaning all the same: the manual's answer to it. -/
namespace Sys2Proof

/-- Reserved fields of CR hold zero. -/
def CR.clear (f : CR) : Bool := f.rsv == 0

/-- Reserved fields of CH hold zero. -/
def CH.clear (f : CH) : Bool := f.rsv == 0

/-- Reserved fields of CC hold zero. -/
def CC.clear (f : CC) : Bool := f.rsv == 0

/-- Reserved fields of CS hold zero. -/
def CS.clear (f : CS) : Bool := f.rsv == 0

/-- Reserved fields of CB hold zero. -/
def CB.clear (f : CB) : Bool := f.rsv == 0 && f.rsvx == 0

/-- Reserved fields of CP hold zero. -/
def CP.clear (f : CP) : Bool := f.rsv == 0

/-- Reserved fields of CZ hold zero. -/
def CZ.clear (f : CZ) : Bool := f.rsv == 0

/-- Reserved fields of MSetF hold zero. -/
def MSetF.clear (f : MSetF) : Bool := f.rsv == 0

/-- Reserved fields of MFeedF hold zero. -/
def MFeedF.clear (f : MFeedF) : Bool := f.rsv == 0

/-- Reserved fields of MSwapF hold zero. -/
def MSwapF.clear (f : MSwapF) : Bool := f.rsv == 0

/-- Reserved fields of MSeedF hold zero. -/
def MSeedF.clear (f : MSeedF) : Bool := f.rsv == 0

/-- Reserved fields of MZeroF hold zero. -/
def MZeroF.clear (f : MZeroF) : Bool := f.rsv == 0

/-- Reserved fields of VA hold zero. -/
def VA.clear (f : VA) : Bool := f.rsv == 0

/-- Reserved fields of VK hold zero. -/
def VK.clear (f : VK) : Bool := f.rsv == 0

/-- Reserved fields of VF hold zero. -/
def VF.clear (f : VF) : Bool := f.rsv == 0

/-- Reserved fields of VH hold zero. -/
def VH.clear (f : VH) : Bool := f.rsv == 0

/-- Reserved fields of VT hold zero. -/
def VT.clear (f : VT) : Bool := f.rsv == 0

/-- Reserved fields of VQ hold zero. -/
def VQ.clear (f : VQ) : Bool := f.rsv == 0

/-- Reserved fields of VU hold zero. -/
def VU.clear (f : VU) : Bool := f.rsv == 0

/-- Reserved fields of VM hold zero. -/
def VM.clear (f : VM) : Bool := f.rsv == 0

/-- Reserved fields of VX hold zero. -/
def VX.clear (f : VX) : Bool := f.rsv == 0

/-- Reserved fields of DM hold zero. -/
def DM.clear (f : DM) : Bool := f.rsv == 0 && f.rsv2 == 0

/-- Reserved fields of DS hold zero. -/
def DS.clear (f : DS) : Bool := f.rsv == 0 && f.rsv2 == 0

/-- Reserved fields of DX hold zero. -/
def DX.clear (f : DX) : Bool := f.rsv2 == 0

/-- Reserved fields of DF hold zero. -/
def DF.clear (f : DF) : Bool := f.rsv == 0 && f.rsv2 == 0

/-- Reserved fields of DC hold zero. -/
def DC.clear (f : DC) : Bool := f.rsv2 == 0

/-- Reserved fields of SSig hold zero. -/
def SSig.clear (f : SSig) : Bool := f.rsv == 0

/-- Reserved fields of SZ hold zero. -/
def SZ.clear (f : SZ) : Bool := f.rsv == 0

/-- A submission entry's reserved fields hold zero (Table 16.4). -/
def Sqe.clear (e : Sqe) : Bool := e.rsv == 0 && e.rsv2 == 0

/-- A Lerbo message carries at most 9,216 bytes (R350). -/
def lerboLen (body : List Byte) : Bool := decide (body.length ≤ 9216)

/-- Whether a command is well formed. -/
def Instr.wf : Instr → Bool
  | .add _ f => f.clear
  | .sub _ f => f.clear
  | .and _ f => f.clear
  | .or _ f => f.clear
  | .xor _ f => f.clear
  | .shl _ f => f.clear
  | .shr _ f => f.clear
  | .sra _ f => f.clear
  | .mul _ f => f.clear
  | .sel _ f => f.clear
  | .mov _ f => f.clear
  | .addi _ _ => true
  | .andi _ _ => true
  | .ori _ _ => true
  | .xori _ _ => true
  | .shli _ _ => true
  | .shri _ _ => true
  | .srai _ _ => true
  | .muli _ _ => true
  | .li _ _ => true
  | .lih _ f => f.clear
  | .cmp _ f => f.clear
  | .cmpi _ _ => true
  | .ld _ _ => true
  | .st _ _ => true
  | .csrr _ f => f.clear
  | .csrw _ f => f.clear
  | .brb _ f => f.clear
  | .brbJoin _ => true
  | .loop _ f => f.clear
  | .loopPadEnd _ => true
  | .stepend _ f => f.clear
  | .halt _ f => f.clear
  | .mset _ f => f.clear
  | .mfeed _ f => f.clear
  | .passLastUpdate _ => true
  | .deflation _ => true
  | .mswap _ f => f.clear
  | .mseed _ f => f.clear
  | .mseedComplete _ => true
  | .mzero _ f => f.clear
  | .testDrain _ _ => true
  | .testDrainDone _ => true
  | .vadd _ f => f.clear
  | .vsub _ f => f.clear
  | .vmul _ f => f.clear
  | .vfma _ f => f.clear
  | .vmin _ f => f.clear
  | .vmax _ f => f.clear
  | .vneg _ f => f.clear
  | .vabs _ f => f.clear
  | .vceq _ f => f.clear
  | .vcne _ f => f.clear
  | .vclt _ f => f.clear
  | .vcle _ f => f.clear
  | .vcgt _ f => f.clear
  | .vcge _ f => f.clear
  | .vsel _ f => f.clear
  | .vand _ f => f.clear
  | .vor _ f => f.clear
  | .vxor _ f => f.clear
  | .vshl _ f => f.clear
  | .vshr _ f => f.clear
  | .vsra _ f => f.clear
  | .cvt _ f => f.clear
  | .vexp2 _ f => f.clear
  | .vlog2 _ f => f.clear
  | .vrcp _ f => f.clear
  | .vrsqrt _ f => f.clear
  | .vsqrt _ f => f.clear
  | .vsinpi _ f => f.clear
  | .vcospi _ f => f.clear
  | .vtanh _ f => f.clear
  | .vlogi _ f => f.clear
  | .verf _ f => f.clear
  | .vshuf _ f => f.clear
  | .vtree _ f => f.clear
  | .vacc _ f => f.clear
  | .vsum _ f => f.clear
  | .vld _ f => f.clear
  | .vst _ f => f.clear
  | .vchain _ f => f.clear
  | .chainEnd _ => true
  | .dmov _ f => f.clear
  | .dpage _ f => f.clear
  | .dsend _ f => f.clear
  | .dexport _ f => f.clear
  | .dfill _ f => f.clear
  | .dcopy _ f => f.clear
  | .moveComplete _ _ => true
  | .sig _ f => f.clear
  | .wait _ _ => true
  | .arrive _ _ => true
  | .waitr _ _ => true
  | .fence _ f => f.clear
  | .tickwait _ f => f.clear
  | .plannedRelease _ => true
  | .bridleNotice _ => true
  | .anchorTimeout _ => true
  | .haltReq _ => true
  | .resume _ => true
  | .pmemDataWrite _ _ _ => true
  | .pmemDataRead _ _ => true
  | .chainmemWrite _ _ _ => true
  | .reelCfgWrite _ _ _ => true
  | .offReq _ _ => true
  | .onReq _ _ => true
  | .bankPowerOff _ _ => true
  | .bankCloseTimeout _ _ => true
  | .bankWakeDone _ _ => true
  | .repair _ => true
  | .define => true
  | .delete _ => true
  | .launch => true
  | .launchGo => true
  | .unitCmdTimeout => true
  | .haltUnit _ => true
  | .bridleEvaluation _ _ => true
  | .waitExpiry _ _ _ => true
  | .brdCountWrite _ _ => true
  | .brdAdd _ _ => true
  | .alloc => true
  | .map => true
  | .unmap => true
  | .incref => true
  | .decref => true
  | .dropspace => true
  | .migrate => true
  | .migrateCopyDone _ => true
  | .stepBoundary => true
  | .epochRetire => true
  | .patrolScrub _ _ => true
  | .hbmPhyCalibration _ => true
  | .loftCalibration _ => true
  | .loftWearLevelling _ => true
  | .pageCopyDone => true
  | .insert => true
  | .remove => true
  | .flush => true
  | .runWrite _ => true
  | .tickStart _ => true
  | .stepGo => true
  | .planFreeze _ => true
  | .admissionRound _ => true
  | .stepCut _ => true
  | .exportDeadline _ => true
  | .sqTailDoorbell _ bytes _ => decide (0 < bytes && bytes ≤ 8)
  | .cqHeadDoorbell _ bytes _ => decide (0 < bytes && bytes ≤ 8)
  | .prefill _ e => e.clear
  | .cancel _ e => e.clear
  | .loadModel _ e => e.clear
  | .modelLoadDone _ => true
  | .unloadModel _ e => e.clear
  | .installVariant _ e => e.clear
  | .variantInstallDone _ => true
  | .removeVariant _ e => e.clear
  | .qcfgWrite _ _ => true
  | .queueBaseWrite _ _ _ => true
  | .queueDisableDone _ => true
  | .interruptTimeout _ => true
  | .bdpAddrWrite _ => true
  | .bdpWrite o data => !data.isEmpty && decide (o.toNat + data.length ≤ 2 ^ 24)
  | .bdpRead o n => decide (0 < n && o.toNat + n ≤ 2 ^ 24)
  | .pcieLinkDown => true
  | .registerWrite _ _ _ => true
  | .targetWrite _ _ _ => true
  | .pageData _ => true
  | .manifest _ => true
  | .ack _ _ => true
  | .nak _ _ => true
  | .credit _ _ => true
  | .retransmitTimeout _ => true
  | .rateIncrease _ => true
  | .sealedTimeout _ => true
  | .yaphor _ _ rsv msg => rsv == 0 && lerboLen msg
  | .unitReq _ _ _ rsv desc => rsv == 0 && lerboLen desc
  | .unitRsp _ _ _ rsv => rsv == 0
  | .write _ f rows => f.rsv == 0 && lerboLen rows
  | .writeDone _ _ _ rsv => rsv == 0
  | .stepDesc _ _ _ data => decide (data.length ≤ 8192)
  | .schedCtlStart _ _ _ _ rsv => rsv == 0
  | .schedCtlBoundary _ _ rsv => rsv == 0
  | .schedCtlStop _ _ rsv => rsv == 0
  | .stepDone _ _ _ _ => true
  | .signal _ _ _ => true
  | .lerboForward _ _ body => lerboLen body
  | .hello _ _ => true
  | .replay _ _ => true
  | .replayRetry _ => true
  | .aackTimeout _ => true
  | .laneLockLoss _ => true
  | .retrainTimeout _ => true
  | .trainingTimeout _ => true
  | .downRetry _ => true
  | .pllLockLoss _ => true
  | .pcfgWrite _ _ => true
  | .unquar _ => true
  | .ethernetFrame _ _ _ => true
  | .pfc _ _ _ => true
  | .ptpMessage _ _ => true
  | .pps _ => true
  | .timebaseSourceTimeout => true
  | .tbSet _ => true
  | .wakeRequest _ => true
  | .sensorSample _ => true
  | .marginPlanStep => true
  | .marginPlanSave => true
  | .mstepArm _ => true
  | .txcfgWrite _ => true
  | .logTailWrite _ => true
  | .perst _ _ => true
  | .moduleReset _ => true
  | .bootStageTimeout _ => true
  | .pwrGoodRise => true
  | .powerLoss => true
  | .component _ => true
  | .profiles => true
  | .reset => true
  | .profileNextWrite _ => true
  | .getVersion _ => true
  | .getCapabilities _ => true
  | .negotiateAlgorithms _ => true
  | .getDigests _ => true
  | .getCertificate _ => true
  | .challenge _ => true
  | .getMeasurements _ => true
  | .pldmSensorRequest _ => true
  | .flit _ f => decide (f.bytes.length = 256)
  | .equalisationDone _ _ => true
  | .updateDone _ => true
  | .d3hot _ => true

end Sys2Proof
end

