-- ==== Sys2Proof/Certificates/Slice0/Obligations.lean ====
section
/-! DEFINITION. The statements about the model. Each is a rule of the manual, or follows from rules of it; its docstring names
them. The tables above the statements read an instruction's operation off its mnemonic, as the manual's tables do. -/
open Sys2Proof Sys2Proof.Machine

/-! ### Steps -/

/-- The command at the front of the queue runs on the state with the queue's rest: commands run first in, first out. -/
def Obligations.StepRunsFrontCommand : Prop :=
  ∀ (s : State) (c : Instr) (rest : List Instr), s.pending = c :: rest → step s = exec c { s with pending := rest }

/-- A step on an empty queue (the model's choice, assumption 1) is one half of an arithmetic cycle: the first half ends the
cycle, and the second begins the next one, in which the timebase has gone on by 0.8 ns, or 5 ÷ 6 ns after the margin step,
corrected by the parts per 10⁹ of the servo, unless its clock stands. -/
def Obligations.EmptyQueuePassesTime : Prop :=
  ∀ s : State, s.pending = [] → ∃ t, step s = .next t ∧ t.phase = !s.phase ∧
    (s.phase = false → s.clk = false → t.cyc = s.cyc ∧ t.pwr = s.pwr) ∧
    (s.phase = true → t.cyc = s.cyc + 1 ∧ (s.pwr.stopped.contains 97 = true → t.pwr = s.pwr) ∧
      (s.pwr.stopped.contains 97 = false →
        t.pwr.frac < 60000000000 ∧ (t.pwr.tb * 60000000000 + t.pwr.frac) % (2 ^ 64 * 60000000000)
          = (s.pwr.tb * 60000000000 + s.pwr.frac
              + (if s.pwr.taken then 50 else 48) * ((1000000000 : Int) + s.pwr.ppb).toNat) % (2 ^ 64 * 60000000000)))

/-! ### The C slot -/

namespace Sys2Proof.Stated

/-- A kite to which a write of a scalar or flag register is still to come, readable from local cycle `due`. -/
def withWrite (kt : Kite) (r : SReg) (due : Nat) (v : Word) : Kite := { kt with sq := kt.sq ++ [⟨due, false, r, v⟩] }

/-- The instruction completes in state `s`, and all it leaves is the write of `v` to register `r`, readable `lat` cycles later. -/
def writes (i : Instr) (k : Fin 256) (r : SReg) (lat : Nat) (v : Word) (s : State) : Prop :=
  ∃ t, exec i s = .next t ∧ slotDone k (withWrite (s.kite k) r ((s.kite k).t s.cyc + lat) v) s t

/-- The instruction stops its keel by the exception of a code of Table 8.8, found in a slot (R175): the record names the code, the
slot and the bundle, and the instruction has no other effect on the kite. -/
def raises (i : Instr) (k : Fin 256) (slot code : Nat) (s : State) : Prop :=
  ∃ t, exec i s = .next t ∧ slotStopped k { s.kite k with
    st := .exc, anchor := none, byReq := false, haltEnd := false, reqEnd := false
    excCode := code, excSlot := slot, excPc := (s.kite k).ipc % 8192, excValid := true } s t

end Sys2Proof.Stated

open Sys2Proof.Stated

/-- R182, Table 9.2: a two-operand or immediate instruction that issues in local cycle t leaves its result to be written to SD, readable
from t + λ, and changes nothing else; the hazard checker may record a read or a write that comes too early (R174). LIH keeps the
bits of SD that it does not insert. -/
def Obligations.ScalarResults : Prop :=
  (∀ (k : Fin 256) (f : CR) (s : State), issuing s k → f.rsv = 0 →
     let a := (s.kite k).s f.sa
     let b := (s.kite k).s f.sb
     let sd := SReg.s f.sd.toNat
     writes (.add k f) k sd 1 (a + b) s ∧ writes (.sub k f) k sd 1 (a - b) s ∧ writes (.and k f) k sd 1 (a &&& b) s ∧
     writes (.or k f) k sd 1 (a ||| b) s ∧ writes (.xor k f) k sd 1 (a ^^^ b) s ∧
     writes (.shl k f) k sd 1 (a <<< (b &&& 63)) s ∧ writes (.shr k f) k sd 1 (a >>> (b &&& 63)) s ∧
     writes (.sra k f) k sd 1 (a.sshiftRight' (b &&& 63)) s ∧ writes (.mul k f) k sd 3 (a * b) s ∧
     writes (.sel k f) k sd 1 (if (s.kite k).freg f.fl.toNat then a else b) s ∧
     (f.sb = 0 → writes (.mov k f) k sd 1 a s)) ∧
  ((∀ (k : Fin 256) (f : CI) (s : State), issuing s k →
     let a := (s.kite k).s f.sa
     let sd := SReg.s f.sd.toNat
     writes (.addi k f) k sd 1 (a + f.imm.signExtend 64) s ∧ writes (.andi k f) k sd 1 (a &&& f.imm.setWidth 64) s ∧
     writes (.ori k f) k sd 1 (a ||| f.imm.setWidth 64) s ∧ writes (.xori k f) k sd 1 (a ^^^ f.imm.setWidth 64) s ∧
     writes (.muli k f) k sd 3 (a * f.imm.signExtend 64) s ∧
     (f.imm.toNat < 64 → writes (.shli k f) k sd 1 (a <<< f.imm.toNat) s ∧ writes (.shri k f) k sd 1 (a >>> f.imm.toNat) s ∧
       writes (.srai k f) k sd 1 (a.sshiftRight f.imm.toNat) s)) ∧
   (∀ (k : Fin 256) (f : CL) (s : State), issuing s k →
     writes (.li k f) k (.s f.sd.toNat) 1 (f.imm.signExtend 64) s) ∧
   (∀ (k : Fin 256) (f : CH) (s : State), issuing s k → f.rsv = 0 →
     ∃ v, writes (.lih k f) k (.s f.sd.toNat) 1 v s ∧
       ∀ n, n < 64 → v.getLsbD n =
         if 16 * f.h.toNat ≤ n ∧ n < 16 * f.h.toNat + 16 then f.imm.getLsbD (n - 16 * f.h.toNat) else ((s.kite k).s f.sd).getLsbD n))

/-- R183, Tables 9.2 and 9.3: a compare leaves 1 or 0 to be written to its flag, readable from t + 1, by the relation that COND
names; COND 6 and 7 compare FP32 values and are false where either is NaN. CMPI takes COND 0 to 5 only: any other is illegal. -/
def Obligations.CompareWritesFlag : Prop :=
  (∀ (k : Fin 256) (f : CC) (s : State), issuing s k → f.rsv = 0 →
    ∃ v : Bool, writes (.cmp k f) k (.f f.fd.toNat) 1 (if v then 1 else 0) s ∧
      (f.cond = 0 → (v ↔ (s.kite k).s f.sa = (s.kite k).s f.sb)) ∧
      (f.cond = 1 → (v ↔ (s.kite k).s f.sa ≠ (s.kite k).s f.sb)) ∧
      (f.cond = 2 → (v ↔ ((s.kite k).s f.sa).toInt < ((s.kite k).s f.sb).toInt)) ∧
      (f.cond = 3 → (v ↔ ((s.kite k).s f.sa).toInt ≤ ((s.kite k).s f.sb).toInt)) ∧
      (f.cond = 4 → (v ↔ ((s.kite k).s f.sa).toNat < ((s.kite k).s f.sb).toNat)) ∧
      (f.cond = 5 → (v ↔ ((s.kite k).s f.sa).toNat ≤ ((s.kite k).s f.sb).toNat)) ∧
      (f.cond = 6 → (v ↔ (fp32 ((s.kite k).s32 f.sa)).lt (fp32 ((s.kite k).s32 f.sb)))) ∧
      (f.cond = 7 → (v ↔ (fp32 ((s.kite k).s32 f.sa)).lt (fp32 ((s.kite k).s32 f.sb)) ∨
        (fp32 ((s.kite k).s32 f.sa)).eqv (fp32 ((s.kite k).s32 f.sb)))) ∧
      (6 ≤ f.cond.toNat → fp32 ((s.kite k).s32 f.sa) = .nan ∨ fp32 ((s.kite k).s32 f.sb) = .nan → v = false)) ∧
  (∀ (k : Fin 256) (f : CCI) (s : State), issuing s k → (6 ≤ f.cond.toNat → raises (.cmpi k f) k 0 1 s) ∧ (f.cond.toNat < 6 →
    ∃ v : Bool, writes (.cmpi k f) k (.f f.fd.toNat) 1 (if v then 1 else 0) s ∧
      (f.cond = 0 → (v ↔ (s.kite k).s f.sa = f.imm.signExtend 64)) ∧
      (f.cond = 1 → (v ↔ (s.kite k).s f.sa ≠ f.imm.signExtend 64)) ∧
      (f.cond = 2 → (v ↔ ((s.kite k).s f.sa).toInt < f.imm.toInt)) ∧
      (f.cond = 3 → (v ↔ ((s.kite k).s f.sa).toInt ≤ f.imm.toInt)) ∧
      (f.cond = 4 → (v ↔ ((s.kite k).s f.sa).toNat < (f.imm.signExtend 64).toNat)) ∧
      (f.cond = 5 → (v ↔ ((s.kite k).s f.sa).toNat ≤ (f.imm.signExtend 64).toNat))))

/-- R152, R182: a write of a scalar register falls at the end of the local cycle before the one from which it is readable: from then on
the register holds the value, and every other register is as it was. R184, R129: the store of n bytes at scratchpad byte A makes byte
A + i the i-th byte of the value, little-endian, and leaves every other byte of the row, and every other row, as it was. -/
def Obligations.ScalarWritesTakeEffect : Prop :=
  (∀ (kt : Kite) (t tv n : Nat) (v : Word) (vec : Bool), kt.sq = [⟨t + 1, false, .s n, v⟩] →
     let u := kt.applyWrites t tv vec true
     u = { kt with sregs := u.sregs, sq := [] } ∧ u.sreg n = v ∧ ∀ m, m ≠ n → u.sreg m = kt.sreg m) ∧
  (∀ (kt : Kite) (k a n v : Nat), a % 512 + n ≤ 512 → kt.bankLive (bankOf (a / 512)) = true →
     let u := kt.storeBytes k a n v
     (∀ i, i < n → bits (u.rowRaw k (a / 512)) ((a % 512 + i) * 8) 8 = bits v (i * 8) 8) ∧
     (∀ b, b < 512 → (b < a % 512 ∨ a % 512 + n ≤ b) → bits (u.rowRaw k (a / 512)) (b * 8) 8 = bits (kt.rowRaw k (a / 512)) (b * 8) 8) ∧
     (∀ r, r ≠ a / 512 → u.rowRaw k r = kt.rowRaw k r))

/-- R184: LD and ST begin a narrow access of the next cycle at (SBASE + IMM13) mod 2⁶⁴ with its low SIZE bits ignored, of 1, 2, 4 or
8 bytes; an address at or above 8 MiB stops the keel with SCALAR_ADDR, and then no access is begun. -/
def Obligations.ScalarLoadStoreIssue : Prop :=
  ∀ (k : Fin 256) (f : CM) (s : State), issuing s k →
    let kt := s.kite k
    let a := (kt.s f.sbase + f.imm.signExtend 64).toNat
    let n := 2 ^ f.size.toNat
    (a < 8388608 → ∃ t, exec (.ld k f) s = .next t ∧
      slotDone k { kt with narrow := kt.narrow ++ [.ld f.sr.toNat (a - a % n) n (f.sign == 1) (kt.t s.cyc + 1) kt.ipc] } s t) ∧
    (a < 8388608 → f.sign = 0 → ∃ t, exec (.st k f) s = .next t ∧
      slotDone k { kt with narrow := kt.narrow ++ [.st (a - a % n) n (kt.s f.sr) (kt.t s.cyc + 1) kt.ipc] } s t) ∧
    (8388608 ≤ a → raises (.ld k f) k 0 8 s ∧ (f.sign = 0 → raises (.st k f) k 0 8 s))

/-- R185: CSRR samples its register at the end of its issue cycle and CSRW writes one at the end of the second cycle after it, at the
byte offset 8 × OFF of the kite's window; an offset with no register stops the keel with CSR_ADDR. -/
def Obligations.WindowAccess : Prop :=
  ∀ (k : Fin 256) (f : CS) (s : State), issuing s k → f.rsv = 0 →
    let kt := s.kite k
    (kteHas (f.off.toNat * 8) = true →
      (∃ t, exec (.csrr k f) s = .next t ∧
        slotDone k { kt with csr := kt.csr ++ [⟨kt.t s.cyc, f.off.toNat * 8, false, 0, f.sr.toNat⟩] } s t) ∧
      ∃ t, exec (.csrw k f) s = .next t ∧
        slotDone k { kt with csr := kt.csr ++ [⟨kt.t s.cyc + 2, f.off.toNat * 8, true, kt.s f.sr, f.sr.toNat⟩] } s t) ∧
    (kteHas (f.off.toNat * 8) = false → raises (.csrr k f) k 0 9 s ∧ raises (.csrw k f) k 0 9 s)

/-- R164, R165: a BRB that issues in local cycle t opens an arm of LEN cycles: arm T, from PC + OFFT up to the join at PC + OFFJ, where its
condition holds, and arm F, from PC + 1 up to PC + OFFT, where it does not. A LOOP of count n runs its body, PC + 1 to PC + BODY, n
times; a count of 0 goes on at PC + BODY + 1; one of a register count leaves (MAX − n) × L cycles of padding to follow, and one above
MAX is exception LOOP_OVER. The padding of the innermost construct ends with the cycle that is due: the keel goes on at the join of a
branch, and where it stands, after the body of a loop, and every outer construct that ends there with it is closed too. -/
def Obligations.BranchesAndLoops : Prop :=
  (∀ (k : Fin 256) (f : CB) (s : State), issuing s k → chkBrb (s.kite k) f = none →
     let kt := s.kite k
     let holds : Bool := (if f.csrc = 0 then kt.freg (f.reg.toNat % 8) else kt.s f.reg != 0) != (f.inv == 1)
     ∃ t, exec (.brb k f) s = .next t ∧
       slotDone k { kt with
         frames := .brb kt.ipc (kt.t s.cyc) f.len.toNat
           (if holds then kt.ipc + f.offj.toNat else kt.ipc + f.offt.toNat) (kt.ipc + f.offj.toNat) :: kt.frames
         pc := if holds then kt.ipc + f.offt.toNat else kt.ipc + 1 } s t) ∧
  (∀ (k : Fin 256) (f : CP) (s : State), issuing s k →
     let kt := s.kite k
     let n := if f.csrc = 0 then f.ext.toNat else (kt.sreg (f.ext.toNat / 2 ^ 27)).toNat
     let pad := if f.csrc = 0 then 0 else (f.ext.toNat % 2 ^ 27 - n) * walkCycles kt k 8192 (kt.ipc + 1) (kt.ipc + f.body.toNat)
     (chkLoop kt f = none → ∃ t, exec (.loop k f) s = .next t ∧
       slotDone k (if n ≠ 0 then { kt with
           frames := .loop (kt.ipc + 1) (kt.ipc + f.body.toNat) n pad (f.csrc == 1) none :: kt.frames, pc := kt.ipc + 1 }
         else if pad = 0 then { kt with pc := kt.ipc + f.body.toNat + 1 }
         else { kt with
           frames := .loop (kt.ipc + 1) (kt.ipc + f.body.toNat) 0 pad true (some (kt.t s.cyc + pad)) :: kt.frames
           pc := kt.ipc + f.body.toNat + 1 }) s t) ∧
     (f.csrc = 1 → f.rsv = 0 → f.body ≠ 0 → kt.ipc + f.body.toNat + 1 ≤ 8191 → kt.frames.length < 8 →
       f.ext.toNat % 2 ^ 27 < n → raises (.loop k f) k 0 4 s)) ∧
  (∀ (k : Fin 256) (s : State) (rest : List Frame), (s.kite k).st = .padding → (s.kite k).hold = none →
     let kt := s.kite k
     let t := kt.t s.cyc
     (∀ a t0 len armEnd join, kt.frames = .brb a t0 len armEnd join :: rest → kt.pc = armEnd → t0 + len = t →
       exec (.brbJoin k) s = .next (s.setKite k (closePads t 8 (settle t 9 { kt with frames := rest, pc := join }))) ∧
       (rest = [] → exec (.brbJoin k) s = .next (s.setKite k { kt with frames := [], pc := join, st := .issuing }))) ∧
     (∀ start last left pad reg e, kt.frames = .loop start last left pad reg (some e) :: rest → e ≤ t →
       exec (.loopPadEnd k) s = .next (s.setKite k (closePads t 8 (settle t 9 { kt with frames := rest }))) ∧
       (rest = [] → exec (.loopPadEnd k) s = .next (s.setKite k { kt with frames := [], st := .issuing }))))


/-- R160, R154: STEPEND records in KTE.STEP the cycles from the go to its issue and the holds among them, modulo 2³², and marks the
kite's arrival; a second one before a TICKWAIT is exception STEPEND_TWICE, code 10; HALT stops the keel with the end of its issue
cycle. Neither has another effect. Inside a running arm either is BRB_ANCHOR, code 3, and inside a body with a register count
LOOP_ANCHOR, code 5. -/
def Obligations.StependAndHalt : Prop :=
  ∀ (k : Fin 256) (f : CZ) (s : State), issuing s k → f.rsv = 0 →
    let kt := s.kite k
    (frameBar kt = none →
      (kt.stepDone = false → exec (.stepend k f) s = .next (s.setKite k { kt with
        stepCycles := (s.cyc - kt.goCycle) % 2 ^ 32, stepHolds := (kt.lag - kt.goLag) % 2 ^ 32, stepDone := true })) ∧
      (kt.stepDone = true → raises (.stepend k f) k 0 10 s) ∧
      exec (.halt k f) s = .next (s.setKite k { kt with haltEnd := true })) ∧
    (∀ a t0 len e j rest, kt.frames = .brb a t0 len e j :: rest → a ≠ kt.ipc →
      raises (.stepend k f) k 0 3 s ∧ raises (.halt k f) k 0 3 s) ∧
    (∀ start last left pad e rest, kt.frames = .loop start last left pad true e :: rest → start ≠ kt.ipc + 1 →
      raises (.stepend k f) k 0 5 s ∧ raises (.halt k f) k 0 5 s) ∧
    (frameBar kt = none ↔ ∀ x ∈ kt.frames, (∀ a t0 len e j, x = .brb a t0 len e j → a = kt.ipc) ∧
      ∀ start last left pad e, x = .loop start last left pad true e → start = kt.ipc + 1)

/-- R176: a reserved field that is not zero, MOV with SB, an immediate shift above 63 and a COND that CMPI does not take are illegal
encodings: exception ILLEGAL, code 1, in the slot of the instruction, and no other effect (R175). -/
def Obligations.IllegalEncodingStopsKeel : Prop :=
  ∀ (k : Fin 256) (s : State), issuing s k →
    (∀ f : CR, f.rsv ≠ 0 → raises (.add k f) k 0 1 s ∧ raises (.sub k f) k 0 1 s ∧ raises (.and k f) k 0 1 s ∧ raises (.or k f) k 0 1 s ∧
      raises (.xor k f) k 0 1 s ∧ raises (.shl k f) k 0 1 s ∧ raises (.shr k f) k 0 1 s ∧ raises (.sra k f) k 0 1 s ∧
      raises (.mul k f) k 0 1 s ∧ raises (.sel k f) k 0 1 s) ∧
    (∀ f : CR, f.rsv ≠ 0 ∨ f.sb ≠ 0 → raises (.mov k f) k 0 1 s) ∧
    (∀ f : CI, 64 ≤ f.imm.toNat → raises (.shli k f) k 0 1 s ∧ raises (.shri k f) k 0 1 s ∧ raises (.srai k f) k 0 1 s) ∧
    (∀ f : CH, f.rsv ≠ 0 → raises (.lih k f) k 0 1 s) ∧ (∀ f : CC, f.rsv ≠ 0 → raises (.cmp k f) k 0 1 s) ∧
    (∀ f : CCI, 6 ≤ f.cond.toNat → raises (.cmpi k f) k 0 1 s) ∧ (∀ f : CM, f.sign ≠ 0 → raises (.st k f) k 0 1 s) ∧
    (∀ f : CS, f.rsv ≠ 0 → raises (.csrr k f) k 0 1 s ∧ raises (.csrw k f) k 0 1 s) ∧
    (∀ f : CZ, f.rsv ≠ 0 → raises (.stepend k f) k 0 1 s ∧ raises (.halt k f) k 0 1 s) ∧
    (∀ f : MSwapF, f.rsv ≠ 0 → raises (.mswap k f) k 1 1 s) ∧ (∀ f : MSeedF, f.rsv ≠ 0 → raises (.mseed k f) k 1 1 s) ∧
    (∀ f : MZeroF, f.rsv ≠ 0 → raises (.mzero k f) k 1 1 s) ∧
    (∀ f : SZ, f.rsv ≠ 0 → raises (.fence k f) k 4 1 s ∧ raises (.tickwait k f) k 4 1 s) ∧
    (∀ f : DM, f.rsv ≠ 0 → raises (.dmov k f) k 3 1 s ∧ raises (.dpage k f) k 3 1 s) ∧
    (∀ f : DS, f.rsv ≠ 0 → raises (.dsend k f) k 3 1 s) ∧ (∀ f : DF, f.rsv ≠ 0 → raises (.dfill k f) k 3 1 s) ∧
    (∀ f : VA, f.rsv ≠ 0 → raises (.vadd k f) k 2 1 s ∧ raises (.vmul k f) k 2 1 s ∧ raises (.vxor k f) k 2 1 s)

/-! ### The M slot and the matrix engine -/

namespace Sys2Proof.Stated

/-- The instruction completes in state `s`, and turns kite `k` into `kt`: of the rest only the log may grow, by the hazard
checker's record. -/
def effect (i : Instr) (k : Fin 256) (kt : Kite) (s : State) : Prop := ∃ t, exec i s = .next t ∧ slotDone k kt s t

/-- The command completes in state `s`, and kite `k` becomes `kt`; a stopped keel keeps no registered wait (R219). Nothing else
changes. -/
def keeps (i : Instr) (k : Fin 256) (kt : Kite) (s : State) : Prop :=
  exec i s = .next ((if kt.stopped then s.dropWaits k else s).setKite k kt)

/-- What a slot instruction does that is turned away with an event of class S: kite `k` becomes `kt`, the event is logged, and
nothing else changes but by the hazard checker's record. -/
def refuses (i : Instr) (k : Fin 256) (kt : Kite) (e : Nat) (s : State) : Prop :=
  ∃ t, exec i s = .next t ∧ hazardOnly kt (t.kite k) ∧ kitesKept [k] s t ∧ kitesAndLog s t ∧
    ((s.kite k).hzEn = false → t = (s.log (Ev.kite .s e k)).setKite k kt)

end Sys2Proof.Stated

/-- R67, R72–R74, R82: what each M-slot instruction leaves at its issue. MSET's set-up is in force from the end of the cycle, and
MSWAP and MZERO act at its end; MSEED takes the set that is shadow then, and is refused where that set is unreleased or another
seed is in progress. -/
def Obligations.MatrixSlotEffects : Prop :=
  ∀ (k : Fin 256) (s : State), issuing s k →
    let kt := s.kite k
    let t := kt.t s.cyc
    (∀ (f : MSetF) (c : MCfg), msetCfg f = some c → effect (.mset k f) k { kt with mcfgNext := some c } s ∧
      c.arr = f.arr.toNat ∧ Fmt.ofCode f.fmta.toNat = some c.fa ∧ Fmt.ofCode f.fmtb.toNat = some c.fb ∧ c.passes = f.passes.toNat ∧
      c.ktail = (if f.ktail = 0 then 128 else f.ktail.toNat) ∧ c.rows = f.rows.toNat ∧ c.cols = f.cols.toNat ∧
      1 ≤ c.rows ∧ c.rows ≤ c.shape.2.1 ∧ 1 ≤ c.cols ∧ c.cols ≤ c.shape.2.2) ∧
    (∀ f : MSetF, msetCfg f = none → raises (.mset k f) k 1 1 s) ∧
    (∀ f : MZeroF, f.rsv = 0 → effect (.mzero k f) k { kt with zeroPend := some (kt.setB != (f.set == 1)) } s) ∧
    (∀ f : MSwapF, f.rsv = 0 → effect (.mswap k f) k { kt with swapPend := true } s) ∧
    (∀ f : MSeedF, f.rsv = 0 → kt.seed = none → kt.released (!kt.setB) = true →
      effect (.mseed k f) k { kt with seed := some ⟨t, !kt.setB, f.row.toNat, [], kt.ipc⟩ } s) ∧
    (∀ f : MSeedF, f.rsv = 0 → kt.seed ≠ none ∨ kt.released (!kt.setB) = false → refuses (.mseed k f) k kt evSeedRefused s)

/-- R75, R77, R80: an MFEED that issues in cycle t starts its pass. Behind a pass that is still entering, r0 waits for that pass's
last tile; the first entry comes T_lead + 1 cycles after r0, behind the last entry of the pass before, and, where the array has
been idle for more than 256 cycles, behind an inflation of 32 cycles. With an MFEED queued already it is discarded. -/
def Obligations.MatrixFeedStartsPass : Prop :=
  ∀ (k : Fin 256) (f : MFeedF) (s : State), issuing s k → chkMfeed (s.kite k) f = none →
    let kt := s.kite k
    let t := kt.t s.cyc
    (kt.mQueued t = true → refuses (.mfeed k f) k { kt with mOverflow := min (kt.mOverflow + 1) 65535 } evMqOverflow s) ∧
    (kt.mQueued t = false → ∃ p : Pass,
      effect (.mfeed k f) k { kt with passes := kt.passes ++ [p], lastEntry := some (p.e0 + p.cyc - 1) } s ∧
      p.cfg = kt.mcfg ∧ p.feed = f ∧ p.cyc = passCycles kt.mcfg f ∧ p.updates = 0 ∧
      (∀ l q, kt.lastEntry = some l → t ≤ l → kt.passes.getLast? = some q → p.r0 = max (t + 1) q.lastTile) ∧
      (∀ l, kt.lastEntry = some l → l < t → p.r0 = t + 1) ∧ (kt.lastEntry = none → p.r0 = t + 1) ∧
      (∀ l, kt.lastEntry = some l → max (p.r0 + 1 + p.cfg.tLead) (l + 1) ≤ l + 256 →
        p.e0 = max (p.r0 + 1 + p.cfg.tLead) (l + 1) ∧ p.infl = none) ∧
      (∀ l, kt.lastEntry = some l → l + 256 < max (p.r0 + 1 + p.cfg.tLead) (l + 1) →
        p.e0 = max (max (p.r0 + 1 + p.cfg.tLead) (l + 1)) (max t (l + 286) + 32) ∧ p.infl = some (max t (l + 286))) ∧
      (kt.lastEntry = none → p.e0 = max (t + 2 + p.cfg.tLead) (t + 32) ∧ p.infl = some t))

/-- R73, R74, Table 4.5: at the end of a cycle an MSET comes into force, a zeroed set holds +0 everywhere, and an MSWAP takes
effect where its shadow set is released, leaving the set that becomes shadow unreleased; where it is not, the swap waits. -/
def Obligations.MatrixSetsAtCycleEnd : Prop :=
  ∀ (k t : Nat) (kt : Kite) (b : Bool), kt.seed = none → kt.zeroPend = some b →
    let u := setsEnd k t true kt
    u.mcfg = kt.mcfgNext.getD kt.mcfg ∧ u.mcfgNext = none ∧ (∀ n, u.acc k b n = 0) ∧ (∀ n, u.acc k (!b) n = kt.acc k (!b) n) ∧
    u.zeroPend = none ∧
    (kt.swapPend = true → kt.released (!kt.setB) = true →
      u.setB = !kt.setB ∧ u.swapPend = false ∧ u.released (!u.setB) = false ∧ u.released u.setB = true) ∧
    (kt.swapPend = true → kt.released (!kt.setB) = false →
      u.setB = kt.setB ∧ u.swapPend = true ∧ u.relA = kt.relA ∧ u.relB = kt.relB)

/-- R48, R67, R72, R74: a group update replaces the accumulator of every enabled coordinate of every group in the active set by the
update of its old value with the group's exact sum, the old value taken as +0 at the first update of an MFEED with ZERO; the other
containers, and the shadow set, keep theirs. -/
def Obligations.GroupUpdateResult : Prop :=
  ∀ (k : Nat) (p : Pass) (n : Nat) (kt : Kite), p.cfg.rows ≤ p.cfg.shape.2.1 → p.cfg.cols ≤ p.cfg.shape.2.2 →
    let u := groupUpdate k p n kt
    let index := fun g i j => g * (p.cfg.shape.2.1 * p.cfg.shape.2.2) + i * p.cfg.shape.2.2 + j
    (∀ g i j, g < p.groups → i < p.cfg.rows → j < p.cfg.cols → u.acc k kt.setB (index g i j) =
      accUpdate (if n = 0 ∧ p.feed.zero = 1 then 0 else kt.acc k kt.setB (index g i j)) (p.sumOf n g i j)) ∧
    (∀ m, (∀ g i j, g < p.groups → i < p.cfg.rows → j < p.cfg.cols → m ≠ index g i j) → u.acc k kt.setB m = kt.acc k kt.setB m) ∧
    (∀ m, u.acc k (!kt.setB) m = kt.acc k (!kt.setB) m) ∧ u = { kt with accA := u.accA, accB := u.accB }

/-- R74, R76, R80, R86: the events of the matrix engine in the cycle in which each is due: the last update of a pass, which counts
it; the switching off of panel pair q in cycle L + 257 + 4(7 − q) of an idle array; the end of a seed whose rows are all read, which
replaces a whole set; a test drain begun on a stopped keel, each of its 256 rows, with 64 of the set's containers, and its end. -/
def Obligations.MatrixEvents : Prop :=
  ∀ (k : Fin 256) (s : State),
    let kt := s.kite k
    let t := kt.t s.cyc
    (∀ p, kt.hold = none → kt.passes = [p] → p.e0 + p.cyc + 5 = t →
      keeps (.passLastUpdate k) k
        { groupUpdate k p (p.groupCount - 1) kt with mPasses := (kt.mPasses + 1) % 2 ^ 48, passes := [] } s) ∧
    (∀ l q, kt.hold = none → kt.prevEntry = some l → kt.pairs ≠ 0 → q ≤ 7 → t = l + 257 + 4 * (7 - q) →
      keeps (.deflation k) k { kt with pairs := min kt.pairs q } s) ∧
    (∀ d, kt.seed = some d → 16384 ≤ d.cells.length → ∃ kt', kt' = { kt with accA := kt'.accA, accB := kt'.accB, seed := none } ∧
      (∀ n, n < d.cells.length → kt'.acc k d.set n = d.cells.getD n 0) ∧ (∀ n, kt'.acc k (!d.set) n = kt.acc k (!d.set) n) ∧
      (kt.drains (kt.tv s.cyc) = false → keeps (.mseedComplete k) k kt' s) ∧
      ∃ t, exec (.mseedComplete k) s = .next t ∧ hazardOnly kt' (t.kite k)) ∧
    (∀ v : BitVec 64, s.kteUp k = true → v.getLsbD 0 = true → kt.stopped = true → keeps (.testDrain k v) k { kt with
      mtSet := v.getLsbD 2, mtRow := v.toNat / 8 % 16384, drain := some ⟨s.cyc, v.getLsbD 2, v.toNat / 8 % 16384, 0⟩ } s) ∧
    (∀ d, kt.drain = some d → kt.bankLive (bankOf ((d.row + d.next) % 16384)) = true →
      let u := drainWrite k kt
      u.drain = some { d with next := d.next + 1 } ∧ u.rowRaw k ((d.row + d.next) % 16384) =
        packElems 64 ((List.range 64).map fun i => kt.acc k d.set (d.next * 64 + i)) % 2 ^ rowBits ∧
      ∀ r, r ≠ (d.row + d.next) % 16384 → u.rowRaw k r = kt.rowRaw k r) ∧
    (∀ d, kt.drain = some d → 256 ≤ d.next → keeps (.testDrainDone k) k { kt with drain := none } s)

/-! ### The V slot -/

namespace Sys2Proof.Stated

/-- A V-slot instruction completes by starting on its unit, in vector cycle tv, with its count and the scalar it reads (R90, R91). -/
def starts (i : Instr) (k : Fin 256) (v : VKind) (s : State) : Prop :=
  let kt := s.kite k
  kt.vbusy v.unit (kt.tv s.cyc) = false → v.countAccepted (v.count kt) = true →
    effect i k (kt.setVrun ⟨v, kt.tv s.cyc, v.count kt, v.occ (v.count kt), v.scalar kt, kt.ipc⟩) s

/-- R92, R90: at a busy unit it is discarded and counted; with a count that is not accepted it is refused and counted. -/
def turnedAway (i : Instr) (k : Fin 256) (v : VKind) (s : State) : Prop :=
  let kt := s.kite k
  (kt.vbusy v.unit (kt.tv s.cyc) = true → refuses i k { kt with vDiscard := min (kt.vDiscard + 1) 4294967295 } evVbusy s) ∧
  (kt.vbusy v.unit (kt.tv s.cyc) = false → v.countAccepted (v.count kt) = false →
    refuses i k { kt with vCountBad := min (kt.vCountBad + 1) 65535 } evVcountBad s)

/-- What a well-encoded V-slot instruction does at its unit. -/
def onUnit (i : Instr) (k : Fin 256) (v : VKind) (s : State) : Prop := starts i k v s ∧ turnedAway i k v s

end Sys2Proof.Stated

/-- R90–R92, R187–R194: a V-slot instruction that is well encoded and finds its unit free starts there and occupies it; nothing else
changes in its issue cycle. One that names a busy unit is discarded, whatever its count, and one with a count register of 0 or above
4,096 is refused: either is logged and counted and writes nothing. -/
def Obligations.VectorSlotEffects : Prop :=
  ∀ (k : Fin 256) (s : State), issuing s k →
    let ok := fun fn (f : VA) => chkVa fn f = none ∧ chkVaCount (s.kite k) s.cyc f = none
    (∀ f : VA, (ok .add f → onUnit (.vadd k f) k (.alu .add f) s) ∧ (ok .sub f → onUnit (.vsub k f) k (.alu .sub f) s) ∧
      (ok .mul f → onUnit (.vmul k f) k (.alu .mul f) s) ∧ (ok .fma f → onUnit (.vfma k f) k (.alu .fma f) s) ∧
      (ok .min f → onUnit (.vmin k f) k (.alu .min f) s) ∧ (ok .max f → onUnit (.vmax k f) k (.alu .max f) s) ∧
      (ok .neg f → onUnit (.vneg k f) k (.alu .neg f) s) ∧ (ok .abs f → onUnit (.vabs k f) k (.alu .abs f) s) ∧
      (ok .ceq f → onUnit (.vceq k f) k (.alu .ceq f) s) ∧ (ok .cne f → onUnit (.vcne k f) k (.alu .cne f) s) ∧
      (ok .clt f → onUnit (.vclt k f) k (.alu .clt f) s) ∧ (ok .cle f → onUnit (.vcle k f) k (.alu .cle f) s) ∧
      (ok .cgt f → onUnit (.vcgt k f) k (.alu .cgt f) s) ∧ (ok .cge f → onUnit (.vcge k f) k (.alu .cge f) s) ∧
      (ok .sel f → onUnit (.vsel k f) k (.alu .sel f) s) ∧ (ok .and f → onUnit (.vand k f) k (.alu .and f) s) ∧
      (ok .or f → onUnit (.vor k f) k (.alu .or f) s) ∧ (ok .xor f → onUnit (.vxor k f) k (.alu .xor f) s) ∧
      (ok .shl f → onUnit (.vshl k f) k (.alu .shl f) s) ∧ (ok .shr f → onUnit (.vshr k f) k (.alu .shr f) s) ∧
      (ok .sra f → onUnit (.vsra k f) k (.alu .sra f) s)) ∧
    (∀ f : VK, chkCvt f = none → onUnit (.cvt k f) k (.cvt f) s) ∧
    (∀ f : VF, chkVf f = none → onUnit (.vexp2 k f) k (.sfn .exp2 f) s ∧ onUnit (.vlog2 k f) k (.sfn .log2 f) s ∧
      onUnit (.vrcp k f) k (.sfn .rcp f) s ∧ onUnit (.vrsqrt k f) k (.sfn .rsqrt f) s ∧ onUnit (.vsqrt k f) k (.sfn .sqrt f) s ∧
      onUnit (.vsinpi k f) k (.sfn .sinpi f) s ∧ onUnit (.vcospi k f) k (.sfn .cospi f) s ∧ onUnit (.vtanh k f) k (.sfn .tanh f) s ∧
      onUnit (.vlogi k f) k (.sfn .logi f) s ∧ onUnit (.verf k f) k (.sfn .erf f) s) ∧
    (∀ f : VH, chkVshuf f = none → chkVshufCount (s.kite k) s.cyc f = none → onUnit (.vshuf k f) k (.shuf f) s) ∧
    (∀ f : VT, chkVtree f = none → onUnit (.vtree k f) k (.tree f) s) ∧
    (∀ f : VQ, chkVacc (s.kite k) f = none → onUnit (.vacc k f) k (.acc f) s) ∧
    (∀ f : VU, chkVsum f = none → onUnit (.vsum k f) k (.sum f) s) ∧
    (∀ f : VM, chkVm f = none → onUnit (.vld k f) k (.ld f) s ∧ onUnit (.vst k f) k (.st f) s)


/-- R89–R91: chunk c of an element-wise instruction reads its operands in cycle tv, and λ cycles later element c × e + i of Vd holds
the operation's result, e elements a chunk, up to its count; the other elements of Vd, and the other registers, keep theirs. -/
def Obligations.VectorElementsWritten : Prop :=
  ∀ (k : Fin 256) (kt : Kite) (fn : AluFn) (f : VA) (t0 tv n occ sc pc c : Nat),
    let x := fmtOf f.fmt
    let w := if fn.isCmp then 32 else x.width
    let e := aluRate fn x
    let ws := vchunk k tv ⟨.alu fn f, t0, n, occ, sc, pc⟩ c kt
    let u := { kt with vq := ws }.applyVec k (tv + aluLat x - 1)
    u = { kt with vregs := u.vregs, vq := [] } ∧
    (∀ i, c * e ≤ i → i < c * e + min e (n - c * e) → u.velem k f.vd.toNat w i = aluAt kt k fn f sc i % 2 ^ w) ∧
    (∀ i, i < c * e ∨ c * e + min e (n - c * e) ≤ i → u.velem k f.vd.toNat w i = kt.velem k f.vd.toNat w i) ∧
    ∀ r, r ≠ f.vd.toNat → u.vreg k r = kt.vreg k r

/-- R94, R188, Table 9.6: the element-wise operations on INT32: sums, differences and products modulo 2³², the bitwise operations,
shifts by the low five bits of the second operand, comparisons of signed values that give 1 or 0, and VSEL by a selector that is
not zero. The second operand is an element, the scalar, or a repeated or stretched element, as BMODE says. -/
def Obligations.VectorIntegerElement : Prop :=
  ∀ (k : Fin 256) (kt : Kite) (f : VA) (sc i : Nat), f.fmt = 14 →
    let el := fun (r : BitVec 5) j => BitVec.ofNat 32 (kt.velem k r.toNat 32 j)
    let a := el f.va i
    let b := match f.bmode.toNat with
      | 0 => el f.vb i
      | 1 => BitVec.ofNat 32 sc
      | 2 => el f.vb (i / 2 ^ f.logb.toNat)
      | _ => el f.vb (i % 2 ^ f.logb.toNat)
    let r := fun fn => BitVec.ofNat 32 (aluAt kt k fn f sc i)
    r .add = a + b ∧ r .sub = a - b ∧ r .mul = a * b ∧ r .and = a &&& b ∧ r .or = a ||| b ∧ r .xor = a ^^^ b ∧
    r .shl = a <<< (b.toNat % 32) ∧ r .shr = a >>> (b.toNat % 32) ∧ r .sra = a.sshiftRight (b.toNat % 32) ∧
    r .ceq = (if a = b then 1 else 0) ∧ r .cne = (if a = b then 0 else 1) ∧
    r .clt = (if a.toInt < b.toInt then 1 else 0) ∧ r .cle = (if a.toInt ≤ b.toInt then 1 else 0) ∧
    r .cgt = (if b.toInt < a.toInt then 1 else 0) ∧ r .cge = (if b.toInt ≤ a.toInt then 1 else 0) ∧
    r .sel = (if a ≠ 0 then b else el f.vc i)

/-- R118, R119: a VCHAIN whose program is legal starts where all three units are free, and captures its program and the bases of its
four scalars; where one of them is busy it is discarded. Its end, in its cycle tE, frees the units and counts the chain. -/
def Obligations.ChainStartEnd : Prop :=
  ∀ (k : Fin 256) (s : State),
    let kt := s.kite k
    let tv := kt.tv s.cyc
    (∀ f : VX, issuing s k → chkVchain kt k f = none → (∀ u, kt.vbusy u tv = false) → ∃ c : ChainRun,
      effect (.vchain k f) k { kt with chain := some c, cCh := f.ch.toNat, cTile := 0 } s ∧
      c.f = f ∧ c.t0 = tv ∧ (c.header, c.stages) = chainProg kt k f.ch.toNat ∧ c.runs = placeAll f c.stages tv ∧
      c.bases = [0, 1, 2, 3].map (fun i => (kt.sreg (f.sp.toNat + i)).toNat) ∧ c.stats = []) ∧
    (∀ f : VX, issuing s k → chkVchain kt k f = none → (∃ u, kt.vbusy u tv = true) →
      refuses (.vchain k f) k { kt with vDiscard := min (kt.vDiscard + 1) 4294967295 } evVbusy s) ∧
    (∀ c, kt.retry = [] → kt.chain = some c → c.tEnd ≤ tv → ∃ vs, (c.stats = [] → vs = kt.vregs) ∧
      keeps (.chainEnd k) k { kt with vregs := vs, chain := none, cChains := (kt.cChains + 1) % 2 ^ 32 } s)

/-! ### The D slot -/

namespace Sys2Proof.Stated

/-- A descriptor is queued, last on its channel: of the kite only the channel, and the record of the bounds that have not passed,
change; of the rest only the log may grow, by the hazard checker's record. -/
def posted (i : Instr) (k : Fin 256) (ch : Nat) (d : Desc) (s : State) : Prop :=
  let kt := s.kite k
  ∃ t ps, exec i s = .next t ∧ kitesKept [k] s t ∧ kitesAndLog s t ∧
    hazardOnly { kt with chans := mapSet kt.chans ch { kt.chan ch with queue := (kt.chan ch).queue ++ [d] }, paced := ps } (t.kite k)

/-- The completion bridle that a D-slot instruction names (R195, R211): none with BV 0, and else the bridle that SB's scalar addresses
within the kite's unit, as module × 2¹⁶ + bridle, this module's own number being 0xF_FFFF. -/
def bridled (s : State) (k : Fin 256) (bv : BitVec 1) (sb : BitVec 5) (b : Option Nat) : Prop :=
  (bv = 0 ∧ b = none) ∨ ∃ m x, bv = 1 ∧ brunsAt (s.unitBruns (s.kite k).unit) ((s.kite k).s32 sb) = some (m, x) ∧
    b = some ((if s.isMe m then 0xFFFFF else m) * 65536 + x)

/-- The cycles still bound to the descriptor posted last on a channel (R169). -/
def queued (kt : Kite) (ch t : Nat) : Nat := ((kt.chan ch).queue.getLast?.map fun d => d.bound - t).getD 0

/-- Rows of a D-slot instruction: NROWS, where 0 stands for 16,384 (R195). -/
def rowCount (n : BitVec 14) : Nat := if n = 0 then 16384 else n.toNat

end Sys2Proof.Stated

/-- R138, R139, R167, R169, R195–R198, R211: a D-slot instruction whose channel has room, whose rows lie in banks that are ON, or in
an enabled reel, and whose addresses are in range queues its descriptor in its issue cycle. The completion is planned 96 cycles
before the end of the bound (assumption 23). -/
def Obligations.MoveSlotPosts : Prop :=
  ∀ (k : Fin 256) (s : State), issuing s k → (s.kite k).dqWait = [] →
    let kt := s.kite k
    let t := s.cyc
    let room := fun (ch : BitVec 2) => (kt.chan ch.toNat).queue.length < 8
    let ready := fun (reads : Bool) (spr : BitVec 1) (row : BitVec 14) (n : Nat) => kt.ownStatus t reads row.toNat (sprReel spr row) n = 0
    let planned := fun (d : Desc) (row n : Nat) => d.row = row ∧ d.nrows = n ∧ d.issue = t ∧ d.status = 0 ∧ d.next = 0 ∧
      d.complete = max (t + 1) (d.bound - 96)
    (∀ (f : DM) (b : Option Nat), chkDm f = none → room f.ch → bridled s k f.bv f.sb b → ready (f.dir == 1) f.spr f.row (rowCount f.nrows) →
      (kt.s f.sm).toNat % 512 = 0 → (kt.s f.ss).toNat % 65536 ≠ 0 → (kt.s f.sm).toNat < 2 ^ 56 →
      let addrs := (List.range (rowCount f.nrows)).map fun i => (kt.s f.sm).toNat + i * ((kt.s f.ss).toNat % 65536 * 512)
      ((∀ a ∈ addrs, inTiers a = true ∧ (f.dir = 1 → s.pgm.inTable a = false)) → ∃ d, posted (.dmov k f) k f.ch.toNat d s ∧
        d.kind = .mem (f.dir == 1) (kt.s f.sm).toNat ((kt.s f.ss).toNat % 65536 * 512) ∧ planned d f.row.toNat (rowCount f.nrows) ∧
        d.reel = sprReel f.spr f.row ∧ d.bridle = b ∧
        ((∀ a ∈ addrs, isLoft a = false) →
          d.bound = t + queued kt f.ch.toNat t + 640 + (rowCount f.nrows + (kt.pacedRows t).1) * 13)) ∧
      (∀ pas : List Nat, (∀ i, i < rowCount f.nrows → ∃ l, s.pgm.walk (addrs.getD i 0) = (some l, none) ∧ (f.dir = 1 → l.wp = false) ∧
          pas[i]? = some (l.phys (addrs.getD i 0))) → pas.length = rowCount f.nrows → (f.dir = 1 → ∀ a ∈ pas, s.pgm.inTable a = false) →
        ∃ d t' ps, exec (.dpage k f) s = .next t' ∧ kitesKept [k] s t' ∧ kitesAndLog { s with pgm := { s.pgm with tlb := t'.pgm.tlb } } t' ∧
          hazardOnly { kt with chans := mapSet kt.chans f.ch.toNat { kt.chan f.ch.toNat with
            queue := (kt.chan f.ch.toNat).queue ++ [d] }, paced := ps } (t'.kite k) ∧ d.kind = .page (f.dir == 1) pas ∧ planned d f.row.toNat (rowCount f.nrows) ∧
          d.reel = sprReel f.spr f.row ∧ d.bridle = b)) ∧
    (∀ (f : DS) (b : Option Nat) (rs : List Run) (m k2 dst : Nat) (rl : Option Nat), chkDs f = none → room f.ch → bridled s k f.bv f.sb b →
      ready true f.spr f.row (rowCount f.nrows) → s.unitRuns kt.unit = some rs → runsAt rs ((kt.s f.sd).toNat % 2 ^ 32) = some (m, k2) →
      ((kt.s f.sd).toNat / 2 ^ 32 = dst ∧ dst < 16384 ∧ rl = none ∨
        (kt.s f.sd).toNat / 2 ^ 32 = 2 ^ 16 + dst ∧ dst < 32 ∧ rl = some dst) →
      (s.isMe m = true → s.kiteOn k2 = true → (s.kite k2).destStatus dst rl (rowCount f.nrows) = 0 →
        ∃ d, posted (.dsend k f) k f.ch.toNat d s ∧ d.kind = .send k2 dst rl ∧ planned d f.row.toNat (rowCount f.nrows) ∧
          d.reel = sprReel f.spr f.row ∧ d.bridle = b ∧
          d.bound = t + queued kt f.ch.toNat t + 320 + (rowCount f.nrows + (kt.pacedRows t).2.2) * 4) ∧
      (s.isMe m = false → ∃ d x c ps, exec (.dsend k f) s = .next { x with
          brd := { x.brd with tag := (x.brd.tag + 1) % 2 ^ 64 }, lnk := { x.lnk with sends := mapSet x.lnk.sends x.brd.tag (k, f.ch.toNat) } } ∧
        kitesKept [k] s x ∧ kitesAndLog s x ∧ hazardOnly { kt with
          chans := mapSet kt.chans f.ch.toNat { kt.chan f.ch.toNat with queue := (kt.chan f.ch.toNat).queue ++ [d] }, paced := ps } (x.kite k) ∧
        d.kind = .remote m k2 dst rl s.brd.tag c ∧ planned d f.row.toNat (rowCount f.nrows) ∧ d.reel = sprReel f.spr f.row ∧ d.bridle = b ∧
        d.bound = t + queued kt f.ch.toNat t + 320 + 1250 * s.hops m + (rowCount f.nrows + (kt.pacedRows t).2.2) * 13)) ∧
    (∀ (f : DX) (b : Option Nat), chkDx f = none → room f.ch → bridled s k f.bv f.sb b → (∀ n, (kt.bank n).st = .on) →
      let n := if f.ntok = 0 then 4096 else f.ntok.toNat
      ∃ d, posted (.dexport k f) k f.ch.toNat d s ∧
        d.kind = .note (kt.s32 f.ss) f.layer.toNat f.head.toNat f.kind.toNat f.tmap.toNat n ∧
        planned d f.tmap.toNat ((8 * n + 511) / 512) ∧ d.reel = none ∧ d.bridle = b ∧
        d.bound = t + queued kt f.ch.toNat t + 120) ∧
    (∀ (f : DF) (b : Option Nat), chkDf f = none → room f.ch → bridled s k f.bv f.sb b → (∀ n, (kt.bank n).st = .on) →
      ∃ d, posted (.dfill k f) k f.ch.toNat d s ∧ d.kind = .fill (kt.s32 f.sv) ∧ planned d f.row.toNat (rowCount f.nrows) ∧ d.bridle = b ∧
        d.bound = t + queued kt f.ch.toNat t + 98 + 4 * rowCount f.nrows) ∧
    (∀ (f : DC) (b : Option Nat), chkDc f = none → room f.ch → bridled s k f.bv f.sb b → (∀ n, (kt.bank n).st = .on) →
      ∃ d, posted (.dcopy k f) k f.ch.toNat d s ∧ d.kind = .copy f.drow.toNat (f.dir == 1) ∧
        planned d f.srow.toNat (rowCount f.nrows) ∧ d.bridle = b ∧ d.bound = t + queued kt f.ch.toNat t + 100 + 8 * rowCount f.nrows)

/-- R116, R168, R169, R171: the completion of a channel's oldest descriptor takes it off the queue and counts it; one that failed leaves
its status and is counted as an error. A completion bridle of this module then gets a signal of 1, but for a send whose destination has
signalled it (R197, R351), and a DEXPORT delivers its notice. -/
def Obligations.MoveCompletes : Prop :=
  ∀ (k : Fin 256) (ch : Fin 4) (s : State) (d : Desc) (rest : List Desc),
    let kt := s.kite k
    let c := kt.chan ch.val
    c.queue = d :: rest → d.complete ≤ s.cyc → d.nrows ≤ d.next → d.left = 0 →
    let note := ∃ h l hd kd tm nt, d.kind = .note h l hd kd tm nt
    let ok := (if kt.stopped then s.dropWaits k else s).setKite k
      { kt with chans := mapSet kt.chans ch.val { c with queue := rest, done := (c.done + 1) % 2 ^ 40 } }
    (d.status = 0 → d.bridle = none → ¬note → exec (.moveComplete k ch) s = .next ok) ∧
    (∀ h l hd kd tm nt, d.status = 0 → d.bridle = none → d.kind = .note h l hd kd tm nt →
      exec (.moveComplete k ch) s = .next (ok.exportNotice h l hd kd (tokenRows (d.buf.getD 0) nt))) ∧
    (∀ b, d.status = 0 → d.bridle = some b → ¬note → d.told = true → exec (.moveComplete k ch) s = .next ok) ∧
    (∀ b, d.status = 0 → d.bridle = some b → ¬note → d.told = false →
      s.isMe (b / 65536) = true → ∃ fab, exec (.moveComplete k ch) s = .next { ok with
        brd := { ok.brd with arrivals := ok.brd.arrivals ++ [⟨b % 65536, fab, 1, false⟩] } }) ∧
    (d.status = 1 ∨ d.status = 2 ∨ d.status = 3 ∨ d.status = 7 → d.bridle = none → ∃ t, exec (.moveComplete k ch) s = .next t ∧
      kitesKept [k] s t ∧ t.kite k = { kt with chans := mapSet kt.chans ch.val { c with
        queue := rest, done := (c.done + 1) % 2 ^ 40, status := d.status, errcnt := min (c.errcnt + 1) 65535 } })

/-! ### The S slot -/

/-- R159, R161, R200: SIG sends its amount to the bridle its scalar addresses, no earlier than the last fence lets it; an amount of 0
sends nothing, and an address outside the unit is counted and sends nothing (R211). FENCE holds later signals back to the end of
t + 4 and to the last write of the vector memory unit. TICKWAIT stops the keel until the next step. -/
def Obligations.SignalFenceTickwait : Prop :=
  ∀ (k : Fin 256) (s : State), issuing s k →
    let kt := s.kite k
    let t := kt.t s.cyc
    (∀ f : SSig, chkSig f = none →
      let u := kt.s32 f.sb
      let amt := if f.areg = 0 then f.amt.toNat else kt.s32 f.sa
      (∀ m b, brunsAt (s.unitBruns kt.unit) u = some (m, b) → amt ≠ 0 →
        effect (.sig k f) k { kt with sigs := kt.sigs ++ [⟨u, amt, max t kt.fenceT, kt.fenceTv⟩] } s) ∧
      (∀ m b, brunsAt (s.unitBruns kt.unit) u = some (m, b) → amt = 0 → effect (.sig k f) k kt s) ∧
      (brunsAt (s.unitBruns kt.unit) u = none → ∃ t', exec (.sig k f) s = .next t' ∧ kitesKept [k] s t' ∧ hazardOnly kt (t'.kite k) ∧
        t'.brd = { s.brd with nRange := min (s.brd.nRange + 1) 65535 })) ∧
    (∀ f : SZ, f.rsv = 0 → ∃ x, effect (.fence k f) k { kt with fenceT := t + 4, fenceTv := x } s ∧ kt.fenceTv ≤ x ∧
      (∀ r g, kt.vMem = some r → r.kind = .st g → r.t0 + r.occ - 1 ≤ x) ∧ (kt.vMem = none → kt.chain = none → x = kt.fenceTv)) ∧
    (∀ f : SZ, f.rsv = 0 → frameBar kt = none → effect (.tickwait k f) k { kt with st := .tickwait } s)

/-- R156, R158, R201, R202, R212, R219: WAIT and ARRIVE on a bridle whose home is this module stop the keel at an anchor planned to
release at t + MIN, and register the wait at the home, where it is judged from the first fabric cycle that begins after this one
(the model's reading, assumption 21);
ARRIVE also signals 1. On a bridle that is not of this module they are refused and counted, and can only be released at p. WAITR
waits on a reel's count. -/
def Obligations.AnchorStarts : Prop :=
  ∀ (k : Fin 256) (s : State), issuing s k →
    let kt := s.kite k
    let t := kt.t s.cyc
    (∀ f : SWait, chkWait kt f = none →
      let u := kt.s32 f.sb
      let p := if f.mreg = 0 then f.min.toNat else (kt.s f.tf).toNat % 2 ^ 24
      let tmo := if f.mreg = 0 then (if f.tf = 0 then 0 else 2 ^ (f.tf.toNat + 4)) else (kt.s f.tf).toNat / 2 ^ 32
      let at_ := fun on (x : Kite) => { x with st := .anchor, anchor := some ⟨on, f.fd.toNat, t + p, tmo, 0, false⟩ }
      let sent := { kt with sigs := kt.sigs ++ [⟨u, 1, max t kt.fenceT, kt.fenceTv⟩] }
      (∀ m b, brunsAt (s.unitBruns kt.unit) u = some (m, b) → s.isMe m = true →
        let w : BWait := ⟨k, b, (kt.s f.sb).toNat / 2 ^ 32, s.fabFrom s.cyc, if tmo = 0 then none else some (s.cyc + p + tmo - 16)⟩
        (∃ x, exec (.wait k f) s = .next { x with brd := { x.brd with waits := x.brd.waits ++ [w] } } ∧ slotDone k (at_ (.bridle b) kt) s x) ∧
        ∃ x, exec (.arrive k f) s = .next { x with brd := { x.brd with waits := x.brd.waits ++ [w] } } ∧ slotDone k (at_ (.bridle b) sent) s x) ∧
      (∀ m b, brunsAt (s.unitBruns kt.unit) u = some (m, b) → s.isMe m = false →
        (∃ x, exec (.wait k f) s = .next x ∧ kitesKept [k] s x ∧ hazardOnly (at_ .refused kt) (x.kite k) ∧
          x.brd = { s.brd with nRefused := min (s.brd.nRefused + 1) 65535 }) ∧
        ∃ x, exec (.arrive k f) s = .next x ∧ kitesKept [k] s x ∧ hazardOnly (at_ .refused sent) (x.kite k) ∧
          x.brd = { s.brd with nRefused := min (s.brd.nRefused + 1) 65535 }) ∧
      (brunsAt (s.unitBruns kt.unit) u = none →
        (∃ x, exec (.wait k f) s = .next x ∧ kitesKept [k] s x ∧ hazardOnly (at_ .refused kt) (x.kite k) ∧
          x.brd = { s.brd with nRefused := min (s.brd.nRefused + 1) 65535 }) ∧
        ∃ x, exec (.arrive k f) s = .next x ∧ kitesKept [k] s x ∧ hazardOnly (at_ .refused kt) (x.kite k) ∧
          x.brd = { s.brd with nRefused := min (s.brd.nRefused + 1) 65535 })) ∧
    (∀ f : SWaitr, chkWaitr kt f = none →
      effect (.waitr k f) k { kt with st := .anchor, anchor := some ⟨.reel f.reel.toNat (f.kind == 1) f.thr.toNat, f.fd.toNat,
        t + (kt.s f.st).toNat % 2 ^ 24, (kt.s f.st).toNat / 2 ^ 32, 0, false⟩ } s)

/-- R156, R157, R212: the condition that arrives before p is held, and the anchor releases at the end of p with its flag 1; one that
arrives after p releases it at once. A refused wait releases at p with 0, and an anchor whose condition has not come TMO cycles after
p with 0, which is counted and logged. A keel that is released goes on where it stands: at the next bundle, at the first of its loop's body where
the anchor ended one, or with the padding of its construct. -/
def Obligations.AnchorReleases : Prop :=
  ∀ (k : Fin 256) (s : State) (a : Anchor), (s.kite k).st = .anchor → (s.kite k).anchor = some a →
    let kt := s.kite k
    let released := fun (v : Bool) => settle (kt.t s.cyc) 9 { kt with fregs := mapSet kt.fregs a.fd v, st := .issuing, anchor := none }
    (kt.frames = [] → ∀ v, released v = { kt with fregs := mapSet kt.fregs a.fd v, st := .issuing, anchor := none }) ∧
    (kt.frozenElse = false → a.p ≤ kt.t s.cyc → a.got = true → a.on ≠ .refused →
      exec (.plannedRelease k) s = .next (s.setKite k (released true))) ∧
    (kt.frozenElse = false → a.p ≤ kt.t s.cyc → a.on = .refused → exec (.plannedRelease k) s = .next (s.setKite k (released false))) ∧
    (s.noticed k a = true ∨ kt.reelMet a = true → ∃ ns, exec (.bridleNotice k) s = .next
      ({ s with brd := { s.brd with notices := ns } }.setKite k (if a.late = 0 then { kt with anchor := some { a with got := true } } else released true)) ∧
      ∀ n, n ∈ ns ↔ n ∈ s.brd.notices ∧ ¬(n.kite = k ∧ n.cyc ≤ s.cyc)) ∧
    (a.tmo ≠ 0 → a.late = a.tmo → a.got = false → a.on ≠ .refused → exec (.anchorTimeout k) s = .next
      ((s.log (Ev.kite .s evAnchorTimeout k)).setKite k { released false with hTimeout := min (kt.hTimeout + 1) 65535 }))

/-- R164–R166, R176, R186, R188–R202: what the checks of an instruction find (an illegal encoding, a ninth level of nesting, a count
above MAX, an anchor inside an arm or a body with a register count) stops the keel by that exception, in the slot of the
instruction, which has no other effect (R175). -/
def Obligations.SlotChecksStopKeel : Prop :=
  ∀ (k : Fin 256) (s : State) (e : Exc), issuing s k →
    let kt := s.kite k
    let stops := fun (i : Instr) (slot : Nat) => raises i k slot e.code s
    (∀ f, chkBrb kt f = some e → stops (.brb k f) 0) ∧ (∀ f, chkLoop kt f = some e → stops (.loop k f) 0) ∧
    (∀ f, chkMfeed kt f = some e → stops (.mfeed k f) 1) ∧
    (∀ f, (chkVa .add f = some e → stops (.vadd k f) 2) ∧ (chkVa .sub f = some e → stops (.vsub k f) 2) ∧
      (chkVa .mul f = some e → stops (.vmul k f) 2) ∧ (chkVa .fma f = some e → stops (.vfma k f) 2) ∧
      (chkVa .min f = some e → stops (.vmin k f) 2) ∧ (chkVa .max f = some e → stops (.vmax k f) 2) ∧
      (chkVa .neg f = some e → stops (.vneg k f) 2) ∧ (chkVa .abs f = some e → stops (.vabs k f) 2) ∧
      (chkVa .ceq f = some e → stops (.vceq k f) 2) ∧ (chkVa .cne f = some e → stops (.vcne k f) 2) ∧
      (chkVa .clt f = some e → stops (.vclt k f) 2) ∧ (chkVa .cle f = some e → stops (.vcle k f) 2) ∧
      (chkVa .cgt f = some e → stops (.vcgt k f) 2) ∧ (chkVa .cge f = some e → stops (.vcge k f) 2) ∧
      (chkVa .sel f = some e → stops (.vsel k f) 2) ∧ (chkVa .and f = some e → stops (.vand k f) 2) ∧
      (chkVa .or f = some e → stops (.vor k f) 2) ∧ (chkVa .xor f = some e → stops (.vxor k f) 2) ∧
      (chkVa .shl f = some e → stops (.vshl k f) 2) ∧ (chkVa .shr f = some e → stops (.vshr k f) 2) ∧
      (chkVa .sra f = some e → stops (.vsra k f) 2)) ∧
    (∀ f, chkCvt f = some e → stops (.cvt k f) 2) ∧
    (∀ f, chkVf f = some e → stops (.vexp2 k f) 2 ∧ stops (.vlog2 k f) 2 ∧ stops (.vrcp k f) 2 ∧ stops (.vrsqrt k f) 2 ∧ stops (.vsqrt k f) 2 ∧
      stops (.vsinpi k f) 2 ∧ stops (.vcospi k f) 2 ∧ stops (.vtanh k f) 2 ∧ stops (.vlogi k f) 2 ∧ stops (.verf k f) 2) ∧
    (∀ f, chkVshuf f = some e → stops (.vshuf k f) 2) ∧ (∀ f, chkVtree f = some e → stops (.vtree k f) 2) ∧
    (∀ f, chkVacc kt f = some e → stops (.vacc k f) 2) ∧ (∀ f, chkVsum f = some e → stops (.vsum k f) 2) ∧
    (∀ f, chkVm f = some e → stops (.vld k f) 2 ∧ stops (.vst k f) 2) ∧ (∀ f, chkVchain kt k f = some e → stops (.vchain k f) 2) ∧
    (∀ f, chkDm f = some e → stops (.dmov k f) 3 ∧ stops (.dpage k f) 3) ∧ (∀ f, chkDs f = some e → stops (.dsend k f) 3) ∧
    (∀ f, chkDx f = some e → stops (.dexport k f) 3) ∧ (∀ f, chkDf f = some e → stops (.dfill k f) 3) ∧
    (∀ f, chkDc f = some e → stops (.dcopy k f) 3) ∧
    (∀ f, chkSig f = some e → stops (.sig k f) 4) ∧ (∀ f, chkWait kt f = some e → stops (.wait k f) 4 ∧ stops (.arrive k f) 4) ∧
    (∀ f, chkWaitr kt f = some e → stops (.waitr k f) 4) ∧ (∀ f, chkTickwait kt f = some e → stops (.tickwait k f) 4)

/-! ### A kite's window -/

/-- R442: a halt request stops the keel at the end of the first cycle after the write, and is logged where the kite serves; a keel
that is stopped takes no notice. A resume lets a keel that a request halted issue again, and no other. -/
def Obligations.HaltResume : Prop :=
  ∀ (k : Fin 256) (s : State), s.kteUp k = true →
    let kt := s.kite k
    (kt.stopped = true → exec (.haltReq k) s = .next s) ∧
    let asked := if kt.reqEnd = true then kt else { kt with reqEnd := true, haltAt := s.cyc + 1 }
    (kt.stopped = false → s.isServing kt.unit = false → exec (.haltReq k) s = .next (s.setKite k asked)) ∧
    (kt.stopped = false → s.isServing kt.unit = true →
      exec (.haltReq k) s = .next ((s.log (Ev.kite .v evRegIgnored k)).setKite k asked)) ∧
    (kt.st = .halted → kt.byReq = true → exec (.resume k) s = .next (s.setKite k { kt with
      st := .issuing, byReq := false, frames := kt.frames.map (shiftFrame (kt.t s.cyc - kt.haltAt)) })) ∧
    (kt.st ≠ .halted ∨ kt.byReq = false → exec (.resume k) s = .next s)

/-- R104, R153, §8.10: while the keel is stopped, words 0 to 2 of PMEM_DATA are staged and word 3 stores the bundle of all four at
ADDR, which goes on by one; a write of chain memory replaces 64 bits of it. While the keel runs both are ignored and logged. A read
of PMEM_DATA answers a word of the bundle at ADDR, and one of word 3 moves ADDR on. -/
def Obligations.ProgramAndChainMemory : Prop :=
  ∀ (k : Fin 256) (s : State), s.kteUp k = true →
    let kt := s.kite k
    (∀ (w : Fin 4) (v : BitVec 64), kt.stopped = true → w.val < 3 →
      keeps (.pmemDataWrite k w v) k { kt with pmStage := mapSet kt.pmStage w.val v.toNat } s) ∧
    (∀ v : BitVec 64, kt.stopped = true → keeps (.pmemDataWrite k 3 v) k { kt with
      pmStage := mapSet kt.pmStage 3 v.toNat, pmAddr := (kt.pmAddr + 1) % 8192
      pmem := mapSet kt.pmem kt.pmAddr
        (kt.staged k 0 + 2 ^ 64 * kt.staged k 1 + 2 ^ 128 * kt.staged k 2 + 2 ^ 192 * v.toNat) } s) ∧
    (∀ (w : Fin 4) (v : BitVec 64), kt.stopped = false →
      exec (.pmemDataWrite k w v) s = .next ((s.log (Ev.kite .v evRegIgnored k)).setKite k kt)) ∧
    (∀ w : Fin 4, ∃ t, exec (.pmemDataRead k w) s =
        .next (t.emit (.word (BitVec.ofNat 64 (kt.bundle k kt.pmAddr / 2 ^ (64 * w.val))))) ∧
      t = (if kt.stopped then s.dropWaits k else s).setKite k (if w = 3 then { kt with pmAddr := (kt.pmAddr + 1) % 8192 } else kt)) ∧
    (∀ (off : BitVec 15) (v : BitVec 64), off.toNat % 512 < 272 → kt.stopped = true → ∃ kt', keeps (.chainmemWrite k off v) k kt' s ∧
      kt' = { kt with chainMem := kt'.chainMem } ∧
      let i := off.toNat / 512 * 32 + off.toNat % 512 / 16
      bits (kt'.chainWord k i) (64 * (off.toNat / 8 % 2)) 64 = v.toNat ∧
      bits (kt'.chainWord k i) (64 * (1 - off.toNat / 8 % 2)) 64 = bits (kt.chainWord k i) (64 * (1 - off.toNat / 8 % 2)) 64 ∧
      ∀ j, j ≠ i → kt'.chainWord k j = kt.chainWord k j) ∧
    (∀ (off : BitVec 15) (v : BitVec 64), off.toNat % 512 < 272 → kt.stopped = false →
      exec (.chainmemWrite k off v) s = .next ((s.log (Ev.kite .v evRegIgnored k)).setKite k kt))

/-- R137, R141, R146–R149: a reel that nothing names takes its base, size and enable with HEAD and TAIL 0, and one in use, or that
does not fit, refuses the write; OFF_REQ closes the ON banks it names and ON_REQ wakes the OFF ones and takes CLOSING ones back;
a CLOSING bank that no descriptor names goes OFF and loses its rows, one that is still named after 80,000 cycles is ON again, and a
waking one is ON after 2,500; a repair whose row has been read and written back takes the row out of the queue and its error away. -/
def Obligations.BanksAndReels : Prop :=
  ∀ (k : Fin 256) (s : State),
    let kt := s.kite k
    (∀ (r : Fin 32) (v : BitVec 64), s.kteUp k = true → kt.reelInUse r.val = false → r.val ∉ s.peerReels k → v.toNat / 16384 % 16 ≤ 14 →
      v.toNat % 16384 + 2 ^ (v.toNat / 16384 % 16) ≤ 16384 → keeps (.reelCfgWrite k r v) k { kt with
        reels := mapSet kt.reels r.val ⟨v.toNat % 16384, v.toNat / 16384 % 16, v.getLsbD 18, 0, 0⟩ } s) ∧
    (∀ (r : Fin 32) (v : BitVec 64), s.kteUp k = true → kt.reelInUse r.val = true ∨ r.val ∈ s.peerReels k ∨ 14 < v.toNat / 16384 % 16 ∨
        16384 < v.toNat % 16384 + 2 ^ (v.toNat / 16384 % 16) →
      ∃ t, exec (.reelCfgWrite k r v) s = .next t ∧ t.kite k = { kt with reelBad := min (kt.reelBad + 1) 65535 }) ∧
    (∀ mask : BitVec 16, s.kteUp k = true → ∃ kt', keeps (.offReq k mask) k kt' s ∧ kt' = { kt with banks := kt'.banks } ∧
      ∀ b, kt'.bank b = if mask.getLsbD b = true ∧ (kt.bank b).st = .on then { kt.bank b with st := .closing s.cyc } else kt.bank b) ∧
    (∀ mask : BitVec 16, s.kteUp k = true → ∃ kt', keeps (.onReq k mask) k kt' s ∧
      kt' = { kt with banks := kt'.banks, pwrAbort := kt'.pwrAbort } ∧
      ∀ b, (mask.getLsbD b = true → (kt.bank b).st = .off → kt'.bank b = ⟨.waking s.cyc, (kt.bank b).gen + 1⟩) ∧
        (mask.getLsbD b = true → ∀ c, (kt.bank b).st = .closing c → kt'.bank b = { kt.bank b with st := .on } ∧ kt'.pwrAbort.testBit b = true) ∧
        (mask.getLsbD b = false → kt'.bank b = kt.bank b ∧ kt'.pwrAbort.testBit b = kt.pwrAbort.testBit b)) ∧
    (∀ (b : Fin 16) (c : Nat), (kt.bank b).st = .closing c → c < s.cyc → kt.bankNamed b = false → ∃ kt', keeps (.bankPowerOff k b) k kt' s ∧
      kt' = { kt with banks := kt'.banks, rows := kt'.rows, bad := kt'.bad, soft := kt'.soft, repairQ := kt'.repairQ } ∧
      kt'.bank b = { kt.bank b with st := .off } ∧ (∀ j, j ≠ b.val → kt'.bank j = kt.bank j) ∧
      (∀ r, r % 16 = b.val → mapGet kt'.rows r = none) ∧ ∀ r, r % 16 ≠ b.val → mapGet kt'.rows r = mapGet kt.rows r) ∧
    (∀ (b : Fin 16) (c : Nat), (kt.bank b).st = .closing c → c + 80000 ≤ s.cyc → kt.bankNamed b = true →
      ∃ kt', keeps (.bankCloseTimeout k b) k kt' s ∧ kt' = { kt with banks := kt'.banks, pwrBusy := kt.pwrBusy ||| 2 ^ b.val } ∧
        kt'.bank b = { kt.bank b with st := .on } ∧ ∀ j, j ≠ b.val → kt'.bank j = kt.bank j) ∧
    (∀ (b : Fin 16) (c : Nat), (kt.bank b).st = .waking c → c + 2500 ≤ s.cyc →
      ∃ kt', keeps (.bankWakeDone k b) k kt' s ∧ kt' = { kt with banks := kt'.banks } ∧
        kt'.bank b = { kt.bank b with st := .on } ∧ ∀ j, j ≠ b.val → kt'.bank j = kt.bank j) ∧
    (∀ r, kt.repaired = some r → ∃ kt', keeps (.repair k) k kt' s ∧
      kt' = { kt with repairQ := kt'.repairQ, soft := mapDel kt.soft r, repaired := none } ∧
      ∀ x, x ∈ kt'.repairQ ↔ x ∈ kt.repairQ ∧ x ≠ r) ∧
    (kt.repaired = none → exec (.repair k) s = .next s)

/-! ### Units, trains and bridles -/

namespace Sys2Proof.Stated

/-- A command of GLB.UNIT_CMD ends in state `s` with a status, and none is in progress any more. -/
def unitEnd (s : State) (status : Nat) : State := { s with brd := { s.brd with status := status, op := none } }

/-- The trains of state `s` are replaced. -/
def withTrains (s : State) (m : Map Train) : State := { s with brd := { s.brd with trains := m } }

end Sys2Proof.Stated

/-- R206–R209, R217, R446, Table 10.4: DEFINE installs its train and DELETE removes an idle one, at once where no other module has
kites of it, and else after those modules have been asked; a command while another is in progress is ignored and logged; DEFINE of a unit number that is no train's, and DELETE
or HALT_UNIT of an unknown one, end with their status. HALT_UNIT asks every running kite of the unit to halt. A command that waits
for another module for 10 ms ends with LINK, or with a failure that R446 puts before it. -/
def Obligations.UnitCommands : Prop :=
  ∀ s : State,
    (s.glbUp = true → s.brd.op ≠ none → exec .define s = .next (s.ignoredReg uHost) ∧
      ∀ u, exec (.delete u) s = .next (s.ignoredReg uHost) ∧ exec (.haltUnit u) s = .next (s.ignoredReg uHost)) ∧
    (s.glbUp = true → s.brd.op = none → fieldLe s.descWindow 0 4 < 0x10000 ∨ 0x11000 ≤ fieldLe s.descWindow 0 4 →
      exec .define s = .next (unitEnd s 1)) ∧
    (∀ t, s.glbUp = true → s.brd.op = none → s.defineCheck s.descWindow = (0, t) → s.trainMods t = [] →
      exec .define s = .next (unitEnd (withTrains s (mapSet s.brd.trains (fieldLe s.descWindow 0 4) t)) 0) ∧
      t.members = s.descMembers s.descWindow ∧ t.bruns = s.descBruns s.descWindow ∧ s.flatten t.members = some t.runs) ∧
    (∀ (u : BitVec 32) (t : Train), s.glbUp = true → s.brd.op = none → 0x10000 ≤ u.toNat → u.toNat < 0x11000 →
      mapGet s.brd.trains u.toNat = some t → s.anyRuns t.runs = false → s.isServing u.toNat = false →
      (∀ n x, (n, x) ∈ s.brd.trains → (0xFFFFF, u.toNat) ∉ x.members) → s.others t.runs = [] → exec (.delete u) s =
        .next (unitEnd { s with brd := { s.brd with cmdUnit := u.toNat, trains := mapDel s.brd.trains u.toNat, defs := mapDel s.brd.defs u.toNat } } 0)) ∧
    (∀ t, s.glbUp = true → s.brd.op = none → s.defineCheck s.descWindow = (0, t) → s.trainMods t ≠ [] → ∃ x, exec .define s = .next x ∧
      x.kites = s.kites ∧ x.brd = { s.brd with
        op := some ⟨1, fieldLe s.descWindow 0 4, some t, none, s.trainMods t, 0, s.now, s.brd.tag⟩, tag := (s.brd.tag + 1) % 2 ^ 64 }) ∧
    (∀ (u : BitVec 32) (t : Train), s.glbUp = true → s.brd.op = none → mapGet s.brd.trains u.toNat = some t → s.deleteStatus u.toNat = 0 →
      s.others t.runs ≠ [] → ∃ x, exec (.delete u) s = .next x ∧ x.kites = s.kites ∧ x.brd = { s.brd with
        cmdUnit := u.toNat, op := some ⟨2, u.toNat, none, none, s.others t.runs, 0, s.now, s.brd.tag⟩, tag := (s.brd.tag + 1) % 2 ^ 64 }) ∧
    (∀ (u : BitVec 32) (rs : List Run), s.glbUp = true → s.brd.op = none → s.unitRuns u.toNat = some rs → s.isServing u.toNat = false →
      s.others rs ≠ [] → ∃ x, exec (.haltUnit u) s = .next x ∧ x.brd = { s.brd with
        cmdUnit := u.toNat, launches := mapDel s.brd.launches u.toNat
        op := some ⟨4, u.toNat, none, none, s.others rs, 0, s.now, s.brd.tag⟩, tag := (s.brd.tag + 1) % 2 ^ 64 }) ∧
    (∀ u : BitVec 32, s.glbUp = true → s.brd.op = none → s.unitRuns u.toNat = none →
      exec (.haltUnit u) s = .next (unitEnd { s with brd := { s.brd with cmdUnit := u.toNat } } 2) ∧
      (0x10000 ≤ u.toNat → u.toNat < 0x11000 →
        exec (.delete u) s = .next (unitEnd { s with brd := { s.brd with cmdUnit := u.toNat } } 2))) ∧
    (∀ (u : BitVec 32) (rs : List Run), s.glbUp = true → s.brd.op = none → s.unitRuns u.toNat = some rs →
      s.isServing u.toNat = false → s.others rs = [] → ∃ t, exec (.haltUnit u) s = .next t ∧
        t = unitEnd { s with
          kites := t.kites, tel := t.tel, out := t.out, hst := { s.hst with pendingVec := t.hst.pendingVec, waits := t.hst.waits }
          brd := { s.brd with cmdUnit := u.toNat, launches := mapDel s.brd.launches u.toNat } } 0 ∧
        ((∀ k, s.isServing (s.kite k).unit = false) → t.tel = s.tel ∧ t.out = s.out) ∧
        ∀ k, t.kite k = if k ∈ (s.mine rs).map (·.2) ∧ (s.kite k).stopped = false ∧ (s.kite k).reqEnd = false then
          { s.kite k with reqEnd := true, haltAt := s.cyc + 1 } else s.kite k) ∧
    (∀ o, s.brd.op = some o → o.waiting ≠ [] → o.since + 10000000 ≤ s.now →
      ∃ c t, exec .unitCmdTimeout s = .next t ∧ t.brd.status = c ∧ t.brd.op = none ∧ t.kites = s.kites ∧
        (o.status = 0 → c = 7) ∧ (o.status ∈ [1, 2, 3, 4, 6, 7, 9] → c = o.status) ∧
        (o.kind = 3 ∨ o.kind = 4 → t = unitEnd s c))

/-- R213–R215, R446: LAUNCH of a unit, with nothing that stands against it, loads the program and chain memories of its kites on this module
from the image and asks the modules that hold others; one that cannot be ends with its status. LAUNCH_GO, when all have prepared, starts each of them at the entry bundle, S0 to S3 holding its number, the numbers of the
unit's kites and bridles and ARG, every other register 0, reels disabled, the bridles of the unit zeroed where ZB asks it. -/
def Obligations.LaunchStartsKites : Prop :=
  ∀ s : State,
    (∀ rs img bad x, s.glbUp = true → s.brd.op = none → launchBad s.descWindow = false →
      let l := parseLaunch s.descWindow
      s.unitRuns l.unit = some rs → s.launchStatus l = 0 → s.readMem l.image l.imageLen = (img, bad, x) → digest img = l.digest →
      ((s.mine rs).map (·.2)).Nodup → ∃ t o, exec .launch s = .next t ∧ t.brd.op = some o ∧
        o.kind = 3 ∧ o.launch = some l ∧ o.waiting = s.others rs ∧ o.status = 0 ∧
        (∀ k, k ∉ (s.mine rs).map (·.2) → t.kite k = x.kite k) ∧
        ∀ k, k ∈ (s.mine rs).map (·.2) → t.kite k = { x.kite k with pmem := (t.kite k).pmem, chainMem := (t.kite k).chainMem } ∧
          (∀ i, i < l.nbun → (t.kite k).bundle k i = leNat ((img.drop (32 * i)).take 32)) ∧
          ∀ i, l.nbun ≤ i → (t.kite k).bundle k i = (x.kite k).bundle k i) ∧
    (s.glbUp = true → s.brd.op = none → launchBad s.descWindow = true → exec .launch s = .next (unitEnd s 1)) ∧
    (s.glbUp = true → s.brd.op = none → launchBad s.descWindow = false →
      let l := parseLaunch s.descWindow
      (s.unitRuns l.unit = none → exec .launch s = .next (unitEnd s 2)) ∧
      (∀ rs, s.unitRuns l.unit = some rs → s.launchStatus l ≠ 0 → s.others rs = [] → exec .launch s = .next (unitEnd s (s.launchStatus l)))) ∧
    (∀ o l rs, s.brd.op = some o → o.launch = some l → o.kind = 3 → o.waiting = [] → o.status = 0 → s.unitRuns l.unit = some rs →
      ((s.mine rs).map (·.2)).Nodup → ∃ t, exec .launchGo s = .next t ∧ t.brd.status = 0 ∧ t.brd.op = none ∧
        (∀ k, k ∉ (s.mine rs).map (·.2) → t.kite k = s.kite k) ∧
        (∀ n k, (n, k) ∈ s.mine rs → (t.kite k).st = .issuing ∧ (t.kite k).pc = l.entry ∧ (t.kite k).frames = [] ∧ (t.kite k).hold = none ∧
          (∀ r, (t.kite k).sreg r = if r = 0 then BitVec.ofNat 64 n else if r = 1 then BitVec.ofNat 64 (runsN rs)
            else if r = 2 then BitVec.ofNat 64 (brunsN (s.unitBruns l.unit)) else if r = 3 then BitVec.ofNat 64 l.arg else 0) ∧
          (∀ r, (t.kite k).freg r = false) ∧ (t.kite k).unit = l.unit ∧ (t.kite k).mcfg = {} ∧ (∀ x ∈ (t.kite k).reels, x.2.en = false) ∧
          (t.kite k).pmem = (s.kite k).pmem ∧ (t.kite k).rows = (s.kite k).rows) ∧
        (∀ r ∈ s.unitBruns l.unit, ∀ b, s.isMe r.modId = true → r.first ≤ b → b < r.first + r.len → l.zb = true → t.bcount b = 0) ∧
        (l.zb = false → t.brd.counts = s.brd.counts))

/-- R218–R220, R223, R443: in a fabric cycle that has begun a bridle takes the host's last write of COUNT, then every signal that has
arrived, modulo 2³², and then judges its registered waits: those that are met leave with a notice to their kite, and the others
stay. A wait expires after the last fabric cycle it is judged in. A write of COUNT is ignored while a kite of a unit that owns the
bridle runs, and one of ADD is a signal. -/
def Obligations.BridleCycle : Prop :=
  ∀ s : State,
    (∀ (b : BitVec 16) (fab : Nat), fab ≤ s.fabBy s.cyc → ∃ t, exec (.bridleEvaluation b fab) s = .next t ∧
      t = { s with brd := { s.brd with arrivals := t.brd.arrivals, counts := t.brd.counts, waits := t.brd.waits, notices := t.brd.notices } } ∧
      (∀ a, a ∈ t.brd.arrivals ↔ a ∈ s.brd.arrivals ∧ ¬(a.bridle = b.toNat ∧ a.fab ≤ fab)) ∧
      (∀ c, c ≠ b.toNat → t.bcount c = s.bcount c) ∧
      ((∀ a ∈ s.brd.arrivals, a.bridle = b.toNat → a.fab ≤ fab → a.count = false) → t.bcount b.toNat =
        (s.bcount b.toNat + ((s.brd.arrivals.filter fun a => a.bridle == b.toNat && decide (a.fab ≤ fab)).map (·.amt)).sum) % 2 ^ 32) ∧
      (∀ v, s.brd.arrivals = [⟨b.toNat, fab, v, true⟩] → t.bcount b.toNat = v % 2 ^ 32) ∧
      ∀ w ∈ s.brd.waits, w.bridle = b.toNat → w.from_ ≤ fab → (∀ e, w.expiry = some e → w.from_ ≤ s.fabBy e) →
        ((t.bcount b.toNat + 2 ^ 32 - w.theta % 2 ^ 32) % 2 ^ 32 < 2 ^ 31 → w ∉ t.brd.waits ∧
          ∃ n ∈ t.brd.notices, n.kite = w.kite ∧ n.bridle = b.toNat) ∧
        (2 ^ 31 ≤ (t.bcount b.toNat + 2 ^ 32 - w.theta % 2 ^ 32) % 2 ^ 32 → w ∈ t.brd.waits)) ∧
    (∀ (b : BitVec 16) (k : Fin 256) (fab : Nat), fab ≤ s.fabBy s.cyc → ∃ ws, exec (.waitExpiry b k fab) s =
      .next { s with brd := { s.brd with waits := ws } } ∧ ∀ w, w ∈ ws ↔ w ∈ s.brd.waits ∧
        ¬(w.bridle = b.toNat ∧ w.kite = k ∧ w.from_ ≤ fab ∧ ∃ e, w.expiry = some e ∧ s.fabBy e ≤ fab)) ∧
    (∀ (b : BitVec 16) (v : BitVec 32), s.barUp = true → s.bridleOwned b.toNat = true →
      exec (.brdCountWrite b v) s = .next (s.ignoredReg uKite)) ∧
    (∀ (b : BitVec 16) (v : BitVec 32), s.barUp = true → ∃ fab, s.fabBy s.cyc < fab ∧
      (s.bridleOwned b.toNat = false → exec (.brdCountWrite b v) s =
        .next { s with brd := { s.brd with arrivals := s.brd.arrivals ++ [⟨b.toNat, fab, v.toNat, true⟩] } }) ∧
      (v ≠ 0 → exec (.brdAdd b v) s =
        .next { s with brd := { s.brd with arrivals := s.brd.arrivals ++ [⟨b.toNat, fab, v.toNat, false⟩] } }))

/-! ### Memory and the page manager -/

/-- R237–R239, R447, R448, Tables 11.6 and 11.7: a command of the page manager that nothing stands against queues its edit, the host's,
behind the others, with status 0; else it queues nothing and its status says why. A DROPSPACE counts as the leaves and table frames of
its space as they stand when it is queued. -/
def Obligations.PageCommandsQueueEdits : Prop :=
  ∀ s : State, s.barUp = true →
    let p := s.pgm
    let queues := fun (c : Instr) (e : EditKind) => exec c s = .next { s with pgm := { p with edits := p.edits ++ [⟨e, true⟩], status := 0 } }
    let ends := fun (c : Instr) (n : Nat) => exec c s = .next { s with pgm := { p with status := n } }
    let full := fun (w : Nat) => 65536 < p.qlen + w ∨ 1024 < p.claimed + w
    let off := p.arg1 - spaceBase p.argSpace
    let covered := spaceBase p.argSpace ≤ p.arg1 ∧ ∃ l ∈ p.future p.argSpace, l.off ≤ off ∧ off < l.off + 2 ^ l.size
    let overlap := ∃ l ∈ p.future p.argSpace, l.off < off + 2 ^ p.argSize ∧ off < l.off + 2 ^ l.size
    let fits := p.argSpace < 12288 ∧ p.arg1 % 2 ^ p.argSize = 0 ∧ (vaSpace p.arg1).map (·.1) = some p.argSpace
    let tables := p.tabsOwed p.argSpace + p.newTabs p.argSpace (p.future p.argSpace ++ [⟨off, p.argSize, false, p.arg2⟩]) ≤ ivSum p.pool
    (p.sound (pftBlock p.arg2) = true →
    (∀ f, p.frameAt p.arg2 = some f → inTiers p.arg2 = true → f.cls = p.argSize → fits →
      (overlap → ends .map 4) ∧ (¬overlap → f.st ≠ .alloc → ends .map 8) ∧
      (¬overlap → f.st = .alloc → bit p.arg0 28 = false → 16777215 ≤ p.futureRef p.arg2 → ends .map 6) ∧
      (¬overlap → f.st = .alloc → (bit p.arg0 28 = true ∨ p.futureRef p.arg2 < 16777215) → ¬tables →
        exec .map s = .next { s with pgm := { p with status := 2, nNoframe := min (p.nNoframe + 1) 65535 } }) ∧
      (¬overlap → f.st = .alloc → (bit p.arg0 28 = true ∨ p.futureRef p.arg2 < 16777215) → tables → full 1 → ends .map 7) ∧
      (¬overlap → f.st = .alloc → (bit p.arg0 28 = true ∨ p.futureRef p.arg2 < 16777215) → tables → ¬full 1 →
        queues .map (.map p.argSpace p.arg1 p.arg2 p.argSize (bit p.arg0 27) (bit p.arg0 28)))) ∧
    (12288 ≤ p.argSpace ∨ p.arg1 % 2 ^ p.argSize ≠ 0 ∨ p.arg2 % 4096 ≠ 0 ∨ inTiers p.arg2 = false → ends .map 1) ∧
    (∀ f, p.frameAt p.arg2 = some f → f.st = .alloc → 0 < p.futureRef p.arg2 →
      (¬full 1 → queues .decref (.dec p.arg2)) ∧ (full 1 → ends .decref 7) ∧ (16777215 ≤ p.futureRef p.arg2 → ends .incref 6) ∧
      (p.futureRef p.arg2 < 16777215 → (¬full 1 → queues .incref (.inc p.arg2)) ∧ (full 1 → ends .incref 7))) ∧
    ((p.frameAt p.arg2 = none ∨ ∃ f, p.frameAt p.arg2 = some f ∧ (f.st ≠ .alloc ∨ p.futureRef p.arg2 ≤ 0)) →
      ends .incref 8 ∧ ends .decref 8)) ∧
    (covered → (¬full 1 → queues .unmap (.unmap p.argSpace p.arg1)) ∧ (full 1 → ends .unmap 7)) ∧ (¬covered → ends .unmap 3) ∧
    (p.argSpace < 12288 → p.spaceLives p.argSpace = true →
      (p.qlen + p.dropWeight p.argSpace ≤ 65536 → queues .dropspace (.drop p.argSpace (p.dropWeight p.argSpace))) ∧
      (65536 < p.qlen + p.dropWeight p.argSpace → ends .dropspace 7)) ∧
    (12288 ≤ p.argSpace ∨ p.spaceLives p.argSpace = false → ends .dropspace 1) ∧
    (p.edits = [] → p.spaceLives p.argSpace = (mapGet p.spaces p.argSpace).isSome ∧
      ∀ sp, mapGet p.spaces p.argSpace = some sp → p.dropWeight p.argSpace = sp.leaves.length + 1 + sp.tabs.length)

/-- R237, R238, R242, R278: ALLOC takes the lowest free frame of its class, or of the nearest larger one, out of the free list of its
tier, with count 1; where there is none it ends with NO_FRAME, which is counted. MIGRATE of a granule whose frame has count 1 takes
a frame of the tier it names and begins its copy, of 10 µs and one ns for each 64 bytes of background time (the model's reading,
assumption 88); when it ends, the granule's bytes stand in the
new frame. -/
def Obligations.PageAllocationAndMigration : Prop :=
  ∀ s : State,
    let p := s.pgm
    let c := p.argClass
    let list := fun (q : Pgm) => if p.argTier then q.freeL else q.freeH
    (s.barUp = true → c < 12 ∨ 30 < c → exec .alloc s = .next { s with pgm := { p with status := 1 } }) ∧
    (s.barUp = true → 12 ≤ c → c ≤ 30 → pickFree (list p) c = none →
      exec .alloc s = .next { s with pgm := { p with status := 2, nNoframe := min (p.nNoframe + 1) 65535 } }) ∧
    (∀ b, s.barUp = true → 12 ≤ c → c ≤ 30 → pickFree (list p) c = some b → p.sound (pftBlock (b * 4096)) = true →
      ∃ t, exec .alloc s = .next t ∧ t = { s with pgm := { p with
        freeH := t.pgm.freeH, freeL := t.pgm.freeL, marks := t.pgm.marks, frames := mapSet p.frames b
          { st := .alloc, cls := c, refcnt := 1, retire := (p.marked b (2 ^ (c - 12))).1, cecnt := (p.marked b (2 ^ (c - 12))).2 }
        arg2 := b * 4096, status := 0 } } ∧
      (∀ x, ivHas (list t.pgm) x = (ivHas (list p) x && !decide (b ≤ x ∧ x < b + 2 ^ (c - 12)))) ∧
      (if p.argTier then t.pgm.freeH = p.freeH else t.pgm.freeL = p.freeL)) ∧
    (∀ l f a q, s.barUp = true → p.futureLeaf p.argSpace p.arg1 = some l → p.frameAt l.frame = some f → f.st = .alloc →
      p.sound (pftBlock l.frame) = true → p.futureRef l.frame = 1 → p.qlen + 1 ≤ 65536 → p.claimed + 1 ≤ 1024 →
      p.alloc p.argTier f.cls = some (a, q) →
      exec .migrate s = .next { s with pgm := { q with status := 0, migs := p.migs ++
        [⟨p.argSpace, spaceBase p.argSpace + l.off, l.frame, a, f.cls, 30 * (10000 + (2 ^ f.cls + 63) / 64), false, false, true⟩] } }) ∧
    (∀ (m : Mig) (fr : BitVec 48), p.migs = [m] → m.old = fr.toNat → m.copied = false → m.left = 0 → memWf p.mem = true →
      (∀ b ∈ blocksOf m.old (2 ^ m.cls), p.sound b = true) →
      m.old + 2 ^ m.cls ≤ m.new_ ∨ m.new_ + 2 ^ m.cls ≤ m.old → ∃ t, exec (.migrateCopyDone fr) s = .next t ∧
        t = { s with pgm := { p with mem := t.pgm.mem, poisoned := t.pgm.poisoned, broken := t.pgm.broken, weak := t.pgm.weak
                                     undef := t.pgm.undef, rewrite := t.pgm.rewrite, migs := [{ m with copied := true }] } } ∧
        (∀ i, i < 2 ^ m.cls → memRead t.pgm.mem (m.new_ + i) = p.byte (m.old + i)) ∧
        ∀ a, a < m.new_ ∨ m.new_ + 2 ^ m.cls ≤ a → memRead t.pgm.mem a = memRead p.mem a)

/-- R240, R241, R285: a step boundary that is due (its instant is assumption 29's, the model's choice) is made: it is counted, the epoch advances by one, and the step that ended is over.
An epoch boundary with one queued edit applies it: an INCREF and a DECREF change the frame's count, the last reference sends it to
quarantine under the epoch that ends, and an UNMAP takes the leaf out and its count down. When an epoch retires, the quarantined
frames of epochs before it leave quarantine, those marked RETIRE for good. -/
def Obligations.EpochBoundary : Prop :=
  ∀ s : State,
    let p := s.pgm
    let quiet := p.migs = [] ∧ p.dropping = [] ∧ p.backlog = [] ∧ p.pxNew = [] ∧ p.nAbandon < 65536 ∧ ∀ a, p.sound (pftBlock a) = true
    let ended := fun (fr : Nat) (f : Frame4) (q : Pgm) => q = { p with edits := [], tlb := [], frames := mapSet p.frames (fr / 4096) f, epoch := (p.epoch + 1) % 2 ^ 64 }
    (s.boundaryDue = true → ∃ t, exec .stepBoundary s = .next t ∧ t.sch.bnd = s.sch.bnd + 1 ∧ t.pgm.epoch = (p.epoch + 1) % 2 ^ 64 ∧
      ∀ c, s.sch.cur = some c → c.tick = s.sch.bnd → t.sch.cur = none) ∧
    (∀ fr f host, quiet → p.edits = [⟨.inc fr, host⟩] → mapGet p.frames (fr / 4096) = some f →
      ended fr { f with refcnt := f.refcnt + 1 } (epochBoundary s).pgm) ∧
    (∀ fr f host, quiet → p.edits = [⟨.dec fr, host⟩] → mapGet p.frames (fr / 4096) = some f → 1 < f.refcnt →
      ended fr { f with refcnt := f.refcnt - 1 } (epochBoundary s).pgm) ∧
    (∀ fr f host, quiet → p.edits = [⟨.dec fr, host⟩] → mapGet p.frames (fr / 4096) = some f → f.refcnt = 1 →
      ended fr { f with refcnt := 0, st := .quar, qepoch := p.epoch } (epochBoundary s).pgm) ∧
    (∀ n va l sp f host, quiet → p.edits = [⟨.unmap n va, host⟩] → mapGet p.spaces n = some sp → sp.leafAt (va - spaceBase n) = some l →
      mapGet p.frames (l.frame / 4096) = some f → 1 < f.refcnt → (epochBoundary s).pgm = { p with
        edits := [], tlb := [], epoch := (p.epoch + 1) % 2 ^ 64, frames := mapSet p.frames (l.frame / 4096) { f with refcnt := f.refcnt - 1 }
        spaces := mapSet p.spaces n { sp with leaves := sp.leaves.filter fun x => x.off != l.off } }) ∧
    (p.oldest < p.oldestNow → mapWf p.frames = true → ∃ t, exec .epochRetire s = .next t ∧ t.pgm.oldest = p.oldestNow ∧
      ∀ b f, mapGet p.frames b = some f →
        (f.st = .quar → f.qepoch < p.oldestNow → f.retire = false → mapGet t.pgm.frames b = none) ∧
        (f.st = .quar → f.qepoch < p.oldestNow → f.retire = true → mapGet t.pgm.frames b = some { f with st := .retired }) ∧
        (f.st ≠ .quar ∨ p.oldestNow ≤ f.qepoch → mapGet t.pgm.frames b = some f)) ∧
    (p.oldestNow ≤ p.oldest → exec .epochRetire s = .next s)

/-- R271, R274, R275, Table 12.6: REMOVE takes out the entry of the context key in the window, and FLUSH every entry of its model digest;
the frames of each are released by DECREFs of a later boundary. An INSERT that its checks pass waits for the next boundary; one
with a field out of range, a frame that is not in ALLOC with count 1, a page digest that does not hold or an entry before it with as
many valid positions ends with its status. -/
def Obligations.PrefixIndexCommands : Prop :=
  ∀ s : State, s.barUp = true →
    let p := s.pgm
    let key := leNat (p.descBytes 0 32)
    let le := fun o n => leNat (p.descBytes o n)
    (mapGet p.index key = none → exec .remove s = .next { s with pgm := { p with pxStatus := 10 } }) ∧
    (∀ e, mapGet p.index key = some e → exec .remove s = .next { s with pgm := { p with
      index := mapDel p.index key, backlog := p.backlog ++ (e.frames.take e.nl).map fun f => ⟨.dec f, false⟩, pxStatus := 0 } }) ∧
    (mapWf p.index = true → ∃ t, exec .flush s = .next t ∧ t = { s with pgm := { p with index := t.pgm.index, backlog := t.pgm.backlog, pxStatus := 0 } } ∧
      (∀ k, mapGet t.pgm.index k = (mapGet p.index k).filter fun e => e.mdig != le 0x40 32) ∧
      ∃ es, t.pgm.backlog = p.backlog ++ es ∧ ∀ x, x ∈ es ↔ ∃ k e f, mapGet p.index k = some e ∧ e.mdig = le 0x40 32 ∧
        f ∈ e.frames.take e.nl ∧ x = ⟨.dec f, false⟩) ∧
    ((∀ a, p.sound (pftBlock a) = true) →
      (4 ≤ le 0x67 1 ∨ le 0x64 2 = 0 ∨ 2048 < le 0x64 2 ∨ le 0x66 1 = 0 ∨ 128 < le 0x66 1 ∨ 65536 ≤ le 0x60 4 →
        exec .insert s = .next { s with pgm := { p with pxStatus := 1 } }) ∧
      let e := p.descEntry
      e.pkey = le 0x20 32 ∧ e.mdig = le 0x40 32 ∧ e.j = le 0x60 4 ∧ e.nv = le 0x64 2 ∧ e.nl = le 0x66 1 ∧ e.imported = true ∧
      e.hit = p.epoch ∧ e.frames = (List.range (le 0x66 1)).map (fun l => le (0x80 + 8 * l) 8) ∧
      e.tokens = (List.range (le 0x64 2)).map (fun i => le (0x1480 + 4 * i) 4) ∧
      (s.insertBad e = true → exec .insert s = .next { s with pgm := { p with pxStatus := 1 } }) ∧
      let idle := ∀ f ∈ e.frames, ∃ x, p.frameAt f = some x ∧ x.st = .alloc ∧ x.refcnt = 1
      (s.insertBad e = false → ¬idle → exec .insert s = .next { s with pgm := { p with pxStatus := 8 } }) ∧
      ∀ (ok : Bool) (x : State), s.entryHolds e = (ok, x) → s.insertBad e = false → idle →
        (ok = false → exec .insert s = .next { x with pgm := { x.pgm with pxStatus := 9 } }) ∧
        (ok = true → ∀ o, x.pgm.entryOf key = some o → e.nv ≤ o.nv →
          exec .insert s = .next { x with pgm := { x.pgm with pxStatus := 11 } }) ∧
        (ok = true → (∀ o, x.pgm.entryOf key = some o → o.nv < e.nv) → ∃ t pl, exec .insert s = .next t ∧
          t = { x with pgm := { x.pgm with
            index := t.pgm.index, backlog := t.pgm.backlog, pxRemoved := t.pgm.pxRemoved, pxStatus := 0
            pxNew := mapSet x.pgm.pxNew key { e with place := pl } } } ∧
          (mapGet x.pgm.pxNew key = none → (mapGet x.pgm.index key).isSome = true ∨ x.pgm.entries < 262144 →
            t.pgm.index = x.pgm.index ∧ t.pgm.backlog = x.pgm.backlog ∧ t.pgm.pxRemoved = x.pgm.pxRemoved)))

/-- R246, R308, Table 13.8: a background slot that a tick planned, and with no step running, is used once: the calibration of an HBM
stack or a loft controller changes nothing else; a scrub corrects and counts every block with a correctable error, poisons and
counts those with an uncorrectable one, and moves its tier's position on; wear levelling begins a migration of its loft frame. A
slot that is not open changes nothing. -/
def Obligations.BackgroundSlots : Prop :=
  ∀ s : State,
    let used := fun (x : State) (n : Nat) => { x with sch := { x.sch with bgNow := x.sch.bgNow.filter fun y => y != n } }
    let open_ := fun (n : Nat) => n ∈ s.sch.bgNow ∧ s.sch.cur = none
    (∀ h : Fin 8, (open_ h.val → exec (.hbmPhyCalibration h) s = .next (used s h.val)) ∧ (¬open_ h.val → exec (.hbmPhyCalibration h) s = .next s)) ∧
    (∀ c : Fin 12, (open_ (16 + c.val) → exec (.loftCalibration c) s = .next (used s (16 + c.val))) ∧
      (¬open_ (16 + c.val) → exec (.loftCalibration c) s = .next s)) ∧
    (∀ (x : Fin 2) (mib : Nat), ¬open_ (48 + x.val) → exec (.patrolScrub x mib) s = .next s) ∧
    (∀ (mib b : Nat), open_ 48 → s.pgm.scrubPos.1 + mib < 589824 → s.pgm.broken = [] → s.pgm.poisoned = [] → s.pgm.onDie = [] → s.pgm.linkBad = [] → s.pgm.weak = [b] → 
      s.pgm.scrubPos.1 * 16384 ≤ b → b < (s.pgm.scrubPos.1 + mib) * 16384 → s.pgm.frameOf (b / 64) = none → ∃ t, exec (.patrolScrub 0 mib) s = .next t ∧
        t.sch.bgNow = s.sch.bgNow.filter (fun y => y != 48) ∧ t.pgm = { s.pgm with
          weak := [], rewrite := [], scrubPos := (s.pgm.scrubPos.1 + mib, s.pgm.scrubPos.2)
          marks := mapUpd s.pgm.marks (b / 64) (false, 0) fun x => (x.1 || decide (8 ≤ x.2 + 1), min 31 (x.2 + 1))
          eccH := mapUpd s.pgm.eccH (b / 64 % 8) (0, 0) fun (c, u) => (min (c + 1) 4294967295, u) }) ∧
    (∀ (mib b : Nat), open_ 48 → s.pgm.scrubPos.1 + mib < 589824 → s.pgm.weak = [] → s.pgm.poisoned = [] → s.pgm.onDie = [] → s.pgm.linkBad = [] → s.pgm.broken = [b] →
      s.pgm.scrubPos.1 * 16384 ≤ b → b < (s.pgm.scrubPos.1 + mib) * 16384 → s.pgm.frameOf (b / 64) = none → ∃ t, exec (.patrolScrub 0 mib) s = .next t ∧
        t.pgm = { s.pgm with
          broken := [], poisoned := [b], rewrite := [], marks := mapUpd s.pgm.marks (b / 64) (false, 0) fun x => (true, x.2), scrubPos := (s.pgm.scrubPos.1 + mib, s.pgm.scrubPos.2)
          eccH := mapUpd s.pgm.eccH (b / 64 % 8) (0, 0) fun (c, u) => (c, min (u + 1) 65535) }) ∧
    (∀ fr : BitVec 48, ¬open_ 50 → exec (.loftWearLevelling fr) s = .next s) ∧
    (∀ (fr : BitVec 48) (n va : Nat) (l : Leaf) (f : Frame4) (a : Nat) (q : Pgm), open_ 50 → isLoft fr.toNat = true →
      s.pgm.leafOf fr.toNat = some (n, va) → s.pgm.futureLeaf n va = some l →
      l.frame = fr.toNat → s.pgm.frameAt fr.toNat = some f → f.st = .alloc → s.pgm.futureRef fr.toNat = 1 → s.pgm.qlen + 1 ≤ 65536 →
      s.pgm.alloc true f.cls = some (a, q) → ∃ t, exec (.loftWearLevelling fr) s = .next t ∧ t.sch.bgNow = s.sch.bgNow.filter (fun y => y != 50) ∧
        t.pgm = { q with migs := s.pgm.migs ++
          [⟨n, spaceBase n + l.off, fr.toNat, a, f.cls, 30 * (10000 + (2 ^ f.cls + 63) / 64), false, false, false⟩] })

/-! ### The step scheduler -/

/-- R280, R159, R285, R304: RUN = 1 with the scheduler stopped starts ticks from T0, the next multiple of PERIOD at least 1 ms ahead, with an
empty plan. A tick that starts with a plan of its own, and with its train launched, runs its step, whose go is due 40 ns after the tick's start (400,040 where the
model changes); one that is lost is counted and runs nothing. The go releases every kite of the serving train that waits at TICKWAIT
in one cycle, and no other. A scheduler with RUN = 0 and nothing left stops at a tick start. -/
def Obligations.TicksStartAndGo : Prop :=
  (∀ (s : State) (run : Bool),
     (s.barUp = false → exec (.runWrite run) s = .next s) ∧
     (s.barUp = true → run = false ∨ s.sch.stopped = false → exec (.runWrite run) s = .next { s with sch := { s.sch with run := run } }) ∧
     (s.barUp = true → s.sch.stopped = true → 0 < s.sch.period → ∃ t, exec (.runWrite true) s = .next t ∧
       t.sch.run = true ∧ t.sch.stopped = false ∧ t.sch.t0Set = true ∧ t.sch.t0 % (s.sch.period * 1000) = 0 ∧
       s.pwr.tb + 1000000 ≤ t.sch.t0 ∧ t.sch.t0 < s.pwr.tb + 1000000 + s.sch.period * 1000 ∧ t.sch.period = s.sch.period ∧
       t.sch.plan = [] ∧ t.sch.cur = none ∧ t.sch.nextTick = 0 ∧ t.sch.lastFreeze = none ∧ t.sch.bnd = 0 ∧ t.kites = s.kites ∧ t.pgm = s.pgm)) ∧
  (∀ s : State, s.sch.following = false →
     (∀ j, s.tickDue j = false → exec (.tickStart j) s = .next s) ∧
     (∀ j, s.tickDue j = true → s.comesToStop j = true → ∃ t, exec (.tickStart j) s = .next t ∧ t.sch = { s.sch with stopped := true, plan := [] }) ∧
     (∀ j, s.tickDue j = true → s.comesToStop j = false → s.tickLost j = true → ∃ t, exec (.tickStart j) s = .next t ∧
       t.sch.nextTick = j + 1 ∧ t.sch.nLost = min (s.sch.nLost + 1) 65535 ∧ t.sch.cur = s.sch.cur ∧ t.kites = s.kites ∧ t.pgm = s.pgm) ∧
     (∀ j p, s.tickDue j = true → s.comesToStop j = false → s.tickLost j = false → mapGet s.sch.plan j = some p → p.chunks ≠ [] →
       s.trainUp = false → s.isSwitch s.sch.plan j p.model = false → ∃ t, exec (.tickStart j) s = .next t ∧
       t.sch.nextTick = j + 1 ∧ t.sch.nLost = min (s.sch.nLost + 1) 65535 ∧ t.sch.cur = s.sch.cur ∧ t.kites = s.kites ∧ t.pgm = s.pgm) ∧
     (∀ j p, s.tickDue j = true → s.comesToStop j = false → s.tickLost j = false → mapGet s.sch.plan j = some p → p.chunks ≠ [] →
       s.trainUp = true → s.isSwitch s.sch.plan j p.model = false → ∃ t, exec (.tickStart j) s = .next t ∧ t.sch.nextTick = j + 1 ∧
       t.sch.cur = some ⟨j, s.tickStart j + 40, none, p.l, p.model, p.chunks, none, false⟩ ∧ t.kites = s.kites ∧ t.pgm = s.pgm) ∧
     (∀ j p m, s.tickDue j = true → s.comesToStop j = false → s.tickLost j = false → mapGet s.sch.plan j = some p → p.chunks ≠ [] →
       s.model p.model = some m → m.image + m.prog + 32 * m.nbun + 512 * m.nch ≤ hbmEnd → s.isSwitch s.sch.plan j p.model = true → ∃ t, exec (.tickStart j) s = .next t ∧ t.sch.nextTick = j + 1 ∧
       t.sch.cur = some ⟨j, s.tickStart j + 400040, none, p.l, p.model, p.chunks, none, false⟩) ∧
     (∀ c, s.sch.cur = some c → c.go = none → c.goAt ≤ s.pwr.tb → s.copiesOwed c.tick = false → s.ltBad c.tick = false → ∃ t, exec .stepGo s = .next t ∧
       t.sch.cur = some { c with go := some s.cyc } ∧ t.brd = s.brd ∧
       ((∀ b, s.pgm.unreadable b = false) → t.pgm = { s.pgm with pins := t.pgm.pins, tlb := t.pgm.tlb }) ∧
       ∀ k, t.kite k = if k ∈ s.serveKites ∧ (s.kite k).st = .tickwait then
         { s.kite k with st := .issuing, goCycle := s.cyc, goLag := (s.kite k).lag, stepDone := false, stepTh := false } else s.kite k))

/-- R286, R298, R299, R305: the freeze of a tick is made once, in order, and leaves its plan frozen at its cost; a step that has not ended
with its window is cut and counted, its kites that have not reached STEPEND are halted, and the train is launched no longer; an
export without its manifest by the end of the window after its commit tick faults its request with status 0x08. R267, R277, R278:
the first copy of the page copy path, at its end, leaves the path; a copy on write of a live request is counted in PIDX.COW, and a
compaction in its own counter. -/
def Obligations.FreezeCutAndCopies : Prop :=
  (∀ s : State,
     (∀ j, s.freezeDue j = false → exec (.planFreeze j) s = .next s) ∧
     (∀ j, s.freezeDue j = true → writable (s.descAt j) = true → ∃ t, exec (.planFreeze j) s = .next t ∧ t.sch.lastFreeze = some j ∧ t.kites = s.kites ∧
       ∀ p, mapGet t.sch.plan j = some p → p.frozen = true ∧ p.l = t.costOf p.model (t.contsOf p.chunks)) ∧
     (∀ j c, s.sch.cur = some c → s.cutDue j = true → s.sch.following = false → s.members = [] → ∃ t, exec (.stepCut j) s = .next t ∧
       t.sch.cur = some { c with ended := some s.pwr.tb, cut := true } ∧ t.sch.nCut = min (s.sch.nCut + 1) 65535 ∧
       t.brd = { s.brd with launches := mapDel s.brd.launches s.trainUnit } ∧
       ∀ k, t.kite k = if k ∈ s.serveKites ∧ (s.kite k).stopped = false ∧ (s.kite k).reqEnd = false ∧
           ¬((s.kite k).stepDone = true ∧ c.go = some (s.kite k).goCycle) then
         { s.kite k with reqEnd := true, haltAt := s.cyc + 1 } else s.kite k) ∧
     (∀ j, s.cutDue j = false → exec (.stepCut j) s = .next s) ∧
     (∀ n : Fin 8192, (s.req n.val).live = true → (s.req n.val).posted = false → s.tickStart ((s.req n.val).commit + 1) ≤ s.pwr.tb →
       (s.req n.val).fault = none → ∃ t, exec (.exportDeadline n) s = .next t ∧ (t.req n.val).fault = some 8 ∧
         t.kites = s.kites ∧ ∀ i, i ≠ n.val → t.req i = s.req i) ∧
     (∀ n : Fin 8192, (s.req n.val).live = false ∨ (s.req n.val).posted = true ∨ s.pwr.tb < s.tickStart ((s.req n.val).commit + 1) →
       exec (.exportDeadline n) s = .next s)) ∧
  (∀ (s : State) (c : Copy) (rest : List Copy), s.sch.copies = c :: rest →
     (s.pwr.tb < c.fin → exec .pageCopyDone s = .next s) ∧
     (c.fin ≤ s.pwr.tb → s.model (s.req c.slot).model = none ∨ (s.req c.slot).live = false →
       exec .pageCopyDone s = .next { s with sch := { s.sch with copies := rest } }) ∧
     (∀ m, c.fin ≤ s.pwr.tb → s.model (s.req c.slot).model = some m → (s.req c.slot).live = true → ∃ t, exec .pageCopyDone s = .next t ∧
       t.sch.copies = rest ∧ t.kites = s.kites ∧ (c.comp = false → t.pgm.cow = (s.pgm.cow + 1) % 2 ^ 32) ∧
       (c.comp = true → t.pgm.compact = (s.pgm.compact + 1) % 2 ^ 16)))


/-! ### Admission, models and variants -/

namespace Sys2Proof.Stated

/-- What every submission does first: its CID is outstanding in its queue, and a stamp is taken. -/
def submitted (s : State) (q : Nat) (e : Sqe) : State :=
  { s with
    free := s.free + 1
    hst := { s.hst with queues := mapSet s.hst.queues q { s.queue q with outst := (s.queue q).outst ++ [e.cid.toNat] } } }

/-- A queue takes a submission of a CID that is not outstanding (R368). -/
def takes (s : State) (q : Nat) (e : Sqe) : Prop :=
  s.barUp = true ∧ (s.queue q).en = true ∧ (s.queue q).draining = false ∧ e.cid.toNat ∉ (s.queue q).outst

/-- Reserved fields and flags of an entry other than a PREFILL are zero. -/
def plain (e : Sqe) : Prop := e.rsv = 0 ∧ e.rsv2 = 0 ∧ e.flags = 0

end Sys2Proof.Stated

/-- R282, R292, R296, R297: a PREFILL is accepted or refused. One that passes the checks of Table 16.6, finds memory, and can be placed so
that it meets its deadline takes a free slot and is counted; a refused one leaves every request as it was. A round decides every
submission whose doorbell came before its start. -/
def Obligations.Admission : Prop :=
  ∀ s : State,
    (∀ (q : Fin 64) (e : Sqe), s.barUp = true → (s.queue q.val).en = true → (s.queue q.val).draining = false → ∃ t, exec (.prefill q e) s = .next t ∧
      t.kites = s.kites ∧
      ((t.sch.nAcc = (s.sch.nAcc + 1) % 2 ^ 32 ∧ t.sch.nRef = s.sch.nRef ∧ ∃ n r, mapGet s.sch.reqs n = none ∧ t.sch.reqs = mapSet s.sch.reqs n r ∧
          r.held = true ∧ r.cid = e.cid.toNat ∧ r.sq = q.val ∧ r.deadline = e.deadline.toNat) ∨
       (t.sch.nRef = (s.sch.nRef + 1) % 2 ^ 32 ∧ t.sch.nAcc = s.sch.nAcc ∧ t.sch.reqs = s.sch.reqs ∧ t.sch.plan = s.sch.plan))) ∧
    (∀ (q : Fin 64) (e : Sqe) (m : Model) (chs : List (Nat × Nat × Nat)) (lim : Bool) (n : Nat), takes s q.val e → e.opc = 1 →
      let x := submitted s q.val e
      let tokens := x.tokensOf e
      let len := x.varLen e + tokens.length
      let fp := x.findPrefix e m tokens (if sqeFlag e 1 then len - (x.parentsOf e).length else len - 1)
      let r := x.newReq q.val s.stamp e m fp tokens
      let cur := s.tickOf s.pwr.tb
      x.prefillCheck e false = 0 → s.sch.run = true → (s.sch.subs.filter fun y => y.e.opc == 1 && !y.full).length < 4096 →
      s.model e.model.toNat = some m →
      m.needs r + (s.sch.reqs.map (·.2.reserve)).foldl (· + ·) 0 ≤ s.pgm.free false →
      x.roomFor (fp.2.1.length * m.nl) = true →
      x.place r s.sch.plan (x.earliest s.pwr.tb) (cur + 511) (s.pwr.tb + 500000) none = (some chs, lim) → commitOf chs ≤ cur + 511 →
      s.tickStart (commitOf chs + 1) - 1 ≤ e.deadline.toNat → s.freeSlot = some n →
      ∃ t r', exec (.prefill q e) s = .next t ∧ t.sch.reqs = mapSet s.sch.reqs n r' ∧ r'.held = true ∧ r'.commit = commitOf chs ∧
        r'.cid = e.cid.toNat ∧ r'.sq = q.val ∧ t.sch.nAcc = (s.sch.nAcc + 1) % 2 ^ 32) ∧
    (∀ r, s.roundDue r = true → ∃ t, exec (.admissionRound r) s = .next t ∧ t.sch.round = r ∧
      ∀ b ∈ t.sch.subs, b ∈ s.sch.subs ∧ 250000 * r ≤ b.stamp) ∧
    (∀ r, s.roundDue r = false → exec (.admissionRound r) s = .next s)

/-- R300, R372: CANCEL of a live request marks it, with the time of the cancellation, for its next boundary; the commands for model slots
and variants (R269, R373, R444): LOAD_MODEL and INSTALL_VARIANT begin to fill an empty slot that nothing names, and UNLOAD_MODEL and
REMOVE_VARIANT empty a filled one and release its frames: a model's by DECREFs of the first boundaries with room for them (when, is
the model's reading, assumption 121), a variant's by a DROPSPACE of its space. -/
def Obligations.ModelAndVariantCommands : Prop :=
  ∀ (s : State) (q : Fin 64) (e : Sqe), takes s q.val e → plain e →
    (∀ n r, bits e.ptr.toNat 6 10 = 0 → bits e.ptr.toNat 32 32 = 0 →
      (∀ b ∈ s.sch.subs, ¬(b.q = bits e.ptr.toNat 0 6 ∧ b.e.cid.toNat = bits e.ptr.toNat 16 16 ∧ b.dup = false)) →
      (s.sch.reqs.find? fun x => x.2.sq == bits e.ptr.toNat 0 6 && x.2.cid == bits e.ptr.toNat 16 16 && x.2.live && !x.2.posted) = some (n, r) →
      exec (.cancel q e) s = .next { submitted s q.val e with sch := { s.sch with reqs := mapSet s.sch.reqs n { r with
        cancelAt := some (r.cancelAt.getD s.stamp), cancelBy := r.cancelBy ++ [(q.val, e.cid.toNat)] } } }) ∧
    (e.model.toNat ≤ 15 → s.model e.model.toNat = none → s.modelNamed e.model.toNat = false →
      exec (.loadModel q e) s = .next { submitted s q.val e with hst := { (submitted s q.val e).hst with
        models := mapSet s.hst.models e.model.toNat { image := e.ptr.toNat, bytes := e.ntok.toNat, digest := 0, sq := q.val, cid := e.cid.toNat, filling := true, usable := false, fin := s.now } } }) ∧
    (∀ x, e.model.toNat ≤ 15 → s.model e.model.toNat = some x → x.filling = false → s.modelNamed e.model.toNat = false →
      ∃ t, exec (.unloadModel q e) s = .next t ∧ t.hst.models = mapDel s.hst.models e.model.toNat ∧ t.sch = s.sch ∧ t.kites = s.kites ∧
        t.pgm = { s.pgm with backlog := s.pgm.backlog ++ x.weights.map fun f => ⟨.dec f, false⟩ }) ∧
    (∀ lv logp nl dig fs, e.auxlen.toNat = 0 ∨ s.hst.bad e.aux.toNat e.auxlen.toNat = false → s.variantDesc e = some (lv, logp, nl, dig, fs) →
      e.variant.toNat ≤ 4095 → mapGet s.hst.variants e.variant.toNat = none → s.variantNamed e.variant.toNat = false →
      exec (.installVariant q e) s = .next { submitted s q.val e with hst := { (submitted s q.val e).hst with
        variants := mapSet s.hst.variants e.variant.toNat ⟨lv, logp, nl, dig, fs, q.val, e.cid.toNat, true, false, e.model.toNat, s.now, none⟩ } }) ∧
    (∀ x, mapGet s.hst.variants e.variant.toNat = some x → x.filling = false → s.variantNamed e.variant.toNat = false →
      ∃ t, exec (.removeVariant q e) s = .next t ∧ t.hst.variants = mapDel s.hst.variants e.variant.toNat ∧ t.sch = s.sch ∧ t.kites = s.kites ∧
        t.pgm = { s.pgm with edits := s.pgm.edits ++ [⟨.drop (8192 + e.variant.toNat) (s.pgm.dropWeight (8192 + e.variant.toNat)), false⟩] })

/-- R268, R414, R444: a filling model slot whose image and weights pass every check holds its model from then on, and its weight frames are
referenced; one that fails, or lies outside HBM, is empty again. A filling variant with good pages adopts them by a MAP each, at
the addresses of its space, write-protected; one with a frame twice or that is not an idle one of the class of the rest, or whose
pages have another digest, is removed. -/
def Obligations.FillingEnds : Prop :=
  ∀ s : State,
    (∀ (m : Fin 16) (x : Model), s.model m.val = some x → x.filling = false ∨ s.now < x.fin → exec (.modelLoadDone m) s = .next s) ∧
    (∀ (m : Fin 16) (x : Model), s.model m.val = some x → x.filling = true → x.fin ≤ s.now → hbmEnd < x.image + x.bytes →
      ∃ t, exec (.modelLoadDone m) s = .next t ∧ t.hst.models = mapDel s.hst.models m.val ∧ t.pgm = s.pgm ∧ t.sch = s.sch) ∧
    (∀ (m : Fin 16) (x : Model) (img : Option (List Byte)) (u : State), s.model m.val = some x → x.filling = true → x.fin ≤ s.now →
      s.readGood x.image x.bytes = (img, u) → (∀ l, img = some l → u.parseModel x l = none) →
      ∃ t, exec (.modelLoadDone m) s = .next t ∧ t.hst.models = mapDel u.hst.models m.val ∧ t.pgm = u.pgm ∧ t.sch = u.sch) ∧
    (∀ (m : Fin 16) (x : Model) (img : List Byte) (u v : State) (y : Model) (ws : List (Nat × Nat × Nat)),
      s.model m.val = some x → x.filling = true → x.fin ≤ s.now → s.readGood x.image x.bytes = (some img, u) → u.parseModel x img = some (y, ws) →
      u.checkWeights ws = (none, v) → ∃ t, exec (.modelLoadDone m) s = .next t ∧ t.hst.models = mapDel v.hst.models m.val ∧ t.pgm = v.pgm ∧ t.sch = v.sch) ∧
    (∀ (m : Fin 16) (x : Model) (img : List Byte) (u v : State) (y : Model) (ws : List (Nat × Nat × Nat)) (fs : List Nat),
      s.model m.val = some x → x.filling = true → x.fin ≤ s.now → s.readGood x.image x.bytes = (some img, u) → u.parseModel x img = some (y, ws) →
      u.checkWeights ws = (some fs, v) → ∃ t, exec (.modelLoadDone m) s = .next t ∧
        t.hst.models = mapSet v.hst.models m.val { y with weights := fs } ∧
        t.pgm = { v.pgm with backlog := v.pgm.backlog ++ fs.map fun f => ⟨.inc f, false⟩ }) ∧
    (∀ (n : BitVec 12) (x : Variant), mapGet s.hst.variants n.toNat = some x → x.filling = true → x.fin ≤ s.now →
      s.roomFor x.frames.length = true →
      (∃ f ∈ x.frames, ∀ y, s.pgm.frameAt f = some y → y.st ≠ .alloc ∨ y.refcnt ≠ 1 ∨ ∃ g ∈ x.frames, ∀ z, s.pgm.frameAt g = some z → z.cls ≠ y.cls) ∨
        ¬x.frames.Nodup →
      ∃ t, exec (.variantInstallDone n) s = .next t ∧ t.hst.variants = mapDel s.hst.variants n.toNat ∧ t.pgm = s.pgm) ∧
    (∀ (n : BitVec 12) (x : Variant) (m : Model) (c : Nat) (l : List Byte) (u : State), mapGet s.hst.variants n.toNat = some x → x.filling = true →
      x.fin ≤ s.now → s.roomFor x.frames.length = true → x.frames ≠ [] → x.frames.Nodup →
      (∀ f ∈ x.frames, ∃ y, s.pgm.frameAt f = some y ∧ y.st = .alloc ∧ y.refcnt = 1 ∧ y.cls = c) →
      s.model x.model = some m → m.filling = false → s.variantRows x m = (some l, u) →
      (digest l ≠ x.digest → ∃ t, exec (.variantInstallDone n) s = .next t ∧ t.hst.variants = mapDel u.hst.variants n.toNat ∧ t.pgm = u.pgm) ∧
      (digest l = x.digest → ∃ t, exec (.variantInstallDone n) s = .next t ∧
        t.hst.variants = mapSet u.hst.variants n.toNat { x with filling := false, geo := (u.variantModel x).map fun m => (m.nkv, m.d, m.kvfmt) } ∧
        let per := (x.len + 2 ^ x.logp - 1) / 2 ^ x.logp
        t.pgm = { u.pgm with edits := u.pgm.edits ++ x.frames.zipIdx.map fun f =>
          ⟨.map (8192 + n.toNat) (2 ^ 53 + n.toNat * 2 ^ 32 + f.2 / per * 2 ^ 25 + f.2 % per * 2 ^ c) f.1 c true true, false⟩ })) ∧
    (∀ (n : BitVec 12) (x : Variant), mapGet s.hst.variants n.toNat = some x → x.filling = false ∨ s.now < x.fin →
      exec (.variantInstallDone n) s = .next s)

/-! ### The host interface -/

/-- R366, R367: QCFG of a queue that is off takes its fields, and with EN = 1 starts it empty, where they are in range and the module is
READY; of one that is on, EN = 0 begins to drain it, the present value changes nothing, and any other is ignored. EN becomes 0 when
nothing of the queue remains. A ring base is taken only while the queue is off. -/
def Obligations.QueueConfiguration : Prop :=
  ∀ (s : State) (q : Fin 64) (v : BitVec 64), s.glbUp = true →
    let x := s.queue q.val
    let f := fun a n => bits v.toNat a n
    let set := fun (y : Queue) => { s with hst := { s.hst with queues := mapSet s.hst.queues q.val y } }
    let y := { x with logd := f 1 4, vec := f 5 6, ccount := f 11 12, ctime := f 23 16 }
    let good := 1 ≤ f 1 4 ∧ f 1 4 ≤ 12 ∧ f 5 6 ≤ 62 ∧ 1 ≤ f 11 12 ∧ x.sqBase % 4096 = 0 ∧ x.cqBase % 4096 = 0
    (x.en = false → v.getLsbD 0 = false → exec (.qcfgWrite q v) s = .next (set y)) ∧
    (x.en = false → v.getLsbD 0 = true → s.ready = true → good → ∃ t, exec (.qcfgWrite q v) s = .next t ∧ t.hst.queues = mapSet s.hst.queues q.val { y with
      en := true, draining := false, sqHead := 0, sqTail := 0, tails := [], cqHead := 0, cqTail := 0, phase := true, held := [], irqN := 0, irqAt := none } ∧
      t = { s with hst := { s.hst with queues := t.hst.queues, linkUp := true, master := true } }) ∧
    (x.en = false → v.getLsbD 0 = true → s.ready = false ∨ ¬good → exec (.qcfgWrite q v) s = .next (s.ignoredReg uHost q.val)) ∧
    (x.en = true → v.getLsbD 0 = false → s.queueBusy q.val = true → exec (.qcfgWrite q v) s = .next (set { x with draining := true, tails := [] })) ∧
    (x.en = true → v.getLsbD 0 = false → s.queueBusy q.val = false →
      exec (.qcfgWrite q v) s = .next (set { x with en := false, draining := false, tails := [], held := [] })) ∧
    (x.en = true → v.getLsbD 0 = true → v.toNat % 2 ^ 39 = x.cfg → exec (.qcfgWrite q v) s = .next s) ∧
    (x.en = true → v.getLsbD 0 = true → v.toNat % 2 ^ 39 ≠ x.cfg → exec (.qcfgWrite q v) s = .next (s.ignoredReg uHost q.val)) ∧
    (x.draining = true → s.queueBusy q.val = false → exec (.queueDisableDone q) s = .next (set { x with en := false, draining := false, tails := [], held := [] })) ∧
    (x.en = false → exec (.queueBaseWrite q true v) s = .next (set { x with cqBase := v.toNat }) ∧
      exec (.queueBaseWrite q false v) s = .next (set { x with sqBase := v.toNat })) ∧
    (x.en = true → (v.toNat = x.cqBase → exec (.queueBaseWrite q true v) s = .next s) ∧
      (v.toNat ≠ x.cqBase → exec (.queueBaseWrite q true v) s = .next (s.ignoredReg uHost q.val)) ∧
      (v.toNat = x.sqBase → exec (.queueBaseWrite q false v) s = .next s) ∧
      (v.toNat ≠ x.sqBase → exec (.queueBaseWrite q false v) s = .next (s.ignoredReg uHost q.val)))

/-- R368, R371, R375, R378, Table 16.7: a tail doorbell with an index of the ring fetches every entry up to it, while nothing is held; a
head doorbell frees room, and an entry that was held for want of it is written. A doorbell of a queue that is off, of another size
than 4 bytes, or with an index beyond the ring is counted and changes no queue. The queue's vector is raised when its oldest entry
has waited CTIME. -/
def Obligations.Doorbells : Prop :=
  ∀ (s : State) (q : Fin 64) (v : BitVec 32),
    let x := s.queue q.val
    let set := fun (y : Queue) => { s with hst := { s.hst with queues := mapSet s.hst.queues q.val y } }
    (∀ bytes, x.en = false ∨ bytes ≠ 4 ∨ x.depth ≤ v.toNat → ∃ row, row ∈ [2, 3, 5] ∧ ∀ c ∈ [Instr.sqTailDoorbell q bytes v, .cqHeadDoorbell q bytes v],
      ∃ t, exec c s = .next t ∧ t = { s.log ⟨.v, uHost, evPartner 2 row, q.val, 0xFFFF, 0⟩ with hst := t.hst } ∧
        t.hst = { s.hst with pendingVec := t.hst.pendingVec, waits := t.hst.waits, doorbell := min (s.hst.doorbell + 1) 4294967295 }) ∧
    (x.en = true → v.toNat < x.depth → x.draining = false → x.tails = [] → x.held = [] → x.sqHead < x.depth → ∃ t, exec (.sqTailDoorbell q 4 v) s = .next t ∧
      (t.queue q.val).sqHead = v.toNat ∧ (t.queue q.val).sqTail = v.toNat ∧ (t.queue q.val).tails = [] ∧
      t.sch.subs.length = s.sch.subs.length + (v.toNat + x.depth - x.sqHead) % x.depth) ∧
    (∀ bs, x.en = true → x.draining = false → x.tails = [] → x.held = [] → x.sqHead < x.depth → 1 < x.depth → v.toNat = (x.sqHead + 1) % x.depth →
      s.hostRead (x.sqBase + 64 * x.sqHead) 64 = some bs → ∃ t b, exec (.sqTailDoorbell q 4 v) s = .next t ∧
        t.sch = { s.sch with subs := s.sch.subs ++ [b] } ∧ b.q = q.val ∧ b.stamp = s.stamp ∧ b.e = sqeOf bs ∧ (b.dup = true ↔ (sqeOf bs).cid.toNat ∈ x.outst)) ∧
    (x.en = true → v.toNat < x.depth → (v.toNat + x.depth - x.cqHead) % x.depth ≤ x.cqUsed → x.held = [] → x.tails = [] →
      exec (.cqHeadDoorbell q 4 v) s = .next (set { x with cqHead := v.toNat })) ∧
    (∀ l, x.en = true → v.toNat < x.depth → (v.toNat + x.depth - x.cqHead) % x.depth ≤ x.cqUsed → x.held = [l] → x.tails = [] →
      (x.cqTail + x.depth - v.toNat) % x.depth + 1 < x.depth → ∃ t, exec (.cqHeadDoorbell q 4 v) s = .next t ∧
        (t.queue q.val).held = [] ∧ (t.queue q.val).cqHead = v.toNat ∧ (t.queue q.val).cqTail = (x.cqTail + 1) % x.depth) ∧
    (∀ since, 0 < x.irqN → x.irqAt = some since → since + 1000 * x.ctime ≤ s.now → s.hst.masked.contains x.vec = false → s.hst.linkUp = true →
      s.hst.master = true →
      (s.hostWaits = false → exec (.interruptTimeout q) s = .next { set { x with irqN := 0, irqAt := none } with out := s.out ++ [.msix x.vec] }) ∧
      (s.hostWaits = true → exec (.interruptTimeout q) s = .next ((set { x with irqN := 0, irqAt := none }).wait (.msix x.vec)))) ∧
    (x.irqN = 0 → exec (.interruptTimeout q) s = .next s)

/-- R376, R377, R412, Table 16.8: BDP_ADDR holds a multiple of 4,096. A write through the window stores its bytes where they lie in one
idle frame of count 1, and is refused, counted and logged where they do not; a read answers the bytes it names. In minimal mode the
window is the staging buffer. -/
def Obligations.BulkDataPort : Prop :=
  ∀ s : State,
    (∀ v : BitVec 64, s.glbUp = true → exec (.bdpAddrWrite v) s = .next { s with hst := { s.hst with bdpAddr := v.toNat % 2 ^ 48 / 4096 * 4096 } }) ∧
    (∀ (o : BitVec 24) (l : List Byte), s.barUp = true → s.minimal = false → l ≠ [] → (s.hst.bdpAddr + o.toNat) % 4096 + l.length ≤ 4096 →
      o.toNat + l.length < 2 ^ 24 → memWf s.pgm.mem = true → s.pgm.bdpRefuses (s.hst.bdpAddr + o.toNat) = none → ∃ t, exec (.bdpWrite o l) s = .next t ∧
      t = { s with pgm := { s.pgm with
        mem := t.pgm.mem, poisoned := t.pgm.poisoned, broken := t.pgm.broken, weak := t.pgm.weak, migs := t.pgm.migs
        undef := t.pgm.undef, rewrite := t.pgm.rewrite } } ∧
      ∀ a, memRead t.pgm.mem a = if s.hst.bdpAddr + o.toNat ≤ a ∧ a < s.hst.bdpAddr + o.toNat + l.length then
        l.getD (a - (s.hst.bdpAddr + o.toNat)) 0 else memRead s.pgm.mem a) ∧
    (∀ (o : BitVec 24) (l : List Byte) (ev : Nat), s.barUp = true → s.minimal = false → l ≠ [] → (s.hst.bdpAddr + o.toNat) % 4096 + l.length ≤ 4096 →
      o.toNat + l.length < 2 ^ 24 → s.pgm.bdpRefuses (s.hst.bdpAddr + o.toNat) = some ev → ∃ t, exec (.bdpWrite o l) s = .next t ∧
      t.pgm.mem = s.pgm.mem ∧ t.hst.bdpErr = true ∧ t.hst.bdpCount = min (s.hst.bdpCount + 1) 32767 ∧
      (s.hst.bdpErr = false → t.hst.bdpFirst = (s.hst.bdpAddr + o.toNat) % 2 ^ 48)) ∧
    (∀ (o : BitVec 24) (n : Nat), s.barUp = true → s.minimal = false → o.toNat + n < 2 ^ 24 →
      (∀ i, i < n → inTiers (s.hst.bdpAddr + o.toNat + i) = true) →
      (∀ b ∈ blocksOf (s.hst.bdpAddr + o.toNat) n, s.pgm.sound b = true) →
      exec (.bdpRead o n) s = .next { s with out := s.out ++ [.read (s.pgm.bytes (s.hst.bdpAddr + o.toNat) n) false] }) ∧
    (∀ (o : BitVec 24) (l : List Byte), s.minimal = true → o.toNat + l.length ≤ 2 ^ 24 → ∃ t, exec (.bdpWrite o l) s = .next t ∧
      t = { s with sec := { s.sec with staging := t.sec.staging } } ∧
      ∀ i, mapGetD t.sec.staging i 0 = if o.toNat ≤ i ∧ i < o.toNat + l.length then l.getD (i - o.toNat) 0 else mapGetD s.sec.staging i 0)

/-- R365, R380: the loss of the link turns every queue off and clears bus mastering, and every request that is not FREE is cancelled, without
a completion; of the pages held for export only those of a stream to host memory, whose abort manifest ends, are released. In D3hot the PCIe PHY and core
clock domains stand, and no others with them; what goes to the host meanwhile waits at their crossing, and goes on when they run again
(R384). -/
def Obligations.LinkLossAndD3 : Prop :=
  ∀ s : State,
    (∃ t, exec .pcieLinkDown s = .next t ∧ t.hst.linkUp = false ∧ t.hst.master = false ∧ t.hst.waits = [] ∧ (∀ x ∈ t.hst.queues, x.2.en = false) ∧
      mapKeys t.hst.queues = mapKeys s.hst.queues ∧ t.kites = s.kites ∧
      t.pgm = { s.pgm with pins := t.pgm.pins } ∧ (∀ p ∈ t.pgm.pins, p ∈ s.pgm.pins) ∧ t.hst.mem = s.hst.mem ∧
      (∀ n r, mapGet s.sch.reqs n = some r → r.st = .free → r.held = false → mapGet t.sch.reqs n = some r) ∧
      ∀ n r, mapGet s.sch.reqs n = some r → r.st ≠ .free ∨ r.held = true →
        mapGet t.sch.reqs n = some { r with mute := true, cancelAt := some (r.cancelAt.getD s.stamp) }) ∧
    (∃ t, exec (.d3hot true) s = .next t ∧ t = { s with hst := { s.hst with d3 := true }, pwr := { s.pwr with stopped := t.pwr.stopped } } ∧
      ∀ d, d ∈ t.pwr.stopped ↔ d ∈ s.pwr.stopped ∨ d = 93 ∨ d = 94) ∧
    (∃ t, exec (.d3hot false) s = .next t ∧ t.pwr = { s.pwr with stopped := t.pwr.stopped } ∧
      (∀ d, d ∈ t.pwr.stopped ↔ d ∈ s.pwr.stopped ∧ d ≠ 93 ∧ d ≠ 94) ∧
      t = { s with hst := { s.hst with d3 := false, waits := [], mem := t.hst.mem, pendingVec := t.hst.pendingVec }, pwr := t.pwr, out := t.out } ∧
      (s.hst.waits = [] → t.hst.mem = s.hst.mem ∧ t.hst.pendingVec = s.hst.pendingVec ∧ t.out = s.out) ∧
      (∀ a l, s.hst.waits = [.write a l] → s.hst.bad a l.length = false → t.hst.mem = memWrites s.hst.mem a l ∧ t.out = s.out ++ [.hostWrite a l]) ∧
      (∀ v, s.hst.waits = [.msix v] → v ∉ s.hst.masked → s.hst.linkUp = true → s.hst.master = true → t.hst.mem = s.hst.mem ∧
        t.out = s.out ++ [.msix v])) ∧
    (s.hst.linkUp = true → s.hst.master = true → 93 ∈ s.pwr.stopped ∨ 94 ∈ s.pwr.stopped →
      (∀ a l, s.hostPut a l = (true, s.wait (.write a l))) ∧ (∀ v, v ∉ s.hst.masked → s.vector v = s.wait (.msix v)))

/-! ### Export -/

namespace Sys2Proof.Stated

/-- A message of a stream leaves towards its target, from state `u` on: as a frame of the target's port, as a Lerbo message of type
YAPHOR, or as its bytes in host memory (R322, R336, R350, Table 15.5). -/
def leaves (u t : State) (x : Stream) (e : List Byte) (m : XMsg) (msg data : List Byte) : Prop :=
  (tKind e = 1 ∨ tKind e = 2 → t.out = u.out ++ [.frame (tPort e) (etherFrame e (u.port (tPort e)).mac u.free msg)]) ∧
  (tKind e = 3 → ∃ v : State, v.lnk = u.lnk ∧ v.out = u.out ∧ v.sec = u.sec ∧
    t.lnk = (v.lerboSend (tDst e) 0x31 (leBytes 2 (fieldLe e 0x14 2) ++ leBytes 2 0 ++ msg)).lnk) ∧
  (tKind e = 4 → t.hst = (u.hostPut (x.hostAddr e m) data).2.hst)

end Sys2Proof.Stated

/-- R316, R322–R324, R326, R329, R336: a PAGE_DATA that is ready carries the image bytes of its page, under the stream's next SEQ, and
waits for its acknowledgement, which a posted write to host memory does not need; so does a manifest fragment, in order, and the last
fragment of a stream's manifest seals the stream. Nothing is sent that is not ready. -/
def Obligations.StreamsSend : Prop :=
  ∀ (s : State) (n : Fin 8192),
    let x := s.stream n.val
    let e := s.target x.target
    (s.dataReady n.val = false → exec (.pageData n) s = .next s) ∧ (s.manReady n.val = false → exec (.manifest n) s = .next s) ∧
    (∀ layer pg off len l u, s.dataReady n.val = true → 1 ≤ tKind e → tKind e ≤ 4 → x.resend false = none →
      x.nextData e = some (layer, pg, off, len) → s.imageBytes x e layer pg off len = (l, [], u) → ∃ t m, exec (.pageData n) s = .next t ∧
        (t.stream n.val).next = x.next + 1 ∧ mapGet (t.stream n.val).msgs x.next = some m ∧ m.manifest = false ∧ m.layer = layer ∧
        m.page = pg ∧ m.off = off ∧ m.len = len ∧ m.acked = decide (tKind e = 4) ∧ (t.stream n.val).st = x.st ∧ t.kites = u.kites ∧
        leaves u t x e m (x.message e x.next m false u.pwr.tb l) l) ∧
    (∀ q m l u, s.dataReady n.val = true → 1 ≤ tKind e → tKind e ≤ 4 → x.resend false = some (q, m) → m.manifest = false →
      s.imageBytes x e m.layer m.page m.off m.len = (l, [], u) → ∃ t, exec (.pageData n) s = .next t ∧
        leaves u t x e m (x.message e q m true u.pwr.tb l) l ∧ t.xpt.retx = (u.xpt.retx + 1) % 2 ^ 32) ∧
    (s.manReady n.val = true → 1 ≤ tKind e → tKind e ≤ 4 → x.resend true = none → x.bytes ≠ [] → x.st = .opened → x.abort = none →
      let len := min (tMaxpay e) (x.bytes.length - x.manOff)
      ∃ t m, exec (.manifest n) s = .next t ∧ (t.stream n.val).next = x.next + 1 ∧ mapGet (t.stream n.val).msgs x.next = some m ∧
        m.manifest = true ∧ m.off = x.manOff ∧ m.len = len ∧ m.last = decide (x.bytes.length ≤ x.manOff + len) ∧
        (tKind e = 1 ∨ tKind e = 2 → .frame (tPort e) (etherFrame e (s.port (tPort e)).mac s.free
          (x.message e x.next m false s.pwr.tb ((x.bytes.drop x.manOff).take len))) ∈ t.out) ∧
        (x.manOff + len < x.bytes.length → (t.stream n.val).st = .opened) ∧
        (x.bytes.length ≤ x.manOff + len → (t.stream n.val).st = (if tKind e = 4 then .closed else .sealed) ∧ (t.stream n.val).sealedAt = s.now))

/-- R324, R328–R332, Table 14.5: an ACK without ECE takes every message below its SEQ as acknowledged and raises the credit limit, and a
SEALED stream with nothing left to acknowledge is CLOSED; a first NAK of code 1 has its message resent, and one of code 3 keeps it for
new credit; CREDIT raises the limit; any other NAK of a SEALED stream, or a second one of code 1, makes it LOST. A stream without ECE gains 5 Gb/s up
to its starting rate; a timeout doubles and has the oldest message resent, the eighth in a row fails an OPEN stream and its request; a
stream 1 s in SEALED is LOST and counted. -/
def Obligations.ReceiversAndTimers : Prop :=
  ∀ s : State,
    (∀ (rx : YRx) (msg : List Byte) (n : Nat), s.msgStream rx 3 msg = .inl n →
      let x := s.stream n
      let q := fieldBe msg 0xC 4
      q ≤ x.next → fieldBe msg 0x18 8 = 0 → x.limit ≤ fieldBe msg 0x20 4 → fieldBe msg 4 2 = 0 → ∃ t, exec (.ack rx msg) s = .next t ∧
        (t.stream n).ackedSeq = max x.ackedSeq q ∧ (t.stream n).limit = fieldBe msg 0x20 4 ∧
        (∀ k m, mapGet x.msgs k = some m → k < q → ∃ m', mapGet (t.stream n).msgs k = some m' ∧ m'.acked = true) ∧
        (x.st = .sealed → x.abort = none → (∀ k m, (k, m) ∈ x.msgs → m.acked = true ∨ k < q) → (t.stream n).st = .closed) ∧ t.kites = s.kites) ∧
    (∀ (rx : YRx) (msg : List Byte) (n : Nat) (m : XMsg), s.msgStream rx 4 msg = .inl n → fieldBe msg 0xC 4 < (s.stream n).next →
      (s.stream n).base ≤ fieldBe msg 0xC 4 → mapGet (s.stream n).msgs (fieldBe msg 0xC 4) = some m → m.acked = false →
      let put := fun y => s.setStream n { s.stream n with msgs := mapSet (s.stream n).msgs (fieldBe msg 0xC 4) y }
      (fieldBe msg 0x18 1 = 1 → m.naks = 0 → exec (.nak rx msg) s = .next (put { m with naks := 1, again := true })) ∧
      (fieldBe msg 0x18 1 = 3 → exec (.nak rx msg) s = .next (put { m with noSpace := true })) ∧
      (fieldBe msg 0x18 1 ∈ [2, 5, 6] ∨ fieldBe msg 0x18 1 = 1 ∧ 1 ≤ m.naks → (s.stream n).st = .sealed →
        ∃ t, exec (.nak rx msg) s = .next t ∧ (t.stream n).st = .lost ∧ t.xpt.lost = min (s.xpt.lost + 1) 65535)) ∧
    (∀ (rx : YRx) (msg : List Byte) (n : Nat), s.msgStream rx 5 msg = .inl n → (s.stream n).limit ≤ fieldBe msg 0xC 4 →
      (∀ k m, (k, m) ∈ (s.stream n).msgs → m.noSpace = false) →
      exec (.credit rx msg) s = .next (s.setStream n { s.stream n with limit := fieldBe msg 0xC 4 })) ∧
    (∀ n : Fin 8192,
      let x := s.stream n.val
      (s.rateDue n.val = true → exec (.rateIncrease n) s = .next (s.setStream n.val { x with
        rate := min (x.rate + 5000) (s.startRate x.target), rateAt := s.now })) ∧
      (s.rateDue n.val = false → exec (.rateIncrease n) s = .next s) ∧ (s.rtoDue n.val = false → exec (.retransmitTimeout n) s = .next s) ∧
      (s.rtoDue n.val = true → x.expiries = 7 → x.st = .opened → (s.req n.val).fault = none → (s.req n.val).st = .running →
        ∃ t, exec (.retransmitTimeout n) s = .next t ∧ (t.stream n.val).st = .failed ∧ (t.req n.val).fault = some 8 ∧
          t.xpt.failed = min (s.xpt.failed + 1) 65535) ∧
      (∀ q m, s.rtoDue n.val = true → x.expiries < 7 → x.oldest = some (q, m) → s.canSend x (s.target x.target) false = false →
        ∃ t, exec (.retransmitTimeout n) s = .next t ∧ (t.stream n.val).expiries = x.expiries + 1 ∧
          (t.stream n.val).rto = min (x.rto * 2) (128 * tRto (s.target x.target))) ∧
      (∀ q m l u, s.rtoDue n.val = true → x.expiries < 7 → x.oldest = some (q, m) → m.manifest = false →
        let e := s.target x.target
        let y := { x with expiries := x.expiries + 1, rto := min (x.rto * 2) (128 * tRto e) }
        s.canSend y e false = true → (s.setStream n.val y).imageBytes y e m.layer m.page m.off m.len = (l, [], u) →
        ∃ t, exec (.retransmitTimeout n) s = .next t ∧ leaves u t y e m (y.message e q m true u.pwr.tb l) l ∧
          (t.stream n.val).expiries = x.expiries + 1 ∧ t.xpt.retx = (u.xpt.retx + 1) % 2 ^ 32) ∧
      (x.st = .sealed → x.sealedAt + 1000000000 ≤ s.now → ∃ t, exec (.sealedTimeout n) s = .next t ∧ (t.stream n.val).st = .lost ∧
        t.xpt.lost = min (s.xpt.lost + 1) 65535 ∧ ∀ p ∈ t.pgm.pins, p.stream ≠ x.handle) ∧
      (x.st ≠ .sealed ∨ s.now < x.sealedAt + 1000000000 → exec (.sealedTimeout n) s = .next s))

/-! ### Lerbo -/

namespace Sys2Proof.Stated

/-- What only the transport of Lerbo messages changes: the ports, the rotation of routes, what the module has sent to itself, and what
leaves the module. -/
def transport (s x : State) : Prop :=
  x = { s with lnk := { s.lnk with ports := x.lnk.ports, rot := x.lnk.rot, loop := x.lnk.loop }, out := x.out }

/-- A message of `len` bytes on channel `vc` comes on an UP Lerbo port without a breach of Table 15.6, rows 1 to 3, and the codewords
it rode on are not what retrains the port (R342). -/
def comes (s : State) (r : LRx) (vc len : Nat) : Prop :=
  (s.port r.port.val).st = 2 ∧ (s.port r.port.val).mode = 0 ∧ r.flitOk = true ∧ r.lenOk = true ∧ r.vc.toNat = vc ∧
  (s.port r.port.val).held.getD vc 0 + r.flits ≤ chanBuf vc ∧ len ≤ 9216 ∧
  (r.unc = 0 ∨ (s.port r.port.val).uncAt.length + r.unc ≤ 781)

/-- The same of a message for this module. -/
def arrives (s : State) (r : LRx) (vc len : Nat) : Prop := comes s r vc len ∧ r.dst.toNat = s.lnk.modId

end Sys2Proof.Stated

/-- R208, R214, R217, R223, R331, R337, R350–R353, Table 15.4: what a message that arrives for this module does. A SIGNAL of a member of the
bridle's train arrives at its home; a UNIT_REQ is acted on and answered; a UNIT_RSP answers the command in progress; the rows of a WRITE
enter the inbound path of their kite; a WRITE_DONE ends its descriptor; the bytes of a page or a manifest fragment are placed in its
receive context, and a receiver's ACK acts on its stream. A message for another module goes on with its TTL one lower, or is a violation
where that TTL would be 0 or no route takes it. -/
def Obligations.LerboMessages : Prop :=
  ∀ (s : State) (r : LRx),
    (∀ (b amt : BitVec 32) (u : Nat) (tr : Train), arrives s r 2 8 → b.toNat < 65536 → s.bridleTrain b.toNat = some u → mapGet s.brd.trains u = some tr →
      (∃ x ∈ tr.runs, x.modId = s.normMod r.src.toNat) → ∃ x, transport s x ∧ exec (.signal r b amt) s =
        .next { x with brd := { s.brd with arrivals := s.brd.arrivals ++ [⟨b.toNat, s.fabBy s.cyc, amt.toNat, false⟩] } }) ∧
    (∀ (tag : BitVec 64) (d : List Byte) (tr : Train), arrives s r 0 (16 + d.length) → s.defineCheck d = (0, tr) → ∃ x, transport s x ∧
      exec (.unitReq r tag 1 0 d) s = .next (if s.mine tr.runs = [] then x else { x with brd := { s.brd with
        trains := mapSet s.brd.trains (fieldLe d 0 4) tr, defs := mapSet s.brd.defs (fieldLe d 0 4) (r.src.toNat, tag.toNat) } })) ∧
    (∀ (tag : BitVec 64) (d : List Byte), arrives s r 0 (16 + d.length) → descBad d = false →
      s.deleteStatus (fieldLe d 0 4) = 0 ∨ mapGet s.brd.defs (fieldLe d 0 4) = some (r.src.toNat, tag.toNat) → ∃ x, transport s x ∧
      exec (.unitReq r tag 5 0 d) s = .next { x with brd := { s.brd with
        trains := mapDel s.brd.trains (fieldLe d 0 4), defs := mapDel s.brd.defs (fieldLe d 0 4) } }) ∧
    (∀ (tag : BitVec 64) (d : List Byte) (rs : List Run), arrives s r 0 (16 + d.length) → descBad d = false → s.unitRuns (fieldLe d 0 4) = some rs →
      s.isServing (fieldLe d 0 4) = false → ∃ x t, transport s x ∧ exec (.unitReq r tag 4 0 d) s = .next t ∧
        transport (x.haltUnitKites (fieldLe d 0 4) rs) t) ∧
    (∀ (tag : BitVec 64) (d : List Byte) (l : LDesc), arrives s r 0 (16 + d.length) → mapGet s.brd.prepared r.src.toNat = some l →
      ∃ x t, transport s x ∧ exec (.unitReq r tag 3 0 d) s = .next t ∧
        transport { x.go l with brd := { (x.go l).brd with prepared := mapDel (x.go l).brd.prepared r.src.toNat } } t) ∧
    (∀ (tag : BitVec 64) (d : List Byte), arrives s r 0 (16 + d.length) → mapGet s.brd.prepared r.src.toNat = none → ∃ x, transport s x ∧
      exec (.unitReq r tag 3 0 d) s = .next x) ∧
    (∀ (tag : BitVec 64) (status : BitVec 8) (o : UnitOp) (m : Nat), arrives s r 1 16 → status.toNat ≤ 9 → mapGet s.brd.undone tag.toNat = none →
      s.brd.op = some o → o.tag = tag.toNat → r.src.toNat ∈ o.waiting → m ∈ o.waiting → m ≠ r.src.toNat →
      ∃ x, transport s x ∧ exec (.unitRsp r tag status 0) s = .next { x with brd := { s.brd with op := some { o with
        status := worse o.status status.toNat, waiting := o.waiting.filter fun m => m != r.src.toNat } } }) ∧
    (∀ (tag : BitVec 64) (status : BitVec 8) (o : UnitOp), arrives s r 1 16 → status.toNat ≤ 9 → mapGet s.brd.undone tag.toNat = none →
      s.brd.op = some o → o.tag = tag.toNat → o.waiting = [r.src.toNat] → ∃ x, transport s x ∧
      (o.kind = 4 → exec (.unitRsp r tag status 0) s =
        .next { x with brd := { s.brd with status := worse o.status status.toNat, op := none } }) ∧
      (o.kind = 3 → o.status = 0 → status = 0 → exec (.unitRsp r tag status 0) s =
        .next { x with brd := { s.brd with op := some { o with waiting := [] } } })) ∧
    (∀ (tag : BitVec 64) (status : BitVec 8), arrives s r 1 16 → status.toNat ≤ 9 →
      (∃ u, mapGet s.brd.undone tag.toNat = some u) ∨ mapGet s.brd.undone tag.toNat = none ∧ s.brd.op = none →
      ∃ x, transport s x ∧ exec (.unitRsp r tag status 0) s = .next x) ∧
    (∀ (f : LWrite) (rows : List Byte) (d : Nat) (reel : Option Nat), arrives s r 0 (24 + rows.length) → f.rsv = 0 → 1 ≤ f.rows.toNat →
      f.rows.toNat ≤ 16 → f.total ≠ 0 → rows.length = 512 * f.rows.toNat → s.kiteOn f.kite.toNat = true →
      (f.dest.toNat = d ∧ d < 16384 ∧ reel = none) ∨ (f.dest.toNat = 32768 + d ∧ d < 32 ∧ reel = some d) →
      let kt := s.kite f.kite.toNat
      (∀ q, reel = some q → (kt.reel q).en = true) → ∃ x rs, transport s x ∧ exec (.write r f rows) s =
        .next ({ x with lnk := { x.lnk with recvs := rs } }.setKite f.kite.toNat { kt with
          inb := kt.inb ++ (List.range f.rows.toNat).map fun i =>
            (⟨(d + f.first.toNat + i) % 16384, reel, leNat (sliceBytes rows (512 * i) 512), 0, none,
              some (r.src.toNat, f.tag.toNat, if f.bridle.toNat < 65536 then some f.bridle.toNat else none), 0⟩ : Inbound) }) ∧
        (∀ y ∈ s.lnk.recvs, y ∈ rs) ∧ ∃ y ∈ rs, y.src = r.src.toNat ∧ y.tag = f.tag.toNat) ∧
    (∀ (f : LWrite) (rows : List Byte), arrives s r 0 (24 + rows.length) → f.rsv = 0 → 1 ≤ f.rows.toNat → f.rows.toNat ≤ 16 → f.total ≠ 0 →
      rows.length = 512 * f.rows.toNat → s.kiteOn f.kite.toNat = true → 32768 ≤ f.dest.toNat → f.dest.toNat < 32800 →
      ((s.kite f.kite.toNat).reel (f.dest.toNat - 32768)).en = false → ∃ x, transport s x ∧ exec (.write r f rows) s = .next x) ∧
    (∀ (tag : BitVec 64) (status : BitVec 8) (k ch : Nat) (d : Desc) (m k2 dst : Nat) (rl c : Option Nat), arrives s r 1 16 → status.toNat ≤ 7 →
      mapGet s.lnk.sends tag.toNat = some (k, ch) → ((s.kite k).chan ch).queue = [d] → d.kind = .remote m k2 dst rl tag.toNat c →
      d.status = 0 → ∃ t, exec (.writeDone r tag status 0) s = .next t ∧ kitesKept [k] s t ∧
        ((t.kite k).chan ch).queue = [{ d with status := status.toNat, left := 0, next := d.nrows, waits := 0,
                                                 told := c.isSome && (status == 0 || status == 2) }] ∧
        t.lnk.sends = mapDel s.lnk.sends tag.toNat) ∧
    (∀ (ctx : BitVec 16) (msg : List Byte), arrives s r 3 (4 + msg.length) → s.xpt.rxen = true → ctx.toNat < 64 →
      let ty := fieldBe msg 3 1
      let key := (ctx.toNat * 2 ^ 20 + r.src.toNat) * 2 ^ 32 + fieldBe msg 8 4
      let head := if ty = 1 then 40 else 32
      let a := s.rxPlace ctx.toNat key msg
      let ctxt := s.rxCtx ctx.toNat
      wellFormedPage ty msg = true →
      (ty = 1 → fieldBe msg 0x19 1 ∈ exportFmts ∧ ctxt.1 ≤ a ∧ a + (msg.length - 40) ≤ ctxt.1 + ctxt.2.2.2) → a + msg.length ≤ hbmEnd →
      (∀ y, mapGet s.xpt.rxs key = some y → y.dropped = false) → memWf s.pgm.mem = true →
      (ty = 2 → a = ctxt.2.2.1 + fieldBe msg 0x1C 4) ∧ ∃ t, exec (.yaphor r ctx 0 msg) s = .next t ∧ t.kites = s.kites ∧
        (∀ i, i < msg.length - head → memRead t.pgm.mem (a + i) = msg.getD (head + i) 0) ∧
        ∀ b, b < a ∨ a + (msg.length - head) ≤ b → memRead t.pgm.mem b = memRead s.pgm.mem b) ∧
    (∀ (ctx : BitVec 16) (msg : List Byte), arrives s r 3 (4 + msg.length) → fieldBe msg 3 1 = 3 → ∃ x, transport s x ∧
      exec (.yaphor r ctx 0 msg) s = exec (.ack ⟨r.port, true, r.src.setWidth 128⟩ msg) x) ∧
    (∀ (mt : BitVec 8) (body : List Byte) (vc : Nat), comes s r vc body.length → mtypeVc mt.toNat = some vc → r.dst.toNat ≠ s.lnk.modId → 1 < r.ttl.toNat →
      let m : LMsg := ⟨r.dst.toNat, vc, mt.toNat, r.ttl.toNat - 1, r.src.toNat, body, flitsOf body.length, some r.port.val⟩
      ∃ x t, transport s x ∧ exec (.lerboForward r mt body) s = .next t ∧ ((x.enqueue m).1 = true → transport s t) ∧
        ((x.enqueue m).1 = false → (t.port r.port.val).violLast = 4)) ∧
    (∀ (mt : BitVec 8) (body : List Byte) (vc : Nat), comes s r vc body.length → mtypeVc mt.toNat = some vc → r.dst.toNat ≠ s.lnk.modId → r.ttl.toNat ≤ 1 →
      ∃ t, exec (.lerboForward r mt body) s = .next t ∧ (t.port r.port.val).violLast = 4) ∧
    (∀ (mt : BitVec 8) (body : List Byte) (vc : Nat), arrives s r vc body.length → mtypeVc mt.toNat = some vc →
      ∃ x, transport s x ∧ exec (.lerboForward r mt body) s = .next x)

/-- R311–R314, Table 15.6 row 10: a member takes the windows of the lead it follows from SCHED_CTL_START, and the descriptor bytes, the
boundaries and the stop that the lead sends for the present or the next tick; the lead takes a member's report of a step. A message
from any other module is a violation of its peer and changes no schedule. -/
def Obligations.SchedulerMessages : Prop :=
  ∀ (s : State) (r : LRx),
    let lead := s.sch.leadId = r.src.toNat
    let timely := fun (tick : Nat) => if s.pwr.tb < s.sch.t0 then tick = 0 else tick = s.tickOf s.pwr.tb ∨ tick = s.tickOf s.pwr.tb + 1
    (∀ tick t0 cfg : BitVec 64, arrives s r 0 32 → lead → s.sch.follow = true → bits cfg.toNat 0 17 ≠ 0 → ∃ x, transport s x ∧
      exec (.schedCtlStart r tick t0 cfg 0) s = .next { x with sch := { s.sch with
        following := true, t0 := t0.toNat, t0Set := true, period := bits cfg.toNat 0 17, ballast := bits cfg.toNat 17 8, gshare := bits cfg.toNat 25 7
        xshare := bits cfg.toNat 32 7, nextTick := tick.toNat, boundOk := [], descGot := [], cur := none } }) ∧
    (∀ tick : BitVec 64, arrives s r 0 16 → s.sch.following = true → lead → timely tick.toNat →
      (∃ x, transport s x ∧ exec (.schedCtlBoundary r tick 0) s = .next { x with sch := { s.sch with boundOk := s.sch.boundOk ++ [tick.toNat] } }) ∧
      ∃ x, transport s x ∧ exec (.schedCtlStop r tick 0) s = .next { x with sch := { s.sch with following := false } }) ∧
    (∀ (tick : BitVec 64) (off : BitVec 32) (data : List Byte), arrives s r 0 (16 + data.length) → s.sch.following = true → lead → timely tick.toNat →
      data ≠ [] → data.length ≤ 8192 → off.toNat + data.length ≤ 65536 → memWf s.pgm.mem = true →
      writable (s.descAt tick.toNat + off.toNat) = true → ∃ t, exec (.stepDesc r tick off data) s = .next t ∧
        t.sch = { s.sch with descGot := mapUpd s.sch.descGot tick.toNat 0 (· + data.length) } ∧ t.kites = s.kites ∧
        (∀ i, i < data.length → memRead t.pgm.mem (s.descAt tick.toNat + off.toNat + i) = data.getD i 0) ∧
        ∀ a, a < s.descAt tick.toNat + off.toNat ∨ s.descAt tick.toNat + off.toNat + data.length ≤ a → memRead t.pgm.mem a = memRead s.pgm.mem a) ∧
    (∀ (tick : BitVec 64) (last holds : BitVec 32), arrives s r 1 16 → s.sch.stopped = false → r.src.toNat ∈ s.members → timely tick.toNat →
      (∀ x ∈ s.sch.reports, ¬(x.modId = r.src.toNat ∧ x.tick = tick.toNat)) → ∃ x, transport s x ∧ exec (.stepDone r tick last holds) s =
        .next { x with sch := { s.sch with reports := s.sch.reports ++ [⟨r.src.toNat, tick.toNat, last.toNat, holds.toNat⟩] } }) ∧
    (∀ (tick t0 cfg : BitVec 64) (off : BitVec 32) (data : List Byte), arrives s r 0 (32 + data.length) → ¬lead →
      (s.port r.port.val).violAt.length < 255 →
      data ≠ [] → data.length ≤ 8192 → off.toNat + data.length ≤ 65536 →
      ∀ c ∈ [Instr.schedCtlStart r tick t0 cfg 0, .schedCtlBoundary r tick 0, .schedCtlStop r tick 0, .stepDesc r tick off data],
        ∃ t, exec c s = .next t ∧ t.sch = s.sch ∧ t.pgm = s.pgm ∧ (t.port r.port.val).violLast = 10)

/-! ### Ports -/

/-- R339–R342, R361: how a port changes its state (0 DISABLED, 1 TRAIN, 2 UP, 3 RETRAIN, 4 DOWN, 5 QUARANTINED). A training port goes UP when
its lanes are equalised, when a Lerbo port sends its HELLO, and, for Lerbo, its peer's HELLO has come, whose buffers are its credit; a loss
of lock or of progress, more than 1 % of codewords uncorrectable in 1 ms, or a HELLO while UP retrains an UP port, 16 times a minute at most; a port that does not finish in time goes DOWN, and one that is DOWN trains again after 1 s. (The
layout of the payload of the HELLO sent is the model's choice, assumption 126.) -/
def Obligations.LinkStates : Prop :=
  ∀ (s : State) (p : Fin 96),
    let x := s.port p.val
    let at_ := fun (c : Instr) (n : Nat) => ∃ t, exec c s = .next t ∧ (t.port p.val).st = n
    (x.st ≠ 1 → x.st ≠ 3 → ∀ lock, exec (.equalisationDone p lock) s = .next s) ∧
    (x.st = 1 ∨ x.st = 3 → x.mode ≠ 0 → at_ (.equalisationDone p true) 2 ∧ exec (.equalisationDone p false) s = .next s) ∧
    (x.st = 1 → x.mode = 0 → x.hello = true → ∀ lock, at_ (.equalisationDone p lock) 2) ∧
    (x.st = 1 ∨ x.st = 3 → x.mode = 0 → x.hello = false → ∀ lock, ∃ t, exec (.equalisationDone p lock) s = .next t ∧
      let b := flitBytes 3 0 false x.txSeq x.rxSeq x.returns.1 x.returns.2 0
        (leBytes 1 1 ++ leBytes 3 s.lnk.modId ++ leBytes 2 256 ++ leBytes 2 256 ++ leBytes 2 64 ++ leBytes 2 1024)
      t.out = s.out ++ [.flit p.val b] ∧ (t.port p.val).buf = x.buf ++ [⟨x.txSeq, none, b⟩] ∧ (t.port p.val).txSeq = (x.txSeq + 1) % 4096 ∧
      (t.port p.val).st = x.st ∧ (t.port p.val).equal = true) ∧
    (∀ (f : HelloF), x.st = 1 → x.mode = 0 → x.equal = false → ∃ t, exec (.hello p f) s = .next t ∧ (t.port p.val).st = 1 ∧
      (t.port p.val).hello = true ∧ (t.port p.val).peer = f.id.toNat ∧ (t.port p.val).rxSeq = (f.ctrl.fseq.toNat + 1) % 4096 ∧
      (t.port p.val).credit = [f.buf0.toNat, f.buf1.toNat, f.buf2.toNat, f.buf3.toNat]) ∧
    (∀ (f : HelloF), x.st = 1 → x.mode = 0 → x.equal = true → at_ (.hello p f) 2) ∧
    (∀ (f : HelloF), x.st = 3 → x.mode = 0 → x.equal = true → (f.id.toNat = x.peer0 → at_ (.hello p f) 2) ∧
      (f.id.toNat ≠ x.peer0 → at_ (.hello p f) 4)) ∧
    (∀ (f : HelloF), x.st = 2 → x.mode = 0 → f.ctrl.fseq.toNat = x.rxSeq → x.helloSeq = none → x.violAt.length < 255 → x.retrainAt.length < 15 →
      ∃ t, exec (.hello p f) s = .next t ∧ (t.port p.val).st = 3 ∧ (t.port p.val).violLast = 8) ∧
    (x.st ≠ 2 → ∀ (f : FlitF) (g : FrameF) (l : List Byte), exec (.flit p f) s = .next s ∧ exec (.ethernetFrame p g l) s = .next s) ∧
    (∀ f : FlitF, x.st = 2 → x.mode = 0 → codewordLimit x.mode < f.unc → x.retrainAt.length < 15 → at_ (.flit p f) 3) ∧
    (∀ (f : FrameF) (l : List Byte), x.st = 2 → x.mode ≠ 0 → codewordLimit x.mode < f.unc → x.retrainAt.length < 15 → at_ (.ethernetFrame p f l) 3) ∧
    (x.st = 2 → x.retrainAt.length < 15 → at_ (.laneLockLoss p) 3) ∧
    (x.st = 2 → x.retrainAt.length = 15 → (∀ t ∈ x.retrainAt, s.now < t + 60000000000) → at_ (.laneLockLoss p) 5) ∧
    (x.st ≠ 2 → exec (.laneLockLoss p) s = .next (s.setPort p.val { x with equal := false })) ∧
    (s.aackDue p.val = true → x.retrainAt.length < 15 → at_ (.aackTimeout p) 3) ∧ (s.aackDue p.val = false → exec (.aackTimeout p) s = .next s) ∧
    (x.st = 3 → x.since + 10000000 ≤ s.now → at_ (.retrainTimeout p) 4) ∧
    (x.st ≠ 3 ∨ s.now < x.since + 10000000 → exec (.retrainTimeout p) s = .next s) ∧
    (x.st = 1 → x.since + 500000000 ≤ s.now → at_ (.trainingTimeout p) 4) ∧
    (x.st ≠ 1 ∨ s.now < x.since + 500000000 → exec (.trainingTimeout p) s = .next s) ∧
    (x.st = 4 → x.since + 1000000000 ≤ s.now → x.en = true → x.mode ≠ 0 ∨ s.lnk.modId ≠ 0xFFFFF → at_ (.downRetry p) 1) ∧
    (x.st ≠ 4 ∨ s.now < x.since + 1000000000 → exec (.downRetry p) s = .next s) ∧
    (∀ (q : Fin 24) (i : Fin 4), p.val = 4 * q.val + i.val → (x.en = true → x.st ≠ 5 → at_ (.pllLockLoss q) 4) ∧
      (x.en = false ∨ x.st = 5 → at_ (.pllLockLoss q) x.st)) ∧
    (∀ v : BitVec 64, s.barUp = true → x.st = 0 → bits v.toNat 0 2 ≠ 0 ∨ s.lnk.modId ≠ 0xFFFFF → bit v.toNat 2 = true → bit v.toNat 3 = false →
      ∃ t, exec (.pcfgWrite p v) s = .next t ∧ (t.port p.val).st = 1 ∧ (t.port p.val).mode = bits v.toNat 0 2 ∧ (t.port p.val).en = true) ∧
    (∀ v : BitVec 64, s.barUp = true → x.st = 2 → bit v.toNat 2 = false → bit v.toNat 3 = false →
      ∃ t, exec (.pcfgWrite p v) s = .next t ∧ (t.port p.val).st = 0 ∧ (t.port p.val).mode = x.mode ∧ (t.port p.val).buf = []) ∧
    (s.barUp = true → x.st = 5 → x.en = true → x.mode ≠ 0 ∨ s.lnk.modId ≠ 0xFFFFF → at_ (.unquar p) 1) ∧ (x.st ≠ 5 → exec (.unquar p) s = .next s)

namespace Sys2Proof.Stated

/-- A port that has received codewords, `corr` of them corrected and none or `unc` uncorrectable (R343). -/
def coded (x : Port) (corr unc : Nat) : Port := { x with fecCorr := min (x.fecCorr + corr) 16777215, fecUnc := min (x.fecUnc + unc) 65535 }

/-- A flit that is not damaged and rode on no uncorrectable codeword. -/
def sound (f : FlitF) : Prop := f.uncorr = false ∧ f.unc = 0 ∧ fGood f.bytes = true

/-- An UP Lerbo port that has nothing to send: no message, no flit to be acknowledged, no AACK or credit to tell. -/
def quiet (x : Port) : Prop := x.st = 2 ∧ x.mode = 0 ∧ x.txq = [] ∧ x.buf = [] ∧ x.aackSent = x.rxSeq ∧ x.returns = (0, 0)

/-- The IDLE flit that tells the peer the next FSEQ expected. -/
def idleFlit (aack : Nat) : List Byte := flitBytes 0 0 false 0 aack 0 0 0 []

end Sys2Proof.Stated

/-- R343, R345–R348, R357, R358: on an UP Lerbo port a flit that is damaged is counted and discarded, an IDLE flit returns credit, the first
flit of a message takes a place of its buffer, and one out of sequence is answered with a REPLAY of the FSEQ expected; a REPLAY has the
flits from its FSEQ on sent again. On an Ethernet port a damaged frame is counted, one that is no message is dropped and counted, and
an ACK to an export port acts as an ACK; PFC pauses the priorities it names. (The layout of a REPLAY's payload, and that an IDLE flit goes
out where the peer has something to be told, are the model's choices, assumption 126.) -/
def Obligations.LinkTraffic : Prop :=
  ∀ (s : State) (p : Fin 96),
    let x := s.port p.val
    (∀ f : FlitF, x.st = 2 → x.mode = 0 → f.uncorr = true ∨ fGood f.bytes = false → f.unc = 0 → exec (.flit p f) s =
      .next { s.setPort p.val (coded x f.corr 0) with tel := { s.tel with cnt := mapUpd s.tel.cnt 0 0 fun c => (c + 1) % 2 ^ 64 } }) ∧
    (∀ f : FlitF, quiet x → sound f → fKind f.bytes = 0 → fBad f.bytes = false → exec (.flit p f) s = .next (s.setPort p.val { coded x f.corr 0 with
      credit := x.credit.set (fCredVc f.bytes) (x.credit.getD (fCredVc f.bytes) 0 + fCred f.bytes) })) ∧
    (∀ f : FlitF, quiet x → sound f → fKind f.bytes = 1 → fBad f.bytes = false →
      let vc := fVc f.bytes
      fFseq f.bytes = x.rxSeq → x.rxOwed.getD vc 0 = 0 → x.held.getD vc 0 < chanBuf vc → ∃ t, exec (.flit p f) s = .next t ∧
        let y := t.port p.val
        y.rxSeq = (x.rxSeq + 1) % 4096 ∧ y.rxUnits = (x.rxUnits + 1) % 2 ^ 48 ∧ y.replayAt = none ∧ y.rxOwed = x.rxOwed.set vc 1 ∧
        y.credit = x.credit.set (fCredVc f.bytes) (x.credit.getD (fCredVc f.bytes) 0 + fCred f.bytes) ∧ y.st = 2 ∧ y.aackSent = y.rxSeq ∧
        t.out = s.out ++ [.flit p.val (idleFlit y.rxSeq)] ∧ t.kites = s.kites ∧ t.brd = s.brd) ∧
    (∀ c, (∃ f : FlitF, c = .flit p f ∧ x.mode = 0 ∧ sound f ∧ fKind f.bytes ≠ 0 ∧ fFseq f.bytes ≠ x.rxSeq ∧ x.replayAt = none) ∨
        (∃ h : ReplayF, c = .replay p h ∧ x.mode = 0 ∧ h.ctrl.fseq.toNat ≠ x.rxSeq ∧ x.replayAt = none) ∨
        (∃ h : HelloF, c = .hello p h ∧ x.mode = 0 ∧ h.ctrl.fseq.toNat ≠ x.rxSeq ∧ x.replayAt = none) ∨
        (c = .replayRetry p ∧ s.replayDue p.val = true) → x.st = 2 → x.buf.length < 1024 → x.replayN < 7 →
      ∃ t, exec c s = .next t ∧
        let b := flitBytes 3 0 false x.txSeq x.rxSeq x.returns.1 x.returns.2 0 (leBytes 1 2 ++ leBytes 2 x.rxSeq)
        t.out = s.out ++ [.flit p.val b] ∧ (t.port p.val).buf = x.buf ++ [⟨x.txSeq, none, b⟩] ∧ (t.port p.val).replayAt = some s.now ∧
        (t.port p.val).replayN = x.replayN + 1 ∧ (t.port p.val).replays = min (x.replays + 1) 65535 ∧ (t.port p.val).st = 2 ∧
        (t.port p.val).rxSeq = x.rxSeq) ∧
    (s.replayDue p.val = false → exec (.replayRetry p) s = .next s) ∧
    (∀ (h : ReplayF) (i : Nat) (b : TxFlit), x.st = 2 → x.mode = 0 → x.txq = [] → x.aackSent = x.rxSeq → x.returns = (0, 0) →
      h.ctrl.fseq.toNat = x.rxSeq → x.buf.head? = some b → h.ctrl.aack.toNat = b.fseq → (x.buf.findIdx? fun b => b.fseq == h.fseq.toNat) = some i →
      ∃ t, exec (.replay p h) s = .next t ∧ (t.port p.val).rxSeq = (x.rxSeq + 1) % 4096 ∧ (t.port p.val).buf = x.buf ∧
        t.out = s.out ++ (x.buf.drop i).map (fun b => .flit p.val b.bytes) ++ [.flit p.val (idleFlit ((x.rxSeq + 1) % 4096))]) ∧
    (∀ (f : FrameF) (l : List Byte), x.st = 2 → x.mode ≠ 0 → f.unc = 0 → f.fcs = false →
      exec (.ethernetFrame p f l) s = .next (s.setPort p.val (coded x f.corr 1))) ∧
    (∀ (f : FrameF) (l : List Byte), x.st = 2 → x.mode ≠ 0 → f.unc = 0 → f.fcs = true → l.length < 14 ∨ 9212 < l.length →
      exec (.ethernetFrame p f l) s = .next (s.setPort p.val { coded x f.corr 0 with dropped := min (x.dropped + 1) 65535 })) ∧
    (∀ (f : FrameF) (l : List Byte) (src dp : Nat) (msg e : List Byte), x.st = 2 → x.mode ≠ 0 → f.unc = 0 → f.fcs = true → 14 ≤ l.length →
      l.length + 4 ≤ 1518 → fieldBe l 0 6 = x.mac → fieldBe l 12 2 ≠ 0x8100 → aboveOf (fieldBe l 12 2) (l.drop 14) = .yaphor src dp msg →
      e ∈ s.portTargets p.val → fieldLe e 0x0C 2 = dp → fieldBe msg 3 1 = 3 → exec (.ethernetFrame p f l) s =
        exec (.ack ⟨p, false, .ofNat 128 src⟩ msg) (s.setPort p.val { coded x f.corr 0 with rxUnits := (x.rxUnits + 1) % 2 ^ 48 })) ∧
    (∀ (en : BitVec 8) (quanta : BitVec 128), x.st = 2 → x.mode ≠ 0 → ∃ ps, exec (.pfc p en quanta) s = .next (s.setPort p.val { x with paused := ps }) ∧
      ∀ i, mapGet ps i = if i < 8 ∧ en.getLsbD i = true then
        some (s.now + (bits quanta.toNat (16 * i) 16 * 512000 + modeRate x.mode - 1) / modeRate x.mode) else mapGet x.paused i)

/-! ### Clocks, power and ageing -/

/-- R359, R384, R386, R387, R430: a measurement by the source that TB_CTL names locks the timebase, and 8 s without one unlock it, which is
logged; a PPS pulse too short, or more than 1 ms from a whole second, is discarded. TB_SET replaces the timebase while the scheduler is
stopped. A wake request runs a stopped domain again, but none that minimal mode holds. -/
def Obligations.Timebase : Prop :=
  ∀ s : State,
    let measured := fun (t : State) (o : Int) => t = { s with
        free := s.free + 1, pins := t.pins, pwr := { s.pwr with locked := true, measAt := s.now, offset := max (-2147483648) (min 2147483647 o), ppb := t.pwr.ppb } } ∧
      -50000 ≤ t.pwr.ppb ∧ t.pwr.ppb ≤ 50000
    let slave := fun (p : Fin 96) (m : PtpF) => s.lnk.ptpEn = true ∧ s.lnk.ptpPort = p.val ∧ s.lnk.ptpDomain = m.domain.toNat ∧
      s.lnk.ptpTransport = m.transport.toNat ∧ m.transport ≠ 3 ∧ (s.port p.val).st = 2 ∧ (s.port p.val).mode ≠ 0
    let past : Int := (s.pwr.tb % 1000000000 : Nat)
    let off := if past < 500000000 then past else past - 1000000000
    (∀ p m, slave p m → s.pwr.src = 1 → ∃ t, exec (.ptpMessage p m) s = .next t ∧ measured t m.offset ∧ t.pins = s.pins) ∧
    (∀ p m, ¬slave p m ∨ s.pwr.src ≠ 1 → exec (.ptpMessage p m) s = .next s) ∧
    (∀ w, w < 1000 ∨ off < -1000000 ∨ 1000000 < off → exec (.pps w) s = .next s) ∧
    (∀ w, 1000 ≤ w → -1000000 ≤ off → off ≤ 1000000 → s.pwr.src = 2 → ∃ t, exec (.pps w) s = .next t ∧ measured t off ∧
      t.pins = { s.pins with ppsAt := some s.now }) ∧
    (∀ w, 1000 ≤ w → -1000000 ≤ off → off ≤ 1000000 → s.pwr.src ≠ 2 → exec (.pps w) s = .next { s with pins := { s.pins with ppsAt := some s.now } }) ∧
    (s.pwr.locked = true → s.pwr.src ≠ 0 → s.pwr.measAt + 8000000000 ≤ s.now → exec .timebaseSourceTimeout s =
      .next (({ s with pwr := { s.pwr with locked := false } }).log ⟨.c, uPwr, evTbUnlocked, 0xFFFF, 0xFFFF, 0⟩)) ∧
    (s.pwr.locked = false ∨ s.now < s.pwr.measAt + 8000000000 → exec .timebaseSourceTimeout s = .next s) ∧
    (∀ v : BitVec 64, s.barUp = true → s.sch.stopped = true → ∃ n, exec (.tbSet v) s = .next { s with
      pwr := { s.pwr with tb := v.toNat, frac := 0 }, sch := { s.sch with round := n } }) ∧
    (∀ v : BitVec 64, s.barUp = true → s.sch.stopped = false → exec (.tbSet v) s = .next (s.ignoredReg uPwr)) ∧
    (∀ d : Fin 100, (d.val < 8 ∨ d.val = 99 → exec (.wakeRequest d) s = .next s) ∧
      (8 ≤ d.val → d.val ≠ 99 → d.val ≠ 93 ∧ d.val ≠ 94 ∨ s.hst.waits = [] →
        exec (.wakeRequest d) s = .next { s with pwr := { s.pwr with stopped := s.pwr.stopped.filter fun x => x != d.val } }) ∧
      (d.val = 93 ∨ d.val = 94 → ∃ t, exec (.wakeRequest d) s = .next t ∧
        t.pwr = { s.pwr with stopped := s.pwr.stopped.filter fun x => x != d.val } ∧ (t.hst.waits = [] ∨ t.hst.waits = s.hst.waits ∧
          (93 ∈ t.pwr.stopped ∨ 94 ∈ t.pwr.stopped))))

/-- R391–R397, Tables 17.3 and 18.6: a sample stores every sensor; a compute die at 105 °C, or with memory at 95 °C, enters thermal
emergency, which is counted and logged; a sensor at its critical threshold pulls THERMTRIP_N low and puts the module into minimal mode
with reason 0x08. A step of the margin plan raises VDIE of the dies that ask for it by 2.5 mV, up to 800 mV, with no step running and no
die in emergency; the plan is saved once a day, and arming the margin step is recorded at once. -/
def Obligations.SensorsAndMargin : Prop :=
  ∀ s : State,
    let tj := fun (x : Sensors) (d : Fin 4) => [x.tj0, x.tj1, x.tj2, x.tj3].getD d.val 0
    let mem := fun (x : Sensors) (d : Fin 4) => [x.hbm0, x.hbm1, x.hbm2, x.hbm3].getD d.val 0
    let cool := fun (x : Sensors) => (∀ d, tj x d < 115 ∧ mem x d < 105) ∧ x.io < 115 ∧ x.loft < 105
    let kept := fun (t : State) => readRec t.sec.primary.margin t.sec.recovery.margin
    (∀ x : Sensors, cool x → s.pwr.armed = false → s.now < s.pwr.hourAt + 3600000000000 → ∃ t, exec (.sensorSample x) s = .next t ∧
      t.sec = s.sec ∧ t.kites = s.kites ∧ t.pwr.samples = s.pwr.samples + 1 ∧ t.pwr.sumW = s.pwr.sumW + x.power ∧
      t.pins = { s.pins with vin := x.vin % 65536, iin := x.iin % 65536 } ∧
      ∀ d : Fin 4, (t.die d.val).tj = min (tj x d) 255 ∧ (t.die d.val).mem = min (mem x d) 255 ∧
        ((s.die d.val).emerg = false → 105 ≤ tj x d ∨ 95 ≤ mem x d → (t.die d.val).emerg = true ∧
          (t.die d.val).entries = min ((s.die d.val).entries + 1) 65535) ∧
        ((s.die d.val).emerg = false → tj x d < 105 → mem x d < 95 → (t.die d.val).emerg = false) ∧
        ((s.die d.val).emerg = true → 100 < tj x d ∨ 90 < mem x d → (t.die d.val).emerg = true ∧ (t.die d.val).coolAt = none)) ∧
    (∀ x : Sensors, ¬cool x → s.minimal = false → ∃ t, exec (.sensorSample x) s = .next t ∧ t.sec.stage = 7 ∧ t.sec.code = 8 ∧ t.pins.thermtripN = false) ∧
    (s.planStepDue = false → exec .marginPlanStep s = .next s) ∧
    (s.planStepDue = true → ∃ t, exec .marginPlanStep s = .next t ∧ t.kites = s.kites ∧ t.sec = s.sec ∧ ∀ d : Fin 4, t.die d.val =
      if (s.die d.val).wants = true then { s.die d.val with
        wants := false, vdie := min 8000 ((s.die d.val).vdie + 25), steps := min 65535 ((s.die d.val).steps + 1) } else s.die d.val) ∧
    (s.pwr.dayAt + 86400000000000 ≤ s.now → ∃ t, exec .marginPlanSave s = .next t ∧ t.pwr = { s.pwr with dayAt := s.now } ∧ kept t = some s.marginNow) ∧
    (s.now < s.pwr.dayAt + 86400000000000 → exec .marginPlanSave s = .next s) ∧
    (s.barUp = true → s.pwr.taken = false → s.pwr.armed = false → ∃ t, exec (.mstepArm true) s = .next t ∧ t.pwr = { s.pwr with armed := true } ∧
      kept t = some { s.marginNow with armed := true }) ∧
    (exec (.mstepArm false) s = .next s ∧ (s.pwr.taken = true ∨ s.pwr.armed = true → exec (.mstepArm true) s = .next s))

/-! ### Registers -/

/-- R7–R9, R283, R317, R363, R419–R421, R425: a write takes the fields of its register, or of the half it carries; of one that only reads it
changes nothing, and at an offset with no register it is counted and logged. TICK_CFG and an export target are held while they are in
use; a locked field is held for good; TAIL of the log moves up to HEAD only. What is held back is logged: an event is counted by class and
merged into the newest record, or it takes the next SEQ and the position at HEAD, or, in a full ring, the oldest record of class C, S or V
gives way to one of class D, U or F. -/
def Obligations.RegisterWrites : Prop :=
  ∀ (s : State) (v : BitVec 64), s.barUp = true →
    let b := fun i n => bits v.toNat i n
    let good := 1000 ≤ b 0 17 ∧ b 0 17 ≤ 100000 ∧ 10 ≤ b 17 8 ∧ b 17 8 ≤ 250 ∧ b 25 7 ≤ 50 ∧ 1 ≤ b 32 7 ∧ b 32 7 ≤ 100
    let p := s.pgm
    let l := s.lnk
    let x := s.sec
    (∀ off ∈ [0x000000#26, 0x100010#26, 0x200000#26, 0x300010#26, 0x3000400#26, 0x3800000#26], exec (.registerWrite off false v) s = .next s) ∧
    (∀ off ∈ [0x0FFFF8#26, 0x100078#26, 0x2000A8#26, 0x300004#26, 0x380FFF8#26], exec (.registerWrite off false v) s = .next s.badReg) ∧
    (s.sch.stopped = true → good → exec (.registerWrite 0x100008 false v) s = .next { s with sch := { s.sch with
      period := b 0 17, ballast := b 17 8, gshare := b 25 7, xshare := b 32 7 } }) ∧
    (s.sch.stopped = false ∨ ¬good → exec (.registerWrite 0x100008 false v) s = .next (s.ignoredReg uSch)) ∧
    exec (.registerWrite 0x200020 false v) s = .next { s with pgm := { p with arg1 := v.toNat } } ∧
    exec (.registerWrite 0x200020 true v) s = .next { s with pgm := { p with arg1 := b 0 32 + 2 ^ 32 * (p.arg1 / 2 ^ 32 % 2 ^ 32) } } ∧
    exec (.registerWrite 0x200024 true v) s = .next { s with pgm := { p with arg1 := p.arg1 % 2 ^ 32 + 2 ^ 32 * b 0 32 } } ∧
    exec (.registerWrite 0x300000 false v) s = .next { s with xpt := { s.xpt with en := v.getLsbD 0, rxen := v.getLsbD 1 } } ∧
    exec (.registerWrite 0x3C00000 false v) s = .next { s with tel := { s.tel with thresh := b 0 13 } } ∧
    (l.lock = true → b 0 20 ≠ l.modId ∨ v.getLsbD 20 = false →
      exec (.registerWrite 0x460000 false v) s = .next (s.log ⟨.v, uPort, evRegLocked, 0xFFFF, 0xFFFF, 0⟩)) ∧
    (l.lock = true → b 0 20 = l.modId → v.getLsbD 20 = true → exec (.registerWrite 0x460000 false v) s = .next s) ∧
    (x.lock = false → exec (.registerWrite 0x3800028 false v) s = .next { s with sec := { x with
      lockProf := v.getLsbD 0, lockUpd := v.getLsbD 1, lock := v.getLsbD 2 } }) ∧
    (x.lock = true → v.getLsbD 0 ≠ x.lockProf ∨ v.getLsbD 1 ≠ x.lockUpd ∨ v.getLsbD 2 = false →
      exec (.registerWrite 0x3800028 false v) s = .next (s.log ⟨.v, uBoot, evRegLocked, 0xFFFF, 0xFFFF, 0⟩)) ∧
    (∀ (t : Fin 256) (w : Fin 8),
      let used := (s.tel.xEn = true ∧ s.tel.xTarget = t.val) ∨ ∃ n y, (n, y) ∈ s.xpt.streams ∧ y.active = true ∧ y.target = t.val
      (used → exec (.targetWrite t w v) s = .next (s.ignoredReg uXpt t.val)) ∧
      (¬used → (s.target t.val).length = 64 → ∃ e, exec (.targetWrite t w v) s = .next { s with xpt := { s.xpt with targets := mapSet s.xpt.targets t.val e } } ∧
        ∀ i, i < 64 → e.getD i 0 = if 8 * w.val ≤ i ∧ i < 8 * w.val + 8 then BitVec.ofNat 8 (v.toNat / 2 ^ (8 * (i - 8 * w.val)))
          else (s.target t.val).getD i 0)) ∧
    (v.getLsbD 0 = false ∨ (s.targetUsable (b 1 8) = true ∧ tKind (s.target (b 1 8)) ≠ 4) →
      exec (.txcfgWrite v) s = .next { s with tel := { s.tel with xEn := v.getLsbD 0, xTarget := b 1 8 } }) ∧
    (v.getLsbD 0 = true → s.targetUsable (b 1 8) = false ∨ tKind (s.target (b 1 8)) = 4 → exec (.txcfgWrite v) s = .next (s.ignoredReg uHost)) ∧
    (∀ n : BitVec 32, ((n.toNat + 2 ^ 32 - s.tel.tail) % 2 ^ 32 ≤ s.tel.unread → exec (.logTailWrite n) s = .next { s with tel := { s.tel with tail := n.toNat } }) ∧
      (s.tel.unread < (n.toNat + 2 ^ 32 - s.tel.tail) % 2 ^ 32 → exec (.logTailWrite n) s = .next (s.ignoredReg uHost))) ∧
    ∀ e : Ev,
      let t := (s.log e).tel
      let r : LogRec := ⟨s.pwr.tb, s.tel.seq, e, 1⟩
      let merges := fun (o : LogRec) => s.tel.newest = some o ∧ o.ev.cls = e.cls ∧ o.ev.event = e.event ∧ o.ev.loc = e.loc ∧ o.ev.info = e.info ∧
        s.pwr.tb ≤ o.time + 1000000
      let full := s.tel.unread = 4096 ∧ ∀ o, ¬merges o
      let at_ := fun i => ((s.tel.tail + i) % 4096)
      logOnly s (s.log e) ∧
      (∀ c, mapGetD t.cnt c 0 = if c = e.cls.code then (mapGetD s.tel.cnt c 0 + 1) % 2 ^ 64 else mapGetD s.tel.cnt c 0) ∧
      (∀ o, merges o → t.newest = some { o with count := min (o.count + 1) (2 ^ 32 - 1) } ∧ t.seq = s.tel.seq ∧ t.head = s.tel.head ∧ t.lost = s.tel.lost) ∧
      ((∀ o, ¬merges o) → s.tel.unread < 4096 → t.seq = (s.tel.seq + 1) % 2 ^ 32 ∧ t.head = (s.tel.head + 1) % 2 ^ 32 ∧ t.lost = s.tel.lost ∧
        ((∀ o, mapGet s.tel.ring ((s.tel.head % 4096 + 4095) % 4096) = some o → o.time ≠ s.pwr.tb) → t.newest = some r ∧
          mapGet t.ring (s.tel.head % 4096) = some r ∧ ∀ i, i ≠ s.tel.head % 4096 → mapGet t.ring i = mapGet s.tel.ring i)) ∧
      (full → e.cls ∈ [.c, .s, .v] → t.ring = s.tel.ring ∧ t.seq = s.tel.seq ∧ t.head = s.tel.head ∧ t.lost = min (s.tel.lost + 1) (2 ^ 32 - 1)) ∧
      (full → e.cls ∉ [.c, .s, .v] → t.head = s.tel.head ∧ t.lost = min (s.tel.lost + 1) (2 ^ 32 - 1) ∧
        (∀ i o, i < 4096 → mapGet s.tel.ring (at_ i) = some o → o.ev.cls ∈ [.c, .s, .v] →
          (∀ j < i, ∃ o', mapGet s.tel.ring (at_ j) = some o' ∧ o'.ev.cls ∉ [.c, .s, .v]) →
          mapGet t.ring (at_ i) = some r ∧ t.seq = (s.tel.seq + 1) % 2 ^ 32 ∧ ∀ k, k ≠ at_ i → mapGet t.ring k = mapGet s.tel.ring k) ∧
        ((∀ i < 4096, ∃ o', mapGet s.tel.ring (at_ i) = some o' ∧ o'.ev.cls ∉ [.c, .s, .v]) → t.ring = s.tel.ring ∧ t.seq = s.tel.seq))

/-! ### Reset, flash and attestation -/

/-- R404–R408, R417, R434, R435: a low level of PERST_N of 1 µs, and the RESET of SEC.UPDATE, reset the module, which keeps its flash and
nothing it computed, and a shorter one is ignored; a loss of power also stops every clock. A start whose components verify reaches READY
from the primary set, or from the recovery set, with its failed-start count 0; one with RECOVERY_N low, or with both sets bad for the
third time, ends in minimal mode. -/
def Obligations.ResetsAndStart : Prop :=
  ∀ s : State,
    let fresh := fun (t : State) => t.kites = [] ∧ t.pgm = {} ∧ t.sch = {} ∧ t.tel = {} ∧ t.brd = {} ∧ t.xpt = {} ∧ t.sec.stage = 0 ∧
      (s.sec.busy = none → t.sec.primary = s.sec.primary ∧ t.sec.recovery = s.sec.recovery) ∧ t.hst.queues = []
    let ok := fun (x : Sec) (dev : Bool) => ∀ k ∈ [1, 2, 3], ∃ c, (if dev then x.recovery else x.primary).comp k = some c ∧ c.good = true ∧ floorOf x.floor k ≤ c.svn
    let env : BootEnv := ⟨true, 0, true, none, none, none⟩
    (∀ ns, 1000 ≤ ns → ∃ t, exec (.perst false ns) s = .next t ∧ fresh t ∧ t.pins.perstN = false) ∧
    (∀ ns, ns < 1000 → exec (.perst false ns) s = .next s) ∧
    (∀ ns, exec (.perst true ns) s = .next { s with pins := { s.pins with perstN := true } }) ∧
    (s.glbUp = true → ∃ t, exec .reset s = .next t ∧ fresh t ∧ t.pins.perstN = s.pins.perstN) ∧
    (s.pins.pwrGood = false → ∃ t, exec .pwrGoodRise s = .next t ∧ fresh t ∧ t.pins.pwrGood = true) ∧
    (s.pins.pwrGood = true → exec .pwrGoodRise s = .next s) ∧
    (∃ t, exec .powerLoss s = .next t ∧ fresh t ∧ t.pins.pwrGood = false ∧ t.pwr.stopped = List.range 100) ∧
    (∀ i, s.pins.pwrGood = true → s.pins.perstN = true → s.sec.busy = none → readRec s.sec.primary.ident s.sec.recovery.ident = some i →
      (ok s.sec false → ∃ t, exec (.moduleReset env) s = .next t ∧ t.sec.stage = 4 ∧ t.sec.set = false ∧ t.sec.ident = some i ∧
        t.sec.boot.fails = 0 ∧ t.sch.stopped = true ∧ t.kites = [] ∧ t.pgm.mem = [] ∧ t.pwr.stopped.contains 0 = false) ∧
      (¬ok s.sec false → ok s.sec true → ∃ t, exec (.moduleReset env) s = .next t ∧ t.sec.stage = 4 ∧ t.sec.set = true ∧ t.sec.boot.fails = 0)) ∧
    (s.pins.pwrGood = true → s.pins.perstN = true → ∀ e : BootEnv, e.recoveryN = false → ∃ t, exec (.moduleReset e) s = .next t ∧
      t.sec.stage = 7 ∧ t.sec.code = 1 ∧ t.sec.recPin = true) ∧
    (s.pins.pwrGood = true → s.pins.perstN = true → s.sec.busy = none → s.sec.boot.fails = 2 → ¬ok s.sec false → ¬ok s.sec true →
      ∃ t, exec (.moduleReset env) s = .next t ∧ t.sec.stage = 7 ∧ t.sec.code = 2) ∧
    (∀ stage : Fin 4, s.pins.pwrGood = true → s.pins.perstN = true → s.sec.stage = 0 → s.sec.boot.fails = 2 →
      ∃ t, exec (.bootStageTimeout stage) s = .next t ∧ t.sec.stage = 7 ∧ t.sec.code = 5 ∧ t.sec.detail = stage.val + 1) ∧
    (∀ stage : Fin 4, s.pins.pwrGood = false ∨ s.pins.perstN = false ∨ 3 < s.sec.stage → exec (.bootStageTimeout stage) s = .next s)

/-- R405, R409–R412, Table 18.4: COMPONENT and PROFILES of a set that passes every check begin a write of flash; another write in progress,
a lock, a header out of range, a component that does not verify, one under its floor, and a floor above a stored component refuse them
with their status. A write that ends well leaves its component, with status 0; one that
fails leaves it unverifiable, with status 6. PROFILE_NEXT stores the profile of the next start unless it is locked. -/
def Obligations.FlashUpdates : Prop :=
  ∀ s : State,
    let at_ := fun (dev : Bool) (c : Nat) => { s with sec := { s.sec with dev := dev, status := c } }
    let staged := fun n => (List.range n).map fun i => mapGetD s.sec.staging i 0
    (∀ dev, s.glbUp = true → s.sec.busy ≠ none → exec (.component dev) s = .next (at_ dev 4)) ∧
    (∀ dev, s.glbUp = true → s.sec.busy = none → s.sec.lockUpd = true → exec (.component dev) s = .next (at_ dev 5)) ∧
    (∀ dev, s.minimal = true → s.sec.busy = none → s.sec.lockUpd = false → badHeader (staged 0x800) = true → exec (.component dev) s = .next (at_ dev 1)) ∧
    (∀ dev, s.minimal = true → s.sec.busy = none → s.sec.lockUpd = false → badHeader (staged 0x800) = false →
      let l := staged (0x800 + fieldLe (staged 0x800) 0xC 4 + 3309)
      let k := fieldLe l 4 1
      let svn := fieldLe l 8 2
      let old := s.sec.floor
      let f := (max old.1 (fieldLe l 0x800 2), max old.2.1 (fieldLe l 0x802 2), max old.2.2 (fieldLe l 0x804 2))
      let begun := fun op => { s with sec := { s.sec with dev := dev, busy := some op } }
      exec (.component dev) s = .next (if componentGood l (fieldLe l 0xC 4) = false then at_ dev 2
        else if k = 4 then (if s.sec.floorSafe f = true then begun (.floor_ f) else at_ dev 7)
        else if svn < floorOf old k then at_ dev 3 else begun (.comp dev k ⟨true, svn, fieldLe l 0xA 2, fieldLe l 0x10 32⟩))) ∧
    (s.barUp = true → s.sec.busy ≠ none → exec .profiles s = .next { s with sec := { s.sec with status := 4 } }) ∧
    (s.barUp = true → s.sec.busy = none → s.sec.lockProf = true → exec .profiles s = .next { s with sec := { s.sec with status := 5 } }) ∧
    (∀ l u ps, s.barUp = true → s.minimal = false → s.sec.busy = none → s.sec.lockProf = false → inTiers s.sec.addr = true →
      inTiers (s.sec.addr + 575) = true → s.readMem s.sec.addr 576 = (l, [], u) → ps.length = 4 →
      (∀ i, i < 4 → profileOf (sliceBytes l (144 * i) 144) i = ps[i]?) →
      exec .profiles s = .next { u with sec := { u.sec with busy := some (.profs ps) } }) ∧
    (∀ dev k c, k ∈ [1, 2, 3] → s.sec.busy = some (.comp dev k c) →
      (∃ t, exec (.updateDone true) s = .next t ∧ t.sec.status = 0 ∧ t.sec.busy = none ∧ (if dev then t.sec.recovery else t.sec.primary).comp k = some c ∧
        (if dev then t.sec.primary = s.sec.primary else t.sec.recovery = s.sec.recovery)) ∧
      ∃ t, exec (.updateDone false) s = .next t ∧ t.sec.status = 6 ∧ t.sec.busy = none ∧
        ∀ c, (if dev then t.sec.recovery else t.sec.primary).comp k = some c → c.good = false) ∧
    (s.sec.busy = none → ∀ b, exec (.updateDone b) s = .next s) ∧
    (∀ v : BitVec 64, (s.glbUp = true → s.sec.lockProf = false → ∃ t, exec (.profileNextWrite v) s = .next t ∧ t.sec.boot.next = (v.getLsbD 2, v.toNat % 4) ∧
        t.sec.boot.fails = s.sec.boot.fails ∧ t.kites = s.kites) ∧
      (s.sec.lockProf = true → exec (.profileNextWrite v) s = .next s))

/-- R415, R416, R426, R428: with PWR_GOOD high the management bus answers: version and capabilities, the algorithms where both are
offered, and then digests, a part of the chain, a challenge and measurements, signed where that is asked; out of order, or with
another version, it answers an error and nothing else changes. A sensor of Table 19.5 answers its value, and any other as invalid. -/
def Obligations.Attestation : Prop :=
  ∀ (s : State) (f : SpdmF), s.pins.pwrGood = true → s.glbUp = true →
    let replies := fun (c : Instr) (code : Nat) (d : List Byte) => exec c s = .next { s with out := s.out ++ [.spdm code d] }
    let x := s.sec
    let chain := ((x.ident).map (·.cert)).getD []
    (f.version = 0x10 → exec (.getVersion f) s = .next { s with
      sec := { x with spdmVer := true, spdmCap := false, spdmAlg := false }, out := s.out ++ [.spdm 0x04 [0, 1, 0x00, 0x14]] }) ∧
    (f.version ≠ 0x10 → replies (.getVersion f) 0x7F [0x41, 0]) ∧
    (f.version = 0x14 → x.spdmVer = true → exec (.getCapabilities f) s = .next { s with
      sec := { x with spdmCap := true, spdmAlg := false }, out := s.out ++ [.spdm 0x61 [0x36, 0, 0, 0]] }) ∧
    (f.version = 0x14 → x.spdmVer = false → replies (.getCapabilities f) 0x7F [0x04, 0]) ∧
    (f.version = 0x14 → x.spdmCap = true → f.asym.getLsbD 1 = true → f.hash.getLsbD 4 = true → exec (.negotiateAlgorithms f) s = .next { s with
      sec := { x with spdmAlg := true }, out := s.out ++ [.spdm 0x63 [2, 0, 0, 0, 0, 0, 0, 0, 16, 0, 0, 0]] }) ∧
    (f.version = 0x14 → x.spdmAlg = false → ∀ c ∈ [Instr.getDigests f, .getCertificate f, .challenge f, .getMeasurements f], replies c 0x7F [0x04, 0]) ∧
    (f.version = 0x14 → x.spdmAlg = true → replies (.getDigests f) 0x01 (1 :: sha3x384 chain) ∧
      (f.p1.toNat % 16 = 0 → f.off.toNat < chain.length → ∃ part, part = (chain.drop f.off.toNat).take f.len.toNat ∧ replies (.getCertificate f) 0x02
        (leBytes 2 part.length ++ leBytes 2 (chain.length - f.off.toNat - part.length) ++ part)) ∧
      (f.p1 = 0 → chain ≠ [] → ∃ t d, exec (.challenge f) s = .next t ∧ t.out = s.out ++ [.spdm 0x03 d] ∧ sha3x384 chain <+: d ∧
        t.sec = x ∧ t.kites = s.kites) ∧
      (f.p1.getLsbD 0 = false → f.p2 = 0 → replies (.getMeasurements f) 0x60 [24]) ∧
      (∀ i ∈ measureIdx, f.p1.getLsbD 0 = false → f.p2.toNat = i → replies (.getMeasurements f) 0x60
        (1 :: BitVec.ofNat 8 i :: leBytes 32 ((s.measurement i).getD 0))) ∧
      (∀ i ∈ measureIdx, f.p1.getLsbD 0 = true → f.p2.toNat = i → ∃ t sig, exec (.getMeasurements f) s = .next t ∧
        t.out = s.out ++ [.spdm 0x60 ((1 :: BitVec.ofNat 8 i :: leBytes 32 ((s.measurement i).getD 0)) ++ sig)] ∧ t.sec = x)) ∧
    (∀ id : BitVec 16, 1 ≤ id.toNat → id.toNat ≤ 15 → ∃ v, exec (.pldmSensorRequest id) s = .next { s with out := s.out ++ [.pldm id.toNat v] } ∧
      (id = 12 → v = s.reserve) ∧ (s.minimal = true → id = 10 → v = (s.die 4).tj)) ∧
    (∀ id : BitVec 16, id = 0 ∨ 15 < id.toNat → exec (.pldmSensorRequest id) s = .next { s with out := s.out ++ [.pldmInvalid id.toNat] })

/-! ### Reset values, memory and encodings -/

/-- §8.10, R19, R130, R153, R229, R280, R292, R366, R404, Tables 11.5 and 13.5: what a module reset leaves. No command waits; every keel is
halted; memory holds zeros; the scheduler is stopped, with the values of Table 13.3; every request slot is FREE, every queue and port
off, the log empty, the timebase 0, and the start has not begun. -/
def Obligations.ResetState : Prop :=
  let s := State.reset
  s.pending = [] ∧ s.cyc = 0 ∧ s.out = [] ∧
  (∀ k, (s.kite k).st = .halted ∧ (s.kite k).stopped = true ∧ (s.kite k).hold = none ∧ (∀ n, (s.kite k).sreg n = 0) ∧ (s.kite k).anchor = none ∧
    (s.kite k).passes = [] ∧ (s.kite k).chain = none ∧ ∀ c, ((s.kite k).chan c).queue = []) ∧
  (∀ a, memRead s.pgm.mem a = 0) ∧ memWf s.pgm.mem = true ∧ memWf s.hst.mem = true ∧ s.pgm.epoch = 0 ∧ s.pgm.index = [] ∧ s.pgm.spaces = [] ∧
  s.sch.run = false ∧ s.sch.stopped = true ∧ s.sch.period = 20000 ∧ s.sch.ballast = 30 ∧ s.sch.gshare = 10 ∧ s.sch.xshare = 80 ∧ s.sch.serve = 0x124 ∧
  (∀ n, (s.req n).st = .free ∧ (s.stream n).st = .none) ∧ (∀ q, (s.queue q).en = false) ∧ (∀ p, (s.port p).en = false ∧ (s.port p).st = 0) ∧
  (∀ b, s.bcount b = 0) ∧ s.brd.trains = [] ∧ s.tel.head = 0 ∧ s.tel.tail = 0 ∧ s.tel.lost = 0 ∧ s.tel.thresh = 1024 ∧ s.lnk.modId = 0xFFFFF ∧
  s.pwr.tb = 0 ∧ s.pwr.src = 0 ∧ s.sec.stage = 0 ∧ s.sec.lock = false

/-- R229, R362 (the memories of the module and of the host): every step keeps both in the one canonical form in which equal memories are
equal data: rising addresses, and no byte of zero. -/
def Obligations.MemoryStaysCanonical : Prop :=
  ∀ s t : State, memWf s.pgm.mem = true → memWf s.hst.mem = true → step s = .next t → memWf t.pgm.mem = true ∧ memWf t.hst.mem = true

/-- R177, R178, Tables 8.1, 9.2, 9.4, 9.6, 9.7 and 9.9: the encoding of every instruction of every slot fits its slot and decodes to that
instruction, every field at every value it admits; and a bundle gives each slot its own word, the S slot that of the extension word
beside BRB and LOOP, with which it issues nothing. -/
def Obligations.SlotDecodeEncode : Prop :=
  (∀ (i : Instr) (w : Nat), encodeC i = some w → w < 2 ^ 32 ∧ encodeX i < 2 ^ 32 ∧ ∃ k, decodeC k w (encodeX i) = .ins i) ∧
  (∀ (i : Instr) (w : Nat), encodeM i = some w → w < 2 ^ 64 ∧ ∃ k, decodeM k w = .ins i) ∧
  (∀ (i : Instr) (w : Nat), encodeV i = some w → w < 2 ^ 64 ∧ ∃ k, decodeV k w = .ins i) ∧
  (∀ (i : Instr) (w : Nat), encodeD i = some w → w < 2 ^ 64 ∧ ∃ k, decodeD k w = .ins i) ∧
  (∀ (i : Instr) (w : Nat), encodeS i = some w → w < 2 ^ 32 ∧ ∃ k, decodeS k w = .ins i) ∧
  ∀ (k : Fin 256) (c m v d s : Nat), c < 2 ^ 32 → m < 2 ^ 64 → v < 2 ^ 64 → d < 2 ^ 64 → s < 2 ^ 32 →
    decodeBundle k (c * 2 ^ 224 + m * 2 ^ 160 + v * 2 ^ 96 + d * 2 ^ 32 + s) =
      [decodeC k c s, decodeM k m, decodeV k v, decodeD k d, if c / 2 ^ 26 = 0x28 ∨ c / 2 ^ 26 = 0x29 then .nop else decodeS k s]
end

