-- ==== Sys2Proof/Laws/Dispatch.lean ====
section
/-! SUPPORT. The dispatcher calls each command's meaning: one equation a command. -/
namespace Sys2Proof.Machine

theorem exec_add (k : Fin 256) (f : CR) (s : State) : exec (.add k f) s = execAdd k f s := rfl
theorem exec_sub (k : Fin 256) (f : CR) (s : State) : exec (.sub k f) s = execSub k f s := rfl
theorem exec_and (k : Fin 256) (f : CR) (s : State) : exec (.and k f) s = execAnd k f s := rfl
theorem exec_or (k : Fin 256) (f : CR) (s : State) : exec (.or k f) s = execOr k f s := rfl
theorem exec_xor (k : Fin 256) (f : CR) (s : State) : exec (.xor k f) s = execXor k f s := rfl
theorem exec_shl (k : Fin 256) (f : CR) (s : State) : exec (.shl k f) s = execShl k f s := rfl
theorem exec_shr (k : Fin 256) (f : CR) (s : State) : exec (.shr k f) s = execShr k f s := rfl
theorem exec_sra (k : Fin 256) (f : CR) (s : State) : exec (.sra k f) s = execSra k f s := rfl
theorem exec_mul (k : Fin 256) (f : CR) (s : State) : exec (.mul k f) s = execMul k f s := rfl
theorem exec_sel (k : Fin 256) (f : CR) (s : State) : exec (.sel k f) s = execSel k f s := rfl
theorem exec_mov (k : Fin 256) (f : CR) (s : State) : exec (.mov k f) s = execMov k f s := rfl
theorem exec_addi (k : Fin 256) (f : CI) (s : State) : exec (.addi k f) s = execAddi k f s := rfl
theorem exec_andi (k : Fin 256) (f : CI) (s : State) : exec (.andi k f) s = execAndi k f s := rfl
theorem exec_ori (k : Fin 256) (f : CI) (s : State) : exec (.ori k f) s = execOri k f s := rfl
theorem exec_xori (k : Fin 256) (f : CI) (s : State) : exec (.xori k f) s = execXori k f s := rfl
theorem exec_shli (k : Fin 256) (f : CI) (s : State) : exec (.shli k f) s = execShli k f s := rfl
theorem exec_shri (k : Fin 256) (f : CI) (s : State) : exec (.shri k f) s = execShri k f s := rfl
theorem exec_srai (k : Fin 256) (f : CI) (s : State) : exec (.srai k f) s = execSrai k f s := rfl
theorem exec_muli (k : Fin 256) (f : CI) (s : State) : exec (.muli k f) s = execMuli k f s := rfl
theorem exec_li (k : Fin 256) (f : CL) (s : State) : exec (.li k f) s = execLi k f s := rfl
theorem exec_lih (k : Fin 256) (f : CH) (s : State) : exec (.lih k f) s = execLih k f s := rfl
theorem exec_cmp (k : Fin 256) (f : CC) (s : State) : exec (.cmp k f) s = execCmp k f s := rfl
theorem exec_cmpi (k : Fin 256) (f : CCI) (s : State) : exec (.cmpi k f) s = execCmpi k f s := rfl
theorem exec_ld (k : Fin 256) (f : CM) (s : State) : exec (.ld k f) s = execLd k f s := rfl
theorem exec_st (k : Fin 256) (f : CM) (s : State) : exec (.st k f) s = execSt k f s := rfl
theorem exec_csrr (k : Fin 256) (f : CS) (s : State) : exec (.csrr k f) s = execCsrr k f s := rfl
theorem exec_csrw (k : Fin 256) (f : CS) (s : State) : exec (.csrw k f) s = execCsrw k f s := rfl
theorem exec_brb (k : Fin 256) (f : CB) (s : State) : exec (.brb k f) s = execBrb k f s := rfl
theorem exec_brbJoin (k : Fin 256) (s : State) : exec (.brbJoin k) s = execBrbJoin k s := rfl
theorem exec_loop (k : Fin 256) (f : CP) (s : State) : exec (.loop k f) s = execLoop k f s := rfl
theorem exec_loopPadEnd (k : Fin 256) (s : State) : exec (.loopPadEnd k) s = execLoopPadEnd k s := rfl
theorem exec_stepend (k : Fin 256) (f : CZ) (s : State) : exec (.stepend k f) s = execStepend k f s := rfl
theorem exec_halt (k : Fin 256) (f : CZ) (s : State) : exec (.halt k f) s = execHalt k f s := rfl
theorem exec_mset (k : Fin 256) (f : MSetF) (s : State) : exec (.mset k f) s = execMset k f s := rfl
theorem exec_mfeed (k : Fin 256) (f : MFeedF) (s : State) : exec (.mfeed k f) s = execMfeed k f s := rfl
theorem exec_passLastUpdate (k : Fin 256) (s : State) : exec (.passLastUpdate k) s = execPassLastUpdate k s := rfl
theorem exec_deflation (k : Fin 256) (s : State) : exec (.deflation k) s = execDeflation k s := rfl
theorem exec_mswap (k : Fin 256) (f : MSwapF) (s : State) : exec (.mswap k f) s = execMswap k f s := rfl
theorem exec_mseed (k : Fin 256) (f : MSeedF) (s : State) : exec (.mseed k f) s = execMseed k f s := rfl
theorem exec_mseedComplete (k : Fin 256) (s : State) : exec (.mseedComplete k) s = execMseedComplete k s := rfl
theorem exec_mzero (k : Fin 256) (f : MZeroF) (s : State) : exec (.mzero k f) s = execMzero k f s := rfl
theorem exec_testDrain (k : Fin 256) (v : BitVec 64) (s : State) : exec (.testDrain k v) s = execTestDrain k v s := rfl
theorem exec_testDrainDone (k : Fin 256) (s : State) : exec (.testDrainDone k) s = execTestDrainDone k s := rfl
theorem exec_vadd (k : Fin 256) (f : VA) (s : State) : exec (.vadd k f) s = execVadd k f s := rfl
theorem exec_vsub (k : Fin 256) (f : VA) (s : State) : exec (.vsub k f) s = execVsub k f s := rfl
theorem exec_vmul (k : Fin 256) (f : VA) (s : State) : exec (.vmul k f) s = execVmul k f s := rfl
theorem exec_vfma (k : Fin 256) (f : VA) (s : State) : exec (.vfma k f) s = execVfma k f s := rfl
theorem exec_vmin (k : Fin 256) (f : VA) (s : State) : exec (.vmin k f) s = execVmin k f s := rfl
theorem exec_vmax (k : Fin 256) (f : VA) (s : State) : exec (.vmax k f) s = execVmax k f s := rfl
theorem exec_vneg (k : Fin 256) (f : VA) (s : State) : exec (.vneg k f) s = execVneg k f s := rfl
theorem exec_vabs (k : Fin 256) (f : VA) (s : State) : exec (.vabs k f) s = execVabs k f s := rfl
theorem exec_vceq (k : Fin 256) (f : VA) (s : State) : exec (.vceq k f) s = execVceq k f s := rfl
theorem exec_vcne (k : Fin 256) (f : VA) (s : State) : exec (.vcne k f) s = execVcne k f s := rfl
theorem exec_vclt (k : Fin 256) (f : VA) (s : State) : exec (.vclt k f) s = execVclt k f s := rfl
theorem exec_vcle (k : Fin 256) (f : VA) (s : State) : exec (.vcle k f) s = execVcle k f s := rfl
theorem exec_vcgt (k : Fin 256) (f : VA) (s : State) : exec (.vcgt k f) s = execVcgt k f s := rfl
theorem exec_vcge (k : Fin 256) (f : VA) (s : State) : exec (.vcge k f) s = execVcge k f s := rfl
theorem exec_vsel (k : Fin 256) (f : VA) (s : State) : exec (.vsel k f) s = execVsel k f s := rfl
theorem exec_vand (k : Fin 256) (f : VA) (s : State) : exec (.vand k f) s = execVand k f s := rfl
theorem exec_vor (k : Fin 256) (f : VA) (s : State) : exec (.vor k f) s = execVor k f s := rfl
theorem exec_vxor (k : Fin 256) (f : VA) (s : State) : exec (.vxor k f) s = execVxor k f s := rfl
theorem exec_vshl (k : Fin 256) (f : VA) (s : State) : exec (.vshl k f) s = execVshl k f s := rfl
theorem exec_vshr (k : Fin 256) (f : VA) (s : State) : exec (.vshr k f) s = execVshr k f s := rfl
theorem exec_vsra (k : Fin 256) (f : VA) (s : State) : exec (.vsra k f) s = execVsra k f s := rfl
theorem exec_cvt (k : Fin 256) (f : VK) (s : State) : exec (.cvt k f) s = execCvt k f s := rfl
theorem exec_vexp2 (k : Fin 256) (f : VF) (s : State) : exec (.vexp2 k f) s = execVexp2 k f s := rfl
theorem exec_vlog2 (k : Fin 256) (f : VF) (s : State) : exec (.vlog2 k f) s = execVlog2 k f s := rfl
theorem exec_vrcp (k : Fin 256) (f : VF) (s : State) : exec (.vrcp k f) s = execVrcp k f s := rfl
theorem exec_vrsqrt (k : Fin 256) (f : VF) (s : State) : exec (.vrsqrt k f) s = execVrsqrt k f s := rfl
theorem exec_vsqrt (k : Fin 256) (f : VF) (s : State) : exec (.vsqrt k f) s = execVsqrt k f s := rfl
theorem exec_vsinpi (k : Fin 256) (f : VF) (s : State) : exec (.vsinpi k f) s = execVsinpi k f s := rfl
theorem exec_vcospi (k : Fin 256) (f : VF) (s : State) : exec (.vcospi k f) s = execVcospi k f s := rfl
theorem exec_vtanh (k : Fin 256) (f : VF) (s : State) : exec (.vtanh k f) s = execVtanh k f s := rfl
theorem exec_vlogi (k : Fin 256) (f : VF) (s : State) : exec (.vlogi k f) s = execVlogi k f s := rfl
theorem exec_verf (k : Fin 256) (f : VF) (s : State) : exec (.verf k f) s = execVerf k f s := rfl
theorem exec_vshuf (k : Fin 256) (f : VH) (s : State) : exec (.vshuf k f) s = execVshuf k f s := rfl
theorem exec_vtree (k : Fin 256) (f : VT) (s : State) : exec (.vtree k f) s = execVtree k f s := rfl
theorem exec_vacc (k : Fin 256) (f : VQ) (s : State) : exec (.vacc k f) s = execVacc k f s := rfl
theorem exec_vsum (k : Fin 256) (f : VU) (s : State) : exec (.vsum k f) s = execVsum k f s := rfl
theorem exec_vld (k : Fin 256) (f : VM) (s : State) : exec (.vld k f) s = execVld k f s := rfl
theorem exec_vst (k : Fin 256) (f : VM) (s : State) : exec (.vst k f) s = execVst k f s := rfl
theorem exec_vchain (k : Fin 256) (f : VX) (s : State) : exec (.vchain k f) s = execVchain k f s := rfl
theorem exec_chainEnd (k : Fin 256) (s : State) : exec (.chainEnd k) s = execChainEnd k s := rfl
theorem exec_dmov (k : Fin 256) (f : DM) (s : State) : exec (.dmov k f) s = execDmov k f s := rfl
theorem exec_dpage (k : Fin 256) (f : DM) (s : State) : exec (.dpage k f) s = execDpage k f s := rfl
theorem exec_dsend (k : Fin 256) (f : DS) (s : State) : exec (.dsend k f) s = execDsend k f s := rfl
theorem exec_dexport (k : Fin 256) (f : DX) (s : State) : exec (.dexport k f) s = execDexport k f s := rfl
theorem exec_dfill (k : Fin 256) (f : DF) (s : State) : exec (.dfill k f) s = execDfill k f s := rfl
theorem exec_dcopy (k : Fin 256) (f : DC) (s : State) : exec (.dcopy k f) s = execDcopy k f s := rfl
theorem exec_moveComplete (k : Fin 256) (ch : Fin 4) (s : State) : exec (.moveComplete k ch) s = execMoveComplete k ch s := rfl
theorem exec_sig (k : Fin 256) (f : SSig) (s : State) : exec (.sig k f) s = execSig k f s := rfl
theorem exec_wait (k : Fin 256) (f : SWait) (s : State) : exec (.wait k f) s = execWait k f s := rfl
theorem exec_arrive (k : Fin 256) (f : SWait) (s : State) : exec (.arrive k f) s = execArrive k f s := rfl
theorem exec_waitr (k : Fin 256) (f : SWaitr) (s : State) : exec (.waitr k f) s = execWaitr k f s := rfl
theorem exec_fence (k : Fin 256) (f : SZ) (s : State) : exec (.fence k f) s = execFence k f s := rfl
theorem exec_tickwait (k : Fin 256) (f : SZ) (s : State) : exec (.tickwait k f) s = execTickwait k f s := rfl
theorem exec_plannedRelease (k : Fin 256) (s : State) : exec (.plannedRelease k) s = execPlannedRelease k s := rfl
theorem exec_bridleNotice (k : Fin 256) (s : State) : exec (.bridleNotice k) s = execBridleNotice k s := rfl
theorem exec_anchorTimeout (k : Fin 256) (s : State) : exec (.anchorTimeout k) s = execAnchorTimeout k s := rfl
theorem exec_haltReq (k : Fin 256) (s : State) : exec (.haltReq k) s = execHaltReq k s := rfl
theorem exec_resume (k : Fin 256) (s : State) : exec (.resume k) s = execResume k s := rfl
theorem exec_pmemDataWrite (k : Fin 256) (w : Fin 4) (v : BitVec 64) (s : State) : exec (.pmemDataWrite k w v) s = execPmemDataWrite k w v s := rfl
theorem exec_pmemDataRead (k : Fin 256) (w : Fin 4) (s : State) : exec (.pmemDataRead k w) s = execPmemDataRead k w s := rfl
theorem exec_chainmemWrite (k : Fin 256) (off : BitVec 15) (v : BitVec 64) (s : State) : exec (.chainmemWrite k off v) s = execChainmemWrite k off v s := rfl
theorem exec_reelCfgWrite (k : Fin 256) (r : Fin 32) (v : BitVec 64) (s : State) : exec (.reelCfgWrite k r v) s = execReelCfgWrite k r v s := rfl
theorem exec_offReq (k : Fin 256) (mask : BitVec 16) (s : State) : exec (.offReq k mask) s = execOffReq k mask s := rfl
theorem exec_onReq (k : Fin 256) (mask : BitVec 16) (s : State) : exec (.onReq k mask) s = execOnReq k mask s := rfl
theorem exec_bankPowerOff (k : Fin 256) (b : Fin 16) (s : State) : exec (.bankPowerOff k b) s = execBankPowerOff k b s := rfl
theorem exec_bankCloseTimeout (k : Fin 256) (b : Fin 16) (s : State) : exec (.bankCloseTimeout k b) s = execBankCloseTimeout k b s := rfl
theorem exec_bankWakeDone (k : Fin 256) (b : Fin 16) (s : State) : exec (.bankWakeDone k b) s = execBankWakeDone k b s := rfl
theorem exec_repair (k : Fin 256) (s : State) : exec (.repair k) s = execRepair k s := rfl
theorem exec_define (s : State) : exec (.define) s = execDefine s := rfl
theorem exec_delete (unit : BitVec 32) (s : State) : exec (.delete unit) s = execDelete unit s := rfl
theorem exec_launch (s : State) : exec (.launch) s = execLaunch s := rfl
theorem exec_launchGo (s : State) : exec (.launchGo) s = execLaunchGo s := rfl
theorem exec_unitCmdTimeout (s : State) : exec (.unitCmdTimeout) s = execUnitCmdTimeout s := rfl
theorem exec_haltUnit (unit : BitVec 32) (s : State) : exec (.haltUnit unit) s = execHaltUnit unit s := rfl
theorem exec_bridleEvaluation (b : BitVec 16) (fab : Nat) (s : State) : exec (.bridleEvaluation b fab) s = execBridleEvaluation b fab s := rfl
theorem exec_waitExpiry (b : BitVec 16) (k : Fin 256) (fab : Nat) (s : State) : exec (.waitExpiry b k fab) s = execWaitExpiry b k fab s := rfl
theorem exec_brdCountWrite (b : BitVec 16) (v : BitVec 32) (s : State) : exec (.brdCountWrite b v) s = execBrdCountWrite b v s := rfl
theorem exec_brdAdd (b : BitVec 16) (v : BitVec 32) (s : State) : exec (.brdAdd b v) s = execBrdAdd b v s := rfl
theorem exec_alloc (s : State) : exec (.alloc) s = execAlloc s := rfl
theorem exec_map (s : State) : exec (.map) s = execMap s := rfl
theorem exec_unmap (s : State) : exec (.unmap) s = execUnmap s := rfl
theorem exec_incref (s : State) : exec (.incref) s = execIncref s := rfl
theorem exec_decref (s : State) : exec (.decref) s = execDecref s := rfl
theorem exec_dropspace (s : State) : exec (.dropspace) s = execDropspace s := rfl
theorem exec_migrate (s : State) : exec (.migrate) s = execMigrate s := rfl
theorem exec_migrateCopyDone (frame : BitVec 48) (s : State) : exec (.migrateCopyDone frame) s = execMigrateCopyDone frame s := rfl
theorem exec_stepBoundary (s : State) : exec (.stepBoundary) s = execStepBoundary s := rfl
theorem exec_epochRetire (s : State) : exec (.epochRetire) s = execEpochRetire s := rfl
theorem exec_patrolScrub (tier : Fin 2) (mib : Nat) (s : State) : exec (.patrolScrub tier mib) s = execPatrolScrub tier mib s := rfl
theorem exec_hbmPhyCalibration (h : Fin 8) (s : State) : exec (.hbmPhyCalibration h) s = execHbmPhyCalibration h s := rfl
theorem exec_loftCalibration (c : Fin 12) (s : State) : exec (.loftCalibration c) s = execLoftCalibration c s := rfl
theorem exec_loftWearLevelling (frame : BitVec 48) (s : State) : exec (.loftWearLevelling frame) s = execLoftWearLevelling frame s := rfl
theorem exec_pageCopyDone (s : State) : exec (.pageCopyDone) s = execPageCopyDone s := rfl
theorem exec_insert (s : State) : exec (.insert) s = execInsert s := rfl
theorem exec_remove (s : State) : exec (.remove) s = execRemove s := rfl
theorem exec_flush (s : State) : exec (.flush) s = execFlush s := rfl
theorem exec_runWrite (run : Bool) (s : State) : exec (.runWrite run) s = execRunWrite run s := rfl
theorem exec_tickStart (j : Nat) (s : State) : exec (.tickStart j) s = execTickStart j s := rfl
theorem exec_stepGo (s : State) : exec (.stepGo) s = execStepGo s := rfl
theorem exec_planFreeze (j : Nat) (s : State) : exec (.planFreeze j) s = execPlanFreeze j s := rfl
theorem exec_admissionRound (r : Nat) (s : State) : exec (.admissionRound r) s = execAdmissionRound r s := rfl
theorem exec_stepCut (j : Nat) (s : State) : exec (.stepCut j) s = execStepCut j s := rfl
theorem exec_exportDeadline (s : Fin 8192) (st : State) : exec (.exportDeadline s) st = execExportDeadline s st := rfl
theorem exec_sqTailDoorbell (q : Fin 64) (bytes : Nat) (v : BitVec 32) (s : State) : exec (.sqTailDoorbell q bytes v) s = execSqTailDoorbell q bytes v s := rfl
theorem exec_cqHeadDoorbell (q : Fin 64) (bytes : Nat) (v : BitVec 32) (s : State) : exec (.cqHeadDoorbell q bytes v) s = execCqHeadDoorbell q bytes v s := rfl
theorem exec_prefill (q : Fin 64) (e : Sqe) (s : State) : exec (.prefill q e) s = execPrefill q e s := rfl
theorem exec_cancel (q : Fin 64) (e : Sqe) (s : State) : exec (.cancel q e) s = execCancel q e s := rfl
theorem exec_loadModel (q : Fin 64) (e : Sqe) (s : State) : exec (.loadModel q e) s = execLoadModel q e s := rfl
theorem exec_modelLoadDone (m : Fin 16) (s : State) : exec (.modelLoadDone m) s = execModelLoadDone m s := rfl
theorem exec_unloadModel (q : Fin 64) (e : Sqe) (s : State) : exec (.unloadModel q e) s = execUnloadModel q e s := rfl
theorem exec_installVariant (q : Fin 64) (e : Sqe) (s : State) : exec (.installVariant q e) s = execInstallVariant q e s := rfl
theorem exec_variantInstallDone (v : BitVec 12) (s : State) : exec (.variantInstallDone v) s = execVariantInstallDone v s := rfl
theorem exec_removeVariant (q : Fin 64) (e : Sqe) (s : State) : exec (.removeVariant q e) s = execRemoveVariant q e s := rfl
theorem exec_qcfgWrite (q : Fin 64) (v : BitVec 64) (s : State) : exec (.qcfgWrite q v) s = execQcfgWrite q v s := rfl
theorem exec_queueBaseWrite (q : Fin 64) (cq : Bool) (v : BitVec 64) (s : State) : exec (.queueBaseWrite q cq v) s = execQueueBaseWrite q cq v s := rfl
theorem exec_queueDisableDone (q : Fin 64) (s : State) : exec (.queueDisableDone q) s = execQueueDisableDone q s := rfl
theorem exec_interruptTimeout (q : Fin 64) (s : State) : exec (.interruptTimeout q) s = execInterruptTimeout q s := rfl
theorem exec_bdpAddrWrite (v : BitVec 64) (s : State) : exec (.bdpAddrWrite v) s = execBdpAddrWrite v s := rfl
theorem exec_bdpWrite (o : BitVec 24) (data : List Byte) (s : State) : exec (.bdpWrite o data) s = execBdpWrite o data s := rfl
theorem exec_bdpRead (o : BitVec 24) (n : Nat) (s : State) : exec (.bdpRead o n) s = execBdpRead o n s := rfl
theorem exec_pcieLinkDown (s : State) : exec (.pcieLinkDown) s = execPcieLinkDown s := rfl
theorem exec_registerWrite (off : BitVec 26) (half : Bool) (v : BitVec 64) (s : State) : exec (.registerWrite off half v) s = execRegisterWrite off half v s := rfl
theorem exec_targetWrite (t : Fin 256) (w : Fin 8) (v : BitVec 64) (s : State) : exec (.targetWrite t w v) s = execTargetWrite t w v s := rfl
theorem exec_pageData (s : Fin 8192) (st : State) : exec (.pageData s) st = execPageData s st := rfl
theorem exec_manifest (s : Fin 8192) (st : State) : exec (.manifest s) st = execManifest s st := rfl
theorem exec_ack (rx : YRx) (msg : List Byte) (s : State) : exec (.ack rx msg) s = execAck rx msg s := rfl
theorem exec_nak (rx : YRx) (msg : List Byte) (s : State) : exec (.nak rx msg) s = execNak rx msg s := rfl
theorem exec_credit (rx : YRx) (msg : List Byte) (s : State) : exec (.credit rx msg) s = execCredit rx msg s := rfl
theorem exec_retransmitTimeout (s : Fin 8192) (st : State) : exec (.retransmitTimeout s) st = execRetransmitTimeout s st := rfl
theorem exec_rateIncrease (s : Fin 8192) (st : State) : exec (.rateIncrease s) st = execRateIncrease s st := rfl
theorem exec_sealedTimeout (s : Fin 8192) (st : State) : exec (.sealedTimeout s) st = execSealedTimeout s st := rfl
theorem exec_yaphor (r : LRx) (ctx : BitVec 16) (rsv : BitVec 16) (msg : List Byte) (s : State) : exec (.yaphor r ctx rsv msg) s = execYaphor r ctx rsv msg s := rfl
theorem exec_unitReq (r : LRx) (tag : BitVec 64) (cmd : BitVec 8) (rsv : BitVec 56) (desc : List Byte) (s : State) : exec (.unitReq r tag cmd rsv desc) s = execUnitReq r tag cmd rsv desc s := rfl
theorem exec_unitRsp (r : LRx) (tag : BitVec 64) (status : BitVec 8) (rsv : BitVec 56) (s : State) : exec (.unitRsp r tag status rsv) s = execUnitRsp r tag status rsv s := rfl
theorem exec_write (r : LRx) (f : LWrite) (rows : List Byte) (s : State) : exec (.write r f rows) s = execWrite r f rows s := rfl
theorem exec_writeDone (r : LRx) (tag : BitVec 64) (status : BitVec 8) (rsv : BitVec 56) (s : State) : exec (.writeDone r tag status rsv) s = execWriteDone r tag status rsv s := rfl
theorem exec_stepDesc (r : LRx) (tick : BitVec 64) (off : BitVec 32) (data : List Byte) (s : State) : exec (.stepDesc r tick off data) s = execStepDesc r tick off data s := rfl
theorem exec_schedCtlStart (r : LRx) (tick : BitVec 64) (t0 : BitVec 64) (cfg : BitVec 64) (rsv : BitVec 56) (s : State) : exec (.schedCtlStart r tick t0 cfg rsv) s = execSchedCtlStart r tick t0 cfg rsv s := rfl
theorem exec_schedCtlBoundary (r : LRx) (tick : BitVec 64) (rsv : BitVec 56) (s : State) : exec (.schedCtlBoundary r tick rsv) s = execSchedCtlBoundary r tick rsv s := rfl
theorem exec_schedCtlStop (r : LRx) (tick : BitVec 64) (rsv : BitVec 56) (s : State) : exec (.schedCtlStop r tick rsv) s = execSchedCtlStop r tick rsv s := rfl
theorem exec_stepDone (r : LRx) (tick : BitVec 64) (last : BitVec 32) (holds : BitVec 32) (s : State) : exec (.stepDone r tick last holds) s = execStepDone r tick last holds s := rfl
theorem exec_signal (r : LRx) (bridle : BitVec 32) (amt : BitVec 32) (s : State) : exec (.signal r bridle amt) s = execSignal r bridle amt s := rfl
theorem exec_lerboForward (r : LRx) (mtype : BitVec 8) (body : List Byte) (s : State) : exec (.lerboForward r mtype body) s = execLerboForward r mtype body s := rfl
theorem exec_hello (p : Fin 96) (f : HelloF) (s : State) : exec (.hello p f) s = execHello p f s := rfl
theorem exec_replay (p : Fin 96) (f : ReplayF) (s : State) : exec (.replay p f) s = execReplay p f s := rfl
theorem exec_replayRetry (p : Fin 96) (s : State) : exec (.replayRetry p) s = execReplayRetry p s := rfl
theorem exec_aackTimeout (p : Fin 96) (s : State) : exec (.aackTimeout p) s = execAackTimeout p s := rfl
theorem exec_laneLockLoss (p : Fin 96) (s : State) : exec (.laneLockLoss p) s = execLaneLockLoss p s := rfl
theorem exec_retrainTimeout (p : Fin 96) (s : State) : exec (.retrainTimeout p) s = execRetrainTimeout p s := rfl
theorem exec_trainingTimeout (p : Fin 96) (s : State) : exec (.trainingTimeout p) s = execTrainingTimeout p s := rfl
theorem exec_downRetry (p : Fin 96) (s : State) : exec (.downRetry p) s = execDownRetry p s := rfl
theorem exec_pllLockLoss (q : Fin 24) (s : State) : exec (.pllLockLoss q) s = execPllLockLoss q s := rfl
theorem exec_pcfgWrite (p : Fin 96) (v : BitVec 64) (s : State) : exec (.pcfgWrite p v) s = execPcfgWrite p v s := rfl
theorem exec_unquar (p : Fin 96) (s : State) : exec (.unquar p) s = execUnquar p s := rfl
theorem exec_ethernetFrame (p : Fin 96) (f : FrameF) (frame : List Byte) (s : State) : exec (.ethernetFrame p f frame) s = execEthernetFrame p f frame s := rfl
theorem exec_pfc (p : Fin 96) (en : BitVec 8) (quanta : BitVec 128) (s : State) : exec (.pfc p en quanta) s = execPfc p en quanta s := rfl
theorem exec_ptpMessage (p : Fin 96) (m : PtpF) (s : State) : exec (.ptpMessage p m) s = execPtpMessage p m s := rfl
theorem exec_pps (width : Nat) (s : State) : exec (.pps width) s = execPps width s := rfl
theorem exec_timebaseSourceTimeout (s : State) : exec (.timebaseSourceTimeout) s = execTimebaseSourceTimeout s := rfl
theorem exec_tbSet (v : BitVec 64) (s : State) : exec (.tbSet v) s = execTbSet v s := rfl
theorem exec_wakeRequest (d : Fin 100) (s : State) : exec (.wakeRequest d) s = execWakeRequest d s := rfl
theorem exec_sensorSample (x : Sensors) (s : State) : exec (.sensorSample x) s = execSensorSample x s := rfl
theorem exec_marginPlanStep (s : State) : exec (.marginPlanStep) s = execMarginPlanStep s := rfl
theorem exec_marginPlanSave (s : State) : exec (.marginPlanSave) s = execMarginPlanSave s := rfl
theorem exec_mstepArm (arm : Bool) (s : State) : exec (.mstepArm arm) s = execMstepArm arm s := rfl
theorem exec_txcfgWrite (v : BitVec 64) (s : State) : exec (.txcfgWrite v) s = execTxcfgWrite v s := rfl
theorem exec_logTailWrite (v : BitVec 32) (s : State) : exec (.logTailWrite v) s = execLogTailWrite v s := rfl
theorem exec_perst (level : Bool) (ns : Nat) (s : State) : exec (.perst level ns) s = execPerst level ns s := rfl
theorem exec_moduleReset (env : BootEnv) (s : State) : exec (.moduleReset env) s = execModuleReset env s := rfl
theorem exec_bootStageTimeout (stage : Fin 4) (s : State) : exec (.bootStageTimeout stage) s = execBootStageTimeout stage s := rfl
theorem exec_pwrGoodRise (s : State) : exec (.pwrGoodRise) s = execPwrGoodRise s := rfl
theorem exec_powerLoss (s : State) : exec (.powerLoss) s = execPowerLoss s := rfl
theorem exec_component (dev : Bool) (s : State) : exec (.component dev) s = execComponent dev s := rfl
theorem exec_profiles (s : State) : exec (.profiles) s = execProfiles s := rfl
theorem exec_reset (s : State) : exec (.reset) s = execReset s := rfl
theorem exec_profileNextWrite (v : BitVec 64) (s : State) : exec (.profileNextWrite v) s = execProfileNextWrite v s := rfl
theorem exec_getVersion (f : SpdmF) (s : State) : exec (.getVersion f) s = execGetVersion f s := rfl
theorem exec_getCapabilities (f : SpdmF) (s : State) : exec (.getCapabilities f) s = execGetCapabilities f s := rfl
theorem exec_negotiateAlgorithms (f : SpdmF) (s : State) : exec (.negotiateAlgorithms f) s = execNegotiateAlgorithms f s := rfl
theorem exec_getDigests (f : SpdmF) (s : State) : exec (.getDigests f) s = execGetDigests f s := rfl
theorem exec_getCertificate (f : SpdmF) (s : State) : exec (.getCertificate f) s = execGetCertificate f s := rfl
theorem exec_challenge (f : SpdmF) (s : State) : exec (.challenge f) s = execChallenge f s := rfl
theorem exec_getMeasurements (f : SpdmF) (s : State) : exec (.getMeasurements f) s = execGetMeasurements f s := rfl
theorem exec_pldmSensorRequest (id : BitVec 16) (s : State) : exec (.pldmSensorRequest id) s = execPldmSensorRequest id s := rfl
theorem exec_flit (p : Fin 96) (f : FlitF) (s : State) : exec (.flit p f) s = execFlit p f s := rfl
theorem exec_equalisationDone (p : Fin 96) (lock : Bool) (s : State) : exec (.equalisationDone p lock) s = execEqualisationDone p lock s := rfl
theorem exec_updateDone (ok : Bool) (s : State) : exec (.updateDone ok) s = execUpdateDone ok s := rfl
theorem exec_d3hot (enter : Bool) (s : State) : exec (.d3hot enter) s = execD3hot enter s := rfl

end Sys2Proof.Machine
end

