-- ==== Sys2Proof/Laws/Map.lean ====
section
/-! SUPPORT. Sparse tables and sparse memories: reads after writes, and that every operation keeps the canonical form. -/
namespace Sys2Proof.Machine

/-! ### Tables -/

/-- A key just set reads as set. -/
@[simp] theorem mapGet_mapSet_self {α : Type} (m : Map α) (k : Nat) (v : α) : mapGet (mapSet m k v) k = some v := by
  induction m with
  | nil => simp [mapSet, mapGet]
  | cons x rest ih =>
    obtain ⟨j, w⟩ := x
    simp only [mapSet]
    split
    · simp [mapGet]
    · split
      · simp [mapGet]
      · rename_i h1 h2
        simp [mapGet, h2, ih]

/-- Of two values put under one key the last stands. -/
@[simp] theorem mapSet_mapSet {α : Type} (m : Map α) (k : Nat) (v w : α) : mapSet (mapSet m k v) k w = mapSet m k w := by
  induction m with
  | nil => simp [mapSet]
  | cons e rest ih =>
    obtain ⟨j, u⟩ := e
    by_cases h : k < j
    · simp [mapSet, h]
    · by_cases g : j = k
      · simp [mapSet, g]
      · simp [mapSet, h, g, ih]

/-- Setting a key leaves the others. -/
theorem mapGet_mapSet_ne {α : Type} (m : Map α) (k j : Nat) (v : α) (h : j ≠ k) : mapGet (mapSet m k v) j = mapGet m j := by
  induction m with
  | nil => simp [mapSet, mapGet, Ne.symm h]
  | cons x rest ih =>
    obtain ⟨i, w⟩ := x
    simp only [mapSet]
    split
    · simp [mapGet, Ne.symm h]
    · split
      · rename_i h1 h2
        subst h2
        simp [mapGet, Ne.symm h]
      · simp only [mapGet, ih]

/-- Every key of a table lies above a bound. -/
def mapAbove {α : Type} (lo : Nat) : Map α → Bool
  | [] => true
  | (j, _) :: rest => decide (lo ≤ j) && mapAbove (j + 1) rest

/-- The canonical form says that the keys rise. -/
theorem mapWf_cons {α : Type} (j : Nat) (w : α) (rest : Map α) : mapWf ((j, w) :: rest) = mapAbove (j + 1) rest := by
  induction rest generalizing j w with
  | nil => simp [mapWf, mapAbove]
  | cons x rest ih =>
    obtain ⟨i, v⟩ := x
    simp only [mapWf, mapAbove]
    rw [ih i v]
    by_cases h : j < i
    · simp [h, Nat.succ_le_of_lt h]
    · have : ¬ (j + 1 ≤ i) := by omega
      simp [h, this]

/-- A table is canonical if its keys rise from 0. -/
theorem mapWf_eq_above {α : Type} (m : Map α) : mapWf m = mapAbove 0 m := by
  cases m with
  | nil => simp [mapWf, mapAbove]
  | cons x rest => obtain ⟨j, w⟩ := x; rw [mapWf_cons]; simp [mapAbove]

/-- A lower bound may fall. -/
theorem mapAbove_mono {α : Type} {lo lo' : Nat} (h : lo' ≤ lo) (m : Map α) (hm : mapAbove lo m = true) : mapAbove lo' m = true := by
  cases m with
  | nil => rfl
  | cons x rest =>
    obtain ⟨j, w⟩ := x
    simp only [mapAbove, Bool.and_eq_true, decide_eq_true_eq] at hm ⊢
    exact ⟨by omega, hm.2⟩

/-- Setting a key keeps the keys rising above a bound below it. -/
theorem mapAbove_mapSet {α : Type} (m : Map α) (lo k : Nat) (v : α) (hk : lo ≤ k) (hm : mapAbove lo m = true) :
    mapAbove lo (mapSet m k v) = true := by
  induction m generalizing lo with
  | nil => simp [mapSet, mapAbove, hk]
  | cons x rest ih =>
    obtain ⟨j, w⟩ := x
    simp only [mapAbove, Bool.and_eq_true, decide_eq_true_eq] at hm
    simp only [mapSet]
    split
    · rename_i h
      simp only [mapAbove, Bool.and_eq_true, decide_eq_true_eq]
      exact ⟨hk, by omega, hm.2⟩
    · split
      · rename_i h1 h2
        subst h2
        simp only [mapAbove, Bool.and_eq_true, decide_eq_true_eq]
        exact ⟨hk, hm.2⟩
      · simp only [mapAbove, Bool.and_eq_true, decide_eq_true_eq]
        exact ⟨hm.1, ih (j + 1) (by omega) hm.2⟩

/-- Setting a key keeps the canonical form. -/
theorem mapWf_mapSet {α : Type} (m : Map α) (k : Nat) (v : α) (h : mapWf m = true) : mapWf (mapSet m k v) = true := by
  rw [mapWf_eq_above] at h ⊢
  exact mapAbove_mapSet m 0 k v (Nat.zero_le k) h

/-- Taking a key out keeps the keys rising. -/
theorem mapAbove_mapDel {α : Type} (m : Map α) (lo k : Nat) (hm : mapAbove lo m = true) : mapAbove lo (mapDel m k) = true := by
  induction m generalizing lo with
  | nil => rfl
  | cons x rest ih =>
    obtain ⟨j, w⟩ := x
    simp only [mapAbove, Bool.and_eq_true, decide_eq_true_eq] at hm
    simp only [mapDel]
    split
    · exact mapAbove_mono (by omega) rest hm.2
    · simp only [mapAbove, Bool.and_eq_true, decide_eq_true_eq]
      exact ⟨hm.1, ih (j + 1) hm.2⟩

/-- Taking a key out keeps the canonical form. -/
theorem mapWf_mapDel {α : Type} (m : Map α) (k : Nat) (h : mapWf m = true) : mapWf (mapDel m k) = true := by
  rw [mapWf_eq_above] at h ⊢
  exact mapAbove_mapDel m 0 k h

/-! ### Memories -/

/-- A lower bound of addresses may fall. -/
theorem memWfFrom_mono {lo lo' : Nat} (h : lo' ≤ lo) (m : List Host.Cell) (hm : memWfFrom lo m = true) :
    memWfFrom lo' m = true := by
  cases m with
  | nil => rfl
  | cons c rest =>
    obtain ⟨b, w⟩ := c
    simp only [memWfFrom, Bool.and_eq_true, decide_eq_true_eq] at hm ⊢
    exact ⟨⟨by omega, hm.1.2⟩, hm.2⟩

/-- Writing a byte at or above a bound keeps the form above it. -/
theorem memWfFrom_memWrite (m : List Host.Cell) (lo a : Nat) (v : Byte) (ha : lo ≤ a) (hm : memWfFrom lo m = true) :
    memWfFrom lo (memWrite m a v) = true := by
  induction m generalizing lo with
  | nil =>
    simp only [memWrite]
    split
    · rfl
    · rename_i h
      simpa [memWfFrom, ha] using h
  | cons c rest ih =>
    obtain ⟨b, w⟩ := c
    have hm' := hm
    simp only [memWfFrom, Bool.and_eq_true, decide_eq_true_eq] at hm'
    simp only [memWrite]
    split
    · split
      · exact hm
      · rename_i h1 h2
        simp only [memWfFrom, Bool.and_eq_true, decide_eq_true_eq]
        exact ⟨⟨ha, by simpa using h2⟩, ⟨⟨by omega, hm'.1.2⟩, hm'.2⟩⟩
    · split
      · split
        · exact memWfFrom_mono (by omega) rest hm'.2
        · rename_i h1 h2 h3
          subst h2
          simp only [memWfFrom, Bool.and_eq_true, decide_eq_true_eq]
          exact ⟨⟨ha, by simpa using h3⟩, hm'.2⟩
      · simp only [memWfFrom, Bool.and_eq_true, decide_eq_true_eq]
        exact ⟨hm'.1, ih (b + 1) (by omega) hm'.2⟩

/-- Writing a byte keeps the canonical form. -/
theorem memWf_memWrite (m : List Host.Cell) (a : Nat) (v : Byte) (h : memWf m = true) : memWf (memWrite m a v) = true :=
  memWfFrom_memWrite m 0 a v (Nat.zero_le a) h

/-- Writing a list of cells keeps the canonical form. -/
theorem memWf_foldl_memWrite (cs : List Host.Cell) (m : List Host.Cell) (h : memWf m = true) :
    memWf (cs.foldl (fun m c => memWrite m c.1 c.2) m) = true := by
  induction cs generalizing m with
  | nil => exact h
  | cons c rest ih => exact ih _ (memWf_memWrite m c.1 c.2 h)

/-- Writing bytes keeps the canonical form. -/
theorem memWf_memWrites (m : List Host.Cell) (a : Nat) (l : List Byte) (h : memWf m = true) : memWf (memWrites m a l) = true :=
  memWf_foldl_memWrite (cellsFrom a l) m h

/-- Below the first listed address every byte reads as zero. -/
theorem memRead_below (m : List Host.Cell) (lo a : Nat) (hm : memWfFrom lo m = true) (ha : a < lo) : memRead m a = 0 := by
  induction m generalizing lo with
  | nil => rfl
  | cons c rest ih =>
    obtain ⟨b, w⟩ := c
    simp only [memWfFrom, Bool.and_eq_true, decide_eq_true_eq] at hm
    simp only [memRead]
    rw [if_neg (by omega)]
    exact ih (b + 1) hm.2 (by omega)

/-- A byte just written reads as written. -/
theorem memRead_memWrite_self (m : List Host.Cell) (lo a : Nat) (v : Byte) (hm : memWfFrom lo m = true) :
    memRead (memWrite m a v) a = v := by
  induction m generalizing lo with
  | nil =>
    simp only [memWrite]
    split
    · rename_i h; simp [memRead, h]
    · simp [memRead]
  | cons c rest ih =>
    obtain ⟨b, w⟩ := c
    have hm' := hm
    simp only [memWfFrom, Bool.and_eq_true, decide_eq_true_eq] at hm'
    simp only [memWrite]
    split
    · rename_i h
      split
      · rename_i h2
        rw [memRead_below ((b, w) :: rest) b a (by simp only [memWfFrom, Bool.and_eq_true, decide_eq_true_eq]; exact ⟨⟨Nat.le_refl b, hm'.1.2⟩, hm'.2⟩) h]
        exact h2.symm
      · simp [memRead]
    · split
      · split
        · rename_i h1 h2 h3
          rw [memRead_below rest (b + 1) a hm'.2 (by omega), h3]
        · simp [memRead]
      · rename_i h1 h2
        simp only [memRead, if_neg h2]
        exact ih (b + 1) hm'.2

/-- Writing a byte leaves every other byte. -/
theorem memRead_memWrite_ne (m : List Host.Cell) (a b : Nat) (v : Byte) (h : b ≠ a) : memRead (memWrite m a v) b = memRead m b := by
  induction m with
  | nil =>
    simp only [memWrite]
    split
    · rfl
    · simp [memRead, h]
  | cons c rest ih =>
    obtain ⟨x, w⟩ := c
    simp only [memWrite]
    split
    · split
      · rfl
      · simp [memRead, h]
    · split
      · rename_i h1 h2
        subst h2
        split
        · simp [memRead, h]
        · simp [memRead, h]
      · simp only [memRead, ih]

end Sys2Proof.Machine
end

