-- ==== Sys2Proof/Laws/State.lean ====
section
/-! SUPPORT. What each small update of the state leaves in each field: one lemma a field, true by computation. -/
namespace Sys2Proof.Machine

@[simp] theorem State.withPending_pending (s : State) (l : List Instr) : (s.withPending l).pending = l := rfl
@[simp] theorem State.withPending_phase (s : State) (l : List Instr) : (s.withPending l).phase = s.phase := rfl
@[simp] theorem State.withPending_cyc (s : State) (l : List Instr) : (s.withPending l).cyc = s.cyc := rfl
@[simp] theorem State.withPending_free (s : State) (l : List Instr) : (s.withPending l).free = s.free := rfl
@[simp] theorem State.withPending_kites (s : State) (l : List Instr) : (s.withPending l).kites = s.kites := rfl
@[simp] theorem State.withPending_tel (s : State) (l : List Instr) : (s.withPending l).tel = s.tel := rfl
@[simp] theorem State.withPending_brd (s : State) (l : List Instr) : (s.withPending l).brd = s.brd := rfl
@[simp] theorem State.withPending_pgm (s : State) (l : List Instr) : (s.withPending l).pgm = s.pgm := rfl
@[simp] theorem State.withPending_sch (s : State) (l : List Instr) : (s.withPending l).sch = s.sch := rfl
@[simp] theorem State.withPending_xpt (s : State) (l : List Instr) : (s.withPending l).xpt = s.xpt := rfl
@[simp] theorem State.withPending_lnk (s : State) (l : List Instr) : (s.withPending l).lnk = s.lnk := rfl
@[simp] theorem State.withPending_hst (s : State) (l : List Instr) : (s.withPending l).hst = s.hst := rfl
@[simp] theorem State.withPending_pwr (s : State) (l : List Instr) : (s.withPending l).pwr = s.pwr := rfl
@[simp] theorem State.withPending_sec (s : State) (l : List Instr) : (s.withPending l).sec = s.sec := rfl
@[simp] theorem State.withPending_pins (s : State) (l : List Instr) : (s.withPending l).pins = s.pins := rfl
@[simp] theorem State.withPending_out (s : State) (l : List Instr) : (s.withPending l).out = s.out := rfl

@[simp] theorem State.emit_pending (s : State) (o : Output) : (s.emit o).pending = s.pending := rfl
@[simp] theorem State.emit_phase (s : State) (o : Output) : (s.emit o).phase = s.phase := rfl
@[simp] theorem State.emit_cyc (s : State) (o : Output) : (s.emit o).cyc = s.cyc := rfl
@[simp] theorem State.emit_free (s : State) (o : Output) : (s.emit o).free = s.free := rfl
@[simp] theorem State.emit_kites (s : State) (o : Output) : (s.emit o).kites = s.kites := rfl
@[simp] theorem State.emit_tel (s : State) (o : Output) : (s.emit o).tel = s.tel := rfl
@[simp] theorem State.emit_brd (s : State) (o : Output) : (s.emit o).brd = s.brd := rfl
@[simp] theorem State.emit_pgm (s : State) (o : Output) : (s.emit o).pgm = s.pgm := rfl
@[simp] theorem State.emit_sch (s : State) (o : Output) : (s.emit o).sch = s.sch := rfl
@[simp] theorem State.emit_xpt (s : State) (o : Output) : (s.emit o).xpt = s.xpt := rfl
@[simp] theorem State.emit_lnk (s : State) (o : Output) : (s.emit o).lnk = s.lnk := rfl
@[simp] theorem State.emit_hst (s : State) (o : Output) : (s.emit o).hst = s.hst := rfl
@[simp] theorem State.emit_pwr (s : State) (o : Output) : (s.emit o).pwr = s.pwr := rfl
@[simp] theorem State.emit_sec (s : State) (o : Output) : (s.emit o).sec = s.sec := rfl
@[simp] theorem State.emit_pins (s : State) (o : Output) : (s.emit o).pins = s.pins := rfl
@[simp] theorem State.emit_out (s : State) (o : Output) : (s.emit o).out = s.out ++ [o] := rfl

@[simp] theorem State.setKite_pending (s : State) (k : Nat) (kt : Kite) : (s.setKite k kt).pending = s.pending := rfl
@[simp] theorem State.setKite_phase (s : State) (k : Nat) (kt : Kite) : (s.setKite k kt).phase = s.phase := rfl
@[simp] theorem State.setKite_cyc (s : State) (k : Nat) (kt : Kite) : (s.setKite k kt).cyc = s.cyc := rfl
@[simp] theorem State.setKite_free (s : State) (k : Nat) (kt : Kite) : (s.setKite k kt).free = s.free := rfl
@[simp] theorem State.setKite_kites (s : State) (k : Nat) (kt : Kite) : (s.setKite k kt).kites = mapSet s.kites k kt := rfl
@[simp] theorem State.setKite_tel (s : State) (k : Nat) (kt : Kite) : (s.setKite k kt).tel = s.tel := rfl
@[simp] theorem State.setKite_brd (s : State) (k : Nat) (kt : Kite) : (s.setKite k kt).brd = s.brd := rfl
@[simp] theorem State.setKite_pgm (s : State) (k : Nat) (kt : Kite) : (s.setKite k kt).pgm = s.pgm := rfl
@[simp] theorem State.setKite_sch (s : State) (k : Nat) (kt : Kite) : (s.setKite k kt).sch = s.sch := rfl
@[simp] theorem State.setKite_xpt (s : State) (k : Nat) (kt : Kite) : (s.setKite k kt).xpt = s.xpt := rfl
@[simp] theorem State.setKite_lnk (s : State) (k : Nat) (kt : Kite) : (s.setKite k kt).lnk = s.lnk := rfl
@[simp] theorem State.setKite_hst (s : State) (k : Nat) (kt : Kite) : (s.setKite k kt).hst = s.hst := rfl
@[simp] theorem State.setKite_pwr (s : State) (k : Nat) (kt : Kite) : (s.setKite k kt).pwr = s.pwr := rfl
@[simp] theorem State.setKite_sec (s : State) (k : Nat) (kt : Kite) : (s.setKite k kt).sec = s.sec := rfl
@[simp] theorem State.setKite_pins (s : State) (k : Nat) (kt : Kite) : (s.setKite k kt).pins = s.pins := rfl
@[simp] theorem State.setKite_out (s : State) (k : Nat) (kt : Kite) : (s.setKite k kt).out = s.out := rfl

@[simp] theorem State.setReq_pending (s : State) (n : Nat) (r : Req) : (s.setReq n r).pending = s.pending := rfl
@[simp] theorem State.setReq_phase (s : State) (n : Nat) (r : Req) : (s.setReq n r).phase = s.phase := rfl
@[simp] theorem State.setReq_cyc (s : State) (n : Nat) (r : Req) : (s.setReq n r).cyc = s.cyc := rfl
@[simp] theorem State.setReq_free (s : State) (n : Nat) (r : Req) : (s.setReq n r).free = s.free := rfl
@[simp] theorem State.setReq_kites (s : State) (n : Nat) (r : Req) : (s.setReq n r).kites = s.kites := rfl
@[simp] theorem State.setReq_tel (s : State) (n : Nat) (r : Req) : (s.setReq n r).tel = s.tel := rfl
@[simp] theorem State.setReq_brd (s : State) (n : Nat) (r : Req) : (s.setReq n r).brd = s.brd := rfl
@[simp] theorem State.setReq_pgm (s : State) (n : Nat) (r : Req) : (s.setReq n r).pgm = s.pgm := rfl
@[simp] theorem State.setReq_sch (s : State) (n : Nat) (r : Req) : (s.setReq n r).sch = { s.sch with reqs := mapSet s.sch.reqs n r } := rfl
@[simp] theorem State.setReq_xpt (s : State) (n : Nat) (r : Req) : (s.setReq n r).xpt = s.xpt := rfl
@[simp] theorem State.setReq_lnk (s : State) (n : Nat) (r : Req) : (s.setReq n r).lnk = s.lnk := rfl
@[simp] theorem State.setReq_hst (s : State) (n : Nat) (r : Req) : (s.setReq n r).hst = s.hst := rfl
@[simp] theorem State.setReq_pwr (s : State) (n : Nat) (r : Req) : (s.setReq n r).pwr = s.pwr := rfl
@[simp] theorem State.setReq_sec (s : State) (n : Nat) (r : Req) : (s.setReq n r).sec = s.sec := rfl
@[simp] theorem State.setReq_pins (s : State) (n : Nat) (r : Req) : (s.setReq n r).pins = s.pins := rfl
@[simp] theorem State.setReq_out (s : State) (n : Nat) (r : Req) : (s.setReq n r).out = s.out := rfl

@[simp] theorem State.setQueue_pending (s : State) (q : Nat) (x : Queue) : (s.setQueue q x).pending = s.pending := rfl
@[simp] theorem State.setQueue_phase (s : State) (q : Nat) (x : Queue) : (s.setQueue q x).phase = s.phase := rfl
@[simp] theorem State.setQueue_cyc (s : State) (q : Nat) (x : Queue) : (s.setQueue q x).cyc = s.cyc := rfl
@[simp] theorem State.setQueue_free (s : State) (q : Nat) (x : Queue) : (s.setQueue q x).free = s.free := rfl
@[simp] theorem State.setQueue_kites (s : State) (q : Nat) (x : Queue) : (s.setQueue q x).kites = s.kites := rfl
@[simp] theorem State.setQueue_tel (s : State) (q : Nat) (x : Queue) : (s.setQueue q x).tel = s.tel := rfl
@[simp] theorem State.setQueue_brd (s : State) (q : Nat) (x : Queue) : (s.setQueue q x).brd = s.brd := rfl
@[simp] theorem State.setQueue_pgm (s : State) (q : Nat) (x : Queue) : (s.setQueue q x).pgm = s.pgm := rfl
@[simp] theorem State.setQueue_sch (s : State) (q : Nat) (x : Queue) : (s.setQueue q x).sch = s.sch := rfl
@[simp] theorem State.setQueue_xpt (s : State) (q : Nat) (x : Queue) : (s.setQueue q x).xpt = s.xpt := rfl
@[simp] theorem State.setQueue_lnk (s : State) (q : Nat) (x : Queue) : (s.setQueue q x).lnk = s.lnk := rfl
@[simp] theorem State.setQueue_hst (s : State) (q : Nat) (x : Queue) : (s.setQueue q x).hst = { s.hst with queues := mapSet s.hst.queues q x } := rfl
@[simp] theorem State.setQueue_pwr (s : State) (q : Nat) (x : Queue) : (s.setQueue q x).pwr = s.pwr := rfl
@[simp] theorem State.setQueue_sec (s : State) (q : Nat) (x : Queue) : (s.setQueue q x).sec = s.sec := rfl
@[simp] theorem State.setQueue_pins (s : State) (q : Nat) (x : Queue) : (s.setQueue q x).pins = s.pins := rfl
@[simp] theorem State.setQueue_out (s : State) (q : Nat) (x : Queue) : (s.setQueue q x).out = s.out := rfl

@[simp] theorem State.setPort_pending (s : State) (p : Nat) (x : Port) : (s.setPort p x).pending = s.pending := rfl
@[simp] theorem State.setPort_phase (s : State) (p : Nat) (x : Port) : (s.setPort p x).phase = s.phase := rfl
@[simp] theorem State.setPort_cyc (s : State) (p : Nat) (x : Port) : (s.setPort p x).cyc = s.cyc := rfl
@[simp] theorem State.setPort_free (s : State) (p : Nat) (x : Port) : (s.setPort p x).free = s.free := rfl
@[simp] theorem State.setPort_kites (s : State) (p : Nat) (x : Port) : (s.setPort p x).kites = s.kites := rfl
@[simp] theorem State.setPort_tel (s : State) (p : Nat) (x : Port) : (s.setPort p x).tel = s.tel := rfl
@[simp] theorem State.setPort_brd (s : State) (p : Nat) (x : Port) : (s.setPort p x).brd = s.brd := rfl
@[simp] theorem State.setPort_pgm (s : State) (p : Nat) (x : Port) : (s.setPort p x).pgm = s.pgm := rfl
@[simp] theorem State.setPort_sch (s : State) (p : Nat) (x : Port) : (s.setPort p x).sch = s.sch := rfl
@[simp] theorem State.setPort_xpt (s : State) (p : Nat) (x : Port) : (s.setPort p x).xpt = s.xpt := rfl
@[simp] theorem State.setPort_lnk (s : State) (p : Nat) (x : Port) : (s.setPort p x).lnk = { s.lnk with ports := mapSet s.lnk.ports p x } := rfl
@[simp] theorem State.setPort_hst (s : State) (p : Nat) (x : Port) : (s.setPort p x).hst = s.hst := rfl
@[simp] theorem State.setPort_pwr (s : State) (p : Nat) (x : Port) : (s.setPort p x).pwr = s.pwr := rfl
@[simp] theorem State.setPort_sec (s : State) (p : Nat) (x : Port) : (s.setPort p x).sec = s.sec := rfl
@[simp] theorem State.setPort_pins (s : State) (p : Nat) (x : Port) : (s.setPort p x).pins = s.pins := rfl
@[simp] theorem State.setPort_out (s : State) (p : Nat) (x : Port) : (s.setPort p x).out = s.out := rfl

@[simp] theorem State.setStream_pending (s : State) (n : Nat) (x : Stream) : (s.setStream n x).pending = s.pending := rfl
@[simp] theorem State.setStream_phase (s : State) (n : Nat) (x : Stream) : (s.setStream n x).phase = s.phase := rfl
@[simp] theorem State.setStream_cyc (s : State) (n : Nat) (x : Stream) : (s.setStream n x).cyc = s.cyc := rfl
@[simp] theorem State.setStream_free (s : State) (n : Nat) (x : Stream) : (s.setStream n x).free = s.free := rfl
@[simp] theorem State.setStream_kites (s : State) (n : Nat) (x : Stream) : (s.setStream n x).kites = s.kites := rfl
@[simp] theorem State.setStream_tel (s : State) (n : Nat) (x : Stream) : (s.setStream n x).tel = s.tel := rfl
@[simp] theorem State.setStream_brd (s : State) (n : Nat) (x : Stream) : (s.setStream n x).brd = s.brd := rfl
@[simp] theorem State.setStream_pgm (s : State) (n : Nat) (x : Stream) : (s.setStream n x).pgm = s.pgm := rfl
@[simp] theorem State.setStream_sch (s : State) (n : Nat) (x : Stream) : (s.setStream n x).sch = s.sch := rfl
@[simp] theorem State.setStream_xpt (s : State) (n : Nat) (x : Stream) : (s.setStream n x).xpt = { s.xpt with streams := mapSet s.xpt.streams n x } := rfl
@[simp] theorem State.setStream_lnk (s : State) (n : Nat) (x : Stream) : (s.setStream n x).lnk = s.lnk := rfl
@[simp] theorem State.setStream_hst (s : State) (n : Nat) (x : Stream) : (s.setStream n x).hst = s.hst := rfl
@[simp] theorem State.setStream_pwr (s : State) (n : Nat) (x : Stream) : (s.setStream n x).pwr = s.pwr := rfl
@[simp] theorem State.setStream_sec (s : State) (n : Nat) (x : Stream) : (s.setStream n x).sec = s.sec := rfl
@[simp] theorem State.setStream_pins (s : State) (n : Nat) (x : Stream) : (s.setStream n x).pins = s.pins := rfl
@[simp] theorem State.setStream_out (s : State) (n : Nat) (x : Stream) : (s.setStream n x).out = s.out := rfl

@[simp] theorem State.drew_pending (s : State) : (s.drew).pending = s.pending := rfl
@[simp] theorem State.drew_phase (s : State) : (s.drew).phase = s.phase := rfl
@[simp] theorem State.drew_cyc (s : State) : (s.drew).cyc = s.cyc := rfl
@[simp] theorem State.drew_free (s : State) : (s.drew).free = s.free + 1 := rfl
@[simp] theorem State.drew_kites (s : State) : (s.drew).kites = s.kites := rfl
@[simp] theorem State.drew_tel (s : State) : (s.drew).tel = s.tel := rfl
@[simp] theorem State.drew_brd (s : State) : (s.drew).brd = s.brd := rfl
@[simp] theorem State.drew_pgm (s : State) : (s.drew).pgm = s.pgm := rfl
@[simp] theorem State.drew_sch (s : State) : (s.drew).sch = s.sch := rfl
@[simp] theorem State.drew_xpt (s : State) : (s.drew).xpt = s.xpt := rfl
@[simp] theorem State.drew_lnk (s : State) : (s.drew).lnk = s.lnk := rfl
@[simp] theorem State.drew_hst (s : State) : (s.drew).hst = s.hst := rfl
@[simp] theorem State.drew_pwr (s : State) : (s.drew).pwr = s.pwr := rfl
@[simp] theorem State.drew_sec (s : State) : (s.drew).sec = s.sec := rfl
@[simp] theorem State.drew_pins (s : State) : (s.drew).pins = s.pins := rfl
@[simp] theorem State.drew_out (s : State) : (s.drew).out = s.out := rfl

@[simp] theorem State.unitDone_pending (s : State) (c : Nat) : (s.unitDone c).pending = s.pending := rfl
@[simp] theorem State.unitDone_phase (s : State) (c : Nat) : (s.unitDone c).phase = s.phase := rfl
@[simp] theorem State.unitDone_cyc (s : State) (c : Nat) : (s.unitDone c).cyc = s.cyc := rfl
@[simp] theorem State.unitDone_free (s : State) (c : Nat) : (s.unitDone c).free = s.free := rfl
@[simp] theorem State.unitDone_kites (s : State) (c : Nat) : (s.unitDone c).kites = s.kites := rfl
@[simp] theorem State.unitDone_tel (s : State) (c : Nat) : (s.unitDone c).tel = s.tel := rfl
@[simp] theorem State.unitDone_brd (s : State) (c : Nat) : (s.unitDone c).brd = { s.brd with status := c, op := none } := rfl
@[simp] theorem State.unitDone_pgm (s : State) (c : Nat) : (s.unitDone c).pgm = s.pgm := rfl
@[simp] theorem State.unitDone_sch (s : State) (c : Nat) : (s.unitDone c).sch = s.sch := rfl
@[simp] theorem State.unitDone_xpt (s : State) (c : Nat) : (s.unitDone c).xpt = s.xpt := rfl
@[simp] theorem State.unitDone_lnk (s : State) (c : Nat) : (s.unitDone c).lnk = s.lnk := rfl
@[simp] theorem State.unitDone_hst (s : State) (c : Nat) : (s.unitDone c).hst = s.hst := rfl
@[simp] theorem State.unitDone_pwr (s : State) (c : Nat) : (s.unitDone c).pwr = s.pwr := rfl
@[simp] theorem State.unitDone_sec (s : State) (c : Nat) : (s.unitDone c).sec = s.sec := rfl
@[simp] theorem State.unitDone_pins (s : State) (c : Nat) : (s.unitDone c).pins = s.pins := rfl
@[simp] theorem State.unitDone_out (s : State) (c : Nat) : (s.unitDone c).out = s.out := rfl

/-- Reading the kite that was just stored. -/
@[simp] theorem State.setKite_kite_self (s : State) (k : Nat) (kt : Kite) : (s.setKite k kt).kite k = { kt with evs := [] } := by
  simp [State.kite, State.setKite, mapGetD]

/-- Storing a kite leaves the others. -/
@[simp] theorem State.setKite_kite_ne (s : State) (k j : Nat) (kt : Kite) (h : j ≠ k) : (s.setKite k kt).kite j = s.kite j := by
  simp [State.kite, State.setKite, mapGetD, mapGet_mapSet_ne _ _ _ _ h]

/-- Between commands a kite holds no events. -/
@[simp] theorem State.kite_evs (s : State) (k : Nat) : (s.kite k).evs = [] := rfl

/-- Reading the request that was just stored. -/
@[simp] theorem State.setReq_req_self (s : State) (n : Nat) (r : Req) : (s.setReq n r).req n = r := by
  simp [State.req, State.setReq, mapGetD]

/-- Reading the queue that was just stored. -/
@[simp] theorem State.setQueue_queue_self (s : State) (q : Nat) (x : Queue) : (s.setQueue q x).queue q = x := by
  simp [State.queue, State.setQueue, mapGetD]

/-- Reading the port that was just stored. -/
@[simp] theorem State.setPort_port_self (s : State) (p : Nat) (x : Port) : (s.setPort p x).port p = x := by
  simp [State.port, State.setPort, mapGetD]

/-- Reading the stream that was just stored. -/
@[simp] theorem State.setStream_stream_self (s : State) (n : Nat) (x : Stream) : (s.setStream n x).stream n = x := by
  simp [State.stream, State.setStream, mapGetD]

end Sys2Proof.Machine
end

