-- ==== Sys2Proof/Laws/Ops.lean ====
section
/-! SUPPORT. What the shared operations can do, each said once: the log, the vectors, and the storing of a kite. -/
namespace Sys2Proof.Machine

/-! ### The log -/

/-- A vector is posted to the host or made pending; nothing else changes. -/
theorem State.vector_frame (s : State) (v : Nat) :
    s.vector v = { s with out := (s.vector v).out, hst := { s.hst with pendingVec := (s.vector v).hst.pendingVec, waits := (s.vector v).hst.waits } } := by
  unfold State.vector
  split
  · rfl
  · split
    · split <;> rfl
    · rfl

/-- Moving a record to its place changes the ring, and which record is the newest; nothing else. -/
theorem Tel.sink_frame (n p : Nat) (t : Tel) :
    t.sink n p = { t with ring := (t.sink n p).ring, newest := (t.sink n p).newest } := by
  induction n generalizing p t with
  | zero => rfl
  | succ n ih =>
    unfold Tel.sink
    simp only []
    split
    · split
      · rw [ih]
      · rfl
    · rfl

/-- A record whose TIME differs from that of the record below it is in its place. -/
theorem Tel.sink_stays (n p : Nat) (t : Tel) (r : LogRec) (h : mapGet t.ring p = some r)
    (ho : ∀ o, mapGet t.ring ((p + 4095) % 4096) = some o → o.time ≠ r.time) : t.sink n p = t := by
  cases n with
  | zero => rfl
  | succ n =>
    unfold Tel.sink
    simp only [h]
    split
    · rename_i r' o hr hb
      cases hr
      have hn : r.before o = false := by
        have hne : (r.time == o.time) = false := by simpa using (ho o hb).symm
        simp [LogRec.before, hne]
      simp [hn]
    · rfl

/-- An event merges into the newest record where it equals it, within 1 ms (R420). -/
theorem Tel.merges_iff (t : Tel) (now : Nat) (e : Ev) (o : LogRec) : t.merges now e = some o ↔
    t.newest = some o ∧ o.ev.cls = e.cls ∧ o.ev.event = e.event ∧ o.ev.loc = e.loc ∧ o.ev.info = e.info ∧ now ≤ o.time + 1000000 := by
  unfold Tel.merges
  cases t.newest with
  | none => simp
  | some x =>
    simp only [Option.filter_some]
    constructor
    · intro h
      split at h
      · next hc => cases h; simp at hc; simp_all
      · cases h
    · rintro ⟨h, h'⟩
      cases h
      simp_all

/-- The log after an event: entered, and counted by its class. -/
theorem State.log_tel (s : State) (e : Ev) :
    (s.log e).tel = { (s.tel.enter s.pwr.tb e).1 with cnt := mapUpd s.tel.cnt e.cls.code 0 fun c => wrapAdd 64 c 1 } := by
  unfold State.log
  simp only []
  split
  · simp only [State.emit]
    rw [State.vector_frame]
  · rfl

/-- Logging changes the log alone, and what a record raises. -/
theorem State.log_frame (s : State) (e : Ev) : logOnly s (s.log e) := by
  unfold logOnly State.log
  simp only []
  split
  · simp only [State.emit]
    rw [State.vector_frame]
  · rfl

/-- What leaves the crossing while the PCIe domains run reaches host memory, a vector, or what the module sends; nothing else changes. -/
theorem State.waits_frame (l : List HostTx) : ∀ s : State, s.hostWaits = false →
    let t := l.foldl (fun s x => match x with
      | .write a b => (s.hostPut a b).2
      | .msix v => s.vector v) s
    t = { s with hst := { s.hst with mem := t.hst.mem, pendingVec := t.hst.pendingVec }, out := t.out } := by
  induction l with
  | nil => intro s _; rfl
  | cons x l ih =>
    intro s h
    simp only [List.foldl_cons]
    have key : ∀ u : State, u = { s with hst := { s.hst with mem := u.hst.mem, pendingVec := u.hst.pendingVec }, out := u.out } →
        (let t := l.foldl (fun s x => match x with
          | .write a b => (s.hostPut a b).2
          | .msix v => s.vector v) u
        t = { s with hst := { s.hst with mem := t.hst.mem, pendingVec := t.hst.pendingVec }, out := t.out }) := by
      intro u hu
      have hw : u.hostWaits = false := by rw [hu]; exact h
      have := ih u hw
      simp only [] at this ⊢
      rw [this, hu]
    apply key
    cases x with
    | write a b =>
      simp only [State.hostPut, h]
      split
      · rfl
      · split
        · next hh => cases hh
        · split <;> rfl
    | msix v =>
      simp only [State.vector, h]
      split
      · rfl
      · split
        · split
          · next hh => cases hh
          · rfl
        · rfl

theorem logOnly_refl (s : State) : logOnly s s := rfl

theorem logOnly_trans {s t u : State} (h : logOnly s t) (h' : logOnly t u) : logOnly s u := by
  unfold logOnly at *
  rw [h'] 
  simp only []
  rw [h]

/-- Logging several events changes the log alone. -/
theorem State.logs_frame (s : State) (es : List Ev) : logOnly s (es.foldl State.log s) := by
  induction es generalizing s with
  | nil => rfl
  | cons e rest ih => exact logOnly_trans (State.log_frame s e) (ih _)

/-- The log holds no kite. -/
theorem logOnly_kite {s t : State} (h : logOnly s t) (k : Nat) : t.kite k = s.kite k := by
  unfold logOnly at h
  rw [h]
  rfl

/-! ### Storing a kite -/

/-- An event below class U of a kite is logged, and faults no request. -/
theorem State.kiteEvent_minor (s : State) (k : Nat) (e : Ev) (h : e.cls ≠ .u) : s.kiteEvent k e = s.log e := by
  simp [State.kiteEvent, h]

/-- Events below class U are logged, one after another. -/
theorem State.kiteEvents_minor (s : State) (k : Nat) (es : List Ev) (h : ∀ e ∈ es, e.cls ≠ .u) :
    es.foldl (fun s e => s.kiteEvent k e) s = es.foldl State.log s := by
  induction es generalizing s with
  | nil => rfl
  | cons e rest ih =>
    simp only [List.foldl_cons]
    rw [State.kiteEvent_minor s k e (h e (by simp)), ih _ (fun x hx => h x (by simp [hx]))]

/-- Putting back a kite that runs and raised nothing of class U: its events are logged, and it is stored. -/
theorem State.putKite_minor (s : State) (k : Nat) (kt : Kite) (hs : kt.stopped = false) (h : ∀ e ∈ kt.evs, e.cls ≠ .u) :
    s.putKite k kt = (kt.evs.foldl State.log s).setKite k { kt with evs := [] } := by
  simp [State.putKite, State.kiteEvents_minor s k kt.evs h, hs]

/-- Putting back a kite that runs and raised nothing stores it. -/
theorem State.putKite_quiet (s : State) (k : Nat) (kt : Kite) (hs : kt.stopped = false) (h : kt.evs = []) :
    s.putKite k kt = s.setKite k kt := by
  rw [State.putKite_minor s k kt hs (by simp [h])]
  cases kt
  simp_all

/-- A kite that was put back reads as put, without its events. -/
theorem State.putKite_kite_minor (s : State) (k : Nat) (kt : Kite) (hs : kt.stopped = false) (h : ∀ e ∈ kt.evs, e.cls ≠ .u) :
    (s.putKite k kt).kite k = { kt with evs := [] } := by
  simp [State.putKite_minor s k kt hs h]

/-- Putting back such a kite leaves every other kite, and of the rest only the log may grow. -/
theorem State.putKite_frame_minor (s : State) (k : Nat) (kt : Kite) (hs : kt.stopped = false) (h : ∀ e ∈ kt.evs, e.cls ≠ .u) :
    kitesKept [k] s (s.putKite k kt) ∧ kitesAndLog s (s.putKite k kt) := by
  rw [State.putKite_minor s k kt hs h]
  have hl := State.logs_frame s kt.evs
  constructor
  · intro j hj
    rw [State.setKite_kite_ne _ _ _ _ (by simpa using hj), logOnly_kite hl]
  · unfold kitesAndLog State.setKite
    unfold logOnly at hl
    generalize List.foldl State.log s kt.evs = u at *
    rw [hl]

/-- What an event of a kite, or storing one, can change beside its kite. -/
def eventFrame (s t : State) : Prop :=
  t = { s with
    kites := t.kites, tel := t.tel, out := t.out, hst := { s.hst with pendingVec := t.hst.pendingVec, waits := t.hst.waits }
    sch := { s.sch with reqs := t.sch.reqs }, brd := { s.brd with waits := t.brd.waits, notices := t.brd.notices } }

theorem eventFrame_refl (s : State) : eventFrame s s := rfl

theorem eventFrame_trans {s t u : State} (h : eventFrame s t) (h' : eventFrame t u) : eventFrame s u := by
  unfold eventFrame at *
  rw [h']
  simp only []
  rw [h]

theorem logOnly_eventFrame {s t : State} (h : logOnly s t) : eventFrame s t := by
  unfold logOnly at h
  unfold eventFrame
  rw [h]

theorem State.faultSlot_frame (s : State) (n st : Nat) : eventFrame s (s.faultSlot n st) ∧ (s.faultSlot n st).kites = s.kites := by
  unfold State.faultSlot
  simp only []
  split
  · exact ⟨rfl, rfl⟩
  · exact ⟨rfl, rfl⟩

theorem State.faultStep_frame (s : State) (st : Nat) : eventFrame s (s.faultStep st) ∧ (s.faultStep st).kites = s.kites := by
  unfold State.faultStep
  split
  · exact ⟨rfl, rfl⟩
  · rename_i c h
    generalize c.chunks = l
    clear h
    induction l generalizing s with
    | nil => exact ⟨rfl, rfl⟩
    | cons x rest ih =>
      have h1 := State.faultSlot_frame s x.1 st
      have h2 := ih (s.faultSlot x.1 st)
      exact ⟨eventFrame_trans h1.1 h2.1, h2.2.trans h1.2⟩

/-- An event of a kite changes no kite. -/
theorem State.kiteEvent_frame (s : State) (k : Nat) (e : Ev) : eventFrame s (s.kiteEvent k e) ∧ (s.kiteEvent k e).kites = s.kites := by
  have hl := State.log_frame s e
  have hk : (s.log e).kites = s.kites := by unfold logOnly at hl; rw [hl]
  have hf (n : Nat) : eventFrame s ((s.log e).faultStep n) ∧ ((s.log e).faultStep n).kites = s.kites :=
    ⟨eventFrame_trans (logOnly_eventFrame hl) (State.faultStep_frame _ n).1, (State.faultStep_frame _ n).2.trans hk⟩
  unfold State.kiteEvent
  simp only []
  split
  · split
    · exact hf 9
    · split
      · exact hf 6
      · exact ⟨logOnly_eventFrame hl, hk⟩
  · exact ⟨logOnly_eventFrame hl, hk⟩

theorem State.kiteEvents_frame (s : State) (k : Nat) (es : List Ev) :
    eventFrame s (es.foldl (fun s e => s.kiteEvent k e) s) ∧ (es.foldl (fun s e => s.kiteEvent k e) s).kites = s.kites := by
  induction es generalizing s with
  | nil => exact ⟨rfl, rfl⟩
  | cons e rest ih =>
    have h1 := State.kiteEvent_frame s k e
    have h2 := ih (s.kiteEvent k e)
    exact ⟨eventFrame_trans h1.1 h2.1, h2.2.trans h1.2⟩

/-- Putting a kite back stores it and changes no other kite; of the rest only what its events change, and the waits and notices
of a stopped keel. -/
theorem State.putKite_frame (s : State) (k : Nat) (kt : Kite) :
    (s.putKite k kt).kites = mapSet s.kites k { kt with evs := [] } ∧ eventFrame s (s.putKite k kt) := by
  have h := State.kiteEvents_frame s k kt.evs
  unfold State.putKite
  simp only []
  generalize kt.evs.foldl (fun s e => s.kiteEvent k e) s = u at h
  split
  · refine ⟨?_, ?_⟩
    · simp only [State.setKite, State.dropWaits]; rw [h.2]
    · exact eventFrame_trans h.1 rfl
  · refine ⟨?_, ?_⟩
    · simp only [State.setKite]; rw [h.2]
    · exact eventFrame_trans h.1 rfl

/-- A kite that was put back reads as put, without its events. -/
@[simp] theorem State.putKite_kite_self (s : State) (k : Nat) (kt : Kite) : (s.putKite k kt).kite k = { kt with evs := [] } := by
  simp [State.kite, (State.putKite_frame s k kt).1, mapGetD]

/-- Putting a kite back leaves the others. -/
theorem State.putKite_kite_ne (s : State) (k j : Nat) (kt : Kite) (h : j ≠ k) : (s.putKite k kt).kite j = s.kite j := by
  simp [State.kite, (State.putKite_frame s k kt).1, mapGetD, mapGet_mapSet_ne _ _ _ _ h]

/-- A kite stopped by an exception, put back. -/
theorem slotStopped_put (s : State) (k : Nat) (kt : Kite) : slotStopped k { kt with evs := [] } s (s.putKite k kt) :=
  ⟨State.putKite_kite_self s k kt, fun j hj => State.putKite_kite_ne s k j kt (by simpa using hj), (State.putKite_frame s k kt).2⟩

/-! ### The hazard checker -/

/-- What reporting hazards can do: record and log them as class S, and nothing with the checker off. -/
def hazStep (a b : Kite) : Prop :=
  b = { a with hzCode := b.hzCode, hzPc := b.hzPc, hzSlot := b.hzSlot, hzCount := b.hzCount, hzStop := b.hzStop, evs := b.evs } ∧
  (∀ e ∈ b.evs, e ∈ a.evs ∨ e.cls = .s) ∧ (a.hzEn = false → b = a)

theorem hazStep_refl (a : Kite) : hazStep a a := ⟨rfl, fun _ h => Or.inl h, fun _ => rfl⟩

theorem hazStep_trans {a b c : Kite} (h : hazStep a b) (h' : hazStep b c) : hazStep a c := by
  obtain ⟨e1, v1, q1⟩ := h
  obtain ⟨e2, v2, q2⟩ := h'
  refine ⟨?_, ?_, ?_⟩
  · rw [e2]; simp only []; rw [e1]
  · intro e he
    rcases v2 e he with h | h
    · exact v1 e h
    · exact Or.inr h
  · intro hz
    rw [q2 (by rw [q1 hz]; exact hz), q1 hz]

theorem Kite.hazardAt_step (kt : Kite) (k pc code slot : Nat) : hazStep kt (kt.hazardAt k pc code slot) := by
  unfold Kite.hazardAt
  split
  · rename_i h
    refine ⟨rfl, ?_, fun hz => by simp [h] at hz⟩
    intro e he
    simp only [List.mem_append, List.mem_singleton] at he
    rcases he with he | he
    · exact Or.inl he
    · subst he; exact Or.inr rfl
  · exact hazStep_refl kt

theorem Kite.hazardAtIf_step (kt : Kite) (b : Bool) (k pc code slot : Nat) : hazStep kt (kt.hazardAtIf b k pc code slot) := by
  unfold Kite.hazardAtIf
  split
  · exact Kite.hazardAt_step kt k pc code slot
  · exact hazStep_refl kt

theorem Kite.hazard_step (kt : Kite) (k code slot : Nat) : hazStep kt (kt.hazard k code slot) :=
  Kite.hazardAt_step kt k kt.ipc code slot

theorem Kite.hazardIf_step (kt : Kite) (b : Bool) (k code slot : Nat) : hazStep kt (kt.hazardIf b k code slot) :=
  Kite.hazardAtIf_step kt b k kt.ipc code slot

theorem Kite.readHaz_step (kt : Kite) (k slot : Nat) (rs : List SReg) : hazStep kt (kt.readHaz k slot rs) := by
  unfold Kite.readHaz
  induction rs generalizing kt with
  | nil => exact hazStep_refl kt
  | cons r rest ih => exact hazStep_trans (Kite.hazardIf_step kt _ k 1 slot) (ih _)

/-! ### Slot instructions -/

/-- A queued register write over hazard reports. -/
theorem Kite.result_step {a b : Kite} (h : hazStep a b) (k : Nat) (r : SReg) (due : Nat) (v : Word) :
    hazStep (a.writeAt r due v) (b.result k r due v) := by
  unfold Kite.result Kite.resultAt
  have h2 := hazStep_trans h (Kite.hazardAtIf_step b (b.sqClash r due false) k b.ipc 3 0)
  obtain ⟨e, v', q⟩ := h2
  refine ⟨?_, v', ?_⟩
  · rw [e]; rfl
  · intro hz; rw [q hz]

/-- Putting back a kite that runs and differs from `kt` by hazard reports alone. -/
theorem slotDone_put (s : State) (k : Nat) (kt kt' : Kite) (h : hazStep kt kt') (he : kt.evs = [])
    (hz : kt.hzEn = (s.kite k).hzEn) (hst : kt.stopped = false) : slotDone k kt s (s.putKite k kt') := by
  obtain ⟨e, v, q⟩ := h
  have hst' : kt'.stopped = false := by rw [e]; exact hst
  have hv : ∀ x ∈ kt'.evs, x.cls ≠ .u := by
    intro x hx
    rcases v x hx with h | h
    · simp [he] at h
    · simp [h]
  refine ⟨?_, (State.putKite_frame_minor s k kt' hst' hv).1, (State.putKite_frame_minor s k kt' hst' hv).2, ?_⟩
  · rw [State.putKite_kite_minor s k kt' hst' hv]
    unfold hazardOnly
    conv => lhs; rw [e]
    simp [he]
  · intro h0
    rw [q (hz.trans h0), State.putKite_quiet s k kt hst he]

/-- A slot instruction of an issuing keel whose check finds nothing has its effect. -/
theorem execSlot_issuing {k : Fin 256} {slot : Nat} {chk : Kite → Option Exc} {eff : Nat → Nat → Kite → Kite} {s : State}
    (h : issuing s k) (hc : chk (s.kite k) = none) :
    execSlot k slot chk eff s = .next (s.putKite k (eff ((s.kite k).t s.cyc) ((s.kite k).tv s.cyc) (s.kite k))) := by
  simp [execSlot, State.issue, Kite.issues, h.1, h.2, hc, State.onKite]

/-- An issuing keel is not stopped. -/
theorem issuing_stopped {s : State} {k : Nat} (h : issuing s k) : (s.kite k).stopped = false := by
  simp [Kite.stopped, h.1]

/-- A slot instruction of an issuing keel whose check finds an exception stops its kite by it, and has no other effect. -/
theorem execSlot_raises {k : Fin 256} {slot : Nat} {chk : Kite → Option Exc} {eff : Nat → Nat → Kite → Kite} {s : State} {e : Exc}
    (h : issuing s k) (hc : chk (s.kite k) = some e) :
    execSlot k slot chk eff s = .next (s.putKite k ((s.kite k).raise k e slot (s.kite k).ipc)) := by
  simp [execSlot, State.issue, Kite.issues, h.1, h.2, hc]

/-- An issuing keel whose check finds nothing: the effect. -/
theorem State.issue_none {k : Fin 256} {slot : Nat} {eff : State → State} {s : State} (h : issuing s k) :
    s.issue k slot none eff = eff s := by
  simp [State.issue, Kite.issues, h.1, h.2]

/-- An issuing keel whose check finds an exception: the exception. -/
theorem State.issue_some {k : Fin 256} {slot : Nat} {eff : State → State} {s : State} {e : Exc} (h : issuing s k) :
    s.issue k slot (some e) eff = s.putKite k ((s.kite k).raise k e slot (s.kite k).ipc) := by
  simp [State.issue, Kite.issues, h.1, h.2]

/-- A keel that does not issue: nothing. -/
theorem State.issue_void {k : Fin 256} {slot : Nat} {e : Option Exc} {eff : State → State} {s : State}
    (h : (s.kite k).issues = false) : s.issue k slot e eff = s := by
  simp [State.issue, h]

end Sys2Proof.Machine
end

