-- ==== Sys2Proof/Laws/PerInstr.lean ====
section
/-! SUPPORT. A law of the syntax, said once for each command: it is encoded in one slot of a bundle at most, and the slots of the
five formats give the instructions of the tables of file 09 (R178) and no other command. -/
namespace Sys2Proof.Laws.OneSlot

/-- A command is encoded in at most one of the five slots, and has an extension word only where it is encoded in the C slot. -/
def Statement (i : Instr) : Prop :=
  ([encodeC i, encodeM i, encodeV i, encodeD i, encodeS i].filter Option.isSome).length ≤ 1 ∧ ((encodeC i).isSome = true ∨ encodeX i = 0)

theorem add : ∀ a b, Statement (.add a b) := fun _ _ => ⟨Nat.le_refl 1, .inl rfl⟩
theorem sub : ∀ a b, Statement (.sub a b) := fun _ _ => ⟨Nat.le_refl 1, .inl rfl⟩
theorem and : ∀ a b, Statement (.and a b) := fun _ _ => ⟨Nat.le_refl 1, .inl rfl⟩
theorem or : ∀ a b, Statement (.or a b) := fun _ _ => ⟨Nat.le_refl 1, .inl rfl⟩
theorem xor : ∀ a b, Statement (.xor a b) := fun _ _ => ⟨Nat.le_refl 1, .inl rfl⟩
theorem shl : ∀ a b, Statement (.shl a b) := fun _ _ => ⟨Nat.le_refl 1, .inl rfl⟩
theorem shr : ∀ a b, Statement (.shr a b) := fun _ _ => ⟨Nat.le_refl 1, .inl rfl⟩
theorem sra : ∀ a b, Statement (.sra a b) := fun _ _ => ⟨Nat.le_refl 1, .inl rfl⟩
theorem mul : ∀ a b, Statement (.mul a b) := fun _ _ => ⟨Nat.le_refl 1, .inl rfl⟩
theorem sel : ∀ a b, Statement (.sel a b) := fun _ _ => ⟨Nat.le_refl 1, .inl rfl⟩
theorem mov : ∀ a b, Statement (.mov a b) := fun _ _ => ⟨Nat.le_refl 1, .inl rfl⟩
theorem addi : ∀ a b, Statement (.addi a b) := fun _ _ => ⟨Nat.le_refl 1, .inl rfl⟩
theorem andi : ∀ a b, Statement (.andi a b) := fun _ _ => ⟨Nat.le_refl 1, .inl rfl⟩
theorem ori : ∀ a b, Statement (.ori a b) := fun _ _ => ⟨Nat.le_refl 1, .inl rfl⟩
theorem xori : ∀ a b, Statement (.xori a b) := fun _ _ => ⟨Nat.le_refl 1, .inl rfl⟩
theorem shli : ∀ a b, Statement (.shli a b) := fun _ _ => ⟨Nat.le_refl 1, .inl rfl⟩
theorem shri : ∀ a b, Statement (.shri a b) := fun _ _ => ⟨Nat.le_refl 1, .inl rfl⟩
theorem srai : ∀ a b, Statement (.srai a b) := fun _ _ => ⟨Nat.le_refl 1, .inl rfl⟩
theorem muli : ∀ a b, Statement (.muli a b) := fun _ _ => ⟨Nat.le_refl 1, .inl rfl⟩
theorem li : ∀ a b, Statement (.li a b) := fun _ _ => ⟨Nat.le_refl 1, .inl rfl⟩
theorem lih : ∀ a b, Statement (.lih a b) := fun _ _ => ⟨Nat.le_refl 1, .inl rfl⟩
theorem cmp : ∀ a b, Statement (.cmp a b) := fun _ _ => ⟨Nat.le_refl 1, .inl rfl⟩
theorem cmpi : ∀ a b, Statement (.cmpi a b) := fun _ _ => ⟨Nat.le_refl 1, .inl rfl⟩
theorem ld : ∀ a b, Statement (.ld a b) := fun _ _ => ⟨Nat.le_refl 1, .inl rfl⟩
theorem st : ∀ a b, Statement (.st a b) := fun _ _ => ⟨Nat.le_refl 1, .inl rfl⟩
theorem csrr : ∀ a b, Statement (.csrr a b) := fun _ _ => ⟨Nat.le_refl 1, .inl rfl⟩
theorem csrw : ∀ a b, Statement (.csrw a b) := fun _ _ => ⟨Nat.le_refl 1, .inl rfl⟩
theorem brb : ∀ a b, Statement (.brb a b) := fun _ _ => ⟨Nat.le_refl 1, .inl rfl⟩
theorem brbJoin : ∀ a, Statement (.brbJoin a) := fun _ => ⟨Nat.zero_le 1, .inr rfl⟩
theorem loop : ∀ a b, Statement (.loop a b) := fun _ _ => ⟨Nat.le_refl 1, .inl rfl⟩
theorem loopPadEnd : ∀ a, Statement (.loopPadEnd a) := fun _ => ⟨Nat.zero_le 1, .inr rfl⟩
theorem stepend : ∀ a b, Statement (.stepend a b) := fun _ _ => ⟨Nat.le_refl 1, .inl rfl⟩
theorem halt : ∀ a b, Statement (.halt a b) := fun _ _ => ⟨Nat.le_refl 1, .inl rfl⟩
theorem mset : ∀ a b, Statement (.mset a b) := fun _ _ => ⟨Nat.le_refl 1, .inr rfl⟩
theorem mfeed : ∀ a b, Statement (.mfeed a b) := fun _ _ => ⟨Nat.le_refl 1, .inr rfl⟩
theorem passLastUpdate : ∀ a, Statement (.passLastUpdate a) := fun _ => ⟨Nat.zero_le 1, .inr rfl⟩
theorem deflation : ∀ a, Statement (.deflation a) := fun _ => ⟨Nat.zero_le 1, .inr rfl⟩
theorem mswap : ∀ a b, Statement (.mswap a b) := fun _ _ => ⟨Nat.le_refl 1, .inr rfl⟩
theorem mseed : ∀ a b, Statement (.mseed a b) := fun _ _ => ⟨Nat.le_refl 1, .inr rfl⟩
theorem mseedComplete : ∀ a, Statement (.mseedComplete a) := fun _ => ⟨Nat.zero_le 1, .inr rfl⟩
theorem mzero : ∀ a b, Statement (.mzero a b) := fun _ _ => ⟨Nat.le_refl 1, .inr rfl⟩
theorem testDrain : ∀ a b, Statement (.testDrain a b) := fun _ _ => ⟨Nat.zero_le 1, .inr rfl⟩
theorem testDrainDone : ∀ a, Statement (.testDrainDone a) := fun _ => ⟨Nat.zero_le 1, .inr rfl⟩
theorem vadd : ∀ a b, Statement (.vadd a b) := fun _ _ => ⟨Nat.le_refl 1, .inr rfl⟩
theorem vsub : ∀ a b, Statement (.vsub a b) := fun _ _ => ⟨Nat.le_refl 1, .inr rfl⟩
theorem vmul : ∀ a b, Statement (.vmul a b) := fun _ _ => ⟨Nat.le_refl 1, .inr rfl⟩
theorem vfma : ∀ a b, Statement (.vfma a b) := fun _ _ => ⟨Nat.le_refl 1, .inr rfl⟩
theorem vmin : ∀ a b, Statement (.vmin a b) := fun _ _ => ⟨Nat.le_refl 1, .inr rfl⟩
theorem vmax : ∀ a b, Statement (.vmax a b) := fun _ _ => ⟨Nat.le_refl 1, .inr rfl⟩
theorem vneg : ∀ a b, Statement (.vneg a b) := fun _ _ => ⟨Nat.le_refl 1, .inr rfl⟩
theorem vabs : ∀ a b, Statement (.vabs a b) := fun _ _ => ⟨Nat.le_refl 1, .inr rfl⟩
theorem vceq : ∀ a b, Statement (.vceq a b) := fun _ _ => ⟨Nat.le_refl 1, .inr rfl⟩
theorem vcne : ∀ a b, Statement (.vcne a b) := fun _ _ => ⟨Nat.le_refl 1, .inr rfl⟩
theorem vclt : ∀ a b, Statement (.vclt a b) := fun _ _ => ⟨Nat.le_refl 1, .inr rfl⟩
theorem vcle : ∀ a b, Statement (.vcle a b) := fun _ _ => ⟨Nat.le_refl 1, .inr rfl⟩
theorem vcgt : ∀ a b, Statement (.vcgt a b) := fun _ _ => ⟨Nat.le_refl 1, .inr rfl⟩
theorem vcge : ∀ a b, Statement (.vcge a b) := fun _ _ => ⟨Nat.le_refl 1, .inr rfl⟩
theorem vsel : ∀ a b, Statement (.vsel a b) := fun _ _ => ⟨Nat.le_refl 1, .inr rfl⟩
theorem vand : ∀ a b, Statement (.vand a b) := fun _ _ => ⟨Nat.le_refl 1, .inr rfl⟩
theorem vor : ∀ a b, Statement (.vor a b) := fun _ _ => ⟨Nat.le_refl 1, .inr rfl⟩
theorem vxor : ∀ a b, Statement (.vxor a b) := fun _ _ => ⟨Nat.le_refl 1, .inr rfl⟩
theorem vshl : ∀ a b, Statement (.vshl a b) := fun _ _ => ⟨Nat.le_refl 1, .inr rfl⟩
theorem vshr : ∀ a b, Statement (.vshr a b) := fun _ _ => ⟨Nat.le_refl 1, .inr rfl⟩
theorem vsra : ∀ a b, Statement (.vsra a b) := fun _ _ => ⟨Nat.le_refl 1, .inr rfl⟩
theorem cvt : ∀ a b, Statement (.cvt a b) := fun _ _ => ⟨Nat.le_refl 1, .inr rfl⟩
theorem vexp2 : ∀ a b, Statement (.vexp2 a b) := fun _ _ => ⟨Nat.le_refl 1, .inr rfl⟩
theorem vlog2 : ∀ a b, Statement (.vlog2 a b) := fun _ _ => ⟨Nat.le_refl 1, .inr rfl⟩
theorem vrcp : ∀ a b, Statement (.vrcp a b) := fun _ _ => ⟨Nat.le_refl 1, .inr rfl⟩
theorem vrsqrt : ∀ a b, Statement (.vrsqrt a b) := fun _ _ => ⟨Nat.le_refl 1, .inr rfl⟩
theorem vsqrt : ∀ a b, Statement (.vsqrt a b) := fun _ _ => ⟨Nat.le_refl 1, .inr rfl⟩
theorem vsinpi : ∀ a b, Statement (.vsinpi a b) := fun _ _ => ⟨Nat.le_refl 1, .inr rfl⟩
theorem vcospi : ∀ a b, Statement (.vcospi a b) := fun _ _ => ⟨Nat.le_refl 1, .inr rfl⟩
theorem vtanh : ∀ a b, Statement (.vtanh a b) := fun _ _ => ⟨Nat.le_refl 1, .inr rfl⟩
theorem vlogi : ∀ a b, Statement (.vlogi a b) := fun _ _ => ⟨Nat.le_refl 1, .inr rfl⟩
theorem verf : ∀ a b, Statement (.verf a b) := fun _ _ => ⟨Nat.le_refl 1, .inr rfl⟩
theorem vshuf : ∀ a b, Statement (.vshuf a b) := fun _ _ => ⟨Nat.le_refl 1, .inr rfl⟩
theorem vtree : ∀ a b, Statement (.vtree a b) := fun _ _ => ⟨Nat.le_refl 1, .inr rfl⟩
theorem vacc : ∀ a b, Statement (.vacc a b) := fun _ _ => ⟨Nat.le_refl 1, .inr rfl⟩
theorem vsum : ∀ a b, Statement (.vsum a b) := fun _ _ => ⟨Nat.le_refl 1, .inr rfl⟩
theorem vld : ∀ a b, Statement (.vld a b) := fun _ _ => ⟨Nat.le_refl 1, .inr rfl⟩
theorem vst : ∀ a b, Statement (.vst a b) := fun _ _ => ⟨Nat.le_refl 1, .inr rfl⟩
theorem vchain : ∀ a b, Statement (.vchain a b) := fun _ _ => ⟨Nat.le_refl 1, .inr rfl⟩
theorem chainEnd : ∀ a, Statement (.chainEnd a) := fun _ => ⟨Nat.zero_le 1, .inr rfl⟩
theorem dmov : ∀ a b, Statement (.dmov a b) := fun _ _ => ⟨Nat.le_refl 1, .inr rfl⟩
theorem dpage : ∀ a b, Statement (.dpage a b) := fun _ _ => ⟨Nat.le_refl 1, .inr rfl⟩
theorem dsend : ∀ a b, Statement (.dsend a b) := fun _ _ => ⟨Nat.le_refl 1, .inr rfl⟩
theorem dexport : ∀ a b, Statement (.dexport a b) := fun _ _ => ⟨Nat.le_refl 1, .inr rfl⟩
theorem dfill : ∀ a b, Statement (.dfill a b) := fun _ _ => ⟨Nat.le_refl 1, .inr rfl⟩
theorem dcopy : ∀ a b, Statement (.dcopy a b) := fun _ _ => ⟨Nat.le_refl 1, .inr rfl⟩
theorem moveComplete : ∀ a b, Statement (.moveComplete a b) := fun _ _ => ⟨Nat.zero_le 1, .inr rfl⟩
theorem sig : ∀ a b, Statement (.sig a b) := fun _ _ => ⟨Nat.le_refl 1, .inr rfl⟩
theorem wait : ∀ a b, Statement (.wait a b) := fun _ _ => ⟨Nat.le_refl 1, .inr rfl⟩
theorem arrive : ∀ a b, Statement (.arrive a b) := fun _ _ => ⟨Nat.le_refl 1, .inr rfl⟩
theorem waitr : ∀ a b, Statement (.waitr a b) := fun _ _ => ⟨Nat.le_refl 1, .inr rfl⟩
theorem fence : ∀ a b, Statement (.fence a b) := fun _ _ => ⟨Nat.le_refl 1, .inr rfl⟩
theorem tickwait : ∀ a b, Statement (.tickwait a b) := fun _ _ => ⟨Nat.le_refl 1, .inr rfl⟩
theorem plannedRelease : ∀ a, Statement (.plannedRelease a) := fun _ => ⟨Nat.zero_le 1, .inr rfl⟩
theorem bridleNotice : ∀ a, Statement (.bridleNotice a) := fun _ => ⟨Nat.zero_le 1, .inr rfl⟩
theorem anchorTimeout : ∀ a, Statement (.anchorTimeout a) := fun _ => ⟨Nat.zero_le 1, .inr rfl⟩
theorem haltReq : ∀ a, Statement (.haltReq a) := fun _ => ⟨Nat.zero_le 1, .inr rfl⟩
theorem resume : ∀ a, Statement (.resume a) := fun _ => ⟨Nat.zero_le 1, .inr rfl⟩
theorem pmemDataWrite : ∀ a b c, Statement (.pmemDataWrite a b c) := fun _ _ _ => ⟨Nat.zero_le 1, .inr rfl⟩
theorem pmemDataRead : ∀ a b, Statement (.pmemDataRead a b) := fun _ _ => ⟨Nat.zero_le 1, .inr rfl⟩
theorem chainmemWrite : ∀ a b c, Statement (.chainmemWrite a b c) := fun _ _ _ => ⟨Nat.zero_le 1, .inr rfl⟩
theorem reelCfgWrite : ∀ a b c, Statement (.reelCfgWrite a b c) := fun _ _ _ => ⟨Nat.zero_le 1, .inr rfl⟩
theorem offReq : ∀ a b, Statement (.offReq a b) := fun _ _ => ⟨Nat.zero_le 1, .inr rfl⟩
theorem onReq : ∀ a b, Statement (.onReq a b) := fun _ _ => ⟨Nat.zero_le 1, .inr rfl⟩
theorem bankPowerOff : ∀ a b, Statement (.bankPowerOff a b) := fun _ _ => ⟨Nat.zero_le 1, .inr rfl⟩
theorem bankCloseTimeout : ∀ a b, Statement (.bankCloseTimeout a b) := fun _ _ => ⟨Nat.zero_le 1, .inr rfl⟩
theorem bankWakeDone : ∀ a b, Statement (.bankWakeDone a b) := fun _ _ => ⟨Nat.zero_le 1, .inr rfl⟩
theorem repair : ∀ a, Statement (.repair a) := fun _ => ⟨Nat.zero_le 1, .inr rfl⟩
theorem define : Statement (.define) := ⟨Nat.zero_le 1, .inr rfl⟩
theorem delete : ∀ a, Statement (.delete a) := fun _ => ⟨Nat.zero_le 1, .inr rfl⟩
theorem launch : Statement (.launch) := ⟨Nat.zero_le 1, .inr rfl⟩
theorem launchGo : Statement (.launchGo) := ⟨Nat.zero_le 1, .inr rfl⟩
theorem unitCmdTimeout : Statement (.unitCmdTimeout) := ⟨Nat.zero_le 1, .inr rfl⟩
theorem haltUnit : ∀ a, Statement (.haltUnit a) := fun _ => ⟨Nat.zero_le 1, .inr rfl⟩
theorem bridleEvaluation : ∀ a b, Statement (.bridleEvaluation a b) := fun _ _ => ⟨Nat.zero_le 1, .inr rfl⟩
theorem waitExpiry : ∀ a b c, Statement (.waitExpiry a b c) := fun _ _ _ => ⟨Nat.zero_le 1, .inr rfl⟩
theorem brdCountWrite : ∀ a b, Statement (.brdCountWrite a b) := fun _ _ => ⟨Nat.zero_le 1, .inr rfl⟩
theorem brdAdd : ∀ a b, Statement (.brdAdd a b) := fun _ _ => ⟨Nat.zero_le 1, .inr rfl⟩
theorem alloc : Statement (.alloc) := ⟨Nat.zero_le 1, .inr rfl⟩
theorem map : Statement (.map) := ⟨Nat.zero_le 1, .inr rfl⟩
theorem unmap : Statement (.unmap) := ⟨Nat.zero_le 1, .inr rfl⟩
theorem incref : Statement (.incref) := ⟨Nat.zero_le 1, .inr rfl⟩
theorem decref : Statement (.decref) := ⟨Nat.zero_le 1, .inr rfl⟩
theorem dropspace : Statement (.dropspace) := ⟨Nat.zero_le 1, .inr rfl⟩
theorem migrate : Statement (.migrate) := ⟨Nat.zero_le 1, .inr rfl⟩
theorem migrateCopyDone : ∀ a, Statement (.migrateCopyDone a) := fun _ => ⟨Nat.zero_le 1, .inr rfl⟩
theorem stepBoundary : Statement (.stepBoundary) := ⟨Nat.zero_le 1, .inr rfl⟩
theorem epochRetire : Statement (.epochRetire) := ⟨Nat.zero_le 1, .inr rfl⟩
theorem patrolScrub : ∀ a b, Statement (.patrolScrub a b) := fun _ _ => ⟨Nat.zero_le 1, .inr rfl⟩
theorem hbmPhyCalibration : ∀ a, Statement (.hbmPhyCalibration a) := fun _ => ⟨Nat.zero_le 1, .inr rfl⟩
theorem loftCalibration : ∀ a, Statement (.loftCalibration a) := fun _ => ⟨Nat.zero_le 1, .inr rfl⟩
theorem loftWearLevelling : ∀ a, Statement (.loftWearLevelling a) := fun _ => ⟨Nat.zero_le 1, .inr rfl⟩
theorem pageCopyDone : Statement (.pageCopyDone) := ⟨Nat.zero_le 1, .inr rfl⟩
theorem insert : Statement (.insert) := ⟨Nat.zero_le 1, .inr rfl⟩
theorem remove : Statement (.remove) := ⟨Nat.zero_le 1, .inr rfl⟩
theorem flush : Statement (.flush) := ⟨Nat.zero_le 1, .inr rfl⟩
theorem runWrite : ∀ a, Statement (.runWrite a) := fun _ => ⟨Nat.zero_le 1, .inr rfl⟩
theorem tickStart : ∀ a, Statement (.tickStart a) := fun _ => ⟨Nat.zero_le 1, .inr rfl⟩
theorem stepGo : Statement (.stepGo) := ⟨Nat.zero_le 1, .inr rfl⟩
theorem planFreeze : ∀ a, Statement (.planFreeze a) := fun _ => ⟨Nat.zero_le 1, .inr rfl⟩
theorem admissionRound : ∀ a, Statement (.admissionRound a) := fun _ => ⟨Nat.zero_le 1, .inr rfl⟩
theorem stepCut : ∀ a, Statement (.stepCut a) := fun _ => ⟨Nat.zero_le 1, .inr rfl⟩
theorem exportDeadline : ∀ a, Statement (.exportDeadline a) := fun _ => ⟨Nat.zero_le 1, .inr rfl⟩
theorem sqTailDoorbell : ∀ a b c, Statement (.sqTailDoorbell a b c) := fun _ _ _ => ⟨Nat.zero_le 1, .inr rfl⟩
theorem cqHeadDoorbell : ∀ a b c, Statement (.cqHeadDoorbell a b c) := fun _ _ _ => ⟨Nat.zero_le 1, .inr rfl⟩
theorem prefill : ∀ a b, Statement (.prefill a b) := fun _ _ => ⟨Nat.zero_le 1, .inr rfl⟩
theorem cancel : ∀ a b, Statement (.cancel a b) := fun _ _ => ⟨Nat.zero_le 1, .inr rfl⟩
theorem loadModel : ∀ a b, Statement (.loadModel a b) := fun _ _ => ⟨Nat.zero_le 1, .inr rfl⟩
theorem modelLoadDone : ∀ a, Statement (.modelLoadDone a) := fun _ => ⟨Nat.zero_le 1, .inr rfl⟩
theorem unloadModel : ∀ a b, Statement (.unloadModel a b) := fun _ _ => ⟨Nat.zero_le 1, .inr rfl⟩
theorem installVariant : ∀ a b, Statement (.installVariant a b) := fun _ _ => ⟨Nat.zero_le 1, .inr rfl⟩
theorem variantInstallDone : ∀ a, Statement (.variantInstallDone a) := fun _ => ⟨Nat.zero_le 1, .inr rfl⟩
theorem removeVariant : ∀ a b, Statement (.removeVariant a b) := fun _ _ => ⟨Nat.zero_le 1, .inr rfl⟩
theorem qcfgWrite : ∀ a b, Statement (.qcfgWrite a b) := fun _ _ => ⟨Nat.zero_le 1, .inr rfl⟩
theorem queueBaseWrite : ∀ a b c, Statement (.queueBaseWrite a b c) := fun _ _ _ => ⟨Nat.zero_le 1, .inr rfl⟩
theorem queueDisableDone : ∀ a, Statement (.queueDisableDone a) := fun _ => ⟨Nat.zero_le 1, .inr rfl⟩
theorem interruptTimeout : ∀ a, Statement (.interruptTimeout a) := fun _ => ⟨Nat.zero_le 1, .inr rfl⟩
theorem bdpAddrWrite : ∀ a, Statement (.bdpAddrWrite a) := fun _ => ⟨Nat.zero_le 1, .inr rfl⟩
theorem bdpWrite : ∀ a b, Statement (.bdpWrite a b) := fun _ _ => ⟨Nat.zero_le 1, .inr rfl⟩
theorem bdpRead : ∀ a b, Statement (.bdpRead a b) := fun _ _ => ⟨Nat.zero_le 1, .inr rfl⟩
theorem pcieLinkDown : Statement (.pcieLinkDown) := ⟨Nat.zero_le 1, .inr rfl⟩
theorem registerWrite : ∀ a b c, Statement (.registerWrite a b c) := fun _ _ _ => ⟨Nat.zero_le 1, .inr rfl⟩
theorem targetWrite : ∀ a b c, Statement (.targetWrite a b c) := fun _ _ _ => ⟨Nat.zero_le 1, .inr rfl⟩
theorem pageData : ∀ a, Statement (.pageData a) := fun _ => ⟨Nat.zero_le 1, .inr rfl⟩
theorem manifest : ∀ a, Statement (.manifest a) := fun _ => ⟨Nat.zero_le 1, .inr rfl⟩
theorem ack : ∀ a b, Statement (.ack a b) := fun _ _ => ⟨Nat.zero_le 1, .inr rfl⟩
theorem nak : ∀ a b, Statement (.nak a b) := fun _ _ => ⟨Nat.zero_le 1, .inr rfl⟩
theorem credit : ∀ a b, Statement (.credit a b) := fun _ _ => ⟨Nat.zero_le 1, .inr rfl⟩
theorem retransmitTimeout : ∀ a, Statement (.retransmitTimeout a) := fun _ => ⟨Nat.zero_le 1, .inr rfl⟩
theorem rateIncrease : ∀ a, Statement (.rateIncrease a) := fun _ => ⟨Nat.zero_le 1, .inr rfl⟩
theorem sealedTimeout : ∀ a, Statement (.sealedTimeout a) := fun _ => ⟨Nat.zero_le 1, .inr rfl⟩
theorem yaphor : ∀ a b c d, Statement (.yaphor a b c d) := fun _ _ _ _ => ⟨Nat.zero_le 1, .inr rfl⟩
theorem unitReq : ∀ a b c d e, Statement (.unitReq a b c d e) := fun _ _ _ _ _ => ⟨Nat.zero_le 1, .inr rfl⟩
theorem unitRsp : ∀ a b c d, Statement (.unitRsp a b c d) := fun _ _ _ _ => ⟨Nat.zero_le 1, .inr rfl⟩
theorem write : ∀ a b c, Statement (.write a b c) := fun _ _ _ => ⟨Nat.zero_le 1, .inr rfl⟩
theorem writeDone : ∀ a b c d, Statement (.writeDone a b c d) := fun _ _ _ _ => ⟨Nat.zero_le 1, .inr rfl⟩
theorem stepDesc : ∀ a b c d, Statement (.stepDesc a b c d) := fun _ _ _ _ => ⟨Nat.zero_le 1, .inr rfl⟩
theorem schedCtlStart : ∀ a b c d e, Statement (.schedCtlStart a b c d e) := fun _ _ _ _ _ => ⟨Nat.zero_le 1, .inr rfl⟩
theorem schedCtlBoundary : ∀ a b c, Statement (.schedCtlBoundary a b c) := fun _ _ _ => ⟨Nat.zero_le 1, .inr rfl⟩
theorem schedCtlStop : ∀ a b c, Statement (.schedCtlStop a b c) := fun _ _ _ => ⟨Nat.zero_le 1, .inr rfl⟩
theorem stepDone : ∀ a b c d, Statement (.stepDone a b c d) := fun _ _ _ _ => ⟨Nat.zero_le 1, .inr rfl⟩
theorem signal : ∀ a b c, Statement (.signal a b c) := fun _ _ _ => ⟨Nat.zero_le 1, .inr rfl⟩
theorem lerboForward : ∀ a b c, Statement (.lerboForward a b c) := fun _ _ _ => ⟨Nat.zero_le 1, .inr rfl⟩
theorem hello : ∀ a b, Statement (.hello a b) := fun _ _ => ⟨Nat.zero_le 1, .inr rfl⟩
theorem replay : ∀ a b, Statement (.replay a b) := fun _ _ => ⟨Nat.zero_le 1, .inr rfl⟩
theorem replayRetry : ∀ a, Statement (.replayRetry a) := fun _ => ⟨Nat.zero_le 1, .inr rfl⟩
theorem aackTimeout : ∀ a, Statement (.aackTimeout a) := fun _ => ⟨Nat.zero_le 1, .inr rfl⟩
theorem laneLockLoss : ∀ a, Statement (.laneLockLoss a) := fun _ => ⟨Nat.zero_le 1, .inr rfl⟩
theorem retrainTimeout : ∀ a, Statement (.retrainTimeout a) := fun _ => ⟨Nat.zero_le 1, .inr rfl⟩
theorem trainingTimeout : ∀ a, Statement (.trainingTimeout a) := fun _ => ⟨Nat.zero_le 1, .inr rfl⟩
theorem downRetry : ∀ a, Statement (.downRetry a) := fun _ => ⟨Nat.zero_le 1, .inr rfl⟩
theorem pllLockLoss : ∀ a, Statement (.pllLockLoss a) := fun _ => ⟨Nat.zero_le 1, .inr rfl⟩
theorem pcfgWrite : ∀ a b, Statement (.pcfgWrite a b) := fun _ _ => ⟨Nat.zero_le 1, .inr rfl⟩
theorem unquar : ∀ a, Statement (.unquar a) := fun _ => ⟨Nat.zero_le 1, .inr rfl⟩
theorem ethernetFrame : ∀ a b c, Statement (.ethernetFrame a b c) := fun _ _ _ => ⟨Nat.zero_le 1, .inr rfl⟩
theorem pfc : ∀ a b c, Statement (.pfc a b c) := fun _ _ _ => ⟨Nat.zero_le 1, .inr rfl⟩
theorem ptpMessage : ∀ a b, Statement (.ptpMessage a b) := fun _ _ => ⟨Nat.zero_le 1, .inr rfl⟩
theorem pps : ∀ a, Statement (.pps a) := fun _ => ⟨Nat.zero_le 1, .inr rfl⟩
theorem timebaseSourceTimeout : Statement (.timebaseSourceTimeout) := ⟨Nat.zero_le 1, .inr rfl⟩
theorem tbSet : ∀ a, Statement (.tbSet a) := fun _ => ⟨Nat.zero_le 1, .inr rfl⟩
theorem wakeRequest : ∀ a, Statement (.wakeRequest a) := fun _ => ⟨Nat.zero_le 1, .inr rfl⟩
theorem sensorSample : ∀ a, Statement (.sensorSample a) := fun _ => ⟨Nat.zero_le 1, .inr rfl⟩
theorem marginPlanStep : Statement (.marginPlanStep) := ⟨Nat.zero_le 1, .inr rfl⟩
theorem marginPlanSave : Statement (.marginPlanSave) := ⟨Nat.zero_le 1, .inr rfl⟩
theorem mstepArm : ∀ a, Statement (.mstepArm a) := fun _ => ⟨Nat.zero_le 1, .inr rfl⟩
theorem txcfgWrite : ∀ a, Statement (.txcfgWrite a) := fun _ => ⟨Nat.zero_le 1, .inr rfl⟩
theorem logTailWrite : ∀ a, Statement (.logTailWrite a) := fun _ => ⟨Nat.zero_le 1, .inr rfl⟩
theorem perst : ∀ a b, Statement (.perst a b) := fun _ _ => ⟨Nat.zero_le 1, .inr rfl⟩
theorem moduleReset : ∀ a, Statement (.moduleReset a) := fun _ => ⟨Nat.zero_le 1, .inr rfl⟩
theorem bootStageTimeout : ∀ a, Statement (.bootStageTimeout a) := fun _ => ⟨Nat.zero_le 1, .inr rfl⟩
theorem pwrGoodRise : Statement (.pwrGoodRise) := ⟨Nat.zero_le 1, .inr rfl⟩
theorem powerLoss : Statement (.powerLoss) := ⟨Nat.zero_le 1, .inr rfl⟩
theorem component : ∀ a, Statement (.component a) := fun _ => ⟨Nat.zero_le 1, .inr rfl⟩
theorem profiles : Statement (.profiles) := ⟨Nat.zero_le 1, .inr rfl⟩
theorem reset : Statement (.reset) := ⟨Nat.zero_le 1, .inr rfl⟩
theorem profileNextWrite : ∀ a, Statement (.profileNextWrite a) := fun _ => ⟨Nat.zero_le 1, .inr rfl⟩
theorem getVersion : ∀ a, Statement (.getVersion a) := fun _ => ⟨Nat.zero_le 1, .inr rfl⟩
theorem getCapabilities : ∀ a, Statement (.getCapabilities a) := fun _ => ⟨Nat.zero_le 1, .inr rfl⟩
theorem negotiateAlgorithms : ∀ a, Statement (.negotiateAlgorithms a) := fun _ => ⟨Nat.zero_le 1, .inr rfl⟩
theorem getDigests : ∀ a, Statement (.getDigests a) := fun _ => ⟨Nat.zero_le 1, .inr rfl⟩
theorem getCertificate : ∀ a, Statement (.getCertificate a) := fun _ => ⟨Nat.zero_le 1, .inr rfl⟩
theorem challenge : ∀ a, Statement (.challenge a) := fun _ => ⟨Nat.zero_le 1, .inr rfl⟩
theorem getMeasurements : ∀ a, Statement (.getMeasurements a) := fun _ => ⟨Nat.zero_le 1, .inr rfl⟩
theorem pldmSensorRequest : ∀ a, Statement (.pldmSensorRequest a) := fun _ => ⟨Nat.zero_le 1, .inr rfl⟩
theorem flit : ∀ a b, Statement (.flit a b) := fun _ _ => ⟨Nat.zero_le 1, .inr rfl⟩
theorem equalisationDone : ∀ a b, Statement (.equalisationDone a b) := fun _ _ => ⟨Nat.zero_le 1, .inr rfl⟩
theorem updateDone : ∀ a, Statement (.updateDone a) := fun _ => ⟨Nat.zero_le 1, .inr rfl⟩
theorem d3hot : ∀ a, Statement (.d3hot a) := fun _ => ⟨Nat.zero_le 1, .inr rfl⟩

end Sys2Proof.Laws.OneSlot
end

