-- ==== Sys2Proof/Tests/Slice0.lean ====
section
/-! SUPPORT. Tests on small states: ill-formed commands, words written out from the encodings of file 09, single steps with results
worked out by hand from the manual, and, for every statement with hypotheses, states and operands that meet them, clause by clause. -/
open Sys2Proof Sys2Proof.Machine Sys2Proof.Stated
namespace Sys2Proof.Tests

/-! ### States -/

/-- A module in service: READY, every clock running. -/
def base : State :=
  { State.reset with sec := { Sec.reset with stage := 4, ident := some Ident.reset, identOk := true }, pwr := { stopped := [] } }

/-- The module in minimal mode. -/
def mini : State := { base with sec := { base.sec with stage := 7, code := 8 } }

/-- The module with one kite, number 3. -/
def one (kt : Kite) : State := { base with kites := [(3, kt)] }

/-- Kite 3 issues. -/
def run3 : State := one { st := .issuing }

theorem run3_issuing : issuing run3 3 := ⟨rfl, rfl⟩

/-- A Lerbo message for this module from module 7, on channel 0 of port 5. -/
def rx : LRx := ⟨5, 0, 0xFFFFF, 7, 31, 1, 0, [], 0, 0, true, true⟩

/-! ### Ill-formed commands -/

theorem test_wf_cr : (Instr.add 3 ⟨0, 0, 0, 0, 0⟩).wf = true ∧ (Instr.add 3 ⟨0, 0, 0, 0, 1⟩).wf = false := by decide
theorem test_wf_ch : (Instr.lih 3 ⟨0, 4, 0, 0⟩).wf = false := by decide
theorem test_wf_cc : (Instr.cmp 3 ⟨0, 0, 0, 0, 512⟩).wf = false := by decide
theorem test_wf_cs : (Instr.csrr 3 ⟨0, 0, 1⟩).wf = false := by decide
theorem test_wf_cb : (Instr.brb 3 ⟨0, 0, 0, 1, 1, 1, 0, 1⟩).wf = false ∧ (Instr.brb 3 ⟨0, 0, 0, 1, 0, 1, 7, 1⟩).wf = false := by decide
theorem test_wf_cp : (Instr.loop 3 ⟨0, 1, 1, 5⟩).wf = false := by decide
theorem test_wf_cz : (Instr.stepend 3 ⟨1⟩).wf = false := by decide
theorem test_wf_m : (Instr.mset 3 (MSetF.ofWord 1)).wf = false ∧ (Instr.mfeed 3 (MFeedF.ofWord 1)).wf = false ∧ (Instr.mswap 3 ⟨1⟩).wf = false ∧
    (Instr.mseed 3 ⟨0, 1⟩).wf = false ∧ (Instr.mzero 3 ⟨0, 1⟩).wf = false := by decide
theorem test_wf_v : (Instr.vadd 3 (VA.ofWord (2 ^ 13))).wf = false ∧ (Instr.cvt 3 (VK.ofWord (2 ^ 13))).wf = false ∧ (Instr.vexp2 3 (VF.ofWord (2 ^ 13))).wf = false ∧
    (Instr.vshuf 3 (VH.ofWord (2 ^ 13))).wf = false ∧ (Instr.vtree 3 (VT.ofWord (2 ^ 13))).wf = false ∧ (Instr.vacc 3 (VQ.ofWord 1)).wf = false ∧
    (Instr.vsum 3 (VU.ofWord (2 ^ 13))).wf = false ∧ (Instr.vld 3 (VM.ofWord (2 ^ 13))).wf = false ∧ (Instr.vchain 3 (VX.ofWord 1)).wf = false := by decide
theorem test_wf_d : (Instr.dmov 3 (DM.ofWord (2 ^ 13))).wf = false ∧ (Instr.dmov 3 (DM.ofWord 1)).wf = false ∧ (Instr.dsend 3 (DS.ofWord (2 ^ 13))).wf = false ∧
    (Instr.dsend 3 (DS.ofWord 1)).wf = false ∧ (Instr.dexport 3 (DX.ofWord 1)).wf = false ∧ (Instr.dfill 3 (DF.ofWord (2 ^ 13))).wf = false ∧
    (Instr.dfill 3 (DF.ofWord 1)).wf = false ∧ (Instr.dcopy 3 (DC.ofWord 1)).wf = false := by decide
theorem test_wf_s : (Instr.sig 3 (SSig.ofWord (2 ^ 16))).wf = false ∧ (Instr.fence 3 ⟨1⟩).wf = false := by decide
theorem test_wf_sqe : (Instr.prefill 0 { sqeOf [] with rsv := 1 }).wf = false ∧ (Instr.cancel 0 { sqeOf [] with rsv2 := 1 }).wf = false := by decide
theorem test_wf_doorbell : (Instr.sqTailDoorbell 0 0 0).wf = false ∧ (Instr.cqHeadDoorbell 0 9 0).wf = false := by decide
theorem test_wf_port : (Instr.bdpWrite 0 []).wf = false ∧ (Instr.bdpWrite 0xFFFFFF [1, 2]).wf = false ∧ (Instr.bdpRead 0 0).wf = false ∧
    (Instr.bdpRead 0xFFFFFF 2).wf = false := by decide

theorem test_wf_lerbo : (Instr.yaphor rx 0 1 []).wf = false ∧ (Instr.unitReq rx 0 0 1 []).wf = false ∧ (Instr.unitRsp rx 0 0 1).wf = false ∧
    (Instr.write rx ⟨0, 0, 0, 0, 0, 0, 0, 1⟩ []).wf = false ∧ (Instr.writeDone rx 0 0 1).wf = false ∧ (Instr.schedCtlStart rx 0 0 0 1).wf = false ∧
    (Instr.schedCtlBoundary rx 0 1).wf = false ∧ (Instr.schedCtlStop rx 0 1).wf = false := by decide
theorem test_wf_long (l : List Byte) (h : l.length = 9217) : (Instr.lerboForward rx 0 l).wf = false ∧ (Instr.stepDesc rx 0 0 l).wf = false :=
  ⟨decide_eq_false (by omega), decide_eq_false (by omega)⟩

/-! ### Words of the encodings of file 09 -/

/-- ADD S1, S2, S3: OP 0x01, SD 1, SA 2, SB 3 (Tables 9.1 and 9.2). -/
theorem test_decode_add : decodeC 3 0b000001_00001_00010_00011_000_00000000 0 = .ins (.add 3 ⟨1, 2, 3, 0, 0⟩) := by decide
/-- LIH S4, H 3, IMM 0xBEEF: OP 0x1B. -/
theorem test_decode_lih : decodeC 3 0b011011_00100_000_11_1011111011101111 0 = .ins (.lih 3 ⟨4, 0, 3, 0xBEEF⟩) := by decide
/-- BRB on flag 2, OFFT 3, OFFJ 5, LEN 9: OP 0x28, with LEN and OFFT in the extension word. -/
theorem test_decode_brb : decodeC 3 0b101000_0_0_00010_0000000000101_000000 0b0000000000001001_000_0000000000011 =
    .ins (.brb 3 ⟨0, 0, 2, 5, 0, 9, 0, 3⟩) := by decide
/-- MZERO of the shadow set: OP 0x05, SET bit 57. -/
theorem test_decode_mzero : decodeM 3 (0b000101_1 * 2 ^ 57) = .ins (.mzero 3 ⟨1, 0⟩) := by decide
/-- VADD V1, V2, V3 on FP32, 128 elements: OP 0x01. -/
theorem test_decode_vadd : decodeV 3 (0b000001_00001_00010_00011 * 2 ^ 43 + 128) = .ins (.vadd 3 ⟨1, 2, 3, 0, 0, 0, 0, 0, 0, 128⟩) := by decide
/-- DCOPY on channel 2 from row 5 to row 9, one row: OP 0x06. -/
theorem test_decode_dcopy : decodeD 3 (0b000110_10_0 * 2 ^ 55 + 5 * 2 ^ 41 + 9 * 2 ^ 27 + 1 * 2 ^ 13) = .ins (.dcopy 3 ⟨2, 0, 5, 9, 1, 0, 0, 0⟩) := by decide
/-- SIG on the bridle of S1, amount 7: OP 001. -/
theorem test_decode_sig : decodeS 3 0b001_00001_0_00000_00_0000000000000111 = .ins (.sig 3 ⟨1, 0, 0, 0, 7⟩) := by decide
/-- Opcode 0 with a bit set, and an opcode no table lists, are reserved (R178). -/
theorem test_decode_reserved : decodeC 3 1 0 = .reserved ∧ decodeM 3 (6 * 2 ^ 58) = .reserved ∧ decodeS 3 (7 * 2 ^ 29) = .reserved ∧ decodeV 3 0 = .nop := by decide
/-- The table gives no word to any command. -/
theorem test_decode_table : decodeTableWord 32 0x04000000 = none := rfl

/-! ### Single steps with results worked out by hand -/

/-- S2 = 2⁶⁴ − 1 and S3 = 2: ADD wraps to 1, which S1 takes at the end of the cycle (R152, R182). -/
theorem test_add_wraps : exec (.add 3 ⟨1, 2, 3, 0, 0⟩) (one { st := .issuing, sregs := [(2, 0xFFFFFFFFFFFFFFFF), (3, 2)] }) =
    .next (one { st := .issuing, sregs := [(2, 0xFFFFFFFFFFFFFFFF), (3, 2)], sq := [⟨1, false, .s 1, 1⟩] }) := rfl
/-- A HALT that issues sets the end of the keel and nothing else (Table 8.2). -/
theorem test_halt : exec (.halt 3 ⟨0⟩) run3 = .next (one { st := .issuing, haltEnd := true }) := rfl
/-- WAIT's count: 5 is past 2³² − 1 modulo 2³² (R218). -/
theorem test_wait_wraps : ((5 + 2 ^ 32 - 0xFFFFFFFF) % 2 ^ 32 < 2 ^ 31) := by decide
/-- An interrupted reset: PERST_N low for 999 ns is ignored, and 1,000 ns reset the module (R435). -/
theorem test_perst : exec (.perst false 999) base = .next base ∧ (∃ t, exec (.perst false 1000) base = .next t ∧ t.sec.stage = 0) := ⟨rfl, _, rfl, rfl⟩
/-- BDP_ADDR keeps a multiple of 4,096 (R376). -/
theorem test_bdp_addr : ∃ t, exec (.bdpAddrWrite 0x1FFF) base = .next t ∧ t.hst.bdpAddr = 0x1000 := ⟨_, rfl, by decide⟩

/-! ### States and operands that meet the hypotheses of the statements -/

theorem witness_StepRunsFrontCommand : ({ base with pending := [.reset, .launch] } : State).pending = .reset :: [.launch] := rfl

theorem witness_EmptyQueuePassesTime : State.reset.pending = [] ∧ (State.reset.phase = false ∧ State.reset.clk = false) ∧
    (({ base with phase := true } : State).phase = true ∧ base.pwr.stopped.contains 97 = false) ∧
    ({ base with phase := true, pwr := { stopped := [97] } } : State).pwr.stopped.contains 97 = true := by decide

theorem witness_ScalarResults : issuing run3 3 ∧ (⟨31, 0, 0, 7, 0⟩ : CR).rsv = 0 ∧ (⟨31, 0, 0, 7, 0⟩ : CR).sb = 0 ∧
    (⟨0, 0, 63⟩ : CI).imm.toNat < 64 ∧ (⟨1, 0, 3, 0xFFFF⟩ : CH).rsv = 0 := ⟨run3_issuing, by decide⟩

/-- FP32 NaN and 1, for COND 6 and 7. -/
theorem witness_CompareWritesFlag : issuing run3 3 ∧ (∀ c : BitVec 3, (⟨0, 1, 2, c, 0⟩ : CC).rsv = 0) ∧ (⟨7, 1, 5, 0⟩ : CCI).cond.toNat < 6 ∧
    6 ≤ (⟨7, 1, 6, 0⟩ : CCI).cond.toNat ∧ fp32 ((one { sregs := [(1, 0x7FC00000)] }).kite 3 |>.s32 1) = .nan := by
  refine ⟨run3_issuing, fun _ => rfl, ?_⟩; decide

theorem witness_ScalarWritesTakeEffect : ({ sq := [⟨8, false, .s 5, 1⟩] } : Kite).sq = [⟨7 + 1, false, .s 5, 1⟩] ∧
    (504 % 512 + 8 ≤ 512 ∧ ({} : Kite).bankLive (bankOf (504 / 512)) = true) := by decide

theorem witness_ScalarLoadStoreIssue : issuing run3 3 ∧ ((8388600#64 + (7#13).signExtend 64).toNat < 8388608 ∧ 8388608 ≤ (8388600#64 + (8#13).signExtend 64).toNat) ∧
    (⟨0, 1, 3, 0, 7⟩ : CM).sign = 0 := ⟨run3_issuing, by decide⟩

/-- Offset 0x008 has a register, and 0x050 has none. -/
theorem witness_WindowAccess : issuing run3 3 ∧ (⟨1, 1, 0⟩ : CS).rsv = 0 ∧ kteHas (1 * 8) = true ∧ kteHas (10 * 8) = false := ⟨run3_issuing, by decide⟩

theorem witness_BranchesAndLoops : issuing run3 3 ∧ chkBrb (run3.kite 3) ⟨0, 0, 7, 1, 0, 1, 0, 1⟩ = none ∧
    chkLoop (run3.kite 3) ⟨0, 1, 0, 0xFFFFFFFF⟩ = none ∧ (chkLoop (run3.kite 3) ⟨1, 1, 0, 5⟩ = none ∧ ((run3.kite 3).sreg 0).toNat < 5) ∧
    (let kt := (one { st := .issuing, sregs := [(1, 6)] }).kite 3
     (⟨1, 1, 0, 2 ^ 27 + 5⟩ : CP).csrc = 1 ∧ kt.ipc + 1 + 1 ≤ 8191 ∧ kt.frames.length < 8 ∧ (2 ^ 27 + 5) % 2 ^ 27 < (kt.sreg 1).toNat) ∧
    (let kt := (one { st := .padding, pc := 4, frames := [.brb 1 0 0 4 9] }).kite 3
     kt.st = .padding ∧ kt.hold = none ∧ kt.frames = .brb 1 0 0 4 9 :: [] ∧ kt.pc = 4 ∧ 0 + 0 = kt.t base.cyc) ∧
    (let kt := (one { st := .padding, pc := 4, frames := [.loop 1 3 0 0 true (some 0)] }).kite 3
     kt.frames = .loop 1 3 0 0 true (some 0) :: [] ∧ 0 ≤ kt.t base.cyc) := ⟨run3_issuing, by decide⟩

theorem witness_StependAndHalt : issuing run3 3 ∧ (⟨0⟩ : CZ).rsv = 0 ∧ frameBar (run3.kite 3) = none ∧ (run3.kite 3).stepDone = false ∧
    ((one { st := .issuing, stepDone := true }).kite 3).stepDone = true ∧
    (let kt := (one { st := .issuing, ipc := 2, frames := [.brb 1 0 5 4 9] }).kite 3
     kt.frames = .brb 1 0 5 4 9 :: [] ∧ 1 ≠ kt.ipc) ∧
    (let kt := (one { st := .issuing, ipc := 2, frames := [.loop 2 3 1 0 true none] }).kite 3
     kt.frames = .loop 2 3 1 0 true none :: [] ∧ 2 ≠ kt.ipc + 1) := ⟨run3_issuing, by decide⟩

theorem witness_IllegalEncodingStopsKeel : issuing run3 3 ∧ (⟨0, 0, 0, 0, 128⟩ : CR).rsv ≠ 0 ∧ (⟨0, 0, 1, 0, 0⟩ : CR).sb ≠ 0 ∧ 64 ≤ (⟨0, 0, 64⟩ : CI).imm.toNat ∧
    (⟨0, 4, 0, 0⟩ : CH).rsv ≠ 0 ∧ (⟨0, 0, 0, 0, 1⟩ : CC).rsv ≠ 0 ∧ 6 ≤ (⟨0, 0, 6, 0⟩ : CCI).cond.toNat ∧ (⟨0, 0, 0, 1, 0⟩ : CM).sign ≠ 0 ∧
    (⟨0, 0, 128⟩ : CS).rsv ≠ 0 ∧ (⟨1⟩ : CZ).rsv ≠ 0 ∧ (⟨1⟩ : MSwapF).rsv ≠ 0 ∧ (⟨0, 1⟩ : MSeedF).rsv ≠ 0 ∧ (⟨1, 1⟩ : MZeroF).rsv ≠ 0 ∧ (⟨1⟩ : SZ).rsv ≠ 0 ∧
    (DM.ofWord (2 ^ 13)).rsv ≠ 0 ∧ (DS.ofWord (2 ^ 13)).rsv ≠ 0 ∧ (DF.ofWord (2 ^ 13)).rsv ≠ 0 ∧ (VA.ofWord (2 ^ 13)).rsv ≠ 0 := ⟨run3_issuing, by decide⟩

/-! The matrix engine. -/

/-- Arrangement 0, E4M3 × E4M3, one pass, every row and column; and the same with no row. -/
def msetGood : MSetF := ⟨0, 3, 3, 1, 0, 128, 128, 0⟩

theorem witness_MatrixSlotEffects : issuing run3 3 ∧ (msetCfg msetGood).isSome = true ∧ msetCfg { msetGood with rows := 0 } = none ∧ (⟨1, 0⟩ : MZeroF).rsv = 0 ∧
    (⟨0⟩ : MSwapF).rsv = 0 ∧ (⟨16383, 0⟩ : MSeedF).rsv = 0 ∧ (run3.kite 3).seed = none ∧ (run3.kite 3).released (!(run3.kite 3).setB) = true ∧
    ((one { st := .issuing, relB := false }).kite 3).released true = false ∧ ((one { st := .issuing, seed := some ⟨0, true, 0, [], 0⟩ }).kite 3).seed ≠ none :=
  ⟨run3_issuing, by decide⟩

/-- An array that never ran, one that is still entering, and one that has idled for 257 cycles. -/
theorem witness_MatrixFeedStartsPass : let f := MFeedF.ofWord (2 ^ 22)
    issuing run3 3 ∧ chkMfeed (run3.kite 3) f = none ∧ (run3.kite 3).mQueued 0 = false ∧ (run3.kite 3).lastEntry = none ∧
    (let p : Pass := ⟨{}, f, 0, 0, 1, 40, 128, false, none, 0, {}, {}⟩
     let q : Pass := ⟨{}, f, 0, 0, 99, 240, 128, true, none, 0, {}, {}⟩
     ((one { st := .issuing, passes := [p], lastEntry := some 167 }).kite 3).mQueued 50 = false ∧ 50 ≤ 167 ∧
       ((one { passes := [p] }).kite 3).passes.getLast? = some p ∧ ((one { passes := [p, q] }).kite 3).mQueued 50 = true) ∧
    (0 + 1 + 1 + (({} : MCfg).tLead) ≤ 0 + 256 ∧ 0 + 256 < (1 + 300) + 1 + (({} : MCfg).tLead)) := by
  refine ⟨run3_issuing, ?_⟩; decide

theorem witness_MatrixSetsAtCycleEnd : ({ zeroPend := some true } : Kite).seed = none ∧ ({ zeroPend := some true } : Kite).zeroPend = some true ∧
    ({ swapPend := true } : Kite).released (!({} : Kite).setB) = true ∧ ({ swapPend := true, relB := false } : Kite).released (!({} : Kite).setB) = false := by decide

theorem witness_GroupUpdateResult : let c : MCfg := { rows := 128, cols := 128 }
    c.rows ≤ c.shape.2.1 ∧ c.cols ≤ c.shape.2.2 := by decide

theorem witness_MatrixEvents :
    (let p : Pass := ⟨{}, MFeedF.ofWord (2 ^ 22), 0, 0, 1, 40, 128, false, none, 0, {}, {}⟩
     let s : State := { one { passes := [p] } with cyc := 173 }
     (s.kite 3).hold = none ∧ (s.kite 3).passes = [p] ∧ p.e0 + p.cyc + 5 = (s.kite 3).t s.cyc) ∧
    (let s : State := { one { prevEntry := some 10, pairs := 8 } with cyc := 267 }
     (s.kite 3).prevEntry = some 10 ∧ (s.kite 3).pairs ≠ 0 ∧ 7 ≤ 7 ∧ (s.kite 3).t s.cyc = 10 + 257 + 4 * (7 - 7)) ∧
    (∃ d : Seed, (one { seed := some d }).kite 3 = { seed := some d } ∧ 16384 ≤ d.cells.length ∧ ({ seed := some d } : Kite).drains 0 = false) ∧
    ((one {}).kteUp 3 = true ∧ (1#64).getLsbD 0 = true ∧ ((one {}).kite 3).stopped = true) ∧
    ((({ drain := some ⟨0, false, 16383, 255⟩ } : Kite).drain = some ⟨0, false, 16383, 255⟩) ∧
      ({ drain := some ⟨0, false, 16383, 255⟩ } : Kite).bankLive (bankOf ((16383 + 255) % 16384)) = true) ∧
    ((one { drain := some ⟨0, false, 16383, 256⟩ }).kite 3).drain = some ⟨0, false, 16383, 256⟩ := by
  refine ⟨?_, ?_, ⟨⟨0, true, 0, List.replicate 16384 0, 0⟩, rfl, List.length_replicate.ge, by decide⟩, ?_, ?_, ?_⟩ <;> decide

/-! The vector engine. -/

/-- VADD on FP32 of 128 elements, and VFMA of as many as S1 says. -/
def vaddGood : VA := ⟨1, 2, 3, 0, 0, 0, 0, 0, 0, 128⟩

theorem witness_VectorSlotEffects : issuing run3 3 ∧
    (∀ fn ∈ [AluFn.add, .sub, .mul, .min, .max, .ceq, .cne, .clt, .cle, .cgt, .cge], chkVa fn vaddGood = none) ∧
    (∀ fn ∈ [AluFn.neg, .abs], chkVa fn { vaddGood with vb := 0 } = none) ∧ (∀ fn ∈ [AluFn.fma, .sel], chkVa fn { vaddGood with vc := 4 } = none) ∧
    (∀ fn ∈ [AluFn.and, .or, .xor, .shl, .shr, .sra], chkVa fn { vaddGood with fmt := 14 } = none) ∧ chkVaCount (run3.kite 3) run3.cyc vaddGood = none ∧
    chkCvt ⟨1, 2, 0, 1, 0, 0, 0, 32⟩ = none ∧ chkVf ⟨1, 2, 0, 0, 4095⟩ = none ∧ chkVsum ⟨1, 2, 0, 0, 0, 128⟩ = none ∧ chkVm (VM.ofWord (2 ^ 53 + 128)) = none ∧
    chkVtree ⟨1, 2, 0, 0, 0, 7, 128, 0, 128⟩ = none ∧
    (let kt := run3.kite 3
     kt.vbusy .alu (kt.tv 0) = false ∧ (VKind.alu .add vaddGood).countAccepted ((VKind.alu .add vaddGood).count kt) = true ∧
     (VKind.alu .add { vaddGood with cns := 1, nel := 1 }).countAccepted ((VKind.alu .add { vaddGood with cns := 1, nel := 1 }).count kt) = false ∧
     ({ kt with vAlu := some ⟨.alu .add vaddGood, 0, 128, 2, 0, 0⟩ } : Kite).vbusy .alu (kt.tv 0) = true) := by
  refine ⟨run3_issuing, ?_⟩; decide


/-- Elements of 32 bits of V2 and V3. -/
theorem witness_VectorIntegerElement : (⟨1, 2, 3, 4, 14, 3, 0, 0, 0, 128⟩ : VA).fmt = 14 := rfl

/-- The second chunk of 256 elements, of 384. -/
theorem witness_VectorElementsWritten : let f : VA := { vaddGood with nel := 384 }
    let e := aluRate .add (fmtOf f.fmt)
    e = 256 ∧ (1 * e ≤ 383 ∧ 383 < 1 * e + min e (384 - 1 * e)) ∧ 1 * e + min e (384 - 1 * e) ≤ 384 ∧ (0 : Nat) ≠ f.vd.toNat := by decide

/-- A chain of one stage, a DRAIN of FP32. -/
def chKite : Kite := { st := .issuing, chainMem := [(0, 2305), (1, 2 ^ 122)] }

theorem witness_ChainStartEnd : issuing (one chKite) 3 ∧ chkVchain ((one chKite).kite 3) 3 ⟨0, 1, 128, 1, 0, 0, 1, 0, 0⟩ = none ∧
    (∀ u, ((one chKite).kite 3).vbusy u (((one chKite).kite 3).tv base.cyc) = false) ∧
    (let kt := (one { chKite with vMem := some ⟨.ld (VM.ofWord 128), 0, 128, 2, 0, 0⟩ }).kite 3
     chkVchain kt 3 ⟨0, 1, 128, 1, 0, 0, 1, 0, 0⟩ = none ∧ kt.vbusy .mem (kt.tv base.cyc) = true) ∧
    (let c : ChainRun := ⟨⟨0, 1, 128, 1, 0, 0, 1, 0, 0⟩, 0, 2305, [2 ^ 122], [0, 0, 0, 0], [], 20, [], 0⟩
     let s : State := { one { chKite with chain := some c } with cyc := 20 }
     (s.kite 3).retry = [] ∧ (s.kite 3).chain = some c ∧ c.tEnd ≤ (s.kite 3).tv s.cyc) := by
  refine ⟨⟨rfl, rfl⟩, ?_, ?_, ?_, ?_⟩
  · decide
  · intro u; cases u <;> decide
  · decide
  · decide

/-! The D slot: kite 3 in the unit of the whole module, with the address of bridle 7 in S4, the module's kite 5 in S5, memory 2²⁰ in S2 and a
stride of one block in S3. -/

/-- The registers of a kite that posts moves. -/
def dRegs : List (Nat × Word) := [(2, 0x100000), (3, 1), (4, 7), (5, 5)]

def dKite : Kite := { st := .issuing, unit := 0x124, sregs := dRegs }

/-- Two rows from row 100: DMOV to memory, and DSEND to row 0 of kite 5, with the completion bridle of S4. -/
def dmGood : DM := ⟨0, 1, 2, 3, 0, 100, 2, 0, 1, 4, 0⟩
def dsGood : DS := ⟨1, 0, 100, 2, 5, 0, 1, 4, 0⟩

/-- Train 0x10000 of two kites, one of them of module 9, with a bridle of each module. -/
def train2 : Train := ⟨[(0xFFFFF, 3), (9, 4)], [⟨0, 1, 0xFFFFF, 3⟩, ⟨1, 1, 9, 4⟩], [⟨0xFFFFF, 7, 1⟩, ⟨9, 8, 1⟩]⟩

def inTrain (kt : Kite) : State := { one { kt with unit := 0x10000 } with brd := { trains := [(0x10000, train2)] } }

theorem witness_MoveSlotPosts_mem : issuing (one dKite) 3 ∧ (one dKite |>.kite 3).dqWait = [] ∧
    (let s := one dKite
     let kt := s.kite 3
     chkDm dmGood = none ∧ (kt.chan 0).queue.length < 8 ∧
     (brunsAt (s.unitBruns kt.unit) (kt.s32 4) = some (0xFFFFF, 7) ∧ s.isMe 0xFFFFF = true) ∧ kt.ownStatus s.cyc true 100 (sprReel 0 100) 2 = 0 ∧
     (kt.s 2).toNat % 512 = 0 ∧ (kt.s 3).toNat % 65536 ≠ 0 ∧ (kt.s 2).toNat < 2 ^ 56 ∧
     ((List.range 2).map fun i => (kt.s 2).toNat + i * ((kt.s 3).toNat % 65536 * 512)) = [0x100000, 0x100200] ∧
     (∀ a ∈ [0x100000, 0x100200], inTiers a = true ∧ s.pgm.inTable a = false ∧ isLoft a = false)) := ⟨⟨rfl, rfl⟩, rfl, by decide⟩

/-- A page of 64 KiB at offset 0 of address space 1. -/
def dPages : State :=
  { one { dKite with sregs := [(2, 0x40001000000000), (3, 1), (4, 7)] } with
    pgm := { spaces := [(1, { root := 0x200000, leaves := [⟨0, 16, false, 0x300000⟩] })] } }

theorem witness_MoveSlotPosts_page : issuing dPages 3 ∧ (dPages.kite 3).dqWait = [] ∧
    (∀ i, i < 2 → dPages.pgm.walk ([0x40001000000000, 0x40001000000200].getD i 0) = (some ⟨0, 16, false, 0x300000⟩, none) ∧
      [0x300000, 0x300200][i]? = some ((⟨0, 16, false, 0x300000⟩ : Leaf).phys ([0x40001000000000, 0x40001000000200].getD i 0))) ∧
    (dPages.kite 3).s 2 = 0x40001000000000 ∧ (∀ a ∈ [0x300000, 0x300200], dPages.pgm.inTable a = false) :=
  ⟨⟨rfl, rfl⟩, by decide⟩

theorem witness_MoveSlotPosts_send :
    (let s := one dKite
     let kt := s.kite 3
     chkDs dsGood = none ∧ s.unitRuns kt.unit = some [⟨0, 256, 0xFFFFF, 0⟩] ∧ runsAt [⟨0, 256, 0xFFFFF, 0⟩] ((kt.s 5).toNat % 2 ^ 32) = some (0xFFFFF, 5) ∧
     (kt.s 5).toNat / 2 ^ 32 = 0 ∧ s.kiteOn 5 = true ∧ kt.ownStatus s.cyc true 100 (sprReel 0 100) 2 = 0 ∧ (s.kite 5).destStatus 0 none 2 = 0) ∧
    (let s := inTrain { dKite with sregs := [(4, 1), (5, (2 ^ 16 + 31) * 2 ^ 32 + 1)] }
     let kt := s.kite 3
     issuing s 3 ∧ kt.dqWait = [] ∧ s.unitRuns kt.unit = some train2.runs ∧ runsAt train2.runs ((kt.s 5).toNat % 2 ^ 32) = some (9, 4) ∧
     (kt.s 5).toNat / 2 ^ 32 = 2 ^ 16 + 31 ∧ s.isMe 9 = false ∧ brunsAt (s.unitBruns kt.unit) (kt.s32 4) = some (9, 8)) := by
  refine ⟨?_, ⟨rfl, rfl⟩, ?_⟩ <;> decide

theorem witness_MoveSlotPosts_others : chkDx ⟨0, 2, 5, 3, 0, 100, 0, 0, 0, 0⟩ = none ∧ chkDf ⟨0, 2, 100, 16384 - 1, 0, 0, 0, 0⟩ = none ∧
    chkDc ⟨0, 0, 100, 200, 1, 0, 0, 0⟩ = none ∧ ((one dKite).kite 3 |>.chan 0).queue.length < 8 := by decide

theorem witness_MoveSlotPosts_banks : ∀ n, (((one dKite).kite 3).bank n).st = .on := fun _ => rfl

/-- A move that has done its rows, on channel 2, with a completion bridle, without one, and failed; and a notice. -/
def doneMove (kind : MoveKind) (st : Nat) (b : Option Nat) : Desc := ⟨kind, 0, none, 1, 0, 90, 0, 10, st, 0, b, 1, 0, 0, none, 0, false⟩

theorem witness_MoveCompletes : let st := fun (d : Desc) => ({ one { chans := [(2, { queue := [d] })] } with cyc := 10 } : State)
    (∀ d ∈ [doneMove (.fill 5) 0 none, doneMove (.note 1 2 3 0 100 4096) 0 none, doneMove (.fill 5) 0 (some (0xFFFFF * 65536 + 7)), doneMove (.fill 5) 7 none],
      (((st d).kite 3).chan 2).queue = d :: [] ∧ d.complete ≤ (st d).cyc ∧ d.nrows ≤ d.next ∧ d.left = 0) ∧
    base.isMe ((0xFFFFF * 65536 + 7) / 65536) = true ∧ ({ doneMove (.fill 5) 0 (some 7) with told := true } : Desc).told = true := by
  refine ⟨?_, by decide⟩
  intro d hd
  simp only [List.mem_cons, List.not_mem_nil, or_false] at hd
  rcases hd with rfl | rfl | rfl | rfl <;> decide

/-! The S slot. S4 addresses bridle 7 of this module, and in a train bridle 8 of module 9. -/

theorem witness_SignalFenceTickwait : let kt := (one dKite).kite 3
    issuing (one dKite) 3 ∧ chkSig ⟨4, 0, 0, 0, 7⟩ = none ∧ chkSig ⟨4, 1, 9, 0, 0⟩ = none ∧
    brunsAt ((one dKite).unitBruns kt.unit) (kt.s32 4) = some (0xFFFFF, 7) ∧ kt.s32 9 = 0 ∧
    brunsAt ((one dKite).unitBruns kt.unit) 65536 = none ∧ (⟨0⟩ : SZ).rsv = 0 ∧ frameBar kt = none ∧ kt.vMem = none ∧ kt.chain = none ∧
    (⟨.st (VM.ofWord 128), 0, 128, 2, 0, 0⟩ : VRun).t0 = 0 := ⟨⟨rfl, rfl⟩, by decide⟩

theorem witness_AnchorStarts : let s := inTrain { dKite with sregs := [(4, 0), (5, 1), (6, 2), (7, 2 ^ 32 * 40 + 10)] }
    let kt := s.kite 3
    issuing s 3 ∧ chkWait kt ⟨4, 1, 0, 27, 100⟩ = none ∧ chkWait kt ⟨4, 1, 1, 7, 0⟩ = none ∧
    (brunsAt (s.unitBruns kt.unit) (kt.s32 4) = some (0xFFFFF, 7) ∧ s.isMe 0xFFFFF = true) ∧
    (brunsAt (s.unitBruns kt.unit) (kt.s32 5) = some (9, 8) ∧ s.isMe 9 = false) ∧ brunsAt (s.unitBruns kt.unit) (kt.s32 6) = none ∧
    chkWaitr { kt with reels := [(31, ⟨0, 4, true, 0, 0⟩)] } ⟨31, 0, 1, 7, 16384⟩ = none := ⟨⟨rfl, rfl⟩, by decide⟩

/-- Anchors that end: held, refused, noticed late, by a reel, and 64 cycles late. -/
theorem witness_AnchorReleases :
    let st := fun (a : Anchor) => ({ one { st := .anchor, anchor := some a } with cyc := 100 } : State)
    let on : AnchorOn := .bridle 7
    (∀ a : Anchor, ((st a).kite 3).st = .anchor ∧ ((st a).kite 3).anchor = some a ∧ ((st a).kite 3).frames = [] ∧ ((st a).kite 3).frozenElse = false) ∧
    ((100 : Nat) ≤ ((st ⟨on, 0, 100, 0, 0, true⟩).kite 3).t 100 ∧ on ≠ .refused) ∧
    (({ st ⟨on, 0, 90, 64, 10, false⟩ with brd := { notices := [⟨3, 7, 100⟩] } } : State).noticed 3 ⟨on, 0, 90, 64, 10, false⟩ = true) ∧
    ({ ((st ⟨.reel 31 false 4, 0, 90, 64, 10, false⟩).kite 3) with reels := [(31, ⟨0, 4, true, 0, 4⟩)] } : Kite).reelMet ⟨.reel 31 false 4, 0, 90, 64, 10, false⟩ = true ∧
    ((⟨on, 0, 36, 64, 64, false⟩ : Anchor).tmo ≠ 0 ∧ (⟨on, 0, 36, 64, 64, false⟩ : Anchor).late = (⟨on, 0, 36, 64, 64, false⟩ : Anchor).tmo) := by
  refine ⟨fun a => ⟨rfl, rfl, rfl, rfl⟩, ?_⟩; decide

/-- An illegal encoding in each slot, a ninth level, a count above MAX, and an anchor within an arm. -/
theorem witness_SlotChecksStopKeel : issuing run3 3 ∧
    (∀ fn ∈ [AluFn.add, .fma, .neg, .ceq, .sel, .shl], chkVa fn (VA.ofWord (2 ^ 13)) = some .illegal) ∧
    chkMfeed (run3.kite 3) (MFeedF.ofWord 1) = some .illegal ∧ chkCvt (VK.ofWord (2 ^ 13)) = some .illegal ∧ chkVf (VF.ofWord (2 ^ 13)) = some .illegal ∧
    chkVshuf (VH.ofWord (2 ^ 13)) = some .illegal ∧ chkVtree (VT.ofWord (2 ^ 13)) = some .illegal ∧ chkVacc (run3.kite 3) (VQ.ofWord 1) = some .illegal ∧
    chkVsum (VU.ofWord (2 ^ 13)) = some .illegal ∧ chkVm (VM.ofWord (2 ^ 13)) = some .illegal ∧ chkVchain (run3.kite 3) 3 (VX.ofWord 1) = some .illegal ∧
    chkDm (DM.ofWord 1) = some .illegal ∧ chkDs (DS.ofWord 1) = some .illegal ∧ chkDx (DX.ofWord 1) = some .illegal ∧ chkDf (DF.ofWord 1) = some .illegal ∧
    chkDc (DC.ofWord 1) = some .illegal ∧ chkSig ⟨0, 0, 0, 1, 0⟩ = some .illegal ∧ chkWait (run3.kite 3) ⟨0, 0, 0, 28, 0⟩ = some .illegal ∧
    chkWaitr (run3.kite 3) ⟨0, 0, 0, 0, 0⟩ = some .illegal ∧ chkTickwait (run3.kite 3) ⟨1⟩ = some .illegal ∧
    (let kt : Kite := { frames := List.replicate 8 (.brb 1 0 5 4 9) }
     chkBrb kt ⟨0, 0, 7, 1, 0, 1, 0, 1⟩ = some .nestDepth ∧ chkLoop kt ⟨0, 1, 0, 5⟩ = some .nestDepth) ∧
    chkLoop ((one { st := .issuing, sregs := [(1, 6)] }).kite 3) ⟨1, 1, 0, 2 ^ 27 + 5⟩ = some .loopOver ∧
    chkTickwait { ipc := 2, frames := [.brb 1 0 5 4 9] } ⟨0⟩ = some .brbAnchor ∧
    chkWait { ipc := 3, frames := [.loop 2 3 1 0 true none] } ⟨0, 0, 0, 0, 0⟩ = some .loopAnchor := by
  refine ⟨⟨rfl, rfl⟩, ?_⟩; decide

/-! A kite's window. -/

theorem witness_HaltResume : run3.kteUp 3 = true ∧ (run3.kite 3).stopped = false ∧ (run3.kite 3).reqEnd = false ∧ run3.isServing (run3.kite 3).unit = false ∧
    ((one {}).kite 3).stopped = true ∧
    (let s : State := { run3 with sch := { run3.sch with serve := 0, stopped := false } }
     s.isServing (s.kite 3).unit = true ∧ s.kteUp 3 = true) ∧
    (let kt := (one { st := .halted, byReq := true }).kite 3
     kt.st = .halted ∧ kt.byReq = true) := by decide

theorem witness_ProgramAndChainMemory : (one {}).kteUp 3 = true ∧ ((one {}).kite 3).stopped = true ∧ (2 : Fin 4).val < 3 ∧
    (0x7F08 : BitVec 15).toNat % 512 < 272 ∧ (run3.kite 3).stopped = false := by decide

/-- A reel at its largest; banks that are CLOSING, still and no more named, and WAKING; a row to repair. -/
theorem witness_BanksAndReels : (one {}).kteUp 3 = true ∧ ((one {}).kite 3).reelInUse 31 = false ∧
    (14 * 16384 : Nat) / 16384 % 16 ≤ 14 ∧ (14 * 16384 : Nat) % 16384 + 2 ^ (14 * 16384 / 16384 % 16) ≤ 16384 ∧
    16384 < (1 + 14 * 16384 : Nat) % 16384 + 2 ^ ((1 + 14 * 16384) / 16384 % 16) ∧
    (let kt : Kite := { reels := [(31, ⟨0, 4, true, 0, 4⟩)], chans := [(0, { queue := [{ doneMove (.fill 5) 0 none with reel := some 31, kind := .fill 0 }] })] }
     kt.reelInUse 31 = true) ∧
    (let s : State := { one { banks := [(5, ⟨.closing 100, 0⟩)] } with cyc := 101 }
     ((s.kite 3).bank 5).st = .closing 100 ∧ 100 < s.cyc ∧ (s.kite 3).bankNamed 5 = false) ∧
    (let s : State := { one { banks := [(0, ⟨.closing 100, 0⟩)], chans := [(0, { queue := [doneMove (.fill 5) 0 none] })] } with cyc := 80100 }
     ((s.kite 3).bank 0).st = .closing 100 ∧ 100 + 80000 ≤ s.cyc ∧ (s.kite 3).bankNamed 0 = true) ∧
    (let s : State := { one { banks := [(15, ⟨.waking 100, 0⟩)] } with cyc := 2600 }
     ((s.kite 3).bank 15).st = .waking 100 ∧ 100 + 2500 ≤ s.cyc) ∧
    (let kt : Kite := { st := .tickwait, repairQ := [7] }
     kt.st = .tickwait ∧ kt.repairQ = 7 :: []) := by decide

/-! ### Units, trains and bridles -/

/-- A window from its non-zero bytes. -/
def win (l : List (Nat × List Byte)) : List (Nat × Byte) := l.flatMap fun (o, bs) => bs.zipIdx.map fun (b, i) => (o + i, b)

/-- Train 0x10000 of kite 3 of this module, with its bridle 7. -/
def defWin : List (Nat × Byte) := win [(0, leBytes 4 0x10000), (4, [1, 0, 1, 0]), (0x10, leBytes 8 (0xFFFFF + 3 * 2 ^ 32)), (0x210, leBytes 8 (0xFFFFF + 7 * 2 ^ 20 + 2 ^ 36))]

/-- Train 0x10000 of kite 3 of this module and kite 4 of module 9, with a bridle of each. -/
def defWin2 : List (Nat × Byte) := win [(0, leBytes 4 0x10000), (4, [2, 0, 2, 0]), (0x10, leBytes 8 (0xFFFFF + 3 * 2 ^ 32)), (0x18, leBytes 8 (9 + 4 * 2 ^ 32)),
  (0x210, leBytes 8 (0xFFFFF + 7 * 2 ^ 20 + 2 ^ 36)), (0x218, leBytes 8 (9 + 8 * 2 ^ 20 + 2 ^ 36))]

def train1 : Train := ⟨[(0xFFFFF, 3)], [⟨0, 1, 0xFFFFF, 3⟩], [⟨0xFFFFF, 7, 1⟩]⟩

def defState (desc : List (Nat × Byte)) : State := { base with brd := { desc := desc } }

theorem witness_UnitCommands_define : (defState defWin).glbUp = true ∧ (defState defWin).brd.op = none ∧
    (defState defWin).defineCheck (defState defWin).descWindow = (0, train1) ∧ (defState defWin).trainMods train1 = [] ∧
    fieldLe base.descWindow 0 4 < 0x10000 ∧ 0x11000 ≤ fieldLe (defState (win [(0, leBytes 4 0x11000)])).descWindow 0 4 ∧
    ((defState defWin2).defineCheck (defState defWin2).descWindow = (0, train2) ∧ (defState defWin2).trainMods train2 = [9]) := by
  refine ⟨rfl, rfl, ?_, rfl, ?_, ?_, ?_, rfl⟩ <;> decide +kernel

theorem witness_UnitCommands_others : let s : State := { base with brd := { trains := [(0x10FFF, train1)] } }
    s.glbUp = true ∧ s.brd.op = none ∧ mapGet s.brd.trains (0x10FFF : BitVec 32).toNat = some train1 ∧ s.anyRuns train1.runs = false ∧ s.isServing 0x10FFF = false ∧
    (∀ n x, (n, x) ∈ s.brd.trains → (0xFFFFF, 0x10FFF) ∉ x.members) ∧ s.others train1.runs = [] ∧
    s.unitRuns 0x11000 = none ∧ s.unitRuns 0x10000 = none ∧ (inTrain {}).deleteStatus 0x10000 = 0 ∧ (inTrain {}).others train2.runs = [9] ∧
    (inTrain {}).unitRuns 0x10000 = some train2.runs ∧ (inTrain {}).isServing 0x10000 = false ∧ s.unitRuns 255 = some [⟨0, 1, 0xFFFFF, 255⟩] ∧ s.isServing 255 = false ∧ s.others [⟨0, 1, 0xFFFFF, 255⟩] = [] := by
  refine ⟨rfl, rfl, rfl, by decide, by decide, ?_, ?_⟩
  · intro n x h; simp only [List.mem_singleton, Prod.mk.injEq] at h; rw [h.2]; decide
  · decide

theorem witness_UnitCommands_wait : ∀ st ∈ [0, 1, 9], ∀ kd ∈ [2, 3, 4], let o : UnitOp := ⟨kd, 0x10000, none, none, [9], st, 0, 0⟩
    let s : State := { base with cyc := 12500000, brd := { op := some o }, pwr := { base.pwr with tb := 10000000 } }
    s.brd.op = some o ∧ s.brd.op ≠ none ∧ o.waiting ≠ [] ∧ o.since + 10000000 ≤ s.now := by decide

/-- A launch of kite 3: one bundle of zeros at address 0. -/
def lWin : List (Nat × Byte) := win [(0, leBytes 4 3), (4, leBytes 4 1), (0x10, leBytes 32 44412667574028133110916770313092747458385829706203023552733652094341500147701), (0x30, [1, 0, 0, 1])]

def lDesc : LDesc := ⟨3, 1, 0, 44412667574028133110916770313092747458385829706203023552733652094341500147701, 1, 0, true, 0, 0⟩

theorem witness_LaunchStartsKites_prepare : let s := defState lWin
    s.glbUp = true ∧ s.brd.op = none ∧ launchBad (defState []).descWindow = true ∧ launchBad s.descWindow = false ∧ parseLaunch s.descWindow = lDesc ∧
    s.unitRuns lDesc.unit = some [⟨0, 1, 0xFFFFF, 3⟩] ∧ s.launchStatus lDesc = 0 ∧ { s with kites := [(3, { st := .issuing })] }.launchStatus lDesc = 4 ∧ s.others [⟨0, 1, 0xFFFFF, 3⟩] = [] ∧
    ((s.mine [⟨0, 1, 0xFFFFF, 3⟩]).map (·.2)).Nodup ∧ (∃ bad x, s.readMem lDesc.image lDesc.imageLen = (List.replicate 32 0, bad, x)) := by
  refine ⟨rfl, rfl, ?_, ?_, ?_, ?_, ?_, ?_, ?_, ?_, ⟨_, _, rfl⟩⟩ <;> decide +kernel

/-- The digest of the 32 bytes of zeros. -/
theorem witness_LaunchStartsKites_digest : digest (List.replicate 32 0) = lDesc.digest := by decide +kernel

theorem witness_LaunchStartsKites_go : ∀ zb ∈ [true, false], let o : UnitOp := ⟨3, 0x10000, none, some { lDesc with unit := 0x10000, zb := zb }, [], 0, 0, 0⟩
    let s : State := { base with brd := { op := some o, trains := [(0x10000, train1)] } }
    s.brd.op = some o ∧ o.launch = some { lDesc with unit := 0x10000, zb := zb } ∧ o.kind = 3 ∧ o.waiting = [] ∧ o.status = 0 ∧
    s.unitRuns 0x10000 = some train1.runs ∧ s.others train1.runs = [] ∧ ((s.mine train1.runs).map (·.2)).Nodup ∧ (0, 3) ∈ s.mine train1.runs ∧
    s.unitBruns 0x10000 = [⟨0xFFFFF, 7, 1⟩] ∧ s.isMe 0xFFFFF = true := by decide

/-- Waits on bridle 65535 that a signal just meets, and just misses; a write of COUNT; an expired wait; an owned bridle, and one that is not. -/
theorem witness_BridleCycle : (0 ≤ base.fabBy base.cyc ∧ (9 : Nat) ≤ 9) ∧
    (let s : State := { base with cyc := 6, brd := { counts := [(65535, 5)], arrivals := [⟨65535, 9, 2, false⟩], waits := [⟨3, 65535, 7, 9, none⟩, ⟨4, 65535, 8, 9, some 9⟩] } }
     9 ≤ s.fabBy s.cyc ∧ 9 ≤ s.fabBy 9 ∧ (∀ a ∈ s.brd.arrivals, a.bridle = 65535 → a.fab ≤ 9 → a.count = false) ∧
     (∀ w ∈ s.brd.waits, w.bridle = 65535 ∧ w.from_ ≤ 9) ∧ (7 + 2 ^ 32 - 7 % 2 ^ 32) % 2 ^ 32 < 2 ^ 31 ∧ 2 ^ 31 ≤ (7 + 2 ^ 32 - 8 % 2 ^ 32) % 2 ^ 32) ∧
    ({ base with brd := { arrivals := [⟨65535, 9, 2, true⟩] } } : State).brd.arrivals = [⟨65535, 9, 2, true⟩] ∧
    ((⟨4, 65535, 8, 9, some 9⟩ : BWait).from_ ≤ 9) ∧ base.barUp = true ∧ (one { st := .issuing, unit := 0x124 }).bridleOwned 65535 = true ∧
    base.bridleOwned 65535 = false := by decide

/-! ### Memory and the page manager -/

/-- Address space 1, a page of 64 KiB at its offset 64 KiB, and a frame to map at offset `off`; `q` edits of the host are queued. -/
def pgS (off : Nat) (f : Frame4) (q : Nat) : State :=
  { base with pgm := {
      arg0 := 1 + 16 * 2 ^ 22, arg1 := 0x40001000000000 + off, arg2 := 0x300000
      frames := [(0x200, { st := .table, cls := 12 }), (0x300, f), (0x400, { st := .alloc, cls := 16, refcnt := 1 })]
      spaces := [(1, { root := 0x200000, leaves := [⟨0x10000, 16, false, 0x400000⟩] })], pool := [(0x500, 8)], freeH := [(0x600, 16)]
      edits := List.replicate q ⟨.inc 0x400000, true⟩ } }

def fr16 : Frame4 := { st := .alloc, cls := 16, refcnt := 1 }

theorem witness_PageCommandsQueueEdits_map : (pgS 0 fr16 0).barUp = true ∧
    (∀ off ∈ [0, 0x10000], let p := (pgS off fr16 0).pgm
     p.frameAt p.arg2 = some fr16 ∧ inTiers p.arg2 = true ∧ fr16.cls = p.argSize ∧ p.argSpace < 12288 ∧ p.arg1 % 2 ^ p.argSize = 0 ∧
     (vaSpace p.arg1).map (·.1) = some p.argSpace ∧ fr16.st = .alloc ∧ bit p.arg0 28 = false ∧ p.futureRef p.arg2 < 16777215 ∧ p.arg1 - spaceBase p.argSpace = off ∧
     p.future p.argSpace = [⟨0x10000, 16, false, 0x400000⟩] ∧ p.sound (pftBlock p.arg2) = true ∧
     p.tabsOwed p.argSpace + p.newTabs p.argSpace (p.future p.argSpace ++ [⟨off, p.argSize, false, p.arg2⟩]) ≤ ivSum p.pool ∧ p.qlen + 1 ≤ 65536 ∧ p.claimed + 1 ≤ 1024) ∧
    ((pgS 0 { fr16 with refcnt := 16777215 } 0).pgm.futureRef 0x300000 = 16777215 ∧ 1024 < (pgS 0 fr16 1024).pgm.claimed + 1) ∧
    ({ fr16 with st := .quar } : Frame4).st ≠ .alloc ∧
    (let p : Pgm := { (pgS 0 fr16 0).pgm with spaces := [], pool := [] }
     ivSum p.pool < p.tabsOwed 1 + p.newTabs 1 (p.future 1 ++ [⟨0, 16, false, 0x300000⟩])) := by
  refine ⟨rfl, ?_⟩; decide +kernel

theorem witness_PageCommandsQueueEdits_others :
    (let p := (pgS 0x1FFFF fr16 0).pgm
     spaceBase p.argSpace ≤ p.arg1 ∧ ∃ l ∈ p.future p.argSpace, l.off ≤ 0x1FFFF ∧ 0x1FFFF < l.off + 2 ^ l.size) ∧
    (∀ l ∈ (pgS 0x20000 fr16 0).pgm.future 1, ¬(l.off ≤ 0x20000 ∧ 0x20000 < l.off + 2 ^ l.size)) ∧
    ((pgS 0 fr16 0).pgm.frameAt 0x300000 = some fr16 ∧ 0 < (pgS 0 fr16 0).pgm.futureRef 0x300000) ∧ (pgS 0 fr16 0).pgm.frameAt 0x301000 = none ∧
    (pgS 0 { fr16 with refcnt := 0 } 0).pgm.futureRef 0x300000 ≤ 0 ∧ ((pgS 0 fr16 0).pgm.spaceLives 1 = true ∧
    (pgS 0 fr16 0).pgm.qlen + (pgS 0 fr16 0).pgm.dropWeight 1 ≤ 65536) ∧ (pgS 0 fr16 0).pgm.spaceLives 12287 = false := by
  decide

theorem witness_PageAllocationAndMigration_alloc : ∀ b ∈ [true, false], let s : State := { base with pgm := {
      arg0 := 30 * 2 ^ 17 + (if b then 2 ^ 16 else 0), freeH := [(0, 0x40000)], freeL := [(0x10000000, 0x40000)] } }
    let p := s.pgm
    p.argClass = 30 ∧ p.argTier = b ∧ 12 ≤ p.argClass ∧ p.argClass ≤ 30 ∧ pickFree (if p.argTier then p.freeL else p.freeH) p.argClass = some (if b then 0x10000000 else 0) ∧
    pickFree [(0, 0x20000)] 30 = none ∧ base.pgm.argClass < 12 ∧ (31 : Nat) > 30 := by decide

theorem witness_PageAllocationAndMigration_migrate :
    (let s := pgS 0x18000 fr16 0
     let p := s.pgm
     s.barUp = true ∧ p.futureLeaf p.argSpace p.arg1 = some ⟨0x10000, 16, false, 0x400000⟩ ∧ p.sound (pftBlock 0x400000) = true ∧
     p.frameAt 0x400000 = some fr16 ∧ p.futureRef 0x400000 = 1 ∧ p.qlen + 1 ≤ 65536 ∧ p.claimed + 1 ≤ 1024 ∧
     ∃ a q, p.alloc p.argTier fr16.cls = some (a, q)) ∧
    (let m : Mig := ⟨1, 0x40001000010000, 0x400000, 0x10000000000, 12, 0, false, false, true⟩
     let s : State := { base with cyc := 20000, pwr := { base.pwr with tb := 20000 }, pgm := { mem := [⟨0x400FFF, 7⟩], migs := [m] } }
     s.pgm.migs = [m] ∧ m.old = (0x400000 : BitVec 48).toNat ∧ m.copied = false ∧ m.left = 0 ∧ memWf s.pgm.mem = true ∧
     (∀ b ∈ blocksOf m.old (2 ^ m.cls), s.pgm.sound b = true) ∧ m.old + 2 ^ m.cls ≤ m.new_) :=
  ⟨⟨rfl, by decide, by decide, rfl, by decide, by decide, by decide, ⟨_, _, rfl⟩⟩, by decide⟩

/-! Epochs. -/

/-- A frame of count 2 that a page of space 1 maps, a frame of count 1, quarantined frames to keep, to free and to retire, and one edit. -/
def epS (e : EditKind) : State :=
  { base with pgm := {
      epoch := 5, oldest := 4, edits := [⟨e, true⟩]
      frames := [(0x300, fr16), (0x310, { fr16 with st := .quar, qepoch := 5 }), (0x320, { fr16 with st := .quar, qepoch := 4 }),
        (0x330, { fr16 with st := .quar, qepoch := 4, retire := true }), (0x400, { fr16 with refcnt := 2 })]
      spaces := [(1, { root := 0x200000, leaves := [⟨0x10000, 16, false, 0x400000⟩] })] } }

theorem witness_EpochBoundary_edits : (∀ e : EditKind, (epS e).pgm.migs = [] ∧ (epS e).pgm.dropping = [] ∧ (epS e).pgm.backlog = [] ∧ (epS e).pgm.pxNew = [] ∧ (epS e).pgm.nAbandon < 65536 ∧
      (∀ a, (epS e).pgm.sound (pftBlock a) = true) ∧
      (epS e).pgm.edits = [⟨e, true⟩] ∧ mapGet (epS e).pgm.frames (0x400000 / 4096) = some { fr16 with refcnt := 2 } ∧
      mapGet (epS e).pgm.frames (0x300000 / 4096) = some fr16 ∧ mapGet (epS e).pgm.spaces 1 = some ⟨0x200000, [], [⟨0x10000, 16, false, 0x400000⟩]⟩) ∧
    (⟨0x200000, [], [⟨0x10000, 16, false, 0x400000⟩]⟩ : Space).leafAt (0x4000100001FFFF - spaceBase 1) = some ⟨0x10000, 16, false, 0x400000⟩ := by
  refine ⟨fun e => ⟨rfl, rfl, rfl, rfl, (by decide : 0 < 65536), fun _ => rfl, rfl, rfl, rfl, rfl⟩, by decide⟩

theorem witness_EpochBoundary_due :
    (let s : State := { base with pwr := { base.pwr with tb := 4100 }, sch := { stopped := false, nextTick := 1, cur := some ⟨0, 40, some 50, 10, 0, [(0, 0, 256)], some 100, false⟩ } }
     s.boundaryDue = true ∧ s.sch.cur = some ⟨0, 40, some 50, 10, 0, [(0, 0, 256)], some 100, false⟩ ∧ (0 : Nat) = s.sch.bnd) ∧
    (let p := (epS (.inc 0)).pgm
     p.oldest < p.oldestNow ∧ mapWf p.frames = true ∧ p.oldestNow = 5 ∧ ({ p with pins := [⟨0x300, 4, 0⟩] } : Pgm).oldestNow ≤ p.oldest) := by decide

/-- Memory without a bad block reads as it stands. -/
theorem readMem_clean (s : State) (a n : Nat) (hp : s.pgm.poisoned = []) (hb : s.pgm.broken = []) (hw : s.pgm.weak = []) (hd : s.pgm.onDie = [])
    (hl : s.pgm.linkBad = []) : s.readMem a n = (s.pgm.bytes a n, [], s) := by
  have ht : ∀ b, s.touchBlock b = (false, s) := by intro b; simp [State.touchBlock, State.deviceEcc, State.checkBlock, hp, hb, hw, hd, hl]
  have h : ∀ l : List Nat, l.foldl (fun (acc : List Nat × State) b =>
      let (x, s) := acc.2.touchBlock b
      (if x then acc.1 ++ [b] else acc.1, s)) (([] : List Nat), s) = ([], s) := by
    intro l
    induction l with
    | nil => rfl
    | cons b l ih => rw [List.foldl_cons]; simp only [ht]; exact ih
  simp only [State.readMem, h]

/-! The prefix index. -/

def pxE : PEntry := ⟨7, 9, 0, 256, 1, false, 0, [0x300000, 0x310000], [], [], 0⟩

/-- The entry of context key 5, of model digest 9, with the window given. -/
def pxS (w : List (Nat × Byte)) : State := { base with pgm := { index := [(5, pxE)], pxDesc := w, frames := [(0x300, { st := .alloc, cls := 16, refcnt := 1 })] } }

theorem witness_PrefixIndexCommands : (pxS []).barUp = true ∧ mapWf (pxS []).pgm.index = true ∧
    mapGet (pxS []).pgm.index (leNat ((pxS []).pgm.descBytes 0 32)) = none ∧
    (let p := (pxS [(0, 5), (0x40, 9)]).pgm
     mapGet p.index (leNat (p.descBytes 0 32)) = some pxE ∧ pxE.mdig = leNat (p.descBytes 0x40 32)) ∧ leNat ((pxS []).pgm.descBytes 0x64 2) = 0 ∧
    4 ≤ leNat ((pxS [(0x67, 4)]).pgm.descBytes 0x67 1) ∧ 128 < leNat ((pxS [(0x66, 129)]).pgm.descBytes 0x66 1) := by decide

/-- A model of one layer and one head. -/
def mdl : Model := { image := 0, bytes := 4096, digest := 9, sq := 63, cid := 1, filling := false, usable := true, fin := 0, nl := 1, nkv := 1, d := 64, vocab := 10, base := [1000] }

/-- An import of one position of model digest 9, whose page is the frame 0x300000 of zeros, with page digest `d`. -/
def pxI (d : Nat) : State :=
  { base with
    hst := { base.hst with models := [(0, mdl)] }
    pgm := { frames := [(0x300, { st := .alloc, cls := 12, refcnt := 1 })]
             pxDesc := win [(0x40, [9]), (0x64, [1, 0, 1]), (0x80, leBytes 4 0x300000), (0x480, leBytes 32 d)] } }

/-- The digest of a position's row of K and of V: 128 bytes of zeros. -/
def pxD : Nat := 84490542576952504321712397846407954291433872977959859143969049866310009980450

theorem pxI_frame : (pxI pxD).pgm.frameAt 0x300000 = some { st := .alloc, cls := 12, refcnt := 1 } := rfl

theorem pxI_entry : (pxI pxD).pgm.descEntry = ⟨0, 9, 0, 1, 1, true, 0, [0x300000], [pxD], [0], 0⟩ := by decide +kernel

/-- Bytes of the descriptor window that nothing was written to are zero. -/
theorem descBytes_zero (p : Pgm) (o n : Nat) (h : ∀ x ∈ p.pxDesc, x.1 < o ∨ o + n ≤ x.1) : ((p.descBytes o n).all (· == 0)) = true := by
  have hz : ∀ k, o ≤ k → k < o + n → mapGetD p.pxDesc k 0 = 0 := by
    intro k h1 h2
    have : mapGet p.pxDesc k = none := by
      revert h; generalize p.pxDesc = l; intro h
      induction l with
      | nil => rfl
      | cons x l ih =>
        have := h x (List.mem_cons_self ..)
        simp only [mapGet]; rw [if_neg (by omega)]
        exact ih fun y hy => h y (List.mem_cons_of_mem _ hy)
    simp only [mapGetD, this, Option.getD]
  simp only [Pgm.descBytes, List.all_map, List.all_eq_true, List.mem_range, Function.comp]
  intro i hi; rw [hz _ (by omega) (by omega)]; rfl

theorem pxI_good : (pxI pxD).insertBad (pxI pxD).pgm.descEntry = false := by
  rw [pxI_entry]
  simp only [State.insertBad]
  rw [descBytes_zero _ _ _ (by decide +kernel), descBytes_zero _ _ _ (by decide +kernel), descBytes_zero _ _ _ (by decide +kernel),
    descBytes_zero _ _ _ (by decide +kernel)]
  decide +kernel

/-- Memory that nothing was written to reads zero. -/
theorem bytes_zero (p : Pgm) (a n : Nat) (hm : p.mem = []) (hu : p.undef = []) (h : a + n ≤ extBase) : p.bytes a n = List.replicate n 0 := by
  rw [List.eq_replicate_iff]
  refine ⟨by simp [Pgm.bytes], fun b hb => ?_⟩
  simp only [Pgm.bytes, List.mem_map, List.mem_range] at hb
  obtain ⟨i, hi, rfl⟩ := hb
  rw [Pgm.byte, if_pos (by simp only [Bool.or_eq_true, decide_eq_true_eq]; omega), hm, hu]; rfl

theorem pxI_rows : (pxI pxD).pageRows 0x300000 1 16 64 1 = (some (List.replicate 128 0), pxI pxD) := by
  have h : ∀ a, (pxI pxD).readMem a 64 = ((pxI pxD).pgm.bytes a 64, [], pxI pxD) := fun a => readMem_clean _ a 64 rfl rfl rfl rfl rfl
  simp only [State.pageRows, Nat.one_mul, Nat.mul_one, show List.range 2 = [0, 1] from rfl, List.foldl, h, List.isEmpty_nil, if_true]
  rw [bytes_zero _ _ _ rfl rfl (by decide), bytes_zero _ _ _ rfl rfl (by decide)]
  rfl

theorem pxI_digest : digest (List.replicate 128 0) = pxD := by decide +kernel

theorem entryHolds_one (s : State) (e : PEntry) (m : Model) (a dg p q : Nat) (l : List Byte) (hm : s.modelBy e.mdig = some m) (hf : e.frames = [a])
    (hd : e.digs = [dg]) (hp : m.pageSizes (((s.pgm.frameAt a).map (·.cls)).getD 12) e.nv = [p, q])
    (hr : s.pageRows a m.nkv p m.rb e.nv = (some l, s)) (hg : digest l = dg) : s.entryHolds e = (true, s) := by
  simp [State.entryHolds, State.digestHolds, hm, hf, hd, hp, hr, hg]

theorem pxI_holds : (pxI pxD).entryHolds (pxI pxD).pgm.descEntry = (true, pxI pxD) :=
  entryHolds_one _ _ mdl 0x300000 pxD 16 32 (List.replicate 128 0) (by rw [pxI_entry]; rfl) (by rw [pxI_entry]) (by rw [pxI_entry])
    (by rw [pxI_entry]; decide +kernel) (by rw [pxI_entry]; exact pxI_rows) pxI_digest

theorem witness_PrefixIndexCommands_insert : (pxI pxD).barUp = true ∧ (∀ a, (pxI pxD).pgm.sound (pftBlock a) = true) ∧
    (pxI pxD).insertBad (pxI pxD).pgm.descEntry = false ∧
    (∀ f ∈ (pxI pxD).pgm.descEntry.frames, ∃ x, (pxI pxD).pgm.frameAt f = some x ∧ x.st = .alloc ∧ x.refcnt = 1) ∧
    (pxI pxD).entryHolds (pxI pxD).pgm.descEntry = (true, pxI pxD) ∧
    ∀ k, (pxI pxD).pgm.entryOf k = none :=
  ⟨rfl, fun _ => rfl, pxI_good, fun f hf => by rw [pxI_entry, List.mem_singleton] at hf; subst hf; exact ⟨_, pxI_frame, rfl, rfl⟩,
    pxI_holds, fun _ => rfl⟩

/-! Background slots: 48 and 49 are the scrub of the tiers, and 50 is wear levelling. -/

/-- A slot that a tick planned, and no step running. -/
def bgS (n : Nat) (p : Pgm) : State := { base with sch := { bgNow := [n] }, pgm := p }

theorem witness_BackgroundSlots : ((7 ∈ (bgS 7 {}).sch.bgNow ∧ (bgS 7 {}).sch.cur = none) ∧ ¬(27 ∈ (bgS 7 {}).sch.bgNow) ∧ 27 ∈ (bgS 27 {}).sch.bgNow) ∧
    (let s := bgS 48 { weak := [16384], scrubPos := (1, 0) }
     48 ∈ s.sch.bgNow ∧ s.pgm.scrubPos.1 + 4 < 589824 ∧ s.pgm.broken = [] ∧ s.pgm.poisoned = [] ∧ s.pgm.onDie = [] ∧ s.pgm.linkBad = [] ∧ s.pgm.weak = [16384] ∧ s.pgm.scrubPos.1 * 16384 ≤ 16384 ∧
     16384 < (s.pgm.scrubPos.1 + 4) * 16384 ∧ s.pgm.frameOf (16384 / 64) = none) ∧
    (let s := bgS 48 { broken := [81919], scrubPos := (1, 0) }
     s.pgm.broken = [81919] ∧ 81919 < (s.pgm.scrubPos.1 + 4) * 16384 ∧ s.pgm.frameOf (81919 / 64) = none) ∧
    (let a := 0x10000000000
     let s := bgS 50 { frames := [(a / 4096, fr16)], spaces := [(1, { root := 0x200000, leaves := [⟨0x10000, 16, false, a⟩] })], freeL := [(a / 4096 + 16, 16)] }
     50 ∈ s.sch.bgNow ∧ s.sch.cur = none ∧ isLoft a = true ∧ s.pgm.leafOf a = some (1, 0x40001000010000) ∧ spaceBase 1 ≤ 0x40001000010000 ∧
     s.pgm.futureLeaf 1 0x40001000010000 = some ⟨0x10000, 16, false, a⟩ ∧
     s.pgm.frameAt a = some fr16 ∧ s.pgm.futureRef a = 1 ∧ s.pgm.qlen + 1 ≤ 65536 ∧ ∃ b q, s.pgm.alloc true fr16.cls = some (b, q)) := by
  refine ⟨by decide, by decide, by decide, by decide, rfl, by decide, by decide, by decide, by decide, rfl, by decide, by decide, ⟨_, _, rfl⟩⟩

/-! ### Admission, models and variants -/

/-- A scheduler that runs, with model 0 loaded, queue 63 on, and target 0 a host ring. -/
def admS : State :=
  { base with
    cyc := 3750000, pwr := { base.pwr with tb := 3000000, dlim := 900 }
    sch := { run := true, stopped := false, t0Set := true, t0 := 2000000 }, pgm := { freeH := [(0x1000, 0x40000)] }
    xpt := { en := true, targets := [(0, [4, 1, 0, 4] ++ List.replicate 10 0 ++ [1] ++ List.replicate 41 0 ++ [50] ++ List.replicate 7 0)] }
    hst := { base.hst with queues := [(63, { en := true, logd := 2 })], models := [(0, mdl)] } }

/-- A PREFILL of one token. -/
def sqe1 : Sqe := { sqeOf [] with opc := 1, variant := 0xFFFF, ntok := 1, deadline := 100000000000 }

theorem witness_Admission : admS.barUp = true ∧ (admS.queue 63).en = true ∧ (admS.queue 63).draining = false ∧ takes admS 63 sqe1 ∧ sqe1.opc = 1 ∧
    (let x := submitted admS 63 sqe1
     x.tokensOf sqe1 = [0] ∧ x.varLen sqe1 = 0 ∧ (if sqeFlag sqe1 1 then 1 - (x.parentsOf sqe1).length else 1 - 1) = 0 ∧
     x.findPrefix sqe1 mdl [0] 0 = (0, [], []) ∧ x.prefillCheck sqe1 false = 0 ∧ admS.sch.run = true ∧
     (admS.sch.subs.filter fun y => y.e.opc == 1 && !y.full).length < 4096 ∧ admS.model 0 = some mdl ∧
     (let r := x.newReq 63 admS.stamp sqe1 mdl (0, [], []) [0]
      mdl.needs r + (admS.sch.reqs.map (·.2.reserve)).foldl (· + ·) 0 ≤ admS.pgm.free false ∧
      x.place r admS.sch.plan (x.earliest admS.pwr.tb) (admS.tickOf admS.pwr.tb + 511) (admS.pwr.tb + 500000) none = (some [(1, 0, 1)], false)) ∧
     x.roomFor (0 * mdl.nl) = true ∧
     commitOf [(1, 0, 1)] ≤ admS.tickOf admS.pwr.tb + 511 ∧ admS.tickStart (commitOf [(1, 0, 1)] + 1) - 1 ≤ sqe1.deadline.toNat ∧ admS.freeSlot = some 0) ∧
    admS.roundDue 11 = true ∧ admS.roundDue 12 = false := by
  refine ⟨rfl, rfl, rfl, ⟨rfl, rfl, rfl, by decide⟩, rfl, ?_, by decide, by decide⟩
  refine ⟨by decide, by decide, by decide, by decide, by decide, by decide, by decide, rfl, ⟨by decide, ?_⟩, by decide, by decide, by decide, ?_⟩ <;> decide +kernel

/-- A model image of 3,072 bytes in HBM at address 0, that is not signed: one bundle, one layer, one KV head of 64 dimensions, no query head,
no weight region; its cost table, for 256 kites, is else zero, as is its head table. -/
def imgHdr : List Byte :=
  [0x5A, 0x4D, 0x49, 0x4D, 1, 0, 0, 0, 0, 1, 0, 0, 1, 0, 0, 8, 0, 0, 1, 1, 64, 0, 3, 0, 10, 0, 0, 0, 0, 0, 0, 0] ++ leBytes 8 0x100 ++ leBytes 8 0x200 ++
  leBytes 8 0x100 ++ leBytes 8 0x100 ++ leBytes 8 0xC00

/-- Model slot 0, filling from that image, with the profile that asks for no signature. -/
def fillM : Model := { image := 0, bytes := 3072, digest := 0, sq := 63, cid := 1, filling := true, usable := false, fin := 0 }

def ldS : State :=
  { base with
    sec := { base.sec with prof := some ⟨false, 20000, 30, 10, [], 0⟩ }, hst := { base.hst with models := [(0, fillM)] }
    pgm := { mem := (imgHdr.zipIdx.map fun (b, i) => (i, b)).filter (fun c => c.2 != 0) ++ [(0x235, 1)] } }

/-- What is read of the image. -/
def img : List Byte := ldS.pgm.bytes 0 3072

theorem img_mem : ldS.pgm.mem = [(0, 0x5A), (1, 0x4D), (2, 0x49), (3, 0x4D), (4, 1), (9, 1), (12, 1), (15, 8), (18, 1), (19, 1), (20, 64), (22, 3), (24, 10),
    (33, 1), (41, 2), (49, 1), (57, 1), (65, 12), (0x235, 1)] := by decide +kernel

theorem img_zero (i : Nat) (h : 0x236 ≤ i) : img.getD i 0 = 0 := by
  have hm : memRead ldS.pgm.mem i = 0 := by
    rw [img_mem]; simp only [memRead]; repeat rw [if_neg (by omega)]
  simp only [img, Pgm.bytes, List.getD_eq_getElem?_getD, List.getElem?_map]
  by_cases hi : i < 3072
  · have he : i < extBase := by simp only [extBase]; omega
    have hu : ldS.pgm.undef = [] := rfl
    simp [List.getElem?_range hi, Pgm.byte, hm, he, hu]
  · simp [List.getElem?_eq_none (by simpa using hi : (List.range 3072).length ≤ i)]

theorem sliceBytes_zero (l : List Byte) (o n : Nat) (h : ∀ i, i < n → l.getD (o + i) 0 = 0) : sliceBytes l o n = List.replicate n 0 := by
  rw [List.eq_replicate_iff]
  refine ⟨by simp [sliceBytes], fun b hb => ?_⟩
  simp only [sliceBytes, List.mem_map, List.mem_range] at hb
  obtain ⟨i, hi, rfl⟩ := hb; exact h i hi

theorem leNat_zero (n : Nat) : leNat (List.replicate n 0) = 0 := by
  induction n with
  | zero => rfl
  | succ n ih => rw [List.replicate_succ, leNat, ih]; rfl

theorem img_base : ((List.range 512).map fun i => fieldLe (sliceBytes img 0x200 0x840) (0x40 + 4 * i) 4) = List.replicate 512 0 := by
  rw [List.eq_replicate_iff]
  refine ⟨by simp, fun b hb => ?_⟩
  simp only [List.mem_map, List.mem_range] at hb
  obtain ⟨i, hi, rfl⟩ := hb
  rw [Machine.fieldLe, sliceBytes_zero, leNat_zero]
  intro j hj
  simp only [sliceBytes, List.getD_eq_getElem?_getD, List.getElem?_map, List.getElem?_range (by omega : 0x40 + 4 * i + j < 0x840)]
  simpa [List.getD_eq_getElem?_getD] using img_zero (0x200 + (0x40 + 4 * i + j)) (by omega)

theorem baseOk_zero (n : Nat) : baseOk (List.replicate n 0) = true := by
  simp only [baseOk, Bool.and_eq_true, List.all_eq_true, decide_eq_true_eq]
  refine ⟨fun x hx => ?_, fun x _ y hy => ?_⟩
  · have := List.eq_of_mem_replicate (List.of_mem_zip hx).1; omega
  · have := List.eq_of_mem_replicate (List.mem_of_mem_drop (List.of_mem_zip hy).1); simp only [this]; omega

theorem img_read : ldS.readGood 0 3072 = (some img, ldS) := by
  simp only [State.readGood, readMem_clean ldS 0 3072 rfl rfl rfl rfl rfl]; rfl

theorem img_parse : ∃ y ws, ldS.parseModel fillM img = some (y, ws) ∧ ws = [] := by
  simp only [State.parseModel]
  rw [if_neg (by decide +kernel), if_neg (by decide +kernel), if_neg, if_neg (by decide +kernel), if_neg (by decide +kernel)]
  · exact ⟨_, _, rfl, by decide +kernel⟩
  · rw [show (fieldLe (img.take 0x100) 0x28 8) = 0x200 by decide +kernel, img_base, baseOk_zero]; decide +kernel

theorem witness_FillingEnds_model : ldS.model 0 = some fillM ∧ fillM.filling = true ∧ fillM.fin ≤ ldS.now ∧
    ldS.readGood fillM.image fillM.bytes = (some img, ldS) ∧ (∃ y ws, ldS.parseModel fillM img = some (y, ws) ∧ ldS.checkWeights ws = (some [], ldS)) := by
  obtain ⟨y, ws, h, rfl⟩ := img_parse
  exact ⟨rfl, rfl, Nat.zero_le _, img_read, y, [], h, rfl⟩

/-! The scheduler's ticks: PERIOD is 20 ms, T0 is 2 ms, and the train serves every kite of the module. -/

/-- Request 7 of model 0, held. -/
def req7 : Req := { st := .running, held := true, length := 256, sq := 63, cid := 7, commit := 1 }

def tkS (tb : Nat) (x : Sch) : State := { one { st := .tickwait } with pwr := { base.pwr with tb := tb }, sch := x, brd := { launches := [(0x124, lDesc)] } }

theorem witness_TicksStartAndGo : base.barUp = true ∧ base.sch.stopped = true ∧ 0 < base.sch.period ∧ mini.barUp = false ∧
    (let s := tkS 2000000 { run := true, stopped := false, t0Set := true, t0 := 2000000, plan := [(0, ⟨0, true, [(7, 0, 256)], 1000⟩)] }
     s.sch.following = false ∧ s.tickDue 1 = false ∧ s.tickDue 0 = true ∧ s.comesToStop 0 = false ∧ s.tickLost 0 = false ∧
     mapGet s.sch.plan 0 = some ⟨0, true, [(7, 0, 256)], 1000⟩ ∧ s.isSwitch s.sch.plan 0 0 = true) ∧
    (let s := tkS 22000000 { run := true, stopped := false, t0Set := true, t0 := 2000000, nextTick := 1, bnd := 1, bndTb := 3000000,
                             plan := [(0, ⟨0, true, [(7, 0, 256)], 1000⟩), (1, ⟨0, true, [(7, 256, 1)], 1000⟩)] }
     s.tickDue 1 = true ∧ s.comesToStop 1 = false ∧ s.tickLost 1 = false ∧ s.isSwitch s.sch.plan 1 0 = false ∧
     { s with sch := { s.sch with bnd := 0 } }.tickLost 1 = true) ∧
    (let s := tkS 2000000 { run := false, stopped := false, t0Set := true, t0 := 2000000 }
     s.tickDue 0 = true ∧ s.comesToStop 0 = true) ∧
    (let c : StepRun := ⟨0, 2000040, none, 1000, 0, [(7, 0, 256)], none, false⟩
     let s := tkS 2000040 { run := true, stopped := false, cur := some c }
     s.sch.cur = some c ∧ c.go = none ∧ c.goAt ≤ s.pwr.tb ∧ s.ltBad c.tick = false ∧ (s.kite 3).st = .tickwait) ∧
    3 ∈ (tkS 0 { serve := 3 }).serveKites := by decide +kernel

theorem witness_FreezeCutAndCopies :
    (let s := tkS 500000 { run := true, stopped := false, t0Set := true, t0 := 2000000, plan := [(0, ⟨0, false, [(7, 0, 256)], 0⟩)], reqs := [(7, req7)] }
     s.freezeDue 0 = true ∧ s.freezeDue 1 = false ∧ writable (s.descAt 0) = true ∧ mapGet s.sch.plan 0 = some ⟨0, false, [(7, 0, 256)], 0⟩) ∧
    (let c : StepRun := ⟨0, 2000040, some 9, 1000, 0, [(7, 0, 256)], none, false⟩
     let s := tkS 22000000 { run := true, stopped := false, t0Set := true, t0 := 2000000, serve := 3, cur := some c }
     s.sch.cur = some c ∧ s.cutDue 0 = true ∧ s.cutDue 1 = false ∧ s.sch.following = false ∧ s.members = [] ∧ 3 ∈ s.serveKites ∧ (s.kite 3).stopped = false) ∧
    (let s := tkS 42000000 { run := true, stopped := false, t0Set := true, t0 := 2000000, reqs := [(8191, req7)] }
     (s.req 8191).live = true ∧ (s.req 8191).posted = false ∧ s.tickStart ((s.req 8191).commit + 1) ≤ s.pwr.tb ∧ (s.req 8191).fault = none) ∧
    ((tkS 41999999 { t0 := 2000000, t0Set := true, reqs := [(8191, req7)] }).pwr.tb < (tkS 0 { t0 := 2000000, t0Set := true }).tickStart (1 + 1)) ∧
    (∀ comp, let c : Copy := ⟨7, 0, 16, [0x300000], comp, [], 0, 0, 100⟩
     let s := { tkS 100 { copies := [c], reqs := [(7, req7)] } with hst := { base.hst with models := [(0, mdl)] } }
     s.sch.copies = c :: [] ∧ c.fin ≤ s.pwr.tb ∧ s.model (s.req c.slot).model = some mdl ∧ (s.req c.slot).live = true) ∧
    (tkS 99 {}).pwr.tb < 100 ∧ base.model 0 = none := by decide +kernel

/-! Commands, on queue 63. -/

/-- A state with queue 63 on, and some requests, models and variants. -/
def cmS (rs : List (Nat × Req)) (ms : List (Nat × Model)) (vs : List (Nat × Variant)) : State :=
  { base with sch := { reqs := rs }, hst := { base.hst with queues := [(63, { en := true, logd := 2 })], models := ms, variants := vs } }

def sqeC (p : BitVec 64) (m v : BitVec 16) : Sqe := { sqeOf [] with ptr := p, model := m, variant := v }

/-- A variant of one token and one layer, whose page is at 0x300000. -/
def vr1 : Variant := ⟨1, 4, 1, 0, [0x300000], 63, 2, false, true, 0, 0, none⟩

theorem witness_ModelAndVariantCommands : (∀ rs ms vs, takes (cmS rs ms vs) 63 (sqeC (63 + 7 * 2 ^ 16) 15 4095)) ∧ plain (sqeC (63 + 7 * 2 ^ 16) 15 4095) ∧
    (let s := cmS [(5, req7)] [(15, { mdl with filling := false })] [(4095, vr1)]
     let e := sqeC (63 + 7 * 2 ^ 16) 15 4095
     bits e.ptr.toNat 6 10 = 0 ∧ bits e.ptr.toNat 32 32 = 0 ∧ s.sch.subs = [] ∧
     (s.sch.reqs.find? fun x => x.2.sq == bits e.ptr.toNat 0 6 && x.2.cid == bits e.ptr.toNat 16 16 && x.2.live && !x.2.posted) = some (5, req7) ∧
     e.model.toNat ≤ 15 ∧ base.model e.model.toNat = none ∧ s.modelNamed e.model.toNat = false ∧ s.model e.model.toNat = some mdl ∧ mdl.filling = false ∧
     mapGet s.hst.variants e.variant.toNat = some vr1 ∧ vr1.filling = false ∧ s.variantNamed e.variant.toNat = false) := by
  refine ⟨fun _ _ _ => ⟨rfl, rfl, rfl, List.not_mem_nil⟩, ⟨rfl, rfl, rfl⟩, ?_⟩
  decide

/-- INSTALL_VARIANT's descriptor in host memory at address 0: LV 1, LOGP 4, NL 1, and a frame at 0x300000. -/
theorem witness_ModelAndVariantCommands_install : let s : State := { cmS [] [] [] with hst := { (cmS [] [] []).hst with mem := [(0, 1), (2, 4), (3, 1), (38, 0x30)] } }
    let e : Sqe := { sqeC 0 0 0xFFF with auxlen := 44 }
    s.hst.bad e.aux.toNat e.auxlen.toNat = false ∧ s.variantDesc e = some (1, 4, 1, 0, [0x300000]) ∧ e.variant.toNat ≤ 4095 ∧
    mapGet s.hst.variants e.variant.toNat = none ∧ s.variantNamed e.variant.toNat = false := by decide

/-- The variant slot of `x` fills, on a module whose frames are those given. -/
def vfS (fs : Map Frame4) (x : Variant) : State :=
  { base with hst := { base.hst with models := [(0, mdl)], variants := [(4095, x)] }, pgm := { frames := fs } }

def vrF (d : Nat) : Variant := { vr1 with filling := true, digest := d }

theorem witness_FillingEnds_others :
    (ldS.now < ({ fillM with fin := 1000 } : Model).fin ∨ mdl.filling = false) ∧ hbmEnd < ({ fillM with image := hbmEnd } : Model).image + fillM.bytes ∧
    (∀ u ∈ [[0x301000], [0x300000, 0x300000], [0x300000, 0x400000]], let x : Variant := { vrF 0 with frames := u }
     let s := vfS [(0x300, fr16), (0x400, { fr16 with cls := 17 })] x
     mapGet s.hst.variants (4095 : BitVec 12).toNat = some x ∧ x.filling = true ∧ x.fin ≤ s.now ∧ s.roomFor x.frames.length = true) ∧
    (let p := (vfS [(0x300, fr16), (0x400, { fr16 with cls := 17 })] vr1).pgm
     p.frameAt 0x301000 = none ∧ ¬[0x300000, 0x300000].Nodup ∧ (p.frameAt 0x300000).map (·.cls) = some 16 ∧ (p.frameAt 0x400000).map (·.cls) = some 17) := by
  decide

/-- What the checks of an image find that is not read, or whose header is not one, or whose weights are not there. -/
theorem witness_FillingEnds_bad : (({ ldS with pgm := { ldS.pgm with broken := [0] } }).readGood 0 3072).1 = none ∧
    ldS.parseModel fillM [] = none ∧ (ldS.checkWeights [(0x400000, 4096, 0)]).1 = none := by decide +kernel

/-- The rows of the variant's page: two sections of one position, whose memory is zero. -/
theorem vf_rows (d : Nat) : (vfS [(0x300, fr16)] (vrF d)).variantRows (vrF d) mdl = (some (List.replicate 128 0), vfS [(0x300, fr16)] (vrF d)) := by
  have h : ∀ a, (vfS [(0x300, fr16)] (vrF d)).readMem a 64 = ((vfS [(0x300, fr16)] (vrF d)).pgm.bytes a 64, [], vfS [(0x300, fr16)] (vrF d)) :=
    fun a => readMem_clean _ a 64 rfl rfl rfl rfl rfl
  have hr : (vfS [(0x300, fr16)] (vrF d)).pageRows 0x300000 1 16 64 1 = (some (List.replicate 128 0), vfS [(0x300, fr16)] (vrF d)) := by
    simp only [State.pageRows, Nat.one_mul, Nat.mul_one, show List.range 2 = [0, 1] from rfl, List.foldl, h, List.isEmpty_nil, if_true]
    rw [bytes_zero _ _ _ rfl rfl (by decide), bytes_zero _ _ _ rfl rfl (by decide)]
    rfl
  exact congrArg (fun y : Option (List Byte) × State => (((some []).bind fun a => y.1.map (a ++ ·)), y.2)) hr

theorem witness_FillingEnds_variant (d : Nat) : let s := vfS [(0x300, fr16)] (vrF d)
    mapGet s.hst.variants (4095 : BitVec 12).toNat = some (vrF d) ∧ (vrF d).filling = true ∧
    (vrF d).fin ≤ s.now ∧ s.roomFor (vrF d).frames.length = true ∧ (vrF d).frames ≠ [] ∧ (vrF d).frames.Nodup ∧
    (∀ f ∈ (vrF d).frames, ∃ y, s.pgm.frameAt f = some y ∧ y.st = .alloc ∧ y.refcnt = 1 ∧ y.cls = 16) ∧ s.model (vrF d).model = some mdl ∧
    mdl.filling = false ∧ s.variantRows (vrF d) mdl = (some (List.replicate 128 0), s) :=
  ⟨rfl, rfl, Nat.zero_le _, decide_eq_true (show 0 + 0 + 1 ≤ 7168 by decide), List.cons_ne_nil _ _, List.pairwise_singleton _ _,
    fun f hf => by rw [List.mem_singleton.mp hf]; exact ⟨fr16, rfl, rfl, rfl, rfl⟩, rfl, rfl, vf_rows d⟩

theorem vrF_digest (d : Nat) : (vrF d).digest = d := rfl

/-- Its digest is the variant's where `d` is that of the rows, and else not. -/
theorem witness_FillingEnds_digest (l : List Byte) : (∃ d, digest l = (vrF d).digest) ∧ ∃ d, digest l ≠ (vrF d).digest :=
  ⟨⟨digest l, (vrF_digest _).symm⟩, ⟨digest l + 1, by rw [vrF_digest]; omega⟩⟩

/-! ### The host interface -/

/-- Queue 63 as given, on a module in service. -/
def quS (x : Queue) : State := { base with hst := { base.hst with queues := [(63, x)] } }

theorem witness_QueueConfiguration : base.glbUp = true ∧
    (let v : BitVec 64 := 1 + 12 * 2 + 62 * 2 ^ 5 + 2 ^ 11
     (base.queue 63).en = false ∧ v.getLsbD 0 = true ∧ (v - 1).getLsbD 0 = false ∧ base.ready = true ∧ mini.ready = false ∧ mini.glbUp = true ∧
     1 ≤ bits v.toNat 1 4 ∧ bits v.toNat 1 4 ≤ 12 ∧ bits v.toNat 5 6 ≤ 62 ∧ 1 ≤ bits v.toNat 11 12 ∧ (base.queue 63).sqBase % 4096 = 0 ∧
     (base.queue 63).cqBase % 4096 = 0 ∧ ¬(bits (v + 2 ^ 5).toNat 5 6 ≤ 62) ∧
     v.toNat % 2 ^ 39 = ({ en := true, logd := 12, vec := 62, ccount := 1 } : Queue).cfg ∧ (v - 2).toNat % 2 ^ 39 ≠ ({ en := true, logd := 12, vec := 62, ccount := 1 } : Queue).cfg) ∧
    (quS { en := true, outst := [7] }).queueBusy 63 = true ∧ (quS { en := true }).queueBusy 63 = false ∧
    ((quS { en := true, draining := true }).queue 63).draining = true ∧ (0x1000 : Nat) ≠ ((quS { en := true }).queue 63).cqBase := by decide

theorem witness_Doorbells :
    (let x : Queue := { en := true, logd := 2, sqHead := 3 }
     x.depth = 4 ∧ x.depth ≤ (4 : BitVec 32).toNat ∧ (2 : BitVec 32).toNat < x.depth ∧ x.sqHead < x.depth ∧ 1 < x.depth ∧ (0 : BitVec 32).toNat = (x.sqHead + 1) % x.depth ∧
     (base.queue 63).en = false ∧ (8 : Nat) ≠ 4 ∧ x.draining = false ∧ x.tails = [] ∧ x.held = [] ∧
     ∃ bs, (quS x).hostRead (x.sqBase + 64 * x.sqHead) 64 = some bs) ∧
    (let x : Queue := { en := true, logd := 2, cqTail := 3, held := [[1]] }
     (1 : BitVec 32).toNat < x.depth ∧ ((1 : BitVec 32).toNat + x.depth - x.cqHead) % x.depth ≤ x.cqUsed ∧ x.held = [[1]] ∧
     (x.cqTail + x.depth - 1) % x.depth + 1 < x.depth) ∧
    (let x : Queue := { en := true, irqN := 1, irqAt := some 0, ctime := 2, vec := 5 }
     let s : State := { quS x with cyc := 2500, pwr := { base.pwr with tb := 2000 } }
     0 < x.irqN ∧ x.irqAt = some 0 ∧ 0 + 1000 * x.ctime ≤ s.now ∧ s.hst.masked.contains x.vec = false ∧ s.hst.linkUp = true ∧ s.hst.master = true ∧
     ({} : Queue).irqN = 0 ∧ s.hostWaits = false ∧ ({ s with pwr := { s.pwr with stopped := [94] } } : State).hostWaits = true) := by
  refine ⟨⟨rfl, by decide, by decide, by decide, by decide, by decide, rfl, by decide, rfl, rfl, rfl, ⟨_, rfl⟩⟩, ?_, ?_⟩ <;> decide

/-- A frame of count 1 at 0x300000, and the window there. -/
def bdS (f : Frame4) : State := { base with hst := { base.hst with bdpAddr := 0x300000 }, pgm := { frames := [(0x300, f)] } }

theorem witness_BulkDataPort : base.glbUp = true ∧
    (let s := bdS fr16
     s.barUp = true ∧ s.minimal = false ∧ (s.hst.bdpAddr + (0x1FFF : BitVec 24).toNat) % 4096 + 1 ≤ 4096 ∧ (0x1FFF : BitVec 24).toNat + 1 < 2 ^ 24 ∧
     memWf s.pgm.mem = true ∧ s.pgm.bdpRefuses (s.hst.bdpAddr + (0x1FFF : BitVec 24).toNat) = none ∧
     (bdS { fr16 with refcnt := 2 }).pgm.bdpRefuses (s.hst.bdpAddr + 0x1FFF) = some evBdpProtected ∧ s.hst.bdpErr = false ∧
     (∀ i, i < 2 → inTiers (s.hst.bdpAddr + 0xFFF + i) = true) ∧
     (∀ b ∈ blocksOf (s.hst.bdpAddr + 0xFFF) 2, b ∉ s.pgm.poisoned ∧ b ∉ s.pgm.broken ∧ b ∉ s.pgm.weak)) ∧
    mini.minimal = true ∧ (0xFFFFFF : BitVec 24).toNat + 1 ≤ 2 ^ 24 := by decide

/-- The module in D3hot with one posted write at the crossing. -/
def d3S (x : HostTx) : State :=
  { base with hst := { base.hst with d3 := true, waits := [x], linkUp := true, master := true }, pwr := { base.pwr with stopped := [93, 94] } }

/-- What waited at the crossing reaches the host when the PCIe domains run again. -/
theorem test_d3_waits : ((d3hot false (d3S (.write 64 [7]))).hst.mem, (d3hot false (d3S (.write 64 [7]))).hst.waits) = ([(64, 7)], []) ∧
    (d3hot false (d3S (.msix 5))).out = base.out ++ [.msix 5] := by decide

theorem witness_D3waits : (let s := d3S (.write 64 [7])
     s.hst.waits = [.write 64 [7]] ∧ s.hst.bad 64 1 = false ∧ s.hst.linkUp = true ∧ s.hst.master = true ∧ 93 ∈ s.pwr.stopped) ∧
    (let s := d3S (.msix 5)
     s.hst.waits = [.msix 5] ∧ 5 ∉ s.hst.masked ∧ s.hst.linkUp = true ∧ s.hst.master = true) ∧ base.hst.waits = [] := by decide

/-- A request that is not FREE, and one that is held. -/
theorem witness_LinkLossAndD3 : mapGet (cmS [(5, req7)] [] []).sch.reqs 5 = some req7 ∧ (req7.st ≠ .free ∨ req7.held = true) ∧
    mapGet (cmS [(5, { req7 with st := .free, held := false })] [] []).sch.reqs 5 = some { req7 with st := .free, held := false } := ⟨rfl, .inr rfl, rfl⟩

/-! ### Export -/

/-- An IPv4 target on port 0 with images of FP8 rows, and stream 8191 to it, of one layer and one position. -/
def tgt : List Byte := [1, 1, 0, 4] ++ List.replicate 10 0 ++ [1, 0] ++ List.replicate 20 0 ++ [10, 0, 0, 1] ++ List.replicate 16 0 ++ [50] ++ List.replicate 7 0

def xst : Stream := { st := .opened, handle := 8191, limit := 64, nlx := 1, m := 1, logp := 4, nkv := 1, d := 64, finals := [(0, [0]), (1, [0])], frames := [(0, 0x300000)], rto := 50 }

def xptS (x : Stream) : State :=
  { base with xpt := { en := true, targets := [(0, tgt)], streams := [(8191, x)] }, lnk := { base.lnk with ports := [(0, { mode := 1, en := true, st := 2 })] } }

/-- A message of that stream. -/
def xm (man : Bool) : XMsg := ⟨man, 0, 0, 0, 256, true, 0, false, true, 0, false, false⟩

theorem witness_StreamsSend_page : (xptS xst).dataReady 8191 = true ∧ (xptS {}).dataReady 8191 = false ∧ (xptS {}).manReady 8191 = false ∧ tKind tgt = 1 ∧
    (xptS xst).target 0 = tgt ∧ xst.resend false = none ∧ xst.nextData tgt = some (0, 0, 0, 256) ∧
    ∃ l u, (xptS xst).imageBytes xst tgt 0 0 0 256 = (l, [], u) := by
  refine ⟨?_, ?_, ?_, ?_, rfl, ?_, ?_, ?_⟩
  iterate 6 decide +kernel
  have h : ((xptS xst).imageBytes xst tgt 0 0 0 256).2.1 = [] := by decide +kernel
  exact ⟨_, _, Prod.ext rfl (Prod.ext h rfl)⟩

theorem witness_StreamsSend_others : (xptS { xst with next := 1, msgs := [(0, xm false)] }).dataReady 8191 = true ∧
    ({ xst with next := 1, msgs := [(0, xm false)] } : Stream).resend false = some (0, xm false) ∧ (xm false).manifest = false ∧
    (let x : Stream := { xst with next := 1, msgs := [(0, { xm false with acked := true, again := false })], lastDone := true, firstTok := some 0, bytes := List.replicate 1025 1 }
     (xptS x).manReady 8191 = true ∧ x.resend true = none ∧ x.bytes ≠ [] ∧ x.st = .opened ∧ x.abort = none ∧ x.manOff + min (tMaxpay tgt) (1025 - x.manOff) < 1025) ∧
    (1 : Nat) ≤ 0 + min (tMaxpay tgt) 1 := by decide +kernel

/-- An acknowledgement of everything below SEQ 1 that grants 96, a NAK of message 0 of the code given, and a credit of 96. -/
def ackMsg : List Byte := [0x59, 0x50, 1, 3, 0, 0, 0, 0x28, 0, 0, 0x1F, 0xFF, 0, 0, 0, 1] ++ List.replicate 16 0 ++ [0, 0, 0, 96, 0, 0, 0, 0]
def nakMsg (c : Byte) : List Byte := [0x59, 0x50, 1, 4, 0, 0, 0, 0x20, 0, 0, 0x1F, 0xFF, 0, 0, 0, 0] ++ List.replicate 8 0 ++ [c] ++ List.replicate 7 0
def creditMsg : List Byte := [0x59, 0x50, 1, 5, 0, 0, 0, 24, 0, 0, 0x1F, 0xFF, 0, 0, 0, 96] ++ List.replicate 8 0
def yrx : YRx := ⟨0, false, 0x0A000001⟩

/-- The stream with one message sent, in the state given. -/
def xsent (st : XSt) : Stream := { xst with st := st, next := 1, msgs := [(0, { xm false with again := false })] }

theorem witness_ReceiversAndTimers_messages : (∀ st ∈ [XSt.opened, .sealed], (xptS (xsent st)).msgStream yrx 3 ackMsg = .inl 8191) ∧
    fieldBe ackMsg 0xC 4 ≤ (xsent .opened).next ∧ fieldBe ackMsg 0x18 8 = 0 ∧ (xsent .opened).limit ≤ fieldBe ackMsg 0x20 4 ∧ fieldBe ackMsg 4 2 = 0 ∧
    (∀ c ∈ [1, 3], (xptS (xsent .opened)).msgStream yrx 4 (nakMsg c) = .inl 8191 ∧ fieldBe (nakMsg c) 0xC 4 < 1 ∧ (xsent .opened).base ≤ fieldBe (nakMsg c) 0xC 4 ∧
      fieldBe (nakMsg c) 0x18 1 = c.toNat) ∧ mapGet (xsent .opened).msgs 0 = some { xm false with again := false } ∧
    (xptS (xsent .opened)).msgStream yrx 5 creditMsg = .inl 8191 ∧ (xsent .opened).limit ≤ fieldBe creditMsg 0xC 4 := by
  have h : ∀ (s : State) (t : Nat) (m : List Byte), (match s.msgStream yrx t m with
      | .inl n => n == 8191
      | .inr _ => false) = true → s.msgStream yrx t m = .inl 8191 := by
    intro s t m e
    cases hm : s.msgStream yrx t m with
    | inl n => rw [hm] at e; rw [eq_of_beq e]
    | inr u => rw [hm] at e; exact Bool.noConfusion e
  refine ⟨fun st hs => h _ _ _ ?_, by decide, by decide, by decide, by decide, fun c hc => ⟨h _ _ _ ?_, ?_⟩, rfl, h _ _ _ ?_, by decide⟩
  · simp only [List.mem_cons, List.not_mem_nil, or_false] at hs; rcases hs with rfl | rfl <;> decide +kernel
  · simp only [List.mem_cons, List.not_mem_nil, or_false] at hc; rcases hc with rfl | rfl <;> decide +kernel
  · simp only [List.mem_cons, List.not_mem_nil, or_false] at hc; rcases hc with rfl | rfl <;> decide
  · decide +kernel

/-- The NAKs that lose a SEALED stream: of the codes 2, 5 and 6, and of code 1 for a message that had one. -/
theorem witness_ReceiversAndTimers_naks : (∀ c ∈ [1, 2, 5, 6], ∀ naks ∈ [0, 1], let y : XMsg := { xm false with again := false, naks := naks }
      let s := xptS { xsent .sealed with msgs := [(0, y)] }
      (match s.msgStream yrx 4 (nakMsg c) with
       | .inl n => n == 8191
       | .inr _ => false) = true ∧ fieldBe (nakMsg c) 0xC 4 < (s.stream 8191).next ∧ (s.stream 8191).base ≤ fieldBe (nakMsg c) 0xC 4 ∧
      mapGet (s.stream 8191).msgs (fieldBe (nakMsg c) 0xC 4) = some y ∧ y.acked = false ∧ fieldBe (nakMsg c) 0x18 1 = c.toNat ∧ (s.stream 8191).st = .sealed) ∧
    ((2 : Byte).toNat ∈ [2, 5, 6] ∧ (6 : Byte).toNat ∈ [2, 5, 6] ∧ (1 : Byte).toNat = 1) := by decide +kernel

def at_ (ms : Nat) (s : State) : State := { s with cyc := 1250000 * ms, pwr := { s.pwr with tb := 1000000 * ms } }

theorem witness_ReceiversAndTimers_timers : (xptS xst).rateDue 8191 = false ∧ (at_ 1 (xptS xst)).rateDue 8191 = true ∧ (xptS (xsent .opened)).rtoDue 8191 = false ∧
    (let s := { at_ 1 (xptS { xsent .opened with expiries := 7 }) with sch := { reqs := [(8191, req7)] } }
     s.rtoDue 8191 = true ∧ (s.stream 8191).expiries = 7 ∧ (s.stream 8191).st = .opened ∧ (s.req 8191).fault = none ∧ (s.req 8191).st = .running) ∧
    (let s := { at_ 1 (xptS { xsent .opened with expiries := 6 }) with lnk := { base.lnk with ports := [(0, { mode := 1, en := true, st := 1 })] } }
     s.rtoDue 8191 = true ∧ (s.stream 8191).oldest = some (0, { xm false with again := false }) ∧ s.canSend (s.stream 8191) tgt false = false) ∧
    (let x := { xsent .opened with expiries := 6 }
     let s := at_ 1 (xptS x)
     let y := { x with expiries := x.expiries + 1, rto := min (x.rto * 2) (128 * tRto (s.target x.target)) }
     s.rtoDue 8191 = true ∧ (s.stream 8191) = x ∧ x.oldest = some (0, { xm false with again := false }) ∧ s.canSend y (s.target x.target) false = true ∧
     ((s.setStream 8191 y).imageBytes y (s.target x.target) 0 0 0 256).2.1 = []) ∧
    ((at_ 1000 (xptS { xst with st := .sealed })).stream 8191).st = .sealed ∧ 0 + 1000000000 ≤ (at_ 1000 base).now ∧ (at_ 999 base).now < 0 + 1000000000 := by
  decide +kernel

/-! ### Lerbo -/

/-- Port 5 up for Lerbo on module 2, which module 7 talks to. -/
def leS (b : Brd) (x : Sch) : State := { base with brd := b, sch := x, lnk := { base.lnk with modId := 2, ports := [(5, { en := true, st := 2 })] } }

def lrx (vc : BitVec 2) : LRx := ⟨5, vc, 2, 7, 31, 1, 0, [], 0, 0, true, true⟩

theorem arrives_lrx (s : State) (vc : BitVec 2) (len : Nat) (hm : s.lnk.modId = 2) (hp : s.port 5 = { en := true, st := 2 }) (h : len ≤ 9216) :
    arrives s (lrx vc) vc.toNat len := by
  have hp' : s.port (lrx vc).port.val = { en := true, st := 2 } := hp
  refine ⟨?_, hm.symm⟩
  unfold comes; rw [hp']
  exact ⟨rfl, rfl, rfl, rfl, rfl, (by decide : ∀ vc : BitVec 2, ([0, 0, 0, 0] : List Nat).getD vc.toNat 0 + 1 ≤ chanBuf vc.toNat) vc, h, .inl rfl⟩

/-- The train of kite 3 with module 7. -/
def tr7 : Train := ⟨[(0xFFFFF, 3), (7, 3)], [⟨0, 1, 0xFFFFF, 3⟩, ⟨1, 1, 7, 3⟩], [⟨0xFFFFF, 65535, 1⟩]⟩

theorem witness_LerboMessages_units : (∀ b x, arrives (leS b x) (lrx 2) 2 8) ∧ (let s := leS { trains := [(0x10000, tr7)] } {}
     s.bridleTrain 65535 = some 0x10000 ∧ mapGet s.brd.trains 0x10000 = some tr7 ∧ (∃ x ∈ tr7.runs, x.modId = s.normMod 7)) ∧
    (∀ b x, ∀ len ≤ 9200, arrives (leS b x) (lrx 0) 0 (16 + len)) ∧ (∀ b x, arrives (leS b x) (lrx 1) 1 16) ∧
    (leS { desc := defWin } {}).defineCheck (defState defWin).descWindow = (0, train1) ∧ descBad (defState defWin).descWindow = false ∧
    fieldLe (defState defWin).descWindow 0 4 = 0x10000 ∧ (leS { trains := [(0x10000, train1)] } {}).deleteStatus 0x10000 = 0 ∧
    mapGet (leS { defs := [(0x10000, (7, 5))] } {}).brd.defs 0x10000 = some ((lrx 0).src.toNat, (5 : BitVec 64).toNat) ∧
    (leS { trains := [(0x10000, train1)] } {}).unitRuns 0x10000 = some train1.runs ∧ (leS { trains := [(0x10000, train1)] } {}).isServing 0x10000 = false ∧
    mapGet (leS { prepared := [(7, lDesc)] } {}).brd.prepared (lrx 0).src.toNat = some lDesc ∧
    mapGet (leS {} {}).brd.prepared (lrx 0).src.toNat = none := by
  refine ⟨fun b x => arrives_lrx _ 2 _ rfl rfl (by decide), by decide, fun b x len h => arrives_lrx _ 0 _ rfl rfl (by omega),
    fun b x => arrives_lrx _ 1 _ rfl rfl (by decide), ?_, ?_, ?_, by decide, rfl, rfl, rfl, rfl, rfl⟩ <;> decide +kernel

/-- A command in progress that waits for module 7, alone or with module 9; and a DEFINE that failed before. -/
theorem witness_LerboMessages_answers : (∀ kd ∈ [2, 3, 4, 5], ∀ w ∈ [[7], [7, 9]], let o : UnitOp := ⟨kd, 0x10000, none, none, w, 0, 0, 5⟩
     let s := leS { op := some o } {}
     s.brd.op = some o ∧ o.tag = (5 : BitVec 64).toNat ∧ (lrx 1).src.toNat ∈ o.waiting ∧ mapGet s.brd.undone (5 : BitVec 64).toNat = none) ∧
    (9 : Nat) ∈ [7, 9] ∧ 9 ≠ (lrx 1).src.toNat ∧ [7] = [(lrx 1).src.toNat] ∧ (9 : BitVec 8).toNat ≤ 9 ∧
    (∃ u, mapGet (leS { undone := [(5, 0x10000)] } {}).brd.undone (5 : BitVec 64).toNat = some u) ∧ (leS {} {}).brd.op = none := by
  refine ⟨by decide, by decide, by decide, by decide, by decide, ⟨_, rfl⟩, rfl⟩

/-- The first and the last rows and reels that a WRITE names, of one row and of 16. -/
theorem witness_LerboMessages_rows : (∀ len ≤ 8192, arrives (leS {} {}) (lrx 0) 0 (24 + len)) ∧
    (∀ n : Nat, n ∈ [1, 16] → ∀ dst ∈ [0, 16383, 32768, 32799], let f : LWrite := ⟨9, 255, .ofNat 16 dst, 0, .ofNat 16 n, 65535, 65536, 0⟩
      f.rsv = 0 ∧ 1 ≤ f.rows.toNat ∧ f.rows.toNat ≤ 16 ∧ f.total ≠ 0 ∧ (List.replicate (512 * n) (0 : Byte)).length = 512 * f.rows.toNat ∧
      (leS {} {}).kiteOn f.kite.toNat = true ∧ f.dest.toNat = dst) ∧
    (∀ q ∈ [0, 31], ((({ leS {} {} with kites := [(255, { reels := [(q, { en := true })] })] } : State).kite 255).reel q).en = true ∧
      (((leS {} {}).kite 255).reel q).en = false) := by
  refine ⟨fun len h => arrives_lrx _ 0 _ rfl rfl (by omega), ?_, by decide⟩
  simp only [List.length_replicate]; decide

/-- The descriptor of kite 3 that waits for module 7 under tag 9, and its answer. -/
theorem witness_LerboMessages_done : ∀ c ∈ [none, some 7], let d : Desc := ⟨.remote 7 4 0 none 9 c, 0, none, 1, 0, 90, 0, 10, 0, 0, none, 1, 1, 0, none, 0, false⟩
    let s : State := { one { chans := [(2, { queue := [d] })] } with lnk := { (leS {} {}).lnk with sends := [(9, (3, 2))] } }
    arrives s (lrx 1) 1 16 ∧ (7 : BitVec 8).toNat ≤ 7 ∧ mapGet s.lnk.sends (9 : BitVec 64).toNat = some (3, 2) ∧ ((s.kite 3).chan 2).queue = [d] ∧ d.status = 0 :=
  fun _ _ => ⟨arrives_lrx _ 1 _ rfl rfl (by decide), by decide, rfl, rfl, rfl⟩

/-- A fragment of a manifest for receive context 63, and page data of FP8 of layer 0, page 0, at the start of its image. -/
def manMsg : List Byte := [0x59, 0x50, 1, 2, 0, 0, 0, 34] ++ List.replicate 24 0 ++ [0xAB, 0xCD]
def pageMsg : List Byte := [0x59, 0x50, 1, 1, 0, 0, 0, 42] ++ List.replicate 16 0 ++ [0, 2, 0, 4] ++ List.replicate 12 0 ++ [0xAB, 0xCD]

def rxS : State := { leS {} {} with xpt := { rxen := true, rx := [(63, (4096, 1, 4096, 1))] } }

/-- The page data lies at BASE, whatever the geometry of its stream. -/
theorem rxS_place (key : Nat) : rxS.rxPlace 63 key pageMsg = 4096 := by
  simp only [State.rxPlace, rxGeometry]
  rw [show rxS.rxCtx 63 = (4096, 1, 4096, 4096) by decide, if_neg (by decide), show fieldBe pageMsg 0x18 1 = 0 by decide,
    show fieldBe pageMsg 0x1C 4 = 0 by decide, show fieldBe pageMsg 0x20 4 = 0 by decide]
  simp

theorem witness_LerboMessages_pages : (∀ len ≤ 9212, arrives rxS (lrx 3) 3 (4 + len)) ∧ rxS.xpt.rxen = true ∧ (63 : BitVec 16).toNat < 64 ∧ rxS.xpt.rxs = [] ∧
    memWf rxS.pgm.mem = true ∧
    (wellFormedPage (fieldBe pageMsg 3 1) pageMsg = true ∧ fieldBe pageMsg 3 1 = 1 ∧ fieldBe pageMsg 0x19 1 ∈ exportFmts ∧
      (rxS.rxCtx 63).1 ≤ 4096 ∧ 4096 + (pageMsg.length - 40) ≤ (rxS.rxCtx 63).1 + (rxS.rxCtx 63).2.2.2 ∧ 4096 + pageMsg.length ≤ hbmEnd) ∧
    (wellFormedPage (fieldBe manMsg 3 1) manMsg = true ∧ fieldBe manMsg 3 1 = 2 ∧ ∀ key, rxS.rxPlace 63 key manMsg + manMsg.length ≤ hbmEnd) ∧
    fieldBe ackMsg 3 1 = 3 := by
  refine ⟨fun len h => arrives_lrx _ 3 _ rfl rfl (by omega), rfl, by decide, rfl, by decide, by decide, ⟨by decide, by decide, fun key => ?_⟩, by decide⟩
  simp only [State.rxPlace]
  rw [if_pos (by decide)]; decide

/-- Module 9 is reached through port 5, or not at all; a message for module 2 is none to forward. -/
theorem witness_LerboMessages_forward : (∀ mt ∈ [1, 0x13, 0x21, 0x31], ∃ vc, mtypeVc mt = some vc ∧ vc < 4) ∧
    (let r : LRx := { lrx 3 with dst := 9 }
     comes (leS {} {}) r 3 9216 ∧ r.dst.toNat ≠ (leS {} {}).lnk.modId ∧ 1 < r.ttl.toNat ∧ ({ r with ttl := 1 } : LRx).ttl.toNat ≤ 1 ∧
     let m : LMsg := ⟨9, 3, 0x31, 30, 7, [], 1, some 5⟩
     ((leS {} {}).enqueue m).1 = false ∧ (({ leS {} {} with lnk := { (leS {} {}).lnk with lroute := [(9, 0x501)] } } : State).enqueue m).1 = true) ∧
    arrives (leS {} {}) (lrx 3) 3 9216 := by
  refine ⟨?_, ⟨?_, by decide, by decide, by decide, rfl, rfl⟩, arrives_lrx _ 3 _ rfl rfl (by decide)⟩
  · intro mt hm
    simp only [List.mem_cons, List.not_mem_nil, or_false] at hm
    rcases hm with rfl | rfl | rfl | rfl <;> exact ⟨_, rfl, by decide⟩
  · exact (arrives_lrx (leS {} {}) 3 9216 rfl rfl (by decide)).1

/-- A member that follows module 7, at the last byte of a descriptor and before T0; a lead with a step; and another module's peer. -/
theorem witness_SchedulerMessages : (∀ x : Sch, ∀ len ≤ 9184, arrives (leS {} x) (lrx 0) 0 (32 + len)) ∧ (∀ x : Sch, arrives (leS {} x) (lrx 0) 0 16) ∧
    (let s := leS {} { leadId := 7, follow := true, following := true, t0Set := true, t0 := 1000 }
     s.sch.leadId = (lrx 0).src.toNat ∧ s.sch.follow = true ∧ bits (20000 : BitVec 64).toNat 0 17 ≠ 0 ∧ s.sch.following = true ∧ s.pwr.tb < s.sch.t0 ∧
     (65535 : BitVec 32).toNat + 1 ≤ 65536 ∧ memWf s.pgm.mem = true ∧ writable (s.descAt 0 + (65535 : BitVec 32).toNat) = true) ∧
    (let s := { leS {} { leadId := 7, following := true } with pwr := { base.pwr with tb := 20000001 } }
     ¬(s.pwr.tb < s.sch.t0) ∧ s.tickOf s.pwr.tb = 0) ∧
    (let s := leS { trains := [(0x10000, tr7)] } { serve := 0x10000, stopped := false, t0 := 1000 }
     arrives s (lrx 1) 1 16 ∧ s.sch.stopped = false ∧ 7 ∈ s.members ∧ s.sch.reports = []) ∧
    (leS {} {}).sch.leadId ≠ (lrx 0).src.toNat ∧ ((leS {} {}).port 5).violAt.length < 255 := by
  refine ⟨fun x len h => arrives_lrx _ 0 _ rfl rfl (by omega), fun x => arrives_lrx _ 0 _ rfl rfl (by decide), by decide, by decide,
    ⟨arrives_lrx _ 1 _ rfl rfl (by decide), by decide⟩, by decide, by decide⟩

/-! ### Ports -/

/-- Port 95 as given. -/
def poS (x : Port) : State := { base with lnk := { base.lnk with modId := 2, ports := [(95, x)] } }

theorem witness_LinkStates : (∀ x : Port, (poS x).port 95 = x ∧ ((95 : Fin 96).val = 4 * (23 : Fin 24).val + (3 : Fin 4).val)) ∧
    (poS {}).barUp = true ∧ (poS {}).lnk.modId ≠ 0xFFFFF ∧ (bits (12 : BitVec 64).toNat 0 2 ≠ 0 ∨ 2 ≠ 0xFFFFF) ∧ bit (4 : BitVec 64).toNat 2 = true ∧ bit (4 : BitVec 64).toNat 3 = false ∧
    bit (0 : BitVec 64).toNat 2 = false ∧
    (poS { st := 2, buf := [⟨0, none, []⟩] }).aackDue 95 = false ∧ (at_ 1 (poS { st := 2, buf := [⟨0, none, []⟩] })).aackDue 95 = true ∧
    (List.replicate 15 (0 : Nat)).length = 15 ∧ (∀ t ∈ List.replicate 15 1, base.now < t + 60000000000) ∧
    (∀ m ∈ [(0, 782), (1, 782), (2, 391), (3, 196)], codewordLimit m.1 < m.2 ∧ m.2 - 1 ≤ codewordLimit m.1) ∧
    (4095 : BitVec 12).toNat = ({ rxSeq := 4095 } : Port).rxSeq ∧ (9 : BitVec 20).toNat = ({ peer0 := 9 } : Port).peer0 ∧ ({} : Port).helloSeq = none ∧
    (at_ 10 base).now = 10000000 ∧ (at_ 500 base).now = 500000000 ∧ (at_ 1000 base).now = 1000000000 := by
  refine ⟨fun x => ⟨rfl, rfl⟩, ?_⟩; decide +kernel

/-- An ACK of the stream above in a UDP datagram, without a checksum, of IPv4. -/
def ackIp : List Byte := [0x45, 0, 0, 68, 0, 0, 0, 0, 64, 17, 102, 167] ++ [10, 0, 0, 1, 10, 0, 0, 2] ++ [0, 1, 0, 0, 0, 48, 0, 0] ++ ackMsg

/-- The first flit of a message on channel 3, of FSEQ 4095, which returns three credits of channel 2 and acknowledges all below 7. -/
def flit1 : List Byte := flitBytes 1 3 false 4095 7 2 3 9 (List.replicate 240 0xFF)

/-- Its fields, by Table 15.3, and a flit of KIND 0 beside it. -/
theorem test_flit : flit1.length = 256 ∧ flit1.take 12 = [0x31, 240, 0xFF, 0x0F, 7, 0, 0x03, 0x80, 9, 0, 0, 0] ∧ fKind flit1 = 1 ∧ fVc flit1 = 3 ∧ fFseq flit1 = 4095 ∧
    fCredVc flit1 = 2 ∧ fCred flit1 = 3 ∧ fBad flit1 = false ∧ fGood flit1 = true ∧ fGood (0x32 :: flit1.drop 1) = false := by decide +kernel

/-- The check value of the CRC of IEEE 802.3, of the nine digits. -/
theorem test_crc32 : crc32 [0x31, 0x32, 0x33, 0x34, 0x35, 0x36, 0x37, 0x38, 0x39] = 0xCBF43926 := by decide +kernel

theorem witness_LinkTraffic : (∀ x : Port, (poS x).port 95 = x) ∧
    (∃ f : FlitF, f.uncorr = true ∧ f.unc = 0) ∧
    (∃ f : FlitF, sound f ∧ fKind f.bytes = 0 ∧ fBad f.bytes = false) ∧
    (∃ f : FlitF, sound f ∧ fKind f.bytes = 1 ∧ fBad f.bytes = false ∧ fVc f.bytes = 3 ∧ fFseq f.bytes = ({ rxSeq := 4095 } : Port).rxSeq ∧
      ({ rxSeq := 4095 } : Port).rxOwed.getD 3 0 = 0 ∧ ({ held := [0, 0, 0, 1023] } : Port).held.getD 3 0 < chanBuf 3) ∧
    (∃ f : FlitF, sound f ∧ fKind f.bytes ≠ 0 ∧ fFseq f.bytes ≠ ({} : Port).rxSeq) ∧
    quiet { st := 2, rxSeq := 4095, aackSent := 4095 } ∧
    (poS { st := 2 }).replayDue 95 = false ∧ (at_ 1 (poS { st := 2, replayAt := some 0, replayN := 6 })).replayDue 95 = true ∧
    (({ buf := [⟨0, none, []⟩, ⟨1, none, []⟩] } : Port).buf.findIdx? fun b => b.fseq == (1 : BitVec 12).toNat) = some 1 ∧
    ({ buf := [⟨0, none, []⟩, ⟨1, none, []⟩] } : Port).buf.head? = some ⟨0, none, []⟩ ∧ (0 : BitVec 12).toNat = 0 ∧
    (let f : List Byte := List.replicate 12 0 ++ [8, 0] ++ ackIp
     let s := xptS (xsent .opened)
     (s.port 0).st = 2 ∧ (s.port 0).mode ≠ 0 ∧ 14 ≤ f.length ∧ f.length + 4 ≤ 1518 ∧ fieldBe f 0 6 = (s.port 0).mac ∧ fieldBe f 12 2 ≠ 0x8100 ∧
     aboveOf (fieldBe f 12 2) (f.drop 14) = .yaphor 0x0A000001 0 ackMsg ∧ tgt ∈ s.portTargets 0 ∧ fieldLe tgt 0x0C 2 = 0 ∧ fieldBe ackMsg 3 1 = 3) := by
  have h1 := test_flit
  refine ⟨fun x => rfl, ⟨⟨[], true, 0, 0⟩, rfl, rfl⟩, ⟨⟨idleFlit 7, false, 0, 0⟩, ⟨rfl, rfl, ?_⟩, ?_⟩,
    ⟨⟨flit1, false, 0, 0⟩, ⟨rfl, rfl, h1.2.2.2.2.2.2.2.2.1⟩, h1.2.2.1, h1.2.2.2.2.2.2.2.1, h1.2.2.2.1, h1.2.2.2.2.1, rfl, by decide⟩,
    ⟨⟨flit1, false, 0, 0⟩, ⟨rfl, rfl, h1.2.2.2.2.2.2.2.2.1⟩, ?_, ?_⟩, ⟨rfl, rfl, rfl, rfl, rfl, rfl⟩, by decide, by decide, by decide, rfl, rfl, ?_⟩
  · decide +kernel
  · decide +kernel
  · rw [h1.2.2.1]; decide
  · rw [h1.2.2.2.2.1]; decide
  · decide +kernel

/-! ### Clocks, power and ageing -/

/-- A module whose timebase follows PTP on port 0, or PPS, at the time given in ns. -/
def tbS (src ns : Nat) : State :=
  { base with
    cyc := ns * 5 / 4, pwr := { base.pwr with src := src, tb := ns, locked := true }
    lnk := { base.lnk with ptpEn := true, ptpPort := 0, ports := [(0, { mode := 1, en := true, st := 2 })] } }

theorem witness_Timebase : (let s := tbS 1 8000000000
     s.lnk.ptpEn = true ∧ s.lnk.ptpPort = 0 ∧ s.lnk.ptpDomain = (0 : BitVec 8).toNat ∧ s.lnk.ptpTransport = (0 : BitVec 2).toNat ∧ (s.port 0).st = 2 ∧
     (s.port 0).mode ≠ 0 ∧ s.pwr.src = 1 ∧ s.pwr.locked = true ∧ s.pwr.measAt + 8000000000 ≤ s.now ∧ (tbS 2 0).pwr.src ≠ 1) ∧
    ((tbS 1 7999999999).now < 8000000000 ∧ base.pwr.locked = false) ∧
    ((999999999 % 1000000000 : Nat) - 1000000000 = (-1 : Int) ∧ (499999999 : Int) > 1000000 ∧ (1000 : Nat) ≤ 1000 ∧ (999 : Nat) < 1000 ∧ (tbS 2 0).pwr.src = 2) ∧
    (base.barUp = true ∧ base.sch.stopped = true ∧ ({ base with sch := { stopped := false } } : State).sch.stopped = false) ∧
    ((99 : Fin 100).val = 99 ∧ (7 : Fin 100).val < 8 ∧ 8 ≤ (98 : Fin 100).val ∧ (98 : Fin 100).val ≠ 99 ∧
      (98 : Fin 100).val ≠ 93 ∧ (98 : Fin 100).val ≠ 94 ∧ (93 : Fin 100).val = 93) := by decide

/-- Sensors at their usual values, with the temperature of compute die 3 given. -/
def sens (t : Nat) : Sensors := ⟨60, 60, 60, t, 60, 60, 60, 60, 60, 60, 20, 20, 20, 20, 500, 48000, 12000⟩

theorem witness_SensorsAndMargin :
    (∀ t ∈ [60, 105, 114], let x := sens t
     (∀ d : Fin 4, [x.tj0, x.tj1, x.tj2, x.tj3].getD d.val 0 < 115 ∧ [x.hbm0, x.hbm1, x.hbm2, x.hbm3].getD d.val 0 < 105) ∧ x.io < 115 ∧ x.loft < 105) ∧
    ¬((sens 115).tj3 < 115) ∧ base.minimal = false ∧ base.pwr.armed = false ∧ base.now < base.pwr.hourAt + 3600000000000 ∧
    ({ base with pwr := { base.pwr with dies := [(3, { emerg := true })] } } : State).planStepDue = false ∧ base.planStepDue = false ∧
    (let s : State := { base with pwr := { base.pwr with dies := [(3, { wants := true, vdie := 7990 })] } }
     s.planStepDue = true ∧ (s.die 3).wants = true ∧ (s.die 0).wants = false) ∧
    (base.now < base.pwr.dayAt + 86400000000000 ∧ 0 + 86400000000000 ≤ (tbS 0 86400000000000).now) ∧
    base.barUp = true ∧ base.pwr.taken = false ∧ ({ base.pwr with armed := true } : Pwr).armed = true := by decide

theorem witness_RegisterWrites : base.barUp = true ∧
    (let v : BitVec 64 := 100000 + 250 * 2 ^ 17 + 50 * 2 ^ 25 + 100 * 2 ^ 32
     base.sch.stopped = true ∧ 1000 ≤ bits v.toNat 0 17 ∧ bits v.toNat 0 17 ≤ 100000 ∧ 10 ≤ bits v.toNat 17 8 ∧ bits v.toNat 17 8 ≤ 250 ∧
     bits v.toNat 25 7 ≤ 50 ∧ 1 ≤ bits v.toNat 32 7 ∧ bits v.toNat 32 7 ≤ 100 ∧ ¬(bits (v + 1).toNat 0 17 ≤ 100000)) ∧
    (let s : State := { base with lnk := { base.lnk with lock := true, modId := 2 }, sec := { base.sec with lock := true } }
     s.barUp = true ∧ s.lnk.lock = true ∧ bits (2 + 2 ^ 20 : BitVec 64).toNat 0 20 = s.lnk.modId ∧ (2 + 2 ^ 20 : BitVec 64).getLsbD 20 = true ∧
     (2 : BitVec 64).getLsbD 20 = false ∧ s.sec.lock = true ∧ (4 : BitVec 64).getLsbD 0 = s.sec.lockProf ∧ (3 : BitVec 64).getLsbD 2 = false ∧ base.sec.lock = false) ∧
    (let s := xptS xst
     (∃ n y, (n, y) ∈ s.xpt.streams ∧ y.active = true ∧ y.target = 0) ∧ (∀ n y, (n, y) ∈ s.xpt.streams → y.target ≠ 255) ∧ s.tel.xEn = false ∧
     (s.target 255).length = 64 ∧ s.targetUsable 0 = true ∧ tKind (s.target 0) ≠ 4 ∧ s.targetUsable 255 = false) ∧
    (let s : State := { base with tel := { base.tel with head := 5, tail := 2 } }
     (5 + 2 ^ 32 - s.tel.tail) % 2 ^ 32 ≤ s.tel.unread ∧ s.tel.unread < (6 + 2 ^ 32 - s.tel.tail) % 2 ^ 32) := by
  refine ⟨rfl, by decide, by decide, ⟨⟨8191, xst, List.mem_singleton.mpr rfl, rfl, rfl⟩, ?_, ?_⟩, by decide⟩
  · intro n y h; have h := List.mem_singleton.mp h; rw [(Prod.mk.inj h).2]; decide
  · decide +kernel

/-! The error log: a record that merges, one that does not, and full rings. -/

def evC : Ev := ⟨.c, uPwr, evThermalWarn, 3, 0xFFFF, 0⟩
def evD : Ev := ⟨.d, uMem, evMem 1 2, 0, 0xFFFF, 64⟩
def lgS (t : Tel) : State := { base with tel := t }

/-- A list of consecutive keys holds each of them. -/
theorem mapGet_range' {α : Type} (f : Nat → α) (n a k : Nat) (h : a ≤ k) (h' : k < a + n) :
    mapGet ((List.range' a n).map fun i => (i, f i)) k = some (f k) := by
  induction n generalizing a with
  | zero => omega
  | succ n ih =>
    by_cases hk : a = k
    · subst hk; simp [List.range'_succ, mapGet]
    · simp [List.range'_succ, mapGet, hk, ih (a + 1) (by omega) (by omega)]

/-- Events of one TIME stand by UNIT, then WHERE, whichever came first (R419). -/
theorem test_log_order : (((base.log evC).log evD).tel.ring.map fun x => (x.1, x.2.seq, x.2.ev)) = [(0, 0, evD), (1, 1, evC)] := by decide

/-- An event that equals the newest record is counted there (R420). -/
theorem test_log_merge : (((base.log evC).log evC).tel.ring.map fun x => (x.1, x.2.count)) = [(0, 2)] := by decide

theorem witness_ErrorLog :
    (base.tel.unread < 4096 ∧ base.tel.newest = none ∧ mapGet base.tel.ring ((base.tel.head % 4096 + 4095) % 4096) = none) ∧
    (let s := base.log evC
     s.tel.newest = some ⟨base.pwr.tb, 0, evC, 1⟩ ∧ s.pwr.tb ≤ base.pwr.tb + 1000000) ∧
    (let t : Tel := { head := 4096, ring := [(0, ⟨0, 0, evC, 1⟩)] }
     t.unread = 4096 ∧ t.newest = none ∧ evC.cls ∈ [EvClass.c, .s, .v] ∧ evD.cls ∉ [EvClass.c, .s, .v] ∧ mapGet t.ring ((t.tail + 0) % 4096) = some ⟨0, 0, evC, 1⟩) ∧
    (∀ i < 4096, ∃ o, mapGet (lgS { head := 4096, ring := (List.range' 0 4096).map fun i => (i, ⟨0, i, evD, 1⟩) }).tel.ring ((0 + i) % 4096) = some o ∧
      o.ev.cls ∉ [EvClass.c, .s, .v]) := by
  refine ⟨by decide, by decide, by decide, fun i hi => ⟨⟨0, i, evD, 1⟩, ?_, (by decide : evD.cls ∉ [EvClass.c, .s, .v])⟩⟩
  have hm : (0 + i) % 4096 = i := by omega
  rw [hm]
  exact mapGet_range' (fun i => (⟨0, i, evD, 1⟩ : LogRec)) 4096 0 i (Nat.zero_le i) (by omega)

/-! ### Reset, flash and attestation -/

/-- The flash as delivered, but for its boot record's failed starts, and with FLIGHT's component of both devices as given. -/
def seS (fails : Nat) (a b : Option Comp) : State :=
  { State.reset with sec := { Sec.reset with
      primary := { Flash.reset with fs := a, boot := ⟨1, true, ⟨fails, (false, 0), none⟩⟩ }, recovery := { Flash.reset with fs := b } } }

theorem witness_ResetsAndStart : base.glbUp = true ∧ (1000 : Nat) ≤ 1000 ∧ (999 : Nat) < 1000 ∧ ({ base with pins := { base.pins with pwrGood := false } } : State).pins.pwrGood = false ∧
    (∀ f a b, (seS f a b).pins.pwrGood = true ∧ (seS f a b).pins.perstN = true ∧ (seS f a b).sec.busy = none ∧ (seS f a b).sec.stage = 0 ∧
      (seS f a b).sec.boot.fails = f ∧ readRec (seS f a b).sec.primary.ident (seS f a b).sec.recovery.ident = some Ident.reset) ∧
    (∀ k ∈ [1, 2, 3], (seS 0 (some Comp.reset) none).sec.primary.comp k = some Comp.reset ∧ Comp.reset.good = true ∧ floorOf (seS 0 (some Comp.reset) none).sec.floor k ≤ Comp.reset.svn) ∧
    (seS 0 none (some Comp.reset)).sec.primary.comp 1 = none ∧
    (∀ k ∈ [1, 2, 3], (seS 0 none (some Comp.reset)).sec.recovery.comp k = some Comp.reset ∧ floorOf (seS 0 none (some Comp.reset)).sec.floor k ≤ Comp.reset.svn) ∧
    (seS 2 none none).sec.recovery.comp 1 = none ∧ 3 < base.sec.stage := by
  refine ⟨rfl, by decide, by decide, rfl, fun f a b => ⟨rfl, rfl, rfl, rfl, rfl, rfl⟩, by decide, rfl, by decide, rfl, by decide⟩

/-- A staged header of a FLIGHT component with no payload, and the four profile records of 144 bytes in HBM at address 0, built in. -/
def stHdr : List (Nat × Byte) := win [(0, leBytes 4 0x57465A56), (4, [1])]

def profMem : List (Nat × Byte) := (List.range 4).flatMap fun i => [(144 * i, BitVec.ofNat 8 i), (144 * i + 4, 0x20), (144 * i + 5, 0x4E), (144 * i + 8, 30), (144 * i + 9, 10)]

theorem witness_FlashUpdates : base.glbUp = true ∧ base.sec.busy = none ∧ ({ base.sec with lockUpd := true, lockProf := true } : Sec).lockUpd = true ∧ base.barUp = true ∧ base.minimal = false ∧
    mini.minimal = true ∧ mini.sec.lockUpd = false ∧ badHeader ((List.range 0x800).map fun i => mapGetD mini.sec.staging i 0) = true ∧
    badHeader ((List.range 0x800).map fun i => mapGetD stHdr i 0) = false ∧
    (∀ dev, ∀ k ∈ [1, 2, 3], ({ base.sec with busy := some (.comp dev k Comp.reset) } : Sec).busy = some (.comp dev k Comp.reset)) := by
  refine ⟨rfl, rfl, rfl, rfl, rfl, rfl, rfl, ?_, ?_, fun _ _ _ => rfl⟩ <;> decide +kernel

/-- A profile record as built in, that asks for no signature. -/
def profRec (i : Nat) : List Byte := [BitVec.ofNat 8 i, 0, 0, 0, 0x20, 0x4E, 0, 0, 30, 10] ++ List.replicate 134 0

theorem profRec_ok : ∀ i, i < 4 → profileOf (profRec i) i = (List.replicate 4 (⟨false, 20000, 30, 10, List.replicate 96 0, 0⟩ : Profile))[i]? := by
  decide +kernel

theorem profMem_bytes : ({ mem := profMem } : Pgm).bytes 0 576 = profRec 0 ++ (profRec 1 ++ (profRec 2 ++ (profRec 3 ++ []))) := by decide +kernel

theorem sliceBytes_here (a b : List Byte) : sliceBytes (a ++ b) 0 a.length = a := by
  refine List.ext_getElem (by simp [sliceBytes]) fun i h1 h2 => ?_
  simp [sliceBytes, List.getD_eq_getElem?_getD, List.getElem?_append_left h2, List.getElem?_eq_getElem h2]

theorem sliceBytes_after (a b : List Byte) (o n : Nat) : sliceBytes (a ++ b) (a.length + o) n = sliceBytes b o n := by
  refine List.map_congr_left fun i _ => ?_
  rw [List.getD_eq_getElem?_getD, List.getElem?_append_right (by omega), List.getD_eq_getElem?_getD]
  congr 2; omega

theorem witness_FlashUpdates_profiles : let s : State := { base with pgm := { mem := profMem } }
    s.sec.lockProf = false ∧ inTiers s.sec.addr = true ∧ inTiers (s.sec.addr + 575) = true ∧ (∃ u, s.readMem s.sec.addr 576 = (s.pgm.bytes 0 576, [], u)) ∧
    (∀ i, i < 4 → profileOf (sliceBytes (s.pgm.bytes 0 576) (144 * i) 144) i = (List.replicate 4 (⟨false, 20000, 30, 10, List.replicate 96 0, 0⟩ : Profile))[i]?) := by
  refine ⟨rfl, by decide, by decide, ⟨_, readMem_clean _ _ _ rfl rfl rfl rfl rfl⟩, fun i hi => ?_⟩
  rw [← profRec_ok i hi]
  show profileOf (sliceBytes (({ mem := profMem } : Pgm).bytes 0 576) (144 * i) 144) i = _
  rw [profMem_bytes]
  have h : ∀ k b, sliceBytes (profRec k ++ b) 0 144 = profRec k := fun k b => sliceBytes_here (profRec k) b
  have g : ∀ k b o, sliceBytes (profRec k ++ b) (144 + o) 144 = sliceBytes b o 144 := fun k b o => sliceBytes_after (profRec k) b o 144
  match i, hi with
  | 0, _ => rw [h]
  | 1, _ => rw [show 144 * 1 = 144 + 0 from rfl, g, h]
  | 2, _ => rw [show 144 * 2 = 144 + (144 + 0) from rfl, g, g, h]
  | 3, _ => rw [show 144 * 3 = 144 + (144 + (144 + 0)) from rfl, g, g, g, h]

/-- A request of version 1.4 that offers the algorithms, for measurement 31. -/
def spd (p1 p2 : BitVec 8) : SpdmF := ⟨0x14, p1, p2, 0, 1024, 0, 2, 16⟩

theorem witness_Attestation : base.pins.pwrGood = true ∧ base.glbUp = true ∧ (spd 0 0).version = 0x14 ∧ ({ spd 0 0 with version := 0x10 } : SpdmF).version = 0x10 ∧
    (spd 0 0).asym.getLsbD 1 = true ∧ (spd 0 0).hash.getLsbD 4 = true ∧
    (let x : Sec := { base.sec with spdmVer := true, spdmCap := true, spdmAlg := true, ident := some { Ident.reset with cert := [0x30] } }
     x.spdmVer = true ∧ x.spdmCap = true ∧ x.spdmAlg = true ∧ ((x.ident).map (·.cert)).getD [] ≠ [] ∧ (spd 0 0).off.toNat < (((x.ident).map (·.cert)).getD []).length ∧
     base.sec.spdmVer = false ∧ base.sec.spdmAlg = false) ∧
    (spd 0 0).p1.toNat % 16 = 0 ∧ (spd 0 0).p1 = 0 ∧ (spd 1 31).p1.getLsbD 0 = true ∧ (spd 1 31).p2.toNat ∈ measureIdx ∧ (spd 0 31).p1.getLsbD 0 = false ∧ (spd 0 0).p2 = 0 ∧
    (1 ≤ (15 : BitVec 16).toNat ∧ (15 : BitVec 16).toNat ≤ 15 ∧ 15 < (16 : BitVec 16).toNat) ∧ mini.minimal = true ∧ mini.glbUp = true := by decide

/-- A step on memory that holds a byte at its first and its last address. -/
theorem witness_MemoryStaysCanonical : let s : State := { base with pgm := { mem := [(0, 1), (hbmEnd - 1, 2)] }, pending := [.bdpAddrWrite 0] }
    memWf s.pgm.mem = true ∧ memWf s.hst.mem = true ∧ ∃ t, step s = .next t := ⟨by decide, by decide, _, rfl⟩

/-- Instructions of each slot that encode, with fields at their largest. -/
theorem witness_SlotDecodeEncode : (encodeC (.add 3 ⟨31, 31, 31, 7, 0⟩)).isSome = true ∧ (encodeC (.brb 3 ⟨1, 1, 7, 8191, 0, 65535, 0, 8191⟩)).isSome = true ∧
    (encodeM (.mseed 3 ⟨16383, 0⟩)).isSome = true ∧ (encodeV (.vadd 3 vaddGood)).isSome = true ∧ (encodeD (.dcopy 3 ⟨3, 1, 16383, 16383, 16383, 1, 31, 0⟩)).isSome = true ∧
    (encodeS (.wait 3 ⟨31, 7, 0, 27, 32767⟩)).isSome = true := by decide

end Sys2Proof.Tests
end

section
/-! SUPPORT. STEPEND and HALT (R154, R160): the frames that bar them, the checks of their issue, and their effects. -/
namespace Sys2Proof.Stated
open Sys2Proof.Machine

/-! ### Frames that bar an anchor, STEPEND or HALT (R164, R165) -/

/-- Inside a running arm the BRB's frame is the bar. -/
theorem frameBar_brb {kt : Kite} {a t0 len e j : Nat} {rest : List Frame} (h : kt.frames = .brb a t0 len e j :: rest)
    (ha : a ≠ kt.ipc) : frameBar kt = some .brbAnchor := by
  simp [frameBar, h, ha]

/-- Inside the body of a loop with a register count the loop's frame is the bar. -/
theorem frameBar_loop {kt : Kite} {start last left pad : Nat} {e : Option Nat} {rest : List Frame}
    (h : kt.frames = .loop start last left pad true e :: rest) (hs : start ≠ kt.ipc + 1) : frameBar kt = some .loopAnchor := by
  simp [frameBar, h, hs]

/-- Nothing bars exactly where every BRB, and every LOOP of a register count, is of the bundle that issues. -/
theorem frameBar_eq_none_iff (kt : Kite) : frameBar kt = none ↔
    ∀ x ∈ kt.frames, (∀ a t0 len e j, x = .brb a t0 len e j → a = kt.ipc) ∧
      ∀ start last left pad e, x = .loop start last left pad true e → start = kt.ipc + 1 := by
  unfold frameBar
  split
  next a t0 len e j hfind =>
    have ha : a ≠ kt.ipc := by simpa using List.find?_some hfind
    exact iff_of_false nofun fun hall => ha ((hall _ (List.mem_of_find?_eq_some hfind)).1 a t0 len e j rfl)
  next start last left pad reg e hfind =>
    obtain ⟨rfl, hs⟩ : reg = true ∧ start ≠ kt.ipc + 1 := by simpa using List.find?_some hfind
    exact iff_of_false nofun fun hall => hs ((hall _ (List.mem_of_find?_eq_some hfind)).2 start last left pad e rfl)
  next hfind =>
    refine iff_of_true rfl fun x hx => ⟨?_, ?_⟩
    · rintro a t0 len e j rfl
      simpa using List.find?_eq_none.1 hfind _ hx
    · rintro start last left pad e rfl
      simpa using List.find?_eq_none.1 hfind _ hx

/-! ### Exceptions found at issue (R175) -/

/-- An instruction that issues with an exception stops its keel by it, and has no other effect. -/
theorem raises_of_issue {i : Instr} {k : Fin 256} {slot : Nat} {e : Exc} {eff : State → State} {s : State} (h : issuing s k)
    (hi : exec i s = .next (s.issue k slot (some e) eff)) : raises i k slot e.code s :=
  ⟨_, hi.trans (congrArg _ (State.issue_some h)), slotStopped_put s k _⟩

/-! ### The checks of STEPEND and HALT -/

theorem chkHalt_eq_frameBar (kt : Kite) {f : CZ} (hf : f.rsv = 0) : chkHalt kt f = frameBar kt := by
  simp [chkHalt, illegalIf, orExc, hf]

theorem chkStepend_of_bar {kt : Kite} {f : CZ} {e : Exc} (hf : f.rsv = 0) (hb : frameBar kt = some e) :
    chkStepend kt f = some e := by
  simp [chkStepend, illegalIf, orExc, hf, hb]

theorem chkStepend_of_noBar {kt : Kite} {f : CZ} (hf : f.rsv = 0) (hb : frameBar kt = none) :
    chkStepend kt f = if kt.stepDone then some .stependTwice else none := by
  simp [chkStepend, illegalIf, orExc, hf, hb]

/-! ### What an issuing STEPEND or HALT does -/

section
variable {k : Fin 256} {f : CZ} {s : State} (h : issuing s k) (hf : f.rsv = 0)
include h hf

/-- A frame that bars stops STEPEND and HALT alike. -/
theorem stepend_halt_raise_of_bar {e : Exc} (hb : frameBar (s.kite k) = some e) :
    raises (.stepend k f) k 0 e.code s ∧ raises (.halt k f) k 0 e.code s :=
  ⟨raises_of_issue h (by rw [exec_stepend, execStepend, chkStepend_of_bar hf hb]),
   raises_of_issue h (by rw [exec_halt, execHalt, execSlot, chkHalt_eq_frameBar _ hf, hb])⟩

theorem exec_stepend_first (hb : frameBar (s.kite k) = none) (hd : (s.kite k).stepDone = false) :
    exec (.stepend k f) s = .next (s.setKite k (effStepend s.cyc (s.kite k))) := by
  rw [exec_stepend, execStepend, chkStepend_of_noBar hf hb, hd, if_neg Bool.false_ne_true, State.issue_none h,
    State.putKite_quiet s k (effStepend s.cyc (s.kite k)) (issuing_stopped h) rfl]

theorem stepend_raises_twice (hb : frameBar (s.kite k) = none) (hd : (s.kite k).stepDone = true) :
    raises (.stepend k f) k 0 Exc.stependTwice.code s :=
  raises_of_issue h (by rw [exec_stepend, execStepend, chkStepend_of_noBar hf hb, if_pos hd])

theorem exec_halt_of_noBar (hb : frameBar (s.kite k) = none) :
    exec (.halt k f) s = .next (s.setKite k { s.kite k with haltEnd := true }) := by
  rw [exec_halt, execHalt, execSlot_issuing h (by rw [chkHalt_eq_frameBar _ hf, hb]),
    State.putKite_quiet s k { s.kite k with haltEnd := true } (issuing_stopped h) rfl]

end

/-- Settles O9: where no frame bars them each has its one effect, and an innermost frame that bars stops the keel. -/
theorem stependAndHalt : Obligations.StependAndHalt := by
  unfold Obligations.StependAndHalt
  intro k f s h hf kt
  refine ⟨fun hb => ⟨exec_stepend_first h hf hb, stepend_raises_twice h hf hb, exec_halt_of_noBar h hf hb⟩, ?_, ?_,
    frameBar_eq_none_iff kt⟩
  · intro a t0 len e j rest hfr ha
    exact stepend_halt_raise_of_bar h hf (frameBar_brb hfr ha)
  · intro start last left pad e rest hfr hs
    exact stepend_halt_raise_of_bar h hf (frameBar_loop hfr hs)

end Sys2Proof.Stated
end

section
/-! SUPPORT. CMP and CMPI (R183): the relations of Table 9.3, and the register write that a C-slot result leaves. -/
namespace Sys2Proof.Stated
open Sys2Proof.Machine

/-! ### The relations of Table 9.3 -/

/-- Two values of which one is NaN are neither in order nor equal. -/
theorem unordered_of_nan {x y : Val} (h : x = .nan ∨ y = .nan) : x.lt y = false ∧ x.eqv y = false := by
  obtain rfl | rfl := h
  · exact ⟨rfl, rfl⟩
  · cases x <;> exact ⟨rfl, rfl⟩

section
variable {c : BitVec 3} {a b : Word}

theorem condHolds_eq (h : c = 0) : condHolds c a b ↔ a = b := h ▸ beq_iff_eq
theorem condHolds_ne (h : c = 1) : condHolds c a b ↔ a ≠ b := h ▸ bne_iff_ne
theorem condHolds_slt (h : c = 2) : condHolds c a b ↔ a.toInt < b.toInt := h ▸ BitVec.slt_iff_toInt_lt
theorem condHolds_sle (h : c = 3) : condHolds c a b ↔ a.toInt ≤ b.toInt := h ▸ BitVec.sle_iff_toInt_le
theorem condHolds_ult (h : c = 4) : condHolds c a b ↔ a.toNat < b.toNat := h ▸ decide_eq_true_iff
theorem condHolds_ule (h : c = 5) : condHolds c a b ↔ a.toNat ≤ b.toNat := h ▸ decide_eq_true_iff

theorem condHolds_fpLt (h : c = 6) :
    condHolds c a b ↔ (fp32 (a.toNat % 2 ^ 32)).lt (fp32 (b.toNat % 2 ^ 32)) := h ▸ Iff.rfl

theorem condHolds_fpLe (h : c = 7) : condHolds c a b ↔
    (fp32 (a.toNat % 2 ^ 32)).lt (fp32 (b.toNat % 2 ^ 32)) ∨ (fp32 (a.toNat % 2 ^ 32)).eqv (fp32 (b.toNat % 2 ^ 32)) :=
  h ▸ Bool.or_eq_true_iff

end

/-- COND 6 and 7 are the values a 3-bit field has from 6 on. -/
theorem six_le_cond {c : BitVec 3} : 6 ≤ c.toNat ↔ c = 6 ∨ c = 7 := by
  revert c
  decide

/-- An FP32 relation is false where either side is NaN. -/
theorem condHolds_of_nan {c : BitVec 3} {a b : Word} (hc : 6 ≤ c.toNat)
    (h : fp32 (a.toNat % 2 ^ 32) = .nan ∨ fp32 (b.toNat % 2 ^ 32) = .nan) : condHolds c a b = false := by
  obtain ⟨hlt, heqv⟩ := unordered_of_nan h
  refine Bool.eq_false_iff.2 fun hv => ?_
  obtain hc | hc := six_le_cond.1 hc
  · exact Bool.eq_false_iff.1 hlt ((condHolds_fpLt hc).1 hv)
  · exact ((condHolds_fpLe hc).1 hv).elim (Bool.eq_false_iff.1 hlt) (Bool.eq_false_iff.1 heqv)

/-- The signed value of CMPI's immediate is that of its sign extension. -/
theorem signExtend_imm15_toInt (i : BitVec 15) : (i.signExtend 64).toInt = i.toInt :=
  BitVec.toInt_signExtend_of_le (by decide)

/-! ### The register write of a C-slot result (R152, R182) -/

/-- A slot instruction of an issuing keel that passes its check, reads registers `rs` and queues `v` for register `r`, leaves that
write alone. -/
theorem writes_of_execSlot {i : Instr} {k : Fin 256} {slot : Nat} {chk : Kite → Option Exc} {eff : Nat → Nat → Kite → Kite}
    {s : State} (rs : List SReg) {r : SReg} {lat : Nat} {v : Word} (h : issuing s k) (hi : exec i s = execSlot k slot chk eff s)
    (hc : chk (s.kite k) = none)
    (he : eff ((s.kite k).t s.cyc) ((s.kite k).tv s.cyc) (s.kite k) =
      ((s.kite k).readHaz k slot rs).result k r ((s.kite k).t s.cyc + lat) v) : writes i k r lat v s :=
  ⟨_, hi.trans (execSlot_issuing h hc), slotDone_put s k _ _
    (he ▸ Kite.result_step (Kite.readHaz_step _ k slot rs) k r _ v) rfl rfl (issuing_stopped h)⟩

section
variable {k : Fin 256} {s : State} (h : issuing s k)
include h

theorem cmp_writes {f : CC} (hf : f.rsv = 0) :
    writes (.cmp k f) k (.f f.fd.toNat) 1 (flagWord (condHolds f.cond ((s.kite k).s f.sa) ((s.kite k).s f.sb))) s :=
  writes_of_execSlot [.s f.sa.toNat, .s f.sb.toNat] h (exec_cmp k f s) (by simp [illegalIf, hf]) rfl

theorem cmpi_writes {f : CCI} (hf : f.cond.toNat < 6) :
    writes (.cmpi k f) k (.f f.fd.toNat) 1 (flagWord (condHolds f.cond ((s.kite k).s f.sa) (f.imm.signExtend 64))) s := by
  have hc : ¬ (f.cond = 6 ∨ f.cond = 7) := mt six_le_cond.2 hf.not_ge
  exact writes_of_execSlot [.s f.sa.toNat] h (exec_cmpi k f s) (by simpa [illegalIf] using hc) rfl

theorem cmpi_raises {f : CCI} (hf : 6 ≤ f.cond.toNat) : raises (.cmpi k f) k 0 Exc.illegal.code s := by
  have hc : illegalIf (f.cond == 6 || f.cond == 7) = some .illegal := by
    obtain hf | hf := six_le_cond.1 hf <;> simp [illegalIf, hf]
  exact raises_of_issue h (by rw [exec_cmpi, execCmpi, execSlot, hc])

end

/-- Settles O4: the flag takes the relation of Table 9.3, whose cases are stated one by one, and CMPI's check refuses 6 and 7. -/
theorem compareWritesFlag : Obligations.CompareWritesFlag := by
  unfold Obligations.CompareWritesFlag
  refine ⟨fun k f s h hf => ⟨condHolds f.cond ((s.kite k).s f.sa) ((s.kite k).s f.sb), cmp_writes h hf, ?_⟩,
    fun k f s h => ⟨cmpi_raises h, fun hc =>
      ⟨condHolds f.cond ((s.kite k).s f.sa) (f.imm.signExtend 64), cmpi_writes h hc, ?_⟩⟩⟩
  · exact ⟨condHolds_eq, condHolds_ne, condHolds_slt, condHolds_sle, condHolds_ult, condHolds_ule, condHolds_fpLt,
      condHolds_fpLe, condHolds_of_nan⟩
  · rw [← signExtend_imm15_toInt]
    exact ⟨condHolds_eq, condHolds_ne, condHolds_slt, condHolds_sle, condHolds_ult, condHolds_ule⟩

end Sys2Proof.Stated
end

section
/-! SUPPORT. Bridles (R218–R220, R443): what an evaluation at a bridle's home does to its count, its waits and the notices, and
what the host's writes queue for it. -/
namespace Sys2Proof.Stated
open Sys2Proof.Machine

/-! ### The count that an evaluation leaves (R219, steps 1 and 2) -/

/-- What an evaluation of bridle `b` in fabric cycle `fab` applies, in the order of arrival. -/
def dueArrivals (s : State) (b fab : Nat) : List BArr :=
  s.brd.arrivals.filter fun a => a.bridle == b && decide (a.fab ≤ fab)

theorem mem_dueArrivals {s : State} {b fab : Nat} {a : BArr} :
    a ∈ dueArrivals s b fab ↔ a ∈ s.brd.arrivals ∧ a.bridle = b ∧ a.fab ≤ fab := by
  simp [dueArrivals]

theorem foldl_add_amt (l : List BArr) (c : Nat) : l.foldl (fun c a => c + a.amt) c = c + (l.map (·.amt)).sum := by
  induction l generalizing c with
  | nil => rfl
  | cons a l ih => simp [ih, Nat.add_assoc]

/-- The count that an evaluation leaves: the last write of COUNT that is due, where there is one, stands first; then every signal
that is due is added, modulo 2³². -/
def countAfter (s : State) (b fab : Nat) : Nat :=
  ((((dueArrivals s b fab).filter (·.count)).getLast?.map (·.amt)).getD (s.bcount b) +
    (((dueArrivals s b fab).filter fun a => !a.count).map (·.amt)).sum) % 2 ^ 32

/-- Whether an evaluation of bridle `b` in fabric cycle `fab` judges a wait. -/
def judgedIn (s : State) (b fab : Nat) (w : BWait) : Bool := w.bridle == b && decide (w.from_ ≤ fab) && !s.waitVoid w

theorem bridleEval_eq (b fab : Nat) (s : State) : bridleEval b fab s = { s with brd := { s.brd with
    arrivals := s.brd.arrivals.filter fun a => !(a.bridle == b && decide (a.fab ≤ fab))
    counts := mapSet s.brd.counts b (countAfter s b fab)
    waits := s.brd.waits.filter fun w => !(judgedIn s b fab w && bridleMet (countAfter s b fab) w.theta)
    notices := s.brd.notices ++ (s.brd.waits.filter fun w => judgedIn s b fab w && bridleMet (countAfter s b fab) w.theta).map
      fun w => ⟨w.kite, b, s.fabCycle fab + 16⟩ } } := by
  simp only [bridleEval, foldl_add_amt]
  rfl

theorem bcount_bridleEval_self (b fab : Nat) (s : State) : (bridleEval b fab s).bcount b = countAfter s b fab := by
  simp only [bridleEval_eq, State.bcount, mapGetD, mapGet_mapSet_self, Option.getD_some]

theorem bcount_bridleEval_ne {b c : Nat} (fab : Nat) (s : State) (h : c ≠ b) :
    (bridleEval b fab s).bcount c = s.bcount c := by
  simp only [bridleEval_eq, State.bcount, mapGetD, mapGet_mapSet_ne _ _ _ _ h]

/-- With no write of COUNT due, the signals are added to the count that stands. -/
theorem bcount_bridleEval_of_signals {b fab : Nat} {s : State} (h : ∀ a ∈ dueArrivals s b fab, a.count = false) :
    (bridleEval b fab s).bcount b = (s.bcount b + ((dueArrivals s b fab).map (·.amt)).sum) % 2 ^ 32 := by
  have hwrites : (dueArrivals s b fab).filter (·.count) = [] :=
    List.filter_eq_nil_iff.2 fun a ha => Bool.eq_false_iff.1 (h a ha)
  have hsignals : ((dueArrivals s b fab).filter fun a => !a.count) = dueArrivals s b fab :=
    List.filter_eq_self.2 fun a ha => by rw [h a ha]; rfl
  rw [bcount_bridleEval_self, countAfter, hwrites, hsignals]
  rfl

/-- A write of COUNT that is due alone becomes the count. -/
theorem bcount_bridleEval_of_write {b fab v : Nat} {s : State} (h : dueArrivals s b fab = [⟨b, fab, v, true⟩]) :
    (bridleEval b fab s).bcount b = v % 2 ^ 32 := by
  rw [bcount_bridleEval_self, countAfter, h]
  rfl

/-! ### Arrivals, waits and notices (R219, step 3, and R220) -/

theorem mem_filter_not {α : Type} {l : List α} {p : α → Bool} {x : α} : (x ∈ l.filter fun y => !p y) ↔ x ∈ l ∧ ¬p x = true := by
  rw [List.mem_filter, Bool.not_eq_true', Bool.not_eq_true]

theorem mem_arrivals_bridleEval {b fab : Nat} {s : State} {a : BArr} :
    a ∈ (bridleEval b fab s).brd.arrivals ↔ a ∈ s.brd.arrivals ∧ ¬(a.bridle = b ∧ a.fab ≤ fab) := by
  simp only [bridleEval_eq, mem_filter_not, Bool.and_eq_true, beq_iff_eq, decide_eq_true_eq]

/-- A wait is met by the count that the same evaluation leaves, so a signal of its last fabric cycle still wins (R221). -/
theorem mem_waits_bridleEval {b fab : Nat} {s : State} {w : BWait} : w ∈ (bridleEval b fab s).brd.waits ↔
    w ∈ s.brd.waits ∧ ¬(judgedIn s b fab w = true ∧ bridleMet ((bridleEval b fab s).bcount b) w.theta = true) := by
  rw [bcount_bridleEval_self]
  simp only [bridleEval_eq, mem_filter_not, Bool.and_eq_true]

theorem notice_of_met {b fab : Nat} {s : State} {w : BWait} (hw : w ∈ s.brd.waits) (hj : judgedIn s b fab w = true)
    (hm : bridleMet ((bridleEval b fab s).bcount b) w.theta = true) :
    ⟨w.kite, b, s.fabCycle fab + 16⟩ ∈ (bridleEval b fab s).brd.notices := by
  rw [bcount_bridleEval_self] at hm
  rw [bridleEval_eq]
  exact List.mem_append_right _ (List.mem_map.2 ⟨w, List.mem_filter.2 ⟨hw, Bool.and_eq_true_iff.2 ⟨hj, hm⟩⟩, rfl⟩)

/-- A wait is judged from its first evaluation on, unless its expiry comes before that. -/
theorem judgedIn_iff {s : State} {b fab : Nat} {w : BWait} : judgedIn s b fab w = true ↔
    w.bridle = b ∧ w.from_ ≤ fab ∧ ∀ e, w.expiry = some e → w.from_ ≤ s.fabBy e := by
  cases h : w.expiry <;> simp [judgedIn, State.waitVoid, State.waitEnd, h, and_assoc]

theorem waitExpired_iff {s : State} {w : BWait} {fab : Nat} :
    s.waitExpired w fab = true ↔ w.from_ ≤ fab ∧ ∃ e, w.expiry = some e ∧ s.fabBy e ≤ fab := by
  cases h : w.expiry <;> simp [State.waitExpired, State.waitEnd, h]

theorem bridleMet_iff {c θ : Nat} : bridleMet c θ = true ↔ (c + 2 ^ 32 - θ % 2 ^ 32) % 2 ^ 32 < 2 ^ 31 := decide_eq_true_iff

theorem mem_waits_waitExpiry {b k fab : Nat} {s : State} {w : BWait} : w ∈ (waitExpiry b k fab s).brd.waits ↔
    w ∈ s.brd.waits ∧ ¬(w.bridle = b ∧ w.kite = k ∧ w.from_ ≤ fab ∧ ∃ e, w.expiry = some e ∧ s.fabBy e ≤ fab) := by
  rw [← waitExpired_iff]
  simp only [waitExpiry, mem_filter_not, Bool.and_eq_true, beq_iff_eq, and_assoc]

/-! ### The host's writes (R443) -/

/-- A fabric cycle is shorter than an arithmetic one, so one has ended by the end of every arithmetic cycle. -/
theorem fabBy_lt_fabAfter (s : State) (cyc : Nat) : s.fabBy cyc < s.fabAfter cyc := by
  have hpos : 0 < s.fabCount (cyc + 1) := by
    unfold State.fabCount State.fabRatio
    split <;> dsimp only <;> omega
  exact Nat.sub_lt hpos Nat.one_pos

section
variable {b : BitVec 16} {v : BitVec 32} {s : State} (hbar : s.barUp = true)
include hbar

theorem exec_brdCountWrite_owned (h : s.bridleOwned b.toNat = true) :
    exec (.brdCountWrite b v) s = .next (s.ignoredReg uKite) := by
  simp [exec_brdCountWrite, execBrdCountWrite, brdCount, hbar, h]

theorem exec_brdCountWrite_free (h : s.bridleOwned b.toNat = false) :
    exec (.brdCountWrite b v) s = .next (s.arrive b.toNat v.toNat true) := by
  simp [exec_brdCountWrite, execBrdCountWrite, brdCount, hbar, h]

theorem exec_brdAdd_nonzero (h : v ≠ 0) : exec (.brdAdd b v) s = .next (s.arrive b.toNat v.toNat false) := by
  have hv : v.toNat ≠ 0 := fun h0 => h (BitVec.eq_of_toNat_eq h0)
  simp [exec_brdAdd, execBrdAdd, brdAddW, hbar, hv]

end

/-! ### An evaluation and an expiry in a fabric cycle that has begun -/

section
variable {b : BitVec 16} {fab : Nat} {s : State} (hfab : fab ≤ s.fabBy s.cyc)
include hfab

theorem exec_bridleEvaluation_due : exec (.bridleEvaluation b fab) s = .next (bridleEval b.toNat fab s) := by
  rw [exec_bridleEvaluation, execBridleEvaluation, if_pos hfab]

theorem exec_waitExpiry_due (k : Fin 256) : exec (.waitExpiry b k fab) s = .next (waitExpiry b.toNat k fab s) := by
  rw [exec_waitExpiry, execWaitExpiry, if_pos hfab]

end

/-- Settles O31: the count, the waits and the notices are read off the rules of the evaluation, the expiry and the writes. -/
theorem bridleCycle : Obligations.BridleCycle := by
  unfold Obligations.BridleCycle
  intro s
  refine ⟨fun b fab hfab => ⟨_, exec_bridleEvaluation_due hfab, rfl, fun _ => mem_arrivals_bridleEval,
      fun _ => bcount_bridleEval_ne fab s, ?signals, ?write, ?waits⟩,
    fun b k fab hfab => ⟨_, exec_waitExpiry_due hfab k, fun _ => mem_waits_waitExpiry⟩,
    fun b v => exec_brdCountWrite_owned,
    fun b v hbar => ⟨s.fabAfter s.cyc, fabBy_lt_fabAfter s s.cyc, exec_brdCountWrite_free hbar, exec_brdAdd_nonzero hbar⟩⟩
  case signals =>
    intro h
    refine bcount_bridleEval_of_signals fun a ha => ?_
    obtain ⟨ha, hb, hf⟩ := mem_dueArrivals.1 ha
    exact h a ha hb hf
  case write =>
    intro v h
    exact bcount_bridleEval_of_write (by simp [dueArrivals, h])
  case waits =>
    intro w hw hb hfrom hexp
    have hj : judgedIn s b.toNat fab w = true := judgedIn_iff.2 ⟨hb, hfrom, hexp⟩
    rw [← bridleMet_iff, ← not_lt, ← bridleMet_iff]
    exact ⟨fun hm => ⟨fun hin => (mem_waits_bridleEval.1 hin).2 ⟨hj, hm⟩, _, notice_of_met hw hj hm, rfl, rfl⟩,
      fun hm => mem_waits_bridleEval.2 ⟨hw, fun h => hm h.2⟩⟩

end Sys2Proof.Stated
end

section
/-! SUPPORT. The timebase and the wake requests (R359, R384, R386, R387, R430): what a measurement, a PPS pulse, the loss of the
source and TB_SET do to the clock, and what runs again, and leaves the crossing, at a wake request. -/
namespace Sys2Proof.Stated
open Sys2Proof.Machine

/-! ### Measurements (R359, R386) -/

/-- The correction of the servo lies within 50 ppm. -/
theorem measure_ppb_bounds (s : State) (o : Int) : -50000 ≤ (s.measure o).pwr.ppb ∧ (s.measure o).pwr.ppb ≤ 50000 := by
  have hlt : Config.freeNat 10 s.free % 100001 < 100001 := Nat.mod_lt _ (by decide)
  simp only [State.measure]
  omega

/-- Whether a PTP exchange is one of the slave clock: of the port, domain and transport that LNK.PTP names, on an UP Ethernet port. -/
def ofSlaveClock (s : State) (p : Nat) (m : PtpF) : Prop :=
  s.lnk.ptpEn = true ∧ s.lnk.ptpPort = p ∧ s.lnk.ptpDomain = m.domain.toNat ∧
    s.lnk.ptpTransport = m.transport.toNat ∧ m.transport ≠ 3 ∧ (s.port p).st = 2 ∧ (s.port p).mode ≠ 0

theorem ptpMessage_measures {s : State} {p : Nat} {m : PtpF} (h : ofSlaveClock s p m) (hsrc : s.pwr.src = 1) :
    ptpMessage p m s = s.measure m.offset :=
  (if_neg (by simpa [ofSlaveClock, and_assoc] using h)).trans (if_pos hsrc)

theorem ptpMessage_ignored {s : State} {p : Nat} {m : PtpF} (h : ¬ofSlaveClock s p m ∨ s.pwr.src ≠ 1) :
    ptpMessage p m s = s := by
  obtain h | hsrc := h
  · exact if_pos (by simpa [ofSlaveClock, not_and_or, or_assoc, -not_and] using h)
  · simp [ptpMessage, hsrc]

/-! ### PPS (R430) -/

/-- The distance from the nearest whole second, with the remainder read as an integer. -/
theorem ppsOffset_eq (tb : Nat) : ppsOffset tb =
    if ((tb % 1000000000 : Nat) : Int) < 500000000 then ((tb % 1000000000 : Nat) : Int)
    else ((tb % 1000000000 : Nat) : Int) - 1000000000 :=
  if_congr (by omega) rfl rfl

theorem pps_discarded {s : State} {w : Nat}
    (h : w < 1000 ∨ ppsOffset s.pwr.tb < -1000000 ∨ 1000000 < ppsOffset s.pwr.tb) : pps w s = s :=
  if_pos (by simpa [or_assoc] using h)

/-- A pulse that is taken is seen, and measures where PPS steers the timebase. -/
theorem pps_taken {s : State} {w : Nat} (hw : 1000 ≤ w) (hlo : -1000000 ≤ ppsOffset s.pwr.tb)
    (hhi : ppsOffset s.pwr.tb ≤ 1000000) : pps w s =
      let t := { s with pins := { s.pins with ppsAt := some s.now } }
      if s.pwr.src = 2 then t.measure (ppsOffset s.pwr.tb) else t :=
  if_neg (by simp [hw, hlo, hhi])

/-! ### Loss of the source, and TB_SET (R386, R387) -/

theorem sourceTimeout_unlocks {s : State} (hl : s.pwr.locked = true) (hsrc : s.pwr.src ≠ 0)
    (ht : s.pwr.measAt + 8000000000 ≤ s.now) : sourceTimeout s =
      ({ s with pwr := { s.pwr with locked := false } }).log ⟨.c, uPwr, evTbUnlocked, 0xFFFF, 0xFFFF, 0⟩ :=
  if_pos (by simp [State.sourceLost, hl, hsrc, ht])

theorem sourceTimeout_ignored {s : State} (h : s.pwr.locked = false ∨ s.now < s.pwr.measAt + 8000000000) :
    sourceTimeout s = s := by
  refine if_neg ?_
  obtain hl | ht := h
  · simp [State.sourceLost, hl]
  · simp [State.sourceLost, ht]

section
variable {s : State} (hbar : s.barUp = true) (v : Nat)
include hbar

theorem tbSet_stopped (hs : s.sch.stopped = true) : tbSet v s = { s with
    pwr := { s.pwr with tb := v, frac := 0 }, sch := { s.sch with round := v / 250000 - 1 } } := by
  simp [tbSet, hbar, hs]

theorem tbSet_running (hs : s.sch.stopped = false) : tbSet v s = s.ignoredReg uPwr := by
  simp [tbSet, hbar, hs]

end

/-! ### Wake requests (R380, R384) -/

/-- The state with a domain running again, before what waited at the crossing leaves. -/
def woken (s : State) (d : Nat) : State :=
  { s with pwr := { s.pwr with stopped := s.pwr.stopped.filter fun x => x != d } }

theorem mem_servingDomains {d : Nat} : d ∈ servingDomains ↔ d < 8 ∨ d = 99 := by simp [servingDomains]

theorem mem_pcieDomains {d : Nat} : d ∈ pcieDomains ↔ d = 93 ∨ d = 94 := by simp [pcieDomains]

theorem hostWaits_iff {s : State} : s.hostWaits = true ↔ 93 ∈ s.pwr.stopped ∨ 94 ∈ s.pwr.stopped := by
  simp only [State.hostWaits, List.any_eq_true, List.contains_iff_mem, mem_pcieDomains]
  constructor
  · rintro ⟨d, hd, rfl | rfl⟩
    · exact .inl hd
    · exact .inr hd
  · rintro (h | h)
    · exact ⟨93, h, .inl rfl⟩
    · exact ⟨94, h, .inr rfl⟩

theorem wakeRequest_serving {s : State} {d : Nat} (h : d < 8 ∨ d = 99) : wakeRequest d s = s :=
  if_pos (List.contains_iff_mem.2 (mem_servingDomains.2 h))

theorem wakeRequest_other {s : State} {d : Nat} (h : ¬(d < 8 ∨ d = 99)) :
    wakeRequest d s = if pcieDomains.contains d then (woken s d).crossAgain else woken s d :=
  if_neg (mt (mem_servingDomains.1 ∘ List.contains_iff_mem.1) h)

theorem wakeRequest_pcie {s : State} {d : Nat} (h : d = 93 ∨ d = 94) : wakeRequest d s = (woken s d).crossAgain := by
  rw [wakeRequest_other (by omega), if_pos (List.contains_iff_mem.2 (mem_pcieDomains.2 h))]

/-- While a PCIe domain stands, nothing leaves the crossing. -/
theorem crossAgain_standing {s : State} (h : s.hostWaits = true) : s.crossAgain = s := if_pos h

theorem crossAgain_empty {s : State} (h : s.hst.waits = []) : s.crossAgain = s := by
  obtain hw | hw := Bool.eq_false_or_eq_true s.hostWaits
  · exact crossAgain_standing hw
  · rw [State.crossAgain, if_neg (Bool.eq_false_iff.1 hw)]
    simp only [h, List.foldl_nil]
    rw [← h]

/-- Once both PCIe domains run, nothing waits, and the clocks and their power are as they were. -/
theorem crossAgain_running {s : State} (h : s.hostWaits = false) :
    s.crossAgain.hst.waits = [] ∧ s.crossAgain.pwr = s.pwr := by
  have hf := State.waits_frame s.hst.waits { s with hst := { s.hst with waits := [] } } h
  have hc : s.crossAgain = _ := (if_neg (Bool.eq_false_iff.1 h)).trans hf
  rw [hc]
  exact ⟨rfl, rfl⟩

/-- Sending again what waited at the crossing leaves the clocks and their power; either nothing waits now, or all still does, for
a PCIe domain that stands. -/
theorem crossAgain_waits (s : State) : s.crossAgain.pwr = s.pwr ∧
    (s.crossAgain.hst.waits = [] ∨ s.crossAgain.hst.waits = s.hst.waits ∧ (93 ∈ s.pwr.stopped ∨ 94 ∈ s.pwr.stopped)) := by
  obtain hw | hw := Bool.eq_false_or_eq_true s.hostWaits
  · rw [crossAgain_standing hw]
    exact ⟨rfl, .inr ⟨rfl, hostWaits_iff.1 hw⟩⟩
  · obtain ⟨hwaits, hpwr⟩ := crossAgain_running hw
    exact ⟨hpwr, .inl hwaits⟩

/-- A domain outside PCIe, or one of PCIe with nothing at the crossing, runs again, and that is all. -/
theorem wakeRequest_wakes {s : State} {d : Nat} (h : ¬(d < 8 ∨ d = 99)) (hp : d ≠ 93 ∧ d ≠ 94 ∨ s.hst.waits = []) :
    wakeRequest d s = woken s d := by
  rw [wakeRequest_other h]
  obtain hp | hwaits := hp
  · rw [if_neg (mt (mem_pcieDomains.1 ∘ List.contains_iff_mem.1) (by omega))]
  · rw [crossAgain_empty (s := woken s d) hwaits, ite_self]

/-- Settles O52: each clause is the rule of its command, and the crossing keeps what waits exactly while a PCIe domain stands. -/
theorem timebase : Obligations.Timebase := by
  unfold Obligations.Timebase
  intro s measured slave past off
  have hoff : ppsOffset s.pwr.tb = off := ppsOffset_eq s.pwr.tb
  refine ⟨?ptp, ?ptpIgnored, ?ppsDiscarded, ?ppsMeasures, ?ppsSeen, ?lost, ?kept, ?set, ?setRefused, ?wake⟩
  case ptp =>
    intro p m h hsrc
    rw [exec_ptpMessage, execPtpMessage, ptpMessage_measures h hsrc]
    exact ⟨_, rfl, ⟨rfl, measure_ppb_bounds s m.offset⟩, rfl⟩
  case ptpIgnored =>
    intro p m h
    rw [exec_ptpMessage, execPtpMessage, ptpMessage_ignored h]
  case ppsDiscarded =>
    intro w h
    rw [exec_pps, execPps, pps_discarded (hoff ▸ h)]
  case ppsMeasures =>
    intro w hw hlo hhi hsrc
    rw [exec_pps, execPps, pps_taken hw (hoff ▸ hlo) (hoff ▸ hhi), hoff]
    exact ⟨_, congrArg _ (if_pos hsrc), ⟨rfl, measure_ppb_bounds _ off⟩, rfl⟩
  case ppsSeen =>
    intro w hw hlo hhi hsrc
    rw [exec_pps, execPps, pps_taken hw (hoff ▸ hlo) (hoff ▸ hhi)]
    exact congrArg _ (if_neg hsrc)
  case lost =>
    intro hl hsrc ht
    rw [exec_timebaseSourceTimeout, execTimebaseSourceTimeout, sourceTimeout_unlocks hl hsrc ht]
  case kept =>
    intro h
    rw [exec_timebaseSourceTimeout, execTimebaseSourceTimeout, sourceTimeout_ignored h]
  case set =>
    intro v hbar hs
    rw [exec_tbSet, execTbSet, tbSet_stopped hbar _ hs]
    exact ⟨_, rfl⟩
  case setRefused =>
    intro v hbar hs
    rw [exec_tbSet, execTbSet, tbSet_running hbar _ hs]
  case wake =>
    refine fun d => ⟨fun h => ?_, fun h8 h99 hp => ?_, fun h => ?_⟩
    · rw [exec_wakeRequest, execWakeRequest, wakeRequest_serving h]
    · rw [exec_wakeRequest, execWakeRequest, wakeRequest_wakes (by omega) hp, woken]
    · rw [exec_wakeRequest, execWakeRequest, wakeRequest_pcie h]
      obtain ⟨hpwr, hwaits⟩ := crossAgain_waits (woken s d)
      exact ⟨_, rfl, hpwr, hpwr ▸ hwaits⟩

end Sys2Proof.Stated
end

section
/-! SUPPORT. Encodings (R177–R179): the fields of a format share a slot without overlap, so every instruction is read back from its
word, and a bundle is cut into its words. -/
namespace Sys2Proof.Stated
open Sys2Proof.Machine

/-! ### Fields in a slot -/

/-- Two neighbouring fields stand together at the place of the lower one. -/
theorem fields_share_place {a b : Nat} (h : b ≤ a) (x y : Nat) : x * 2 ^ a + y * 2 ^ b = (x * 2 ^ (a - b) + y) * 2 ^ b := by
  rw [Nat.add_mul, Nat.mul_assoc, ← Nat.pow_add, Nat.sub_add_cancel h]

theorem slotField_lowest {n : Nat} (x : Nat) (v : BitVec n) : slotField n (x * 2 ^ n + v.toNat) 0 = v := by
  apply BitVec.eq_of_toNat_eq
  simp [slotField, Nat.mod_eq_of_lt v.isLt]

theorem slotField_alone {n : Nat} (v : BitVec n) : slotField n v.toNat 0 = v := by
  simpa using slotField_lowest 0 v

/-- A field above the lowest one is read from what stands above that one. -/
theorem slotField_above {m lo : Nat} (h : m ≤ lo) (n x : Nat) (v : BitVec m) :
    slotField n (x * 2 ^ m + v.toNat) lo = slotField n x (lo - m) := by
  obtain ⟨d, rfl⟩ := Nat.exists_eq_add_of_le h
  rw [slotField, slotField, Nat.pow_add, ← Nat.div_div_eq_div_mul, Nat.mul_comm x, Nat.mul_add_div (Nat.two_pow_pos m),
    Nat.div_eq_of_lt v.isLt, Nat.add_zero, Nat.add_sub_cancel_left]

theorem fields_lt {n b : Nat} (h : n ≤ b) (x : Nat) (v : BitVec n) : x * 2 ^ n + v.toNat < 2 ^ b ↔ x < 2 ^ (b - n) := by
  rw [← Nat.sub_add_cancel h, Nat.pow_add, ← Nat.div_lt_iff_lt_mul (Nat.two_pow_pos n), Nat.mul_comm x,
    Nat.mul_add_div (Nat.two_pow_pos n), Nat.div_eq_of_lt v.isLt, Nat.add_zero, Nat.add_sub_cancel]

/-! ### Formats -/

/-- A format packs its fields into the low bits of a slot: they fit there, and are read back whatever opcode stands above them. -/
@[reducible] def Packs {F : Type} (bits : Nat) (word : F → Nat) (ofWord : Nat → F) : Prop :=
  ∀ f, word f < 2 ^ bits ∧ ∀ op, ofWord (op * 2 ^ bits + word f) = f

@[simp] theorem CR.packs : Packs 26 CR.word CR.ofWord := by
  simp only [Packs, CR.word, CR.ofWord, fields_share_place, fields_lt, slotField_lowest, slotField_above, BitVec.isLt,
    Nat.reduceSub, Nat.reduceLeDiff, ← Nat.add_assoc, implies_true, and_self]

@[simp] theorem CI.packs : Packs 26 CI.word CI.ofWord := by
  simp only [Packs, CI.word, CI.ofWord, fields_share_place, fields_lt, slotField_lowest, slotField_above, BitVec.isLt,
    Nat.reduceSub, Nat.reduceLeDiff, ← Nat.add_assoc, implies_true, and_self]

@[simp] theorem CL.packs : Packs 26 CL.word CL.ofWord := by
  simp only [Packs, CL.word, CL.ofWord, fields_share_place, fields_lt, slotField_lowest, slotField_above, BitVec.isLt,
    Nat.reduceSub, Nat.reduceLeDiff, ← Nat.add_assoc, implies_true, and_self]

@[simp] theorem CH.packs : Packs 26 CH.word CH.ofWord := by
  simp only [Packs, CH.word, CH.ofWord, fields_share_place, fields_lt, slotField_lowest, slotField_above, BitVec.isLt,
    Nat.reduceSub, Nat.reduceLeDiff, ← Nat.add_assoc, implies_true, and_self]

@[simp] theorem CC.packs : Packs 26 CC.word CC.ofWord := by
  simp only [Packs, CC.word, CC.ofWord, fields_share_place, fields_lt, slotField_lowest, slotField_above, BitVec.isLt,
    Nat.reduceSub, Nat.reduceLeDiff, ← Nat.add_assoc, implies_true, and_self]

@[simp] theorem CCI.packs : Packs 26 CCI.word CCI.ofWord := by
  simp only [Packs, CCI.word, CCI.ofWord, fields_share_place, fields_lt, slotField_lowest, slotField_above, BitVec.isLt,
    Nat.reduceSub, Nat.reduceLeDiff, ← Nat.add_assoc, implies_true, and_self]

@[simp] theorem CM.packs : Packs 26 CM.word CM.ofWord := by
  simp only [Packs, CM.word, CM.ofWord, fields_share_place, fields_lt, slotField_lowest, slotField_above, BitVec.isLt,
    Nat.reduceSub, Nat.reduceLeDiff, ← Nat.add_assoc, implies_true, and_self]

@[simp] theorem CS.packs : Packs 26 CS.word CS.ofWord := by
  simp only [Packs, CS.word, CS.ofWord, fields_share_place, fields_lt, slotField_lowest, slotField_above, BitVec.isLt,
    Nat.reduceSub, Nat.reduceLeDiff, ← Nat.add_assoc, implies_true, and_self]

@[simp] theorem CZ.packs : Packs 26 CZ.word CZ.ofWord :=
  fun f => ⟨f.rsv.isLt, fun op => congrArg CZ.mk (slotField_lowest op f.rsv)⟩

@[simp] theorem MSetF.packs : Packs 58 MSetF.word MSetF.ofWord := by
  simp only [Packs, MSetF.word, MSetF.ofWord, fields_share_place, fields_lt, slotField_lowest, slotField_above, BitVec.isLt,
    Nat.reduceSub, Nat.reduceLeDiff, ← Nat.add_assoc, implies_true, and_self]

@[simp] theorem MFeedF.packs : Packs 58 MFeedF.word MFeedF.ofWord := by
  simp only [Packs, MFeedF.word, MFeedF.ofWord, fields_share_place, fields_lt, slotField_lowest, slotField_above, BitVec.isLt,
    Nat.reduceSub, Nat.reduceLeDiff, ← Nat.add_assoc, implies_true, and_self]

@[simp] theorem MSwapF.packs : Packs 58 MSwapF.word MSwapF.ofWord :=
  fun f => ⟨f.rsv.isLt, fun op => congrArg MSwapF.mk (slotField_lowest op f.rsv)⟩

@[simp] theorem MSeedF.packs : Packs 58 MSeedF.word MSeedF.ofWord := by
  simp only [Packs, MSeedF.word, MSeedF.ofWord, fields_share_place, fields_lt, slotField_lowest, slotField_above, BitVec.isLt,
    Nat.reduceSub, Nat.reduceLeDiff, ← Nat.add_assoc, implies_true, and_self]

@[simp] theorem MZeroF.packs : Packs 58 MZeroF.word MZeroF.ofWord := by
  simp only [Packs, MZeroF.word, MZeroF.ofWord, fields_share_place, fields_lt, slotField_lowest, slotField_above, BitVec.isLt,
    Nat.reduceSub, Nat.reduceLeDiff, ← Nat.add_assoc, implies_true, and_self]

@[simp] theorem VA.packs : Packs 58 VA.word VA.ofWord := by
  simp only [Packs, VA.word, VA.ofWord, fields_share_place, fields_lt, slotField_lowest, slotField_above, BitVec.isLt,
    Nat.reduceSub, Nat.reduceLeDiff, ← Nat.add_assoc, implies_true, and_self]

@[simp] theorem VK.packs : Packs 58 VK.word VK.ofWord := by
  simp only [Packs, VK.word, VK.ofWord, fields_share_place, fields_lt, slotField_lowest, slotField_above, BitVec.isLt,
    Nat.reduceSub, Nat.reduceLeDiff, ← Nat.add_assoc, implies_true, and_self]

@[simp] theorem VF.packs : Packs 58 VF.word VF.ofWord := by
  simp only [Packs, VF.word, VF.ofWord, fields_share_place, fields_lt, slotField_lowest, slotField_above, BitVec.isLt,
    Nat.reduceSub, Nat.reduceLeDiff, ← Nat.add_assoc, implies_true, and_self]

@[simp] theorem VH.packs : Packs 58 VH.word VH.ofWord := by
  simp only [Packs, VH.word, VH.ofWord, fields_share_place, fields_lt, slotField_lowest, slotField_above, BitVec.isLt,
    Nat.reduceSub, Nat.reduceLeDiff, ← Nat.add_assoc, implies_true, and_self]

@[simp] theorem VT.packs : Packs 58 VT.word VT.ofWord := by
  simp only [Packs, VT.word, VT.ofWord, fields_share_place, fields_lt, slotField_lowest, slotField_above, BitVec.isLt,
    Nat.reduceSub, Nat.reduceLeDiff, ← Nat.add_assoc, implies_true, and_self]

@[simp] theorem VQ.packs : Packs 58 VQ.word VQ.ofWord := by
  simp only [Packs, VQ.word, VQ.ofWord, fields_share_place, fields_lt, slotField_lowest, slotField_above, BitVec.isLt,
    Nat.reduceSub, Nat.reduceLeDiff, ← Nat.add_assoc, implies_true, and_self]

@[simp] theorem VU.packs : Packs 58 VU.word VU.ofWord := by
  simp only [Packs, VU.word, VU.ofWord, fields_share_place, fields_lt, slotField_lowest, slotField_above, BitVec.isLt,
    Nat.reduceSub, Nat.reduceLeDiff, ← Nat.add_assoc, implies_true, and_self]

@[simp] theorem VM.packs : Packs 58 VM.word VM.ofWord := by
  simp only [Packs, VM.word, VM.ofWord, fields_share_place, fields_lt, slotField_lowest, slotField_above, BitVec.isLt,
    Nat.reduceSub, Nat.reduceLeDiff, ← Nat.add_assoc, implies_true, and_self]

@[simp] theorem VX.packs : Packs 58 VX.word VX.ofWord := by
  simp only [Packs, VX.word, VX.ofWord, fields_share_place, fields_lt, slotField_lowest, slotField_above, BitVec.isLt,
    Nat.reduceSub, Nat.reduceLeDiff, ← Nat.add_assoc, implies_true, and_self]

@[simp] theorem DM.packs : Packs 58 DM.word DM.ofWord := by
  simp only [Packs, DM.word, DM.ofWord, fields_share_place, fields_lt, slotField_lowest, slotField_above, BitVec.isLt,
    Nat.reduceSub, Nat.reduceLeDiff, ← Nat.add_assoc, implies_true, and_self]

@[simp] theorem DS.packs : Packs 58 DS.word DS.ofWord := by
  simp only [Packs, DS.word, DS.ofWord, fields_share_place, fields_lt, slotField_lowest, slotField_above, BitVec.isLt,
    Nat.reduceSub, Nat.reduceLeDiff, ← Nat.add_assoc, implies_true, and_self]

@[simp] theorem DX.packs : Packs 58 DX.word DX.ofWord := by
  simp only [Packs, DX.word, DX.ofWord, fields_share_place, fields_lt, slotField_lowest, slotField_above, BitVec.isLt,
    Nat.reduceSub, Nat.reduceLeDiff, ← Nat.add_assoc, implies_true, and_self]

@[simp] theorem DF.packs : Packs 58 DF.word DF.ofWord := by
  simp only [Packs, DF.word, DF.ofWord, fields_share_place, fields_lt, slotField_lowest, slotField_above, BitVec.isLt,
    Nat.reduceSub, Nat.reduceLeDiff, ← Nat.add_assoc, implies_true, and_self]

@[simp] theorem DC.packs : Packs 58 DC.word DC.ofWord := by
  simp only [Packs, DC.word, DC.ofWord, fields_share_place, fields_lt, slotField_lowest, slotField_above, BitVec.isLt,
    Nat.reduceSub, Nat.reduceLeDiff, ← Nat.add_assoc, implies_true, and_self]

@[simp] theorem SSig.packs : Packs 29 SSig.word SSig.ofWord := by
  simp only [Packs, SSig.word, SSig.ofWord, fields_share_place, fields_lt, slotField_lowest, slotField_above, BitVec.isLt,
    Nat.reduceSub, Nat.reduceLeDiff, ← Nat.add_assoc, implies_true, and_self]

@[simp] theorem SWait.packs : Packs 29 SWait.word SWait.ofWord := by
  simp only [Packs, SWait.word, SWait.ofWord, fields_share_place, fields_lt, slotField_lowest, slotField_above, BitVec.isLt,
    Nat.reduceSub, Nat.reduceLeDiff, ← Nat.add_assoc, implies_true, and_self]

@[simp] theorem SWaitr.packs : Packs 29 SWaitr.word SWaitr.ofWord := by
  simp only [Packs, SWaitr.word, SWaitr.ofWord, fields_share_place, fields_lt, slotField_lowest, slotField_above, BitVec.isLt,
    Nat.reduceSub, Nat.reduceLeDiff, ← Nat.add_assoc, implies_true, and_self]

@[simp] theorem SZ.packs : Packs 29 SZ.word SZ.ofWord :=
  fun f => ⟨f.rsv.isLt, fun op => congrArg SZ.mk (slotField_lowest op f.rsv)⟩

/-- CB and CP have fields in the extension word too. -/
@[simp] theorem CB.packs (f : CB) : f.word < 2 ^ 26 ∧ f.xword < 2 ^ 32 ∧ ∀ op, CB.ofWord (op * 2 ^ 26 + f.word) f.xword = f := by
  simp only [CB.word, CB.xword, CB.ofWord, fields_share_place, fields_lt, slotField_lowest, slotField_above, slotField_alone, BitVec.isLt,
    Nat.reduceSub, Nat.reduceLeDiff, ← Nat.add_assoc, implies_true, and_self]

@[simp] theorem CP.packs (f : CP) : f.word < 2 ^ 26 ∧ f.xword < 2 ^ 32 ∧ ∀ op, CP.ofWord (op * 2 ^ 26 + f.word) f.xword = f := by
  simp only [CP.word, CP.xword, CP.ofWord, fields_share_place, fields_lt, slotField_lowest, slotField_above, slotField_alone, BitVec.isLt,
    Nat.reduceSub, Nat.reduceLeDiff, ← Nat.add_assoc, implies_true, and_self]

/-! ### Opcodes above the fields -/

section
variable {n bits op low : Nat} (hlow : low < 2 ^ bits)
include hlow

theorem opcode_above (hop : op < 2 ^ n) : (op * 2 ^ bits + low) / 2 ^ bits % 2 ^ n = op := by
  rw [Nat.mul_comm, Nat.mul_add_div (Nat.two_pow_pos bits), Nat.div_eq_of_lt hlow, Nat.add_zero, Nat.mod_eq_of_lt hop]

/-- The opcodes of the C, M, V and D slots have six bits. -/
theorem opcode_of_six_bits (hop : op < 64) : (op * 2 ^ bits + low) / 2 ^ bits % 2 ^ 6 = op := opcode_above hlow hop

/-- The opcodes of the S slot have three bits. -/
theorem opcode_of_three_bits (hop : op < 8) : (op * 2 ^ bits + low) / 2 ^ bits % 2 ^ 3 = op := opcode_above hlow hop

theorem slot_lt (hop : op < 2 ^ n) : op * 2 ^ bits + low < 2 ^ (n + bits) := by
  rw [Nat.pow_add]
  calc op * 2 ^ bits + low < op * 2 ^ bits + 2 ^ bits := Nat.add_lt_add_left hlow _
    _ = (op + 1) * 2 ^ bits := (Nat.succ_mul op _).symm
    _ ≤ 2 ^ n * 2 ^ bits := Nat.mul_le_mul_right _ hop


end

/-! ### Slots -/

theorem decodeC_encodeC {i : Instr} {w : Nat} (h : encodeC i = some w) :
    w < 2 ^ 32 ∧ encodeX i < 2 ^ 32 ∧ ∃ k, decodeC k w (encodeX i) = .ins i := by
  cases i <;> cases h
  all_goals
    rename_i k f
    refine ⟨slot_lt (n := 6) (by simp [-Nat.reducePow]) (by decide), by simp [encodeX, -Nat.reducePow], k, ?_⟩
    simp [decodeC, encodeX, opcode_of_six_bits, -Nat.reducePow, -Nat.reduceMul, -one_mul, -Nat.one_mul]

theorem decodeM_encodeM {i : Instr} {w : Nat} (h : encodeM i = some w) : w < 2 ^ 64 ∧ ∃ k, decodeM k w = .ins i := by
  cases i <;> cases h
  all_goals
    rename_i k f
    refine ⟨slot_lt (n := 6) (by simp [-Nat.reducePow]) (by decide), k, ?_⟩
    simp [decodeM, opcode_of_six_bits, -Nat.reducePow, -Nat.reduceMul, -one_mul, -Nat.one_mul]

theorem decodeV_encodeV {i : Instr} {w : Nat} (h : encodeV i = some w) : w < 2 ^ 64 ∧ ∃ k, decodeV k w = .ins i := by
  cases i <;> cases h
  all_goals
    rename_i k f
    refine ⟨slot_lt (n := 6) (by simp [-Nat.reducePow]) (by decide), k, ?_⟩
    simp [decodeV, opcode_of_six_bits, -Nat.reducePow, -Nat.reduceMul, -one_mul, -Nat.one_mul]

theorem decodeD_encodeD {i : Instr} {w : Nat} (h : encodeD i = some w) : w < 2 ^ 64 ∧ ∃ k, decodeD k w = .ins i := by
  cases i <;> cases h
  all_goals
    rename_i k f
    refine ⟨slot_lt (n := 6) (by simp [-Nat.reducePow]) (by decide), k, ?_⟩
    simp [decodeD, opcode_of_six_bits, -Nat.reducePow, -Nat.reduceMul, -one_mul, -Nat.one_mul]

theorem decodeS_encodeS {i : Instr} {w : Nat} (h : encodeS i = some w) : w < 2 ^ 32 ∧ ∃ k, decodeS k w = .ins i := by
  cases i <;> cases h
  all_goals
    rename_i k f
    refine ⟨slot_lt (n := 3) (by simp [-Nat.reducePow]) (by decide), k, ?_⟩
    simp [decodeS, opcode_of_three_bits, -Nat.reducePow, -Nat.reduceMul, -one_mul, -Nat.one_mul]

/-- Settles O60: each slot's instructions are read back opcode by opcode, and a bundle's words stand at their places. -/
theorem slotDecodeEncode : Obligations.SlotDecodeEncode := by
  unfold Obligations.SlotDecodeEncode
  refine ⟨fun _ _ => decodeC_encodeC, fun _ _ => decodeM_encodeM, fun _ _ => decodeV_encodeV, fun _ _ => decodeD_encodeD,
    fun _ _ => decodeS_encodeS, fun k c m v d s hc hm hv hd hs => ?_⟩
  have hS : (c * 2 ^ 224 + m * 2 ^ 160 + v * 2 ^ 96 + d * 2 ^ 32 + s) % 2 ^ 32 = s := by omega
  have hD : (c * 2 ^ 224 + m * 2 ^ 160 + v * 2 ^ 96 + d * 2 ^ 32 + s) / 2 ^ 32 % 2 ^ 64 = d := by omega
  have hV : (c * 2 ^ 224 + m * 2 ^ 160 + v * 2 ^ 96 + d * 2 ^ 32 + s) / 2 ^ 96 % 2 ^ 64 = v := by omega
  have hM : (c * 2 ^ 224 + m * 2 ^ 160 + v * 2 ^ 96 + d * 2 ^ 32 + s) / 2 ^ 160 % 2 ^ 64 = m := by omega
  have hC : (c * 2 ^ 224 + m * 2 ^ 160 + v * 2 ^ 96 + d * 2 ^ 32 + s) / 2 ^ 224 % 2 ^ 32 = c := by omega
  simp only [decodeBundle, hS, hD, hV, hM, hC, Bool.or_eq_true, decide_eq_true_eq]

end Sys2Proof.Stated
end

section
/-! SUPPORT. How a slot instruction issues (R150–R152, R174, R175): an effect over the hazard checker's record, and the checks that
stop the keel, for every slot. -/
namespace Sys2Proof.Stated
open Sys2Proof.Machine

/-! ### Effects over the hazard checker's record -/

/-- `g` neither reads nor writes what the hazard checker records, so it may as well come before the checker's reports. -/
structure HazBlind (g : Kite → Kite) : Prop where
  comm : ∀ (x : Kite) c p sl n st es,
    g { x with hzCode := c, hzPc := p, hzSlot := sl, hzCount := n, hzStop := st, evs := es } =
      { g x with hzCode := c, hzPc := p, hzSlot := sl, hzCount := n, hzStop := st, evs := es }
  hzEn : ∀ x : Kite, (g x).hzEn = x.hzEn

theorem HazBlind.evs {g : Kite → Kite} (hg : HazBlind g) (x : Kite) : (g x).evs = x.evs := by
  have h := congrArg Kite.evs (hg.comm x x.hzCode x.hzPc x.hzSlot x.hzCount x.hzStop x.evs)
  exact h

theorem HazBlind.hazStep {g : Kite → Kite} (hg : HazBlind g) {a b : Kite} (h : hazStep a b) : hazStep (g a) (g b) := by
  obtain ⟨hb, hevs, hoff⟩ := h
  have hgb := hg.comm a b.hzCode b.hzPc b.hzSlot b.hzCount b.hzStop b.evs
  rw [← hb] at hgb
  refine ⟨by rw [hgb], ?_, fun hz => congrArg g (hoff (hg.hzEn a ▸ hz))⟩
  rw [hgb, hg.evs]
  exact hevs

theorem exec_of_execSlot {i : Instr} {k : Fin 256} {slot : Nat} {chk : Kite → Option Exc} {eff : Nat → Nat → Kite → Kite}
    {s : State} {x : Kite} (h : issuing s k) (hi : exec i s = execSlot k slot chk eff s) (hc : chk (s.kite k) = none)
    (he : eff ((s.kite k).t s.cyc) ((s.kite k).tv s.cyc) (s.kite k) = x) : exec i s = .next (s.putKite k x) :=
  he ▸ hi.trans (execSlot_issuing h hc)

/-- A slot instruction of an issuing keel that passes its check changes the kite by `g`, with the checker's reports between. -/
theorem slotDone_of_reports {i : Instr} {k : Fin 256} {slot : Nat} {chk : Kite → Option Exc} {eff : Nat → Nat → Kite → Kite}
    {s : State} {x : Kite} {g : Kite → Kite} (hg : HazBlind g) (hx : hazStep (s.kite k) x) (h : issuing s k)
    (hi : exec i s = execSlot k slot chk eff s) (hc : chk (s.kite k) = none)
    (he : eff ((s.kite k).t s.cyc) ((s.kite k).tv s.cyc) (s.kite k) = g x)
    (hs : (g (s.kite k)).stopped = false) : ∃ t, exec i s = .next t ∧ slotDone k (g (s.kite k)) s t :=
  ⟨_, hi.trans (execSlot_issuing h hc), slotDone_put s k _ _ (he ▸ hg.hazStep hx) (hg.evs _) (hg.hzEn _) hs⟩

/-- The same where the reports are of the registers that the instruction reads. -/
theorem slotDone_of_execSlot {i : Instr} {k : Fin 256} {slot : Nat} {chk : Kite → Option Exc} {eff : Nat → Nat → Kite → Kite}
    {s : State} (rs : List SReg) {g : Kite → Kite} (hg : HazBlind g) (h : issuing s k) (hi : exec i s = execSlot k slot chk eff s)
    (hc : chk (s.kite k) = none)
    (he : eff ((s.kite k).t s.cyc) ((s.kite k).tv s.cyc) (s.kite k) = g ((s.kite k).readHaz k slot rs))
    (hs : (g (s.kite k)).stopped = false) : ∃ t, exec i s = .next t ∧ slotDone k (g (s.kite k)) s t :=
  slotDone_of_reports hg (Kite.readHaz_step _ k slot rs) h hi hc he hs

/-- The same of an instruction that reports nothing. -/
theorem slotDone_of_execSlot_quiet {i : Instr} {k : Fin 256} {slot : Nat} {chk : Kite → Option Exc}
    {eff : Nat → Nat → Kite → Kite} {s : State} {kt : Kite} (h : issuing s k) (hi : exec i s = execSlot k slot chk eff s)
    (hc : chk (s.kite k) = none) (he : eff ((s.kite k).t s.cyc) ((s.kite k).tv s.cyc) (s.kite k) = kt)
    (hevs : kt.evs = []) (hz : kt.hzEn = (s.kite k).hzEn) (hs : kt.stopped = false) :
    ∃ t, exec i s = .next t ∧ slotDone k kt s t :=
  ⟨_, hi.trans (execSlot_issuing h hc), slotDone_put s k _ _ (he ▸ hazStep_refl _) hevs hz hs⟩

theorem withoutEvs {a : Kite} (h : a.evs = []) : { a with evs := [] } = a := by
  rw [← h]

/-- Kite `x` is kite `a` but for what the checker records and the events raised, of which none is of class U. -/
def reported (a x : Kite) : Prop :=
  (∃ c p sl n st es, x = { a with hzCode := c, hzPc := p, hzSlot := sl, hzCount := n, hzStop := st, evs := es }) ∧
    ∀ e ∈ x.evs, e.cls ≠ .u

theorem reported_of_hazStep {a b x : Kite} (hx : hazStep b x) (hb : ∃ es, b = { a with evs := es }) (hevs : ∀ e ∈ b.evs, e.cls ≠ .u) :
    reported a x := by
  obtain ⟨es, rfl⟩ := hb
  refine ⟨⟨_, _, _, _, _, _, hx.1⟩, fun e he => ?_⟩
  obtain he | he := hx.2.1 e he
  · exact hevs e he
  · rw [he]
    exact nofun

section
variable {s : State} {k : Nat} {a x : Kite} (hx : reported a x) (ha : a.evs = [])
include hx ha

/-- Put back, it is `a` up to what the checker records. -/
theorem putKite_hazardOnly : hazardOnly a ((s.putKite k x).kite k) := by
  rw [State.putKite_kite_self]
  obtain ⟨⟨c, p, sl, n, st, es, rfl⟩, -⟩ := hx
  unfold hazardOnly
  dsimp only
  rw [← ha]

end

/-- A kite that raises one event of class S beside hazard reports, put back: the events are logged. -/
theorem refuses_of_put {i : Instr} {k : Fin 256} {s : State} {a x : Kite} {e : Nat} (hx : reported a x)
    (hi : exec i s = .next (s.putKite k x)) (ha : a.evs = []) (hoff : (s.kite k).hzEn = false → x = a.event k .s e)
    (hs : a.stopped = false) : refuses i k a e s := by
  have hstop : x.stopped = false := by
    obtain ⟨⟨c, p, sl, n, st, es, rfl⟩, -⟩ := hx
    exact hs
  obtain ⟨hkept, hlog⟩ := State.putKite_frame_minor s k _ hstop hx.2
  refine ⟨_, hi, putKite_hazardOnly hx ha, hkept, hlog, fun h0 => ?_⟩
  rw [State.putKite_minor s k _ hstop hx.2, hoff h0]
  show State.setKite ((a.evs ++ [Ev.kite .s e k]).foldl State.log s) k { a with evs := [] } = _
  rw [ha, withoutEvs ha]
  rfl

theorem minor_of_event {a : Kite} {k e : Nat} (ha : a.evs = []) : ∀ y ∈ (a.event k .s e).evs, y.cls ≠ .u := by
  intro y hy
  rw [Kite.event, ha] at hy
  rw [List.mem_singleton.1 hy]
  exact nofun

/-- The event comes before the checker's reports. -/
theorem refuses_of_event_reports {i : Instr} {k : Fin 256} {s : State} {a x : Kite} {e : Nat} (hx : hazStep (a.event k .s e) x)
    (hi : exec i s = .next (s.putKite k x)) (ha : a.evs = []) (hz : a.hzEn = (s.kite k).hzEn) (hs : a.stopped = false) :
    refuses i k a e s :=
  refuses_of_put (reported_of_hazStep hx ⟨_, rfl⟩ (minor_of_event ha)) hi ha (fun h0 => hx.2.2 (hz.trans h0)) hs

/-- The event comes alone. -/
theorem refuses_of_event {i : Instr} {k : Fin 256} {s : State} {a : Kite} {e : Nat}
    (hi : exec i s = .next (s.putKite k (a.event k .s e))) (ha : a.evs = []) (hz : a.hzEn = (s.kite k).hzEn)
    (hs : a.stopped = false) : refuses i k a e s :=
  refuses_of_event_reports (hazStep_refl _) hi ha hz hs

theorem hazBlind_id : HazBlind id := ⟨fun _ _ _ _ _ _ _ => rfl, fun _ => rfl⟩

/-! ### Kites put back without events -/

theorem putKite_silent (s : State) (k : Nat) {kt : Kite} (h : kt.evs = []) :
    s.putKite k kt = (if kt.stopped then s.dropWaits k else s).setKite k kt := by
  rw [State.putKite, withoutEvs h, h]
  rfl

theorem keeps_of_put {i : Instr} {k : Fin 256} {s : State} {kt : Kite} (hi : exec i s = .next (s.putKite k kt)) (h : kt.evs = []) :
    keeps i k kt s :=
  hi.trans (congrArg _ (putKite_silent s k h))

theorem stopped_of_st {a b : Kite} (h : a.st = b.st) : a.stopped = b.stopped := by
  rw [Kite.stopped, Kite.stopped, h]

/-! ### Checks -/

theorem illegalIf_of {b : Bool} (h : b = true) : illegalIf b = some .illegal := if_pos h

theorem illegalIf_eq_none_iff {b : Bool} : illegalIf b = none ↔ b = false := by
  cases b <;> simp [illegalIf]

theorem orExc_of_some {a b : Option Exc} {e : Exc} (h : a = some e) : orExc a b = some e := by rw [h]; rfl

theorem orExc_eq_none_iff {a b : Option Exc} : orExc a b = none ↔ a = none ∧ b = none := by
  cases a <;> simp [orExc]

/-- What the check of a slot instruction finds stops the keel, with no other effect. -/
theorem raises_of_execSlot {i : Instr} {k : Fin 256} {slot : Nat} {chk : Kite → Option Exc} {eff : Nat → Nat → Kite → Kite}
    {e : Exc} {s : State} (h : issuing s k) (hi : exec i s = execSlot k slot chk eff s) (hc : chk (s.kite k) = some e) :
    raises i k slot e.code s :=
  raises_of_issue (eff := fun s => s.onKite k eff) h (by rw [hi, execSlot, hc])

/-- The same of an instruction that issues through `State.issue`. -/
theorem raises_of_check {i : Instr} {k : Fin 256} {slot : Nat} {c : Option Exc} {eff : State → State} {e : Exc} {s : State}
    (h : issuing s k) (hi : exec i s = .next (s.issue k slot c eff)) (hc : c = some e) : raises i k slot e.code s :=
  raises_of_issue h (hc ▸ hi)

section
variable {k : Fin 256} {s : State} {e : Exc} (h : issuing s k)
include h

theorem alu_raises {f : VA} {fn : AluFn} {i : Instr}
    (hi : exec i s = execSlot k 2 (fun kt => orExc (chkVa fn f) (chkVaCount kt s.cyc f)) (fun _ tv kt => issueV k tv (.alu fn f) kt) s)
    (hc : chkVa fn f = some e) : raises i k 2 e.code s :=
  raises_of_execSlot h hi (orExc_of_some hc)

theorem sfu_raises {f : VF} {fn : SfuFn} {i : Instr}
    (hi : exec i s = execSlot k 2 (fun _ => chkVf f) (fun _ tv kt => issueV k tv (.sfn fn f) kt) s)
    (hc : chkVf f = some e) : raises i k 2 e.code s :=
  raises_of_execSlot h hi hc

end

/-- Settles O25: each instruction's check comes before its effect, and what it finds is raised. -/
theorem slotChecksStopKeel : Obligations.SlotChecksStopKeel := by
  unfold Obligations.SlotChecksStopKeel
  intro k s e h kt stops
  refine ⟨fun f => raises_of_execSlot h (exec_brb k f s), fun f => raises_of_execSlot h (exec_loop k f s),
    fun f => raises_of_execSlot h (exec_mfeed k f s), fun f => ?alu, fun f => raises_of_execSlot h (exec_cvt k f s), fun f hc => ?sfu,
    fun f hc => raises_of_execSlot h (exec_vshuf k f s) (orExc_of_some hc), fun f => raises_of_execSlot h (exec_vtree k f s),
    fun f => raises_of_execSlot h (exec_vacc k f s), fun f => raises_of_execSlot h (exec_vsum k f s),
    fun f hc => ⟨raises_of_execSlot h (exec_vld k f s) hc, raises_of_execSlot h (exec_vst k f s) hc⟩,
    fun f => raises_of_execSlot h (exec_vchain k f s),
    fun f hc => ⟨raises_of_check h (exec_dmov k f s) hc, raises_of_check h (exec_dpage k f s) hc⟩,
    fun f => raises_of_check h (exec_dsend k f s), fun f => raises_of_check h (exec_dexport k f s),
    fun f => raises_of_check h (exec_dfill k f s), fun f => raises_of_check h (exec_dcopy k f s),
    fun f => raises_of_check h (exec_sig k f s),
    fun f hc => ⟨raises_of_check h (exec_wait k f s) hc, raises_of_check h (exec_arrive k f s) hc⟩,
    fun f => raises_of_execSlot h (exec_waitr k f s), fun f => raises_of_execSlot h (exec_tickwait k f s)⟩
  case alu =>
    exact ⟨alu_raises h (exec_vadd k f s), alu_raises h (exec_vsub k f s), alu_raises h (exec_vmul k f s),
      alu_raises h (exec_vfma k f s), alu_raises h (exec_vmin k f s), alu_raises h (exec_vmax k f s),
      alu_raises h (exec_vneg k f s), alu_raises h (exec_vabs k f s), alu_raises h (exec_vceq k f s),
      alu_raises h (exec_vcne k f s), alu_raises h (exec_vclt k f s), alu_raises h (exec_vcle k f s),
      alu_raises h (exec_vcgt k f s), alu_raises h (exec_vcge k f s), alu_raises h (exec_vsel k f s),
      alu_raises h (exec_vand k f s), alu_raises h (exec_vor k f s), alu_raises h (exec_vxor k f s),
      alu_raises h (exec_vshl k f s), alu_raises h (exec_vshr k f s), alu_raises h (exec_vsra k f s)⟩
  case sfu =>
    exact ⟨sfu_raises h (exec_vexp2 k f s) hc, sfu_raises h (exec_vlog2 k f s) hc, sfu_raises h (exec_vrcp k f s) hc,
      sfu_raises h (exec_vrsqrt k f s) hc, sfu_raises h (exec_vsqrt k f s) hc, sfu_raises h (exec_vsinpi k f s) hc,
      sfu_raises h (exec_vcospi k f s) hc, sfu_raises h (exec_vtanh k f s) hc, sfu_raises h (exec_vlogi k f s) hc,
      sfu_raises h (exec_verf k f s) hc⟩

end Sys2Proof.Stated
end

section
/-! SUPPORT. The C slot (R164–R166, R176, R182–R185): arithmetic and immediates, scratchpad and window accesses, branches and
loops with the ends of their paddings, and the encodings that are illegal. -/
namespace Sys2Proof.Stated
open Sys2Proof.Machine

/-! ### Illegal encodings (R176) -/

theorem illegalIf_ne {n : Nat} {x : BitVec n} (h : x ≠ 0) : illegalIf (x != 0) = some .illegal := illegalIf_of (by simpa using h)

section
variable {k : Fin 256} {s : State} (h : issuing s k)
include h

/-- A reserved field that is not zero, of a format whose check looks at it first. -/
theorem reserved_raises {n : Nat} {x : BitVec n} {i : Instr} {slot : Nat} {eff : Nat → Nat → Kite → Kite} (hx : x ≠ 0)
    (hi : exec i s = execSlot k slot (fun _ => illegalIf (x != 0)) eff s) : raises i k slot 1 s :=
  raises_of_execSlot h hi (illegalIf_ne hx)

theorem mov_raises {f : CR} (hf : f.rsv ≠ 0 ∨ f.sb ≠ 0) : raises (.mov k f) k 0 1 s :=
  raises_of_execSlot (e := .illegal) h (exec_mov k f s) (illegalIf_of (by simpa using hf))

end

/-- Settles O10: every class of illegal encoding is one that the instruction's own check finds. -/
theorem illegalEncodingStopsKeel : Obligations.IllegalEncodingStopsKeel := by
  unfold Obligations.IllegalEncodingStopsKeel
  intro k s h
  refine ⟨fun f hf => ?cr, fun f => mov_raises h, fun f hf => ?shift, fun f hf => reserved_raises h hf (exec_lih k f s),
    fun f hf => reserved_raises h hf (exec_cmp k f s), fun f => cmpi_raises h, fun f hf => ?store, fun f hf => ?window,
    fun f hf => ?ends, fun f hf => reserved_raises h hf (exec_mswap k f s), fun f hf => reserved_raises h hf (exec_mseed k f s),
    fun f hf => reserved_raises h hf (exec_mzero k f s), fun f hf => ?fence, fun f hf => ?dm, fun f hf => ?ds, fun f hf => ?df,
    fun f hf => ?va⟩
  case cr =>
    exact ⟨reserved_raises h hf (exec_add k f s), reserved_raises h hf (exec_sub k f s), reserved_raises h hf (exec_and k f s),
      reserved_raises h hf (exec_or k f s), reserved_raises h hf (exec_xor k f s), reserved_raises h hf (exec_shl k f s),
      reserved_raises h hf (exec_shr k f s), reserved_raises h hf (exec_sra k f s), reserved_raises h hf (exec_mul k f s),
      reserved_raises h hf (exec_sel k f s)⟩
  case shift =>
    have hc := illegalIf_of (decide_eq_true hf)
    exact ⟨raises_of_execSlot h (exec_shli k f s) hc, raises_of_execSlot h (exec_shri k f s) hc,
      raises_of_execSlot h (exec_srai k f s) hc⟩
  case store =>
    exact raises_of_execSlot (e := .illegal) h (exec_st k f s) (if_pos (by simpa using hf))
  case window =>
    have hc : chkCsr f = some .illegal := if_pos (by simpa using hf)
    exact ⟨raises_of_execSlot h (exec_csrr k f s) hc, raises_of_execSlot h (exec_csrw k f s) hc⟩
  case ends =>
    exact ⟨raises_of_check h (exec_stepend k f s) (orExc_of_some (illegalIf_ne hf)),
      raises_of_execSlot h (exec_halt k f s) (orExc_of_some (illegalIf_ne hf))⟩
  case fence =>
    exact ⟨reserved_raises h hf (exec_fence k f s), raises_of_execSlot h (exec_tickwait k f s) (orExc_of_some (illegalIf_ne hf))⟩
  case dm =>
    have hc : chkDm f = some .illegal := illegalIf_of (by simp only [bne_iff_ne.2 hf, Bool.true_or])
    exact ⟨raises_of_check h (exec_dmov k f s) hc, raises_of_check h (exec_dpage k f s) hc⟩
  case ds => exact raises_of_check (e := .illegal) h (exec_dsend k f s) (illegalIf_of (by simp only [bne_iff_ne.2 hf, Bool.true_or]))
  case df => exact raises_of_check (e := .illegal) h (exec_dfill k f s) (illegalIf_of (by simp only [bne_iff_ne.2 hf, Bool.true_or]))
  case va =>
    have hc : ∀ fn, chkVa fn f = some .illegal := fun fn => illegalIf_of (by simp only [bne_iff_ne.2 hf, Bool.true_or])
    exact ⟨alu_raises h (exec_vadd k f s) (hc _), alu_raises h (exec_vmul k f s) (hc _), alu_raises h (exec_vxor k f s) (hc _)⟩

/-! ### Arithmetic and immediates (R182) -/

section
variable {k : Fin 256} {s : State} (h : issuing s k)
include h

theorem cr_writes {f : CR} {i : Instr} {lat : Nat} {op : Word → Word → Word} (hf : f.rsv = 0)
    (hi : exec i s = execSlot k 0 (fun _ => chkCr f) (fun t _ kt => effAlu lat op k t f kt) s) :
    writes i k (.s f.sd.toNat) lat (op ((s.kite k).s f.sa) ((s.kite k).s f.sb)) s :=
  writes_of_execSlot _ h hi (by simp [chkCr, illegalIf, hf]) rfl

theorem ci_writes {f : CI} {i : Instr} {lat : Nat} {op : Word → BitVec 16 → Word} {chk : Option Exc} (hc : chk = none)
    (hi : exec i s = execSlot k 0 (fun _ => chk) (fun t _ kt => effAluI lat op k t f kt) s) :
    writes i k (.s f.sd.toNat) lat (op ((s.kite k).s f.sa) f.imm) s :=
  writes_of_execSlot _ h hi hc rfl

end

/-- The low six bits of a shift count. -/
theorem toNat_and_63 (b : Word) : (b &&& 63).toNat = shCount b := by
  rw [BitVec.toNat_and]
  exact Nat.and_two_pow_sub_one_eq_mod b.toNat 6

theorem getLsbD_ffff : ∀ {n : Nat}, n < 64 → (0xFFFF : Word).getLsbD n = decide (n < 16) := by decide

/-- LIH puts the immediate over the quarter that it names. -/
theorem getLsbD_lihValue (old : Word) (h : BitVec 2) (imm : BitVec 16) {n : Nat} (hn : n < 64) : (lihValue old h imm).getLsbD n =
    if 16 * h.toNat ≤ n ∧ n < 16 * h.toNat + 16 then imm.getLsbD (n - 16 * h.toNat) else old.getLsbD n := by
  have hmask := getLsbD_ffff (n := n - 16 * h.toNat) (by omega)
  simp only [lihValue, BitVec.getLsbD_or, BitVec.getLsbD_and, BitVec.getLsbD_not, BitVec.getLsbD_shiftLeft, BitVec.truncate_eq_setWidth,
    BitVec.getLsbD_setWidth, hmask, hn]
  split
  next hq =>
    have hlo : ¬ n < 16 * h.toNat := by omega
    have hhi : n - 16 * h.toNat < 16 := by omega
    simp [hlo, hhi, Nat.lt_trans hhi]
  next hq =>
    by_cases hlo : n < 16 * h.toNat
    · simp [hlo]
    · have hhi : 16 ≤ n - 16 * h.toNat := by omega
      simp [hlo, Nat.not_lt.2 hhi, BitVec.getLsbD_of_ge imm _ hhi]

/-- Settles O3: each result is the operation of Table 9.2 on the operands as they stand, queued for SD. -/
theorem scalarResults : Obligations.ScalarResults := by
  unfold Obligations.ScalarResults
  refine ⟨fun k f s h hf => ?cr, fun k f s h => ?ci, fun k f s h => ?li, fun k f s h hf => ?lih⟩
  case cr =>
    intro a b sd
    refine ⟨cr_writes h hf (exec_add k f s), cr_writes h hf (exec_sub k f s), cr_writes h hf (exec_and k f s),
      cr_writes h hf (exec_or k f s), cr_writes h hf (exec_xor k f s), ?_, ?_, ?_, cr_writes h hf (exec_mul k f s),
      writes_of_execSlot _ h (exec_sel k f s) (by simp [chkCr, illegalIf, hf]) rfl,
      fun hb => writes_of_execSlot _ h (exec_mov k f s) (by simp [chkMov, illegalIf, hf, hb]) rfl⟩
    · rw [BitVec.shiftLeft_eq', toNat_and_63]
      exact cr_writes h hf (exec_shl k f s)
    · rw [BitVec.ushiftRight_eq', toNat_and_63]
      exact cr_writes h hf (exec_shr k f s)
    · rw [BitVec.sshiftRight', toNat_and_63]
      exact cr_writes h hf (exec_sra k f s)
  case ci =>
    intro a sd
    refine ⟨ci_writes h rfl (exec_addi k f s), ci_writes h rfl (exec_andi k f s), ci_writes h rfl (exec_ori k f s),
      ci_writes h rfl (exec_xori k f s), ci_writes h rfl (exec_muli k f s), fun hf => ?_⟩
    have hc : chkShi f = none := by simp [chkShi, illegalIf, hf]
    exact ⟨ci_writes h hc (exec_shli k f s), ci_writes h hc (exec_shri k f s), ci_writes h hc (exec_srai k f s)⟩
  case li => exact writes_of_execSlot [] h (exec_li k f s) rfl rfl
  case lih =>
    exact ⟨_, writes_of_execSlot _ h (exec_lih k f s) (by simp [illegalIf, hf]) rfl, fun n => getLsbD_lihValue _ f.h f.imm⟩

/-! ### Accesses to the scratchpad and to the window (R184, R185) -/

theorem memAligned_eq (kt : Kite) (f : CM) : memAligned kt f = memAddr kt f - memAddr kt f % 2 ^ f.size.toNat := by
  rw [memAligned, sizeBytes, Nat.mul_comm]
  exact (Nat.sub_eq_of_eq_add (Nat.div_add_mod _ _).symm).symm

/-- With a SIGN that its instruction takes, an access is checked by its address alone. -/
theorem chkMem_of_sign {store : Bool} {kt : Kite} {f : CM} (h : store = true → f.sign = 0) :
    chkMem store kt f = if spadBytes ≤ memAddr kt f then some .scalarAddr else none := by
  cases store
  · rfl
  · exact if_neg (by simp [h rfl])

theorem hazBlind_narrow (l : List Narrow) : HazBlind fun x => { x with narrow := x.narrow ++ l } := ⟨fun _ _ _ _ _ _ _ => rfl, fun _ => rfl⟩

theorem hazBlind_csr (l : List CsrOp) : HazBlind fun x => { x with csr := x.csr ++ l } := ⟨fun _ _ _ _ _ _ _ => rfl, fun _ => rfl⟩

/-- Settles O6: below 8 MiB the access of the aligned address is queued, and from there on the check finds SCALAR_ADDR. -/
theorem scalarLoadStoreIssue : Obligations.ScalarLoadStoreIssue := by
  unfold Obligations.ScalarLoadStoreIssue
  intro k f s h kt a n
  refine ⟨fun ha => ?_, fun ha hf => ?_, fun ha => ⟨?_, fun hf => ?_⟩⟩
  · have hc : chkMem false kt f = none := if_neg (Nat.not_le.2 ha)
    exact memAligned_eq kt f ▸ slotDone_of_execSlot [.s f.sbase.toNat]
      (hazBlind_narrow [.ld f.sr.toNat (memAligned kt f) n (f.sign == 1) (kt.t s.cyc + 1) kt.ipc]) h (exec_ld k f s) hc rfl (issuing_stopped h)
  · have hc : chkMem true kt f = none := (chkMem_of_sign fun _ => hf).trans (if_neg (Nat.not_le.2 ha))
    exact memAligned_eq kt f ▸ slotDone_of_execSlot [.s f.sbase.toNat, .s f.sr.toNat]
      (hazBlind_narrow [.st (memAligned kt f) n (kt.s f.sr) (kt.t s.cyc + 1) kt.ipc]) h (exec_st k f s) hc rfl (issuing_stopped h)
  · exact raises_of_execSlot h (exec_ld k f s) ((chkMem_of_sign (store := false) nofun).trans (if_pos ha))
  · exact raises_of_execSlot h (exec_st k f s) ((chkMem_of_sign fun _ => hf).trans (if_pos ha))

/-- Settles O7: the check is whether the window has the register, and the access is queued for its cycle. -/
theorem windowAccess : Obligations.WindowAccess := by
  unfold Obligations.WindowAccess
  intro k f s h hf kt
  refine ⟨fun hk => ?_, fun hk => ?_⟩
  · have hc : chkCsr f = none := by simp [chkCsr, hf, hk]
    exact ⟨slotDone_of_execSlot [] (hazBlind_csr [⟨kt.t s.cyc, f.off.toNat * 8, false, 0, f.sr.toNat⟩]) h (exec_csrr k f s) hc rfl (issuing_stopped h),
      slotDone_of_execSlot [.s f.sr.toNat] (hazBlind_csr [⟨kt.t s.cyc + 2, f.off.toNat * 8, true, kt.s f.sr, f.sr.toNat⟩]) h (exec_csrw k f s) hc rfl (issuing_stopped h)⟩
  · have hc : chkCsr f = some .csrAddr := by simp [chkCsr, hf, hk]
    exact ⟨raises_of_execSlot h (exec_csrr k f s) hc, raises_of_execSlot h (exec_csrw k f s) hc⟩

/-! ### Branches and loops (R164, R165) -/

/-- Kite `b` is kite `a` with its keel elsewhere in its constructs, and not stopped by that. -/
def moved (a b : Kite) : Prop :=
  (∃ fr pc st, b = { a with frames := fr, pc := pc, st := st }) ∧ (a.stopped = false → b.stopped = false)

theorem moved_refl (a : Kite) : moved a a := ⟨⟨a.frames, a.pc, a.st, rfl⟩, id⟩

theorem moved_trans {a b c : Kite} (h : moved a b) (h' : moved b c) : moved a c := by
  obtain ⟨⟨fr, pc, st, rfl⟩, hs⟩ := h
  obtain ⟨⟨fr', pc', st', rfl⟩, hs'⟩ := h'
  exact ⟨⟨fr', pc', st', rfl⟩, fun h => hs' (hs h)⟩

/-- A keel that issues, or stands in a padding, is moved wherever its frames and PC say. -/
theorem moved_running (a : Kite) (fr : List Frame) (pc : Nat) {st : KSt} (h : st = .issuing ∨ st = .padding) :
    moved a { a with frames := fr, pc := pc, st := st } :=
  ⟨⟨fr, pc, st, rfl⟩, fun _ => by obtain rfl | rfl := h <;> rfl⟩

theorem moved_within (a : Kite) (fr : List Frame) (pc : Nat) : moved a { a with frames := fr, pc := pc } :=
  ⟨⟨fr, pc, a.st, rfl⟩, id⟩

/-- Settling a keel moves it within its constructs. -/
theorem settle_moved (t n : Nat) (kt : Kite) : moved kt (settle t n kt) := by
  induction n generalizing kt with
  | zero => exact moved_refl kt
  | succ n ih =>
    rw [settle]
    split
    next start last left pad reg rest hf =>
      split
      · split
        · exact moved_running kt _ _ (.inl rfl)
        · split
          · exact moved_trans (moved_running kt rest kt.pc (.inl rfl)) (ih _)
          · exact moved_running kt _ _ (.inr rfl)
      · exact moved_running kt _ _ (.inl rfl)
    next e rest hf =>
      split
      · exact moved_trans (moved_running kt rest kt.pc (.inl rfl)) (ih _)
      · exact moved_running kt _ _ (.inr rfl)
    next =>
      split
      · exact moved_running kt _ _ (.inr rfl)
      · exact moved_running kt _ _ (.inl rfl)
    next => exact moved_running kt _ _ (.inl rfl)

theorem settle_nil (t n : Nat) {kt : Kite} (h : kt.frames = []) : settle t (n + 1) kt = { kt with st := .issuing } := by
  rw [settle]
  simp only [h]

theorem padDue_nil (t : Nat) {kt : Kite} (h : kt.frames = []) : padDue t kt = false := by simp only [padDue, h]

theorem closePads_nil (t n : Nat) {kt : Kite} (h : kt.frames = []) : closePads t n kt = kt := by
  cases n with
  | zero => rfl
  | succ n => rw [closePads, padDue_nil t h, if_neg Bool.false_ne_true]

/-- Ending paddings moves the keel within its constructs too. -/
theorem closePads_moved (t n : Nat) (kt : Kite) : moved kt (closePads t n kt) := by
  induction n generalizing kt with
  | zero => exact moved_refl kt
  | succ n ih =>
    have step : ∀ kt' : Kite, moved kt kt' → moved kt (closePads t n (settle t 9 kt')) := fun kt' h =>
      moved_trans (moved_trans h (settle_moved t 9 kt')) (ih _)
    rw [closePads]
    split
    · split
      · exact step _ (moved_within kt _ _)
      · exact step _ (moved_within kt _ kt.pc)
      · exact moved_refl kt
    · exact moved_refl kt

/-- Whether the innermost construct is a loop. -/
def innerLoop (kt : Kite) : Bool :=
  match kt.frames with
  | .loop _ _ _ _ _ _ :: _ => true
  | _ => false

section
variable {k : Fin 256} {s : State} (hst : (s.kite k).st = .padding) (hhold : (s.kite k).hold = none)
include hst hhold

/-- The end of a padding that is due moves the keel on, and nothing else changes. -/
theorem padEnds_due (hdue : padDue ((s.kite k).t s.cyc) (s.kite k) = true) :
    s.padEnds k (innerLoop (s.kite k)) = s.setKite k (closePads ((s.kite k).t s.cyc) 9 (s.kite k)) := by
  obtain ⟨⟨fr, pc, st, hc⟩, hs⟩ := closePads_moved ((s.kite k).t s.cyc) 9 (s.kite k)
  rw [← State.putKite_quiet s k _ (hs (by simp [Kite.stopped, hst])) (by rw [hc]; rfl), State.padEnds]
  refine if_pos ?_
  change ((s.kite k).st == .padding && (s.kite k).hold.isNone && padDue ((s.kite k).t s.cyc) (s.kite k)
    && innerLoop (s.kite k) == innerLoop (s.kite k)) = true
  simp only [hst, hhold, hdue, beq_self_eq_true, Option.isNone_none, Bool.and_self]

section
variable {rest : List Frame}

theorem brbJoin_due {a t0 len armEnd join : Nat} (hf : (s.kite k).frames = .brb a t0 len armEnd join :: rest)
    (hpc : (s.kite k).pc = armEnd) (ht : t0 + len = (s.kite k).t s.cyc) : exec (.brbJoin k) s =
      .next (s.setKite k (closePads ((s.kite k).t s.cyc) 8
        (settle ((s.kite k).t s.cyc) 9 { s.kite k with frames := rest, pc := join }))) := by
  have hdue : padDue ((s.kite k).t s.cyc) (s.kite k) = true := by simp [padDue, hf, hpc, ht]
  have h := padEnds_due hst hhold hdue
  have hi : innerLoop (s.kite k) = false := by rw [innerLoop, hf]
  rw [hi, closePads, if_pos hdue] at h
  simp only [hf] at h
  exact congrArg _ h

theorem loopPadEnd_due {start last left pad e : Nat} {reg : Bool}
    (hf : (s.kite k).frames = .loop start last left pad reg (some e) :: rest) (ht : e ≤ (s.kite k).t s.cyc) :
    exec (.loopPadEnd k) s = .next (s.setKite k (closePads ((s.kite k).t s.cyc) 8
        (settle ((s.kite k).t s.cyc) 9 { s.kite k with frames := rest }))) := by
  have hdue : padDue ((s.kite k).t s.cyc) (s.kite k) = true := by simp [padDue, hf, ht]
  have h := padEnds_due hst hhold hdue
  have hi : innerLoop (s.kite k) = true := by rw [innerLoop, hf]
  rw [hi, closePads, if_pos hdue] at h
  simp only [hf] at h
  exact congrArg _ h

end

end

/-- With no construct around the one that ends, the keel issues. -/
theorem closePads_settle_nil (t n m : Nat) {kt : Kite} (h : kt.frames = []) :
    closePads t n (settle t (m + 1) kt) = { kt with st := .issuing } := by
  rw [settle_nil t m h]
  exact closePads_nil t n h

theorem hazBlind_enter (fr : List Frame) (pc : Nat) : HazBlind fun x => { x with frames := fr ++ x.frames, pc := pc } :=
  ⟨fun _ _ _ _ _ _ _ => rfl, fun _ => rfl⟩

theorem chkLoop_over {kt : Kite} {f : CP} (hc : f.csrc = 1) (hr : f.rsv = 0) (hb : f.body ≠ 0)
    (hpc : kt.ipc + f.body.toNat + 1 ≤ 8191) (hn : kt.frames.length < 8) (hmax : loopMax f < loopCount kt f) :
    chkLoop kt f = some .loopOver := by
  rw [chkLoop, if_neg (by simpa [hr, Nat.not_lt.2 hpc] using hb), if_neg (Nat.not_le.2 hn), if_pos (by simp [hc, hmax])]

/-- The registers whose reads LOOP reports. -/
def loopReads (f : CP) : List SReg := if f.csrc = 0 then [] else [.s (f.ext.toNat / 2 ^ 27)]

/-- The padding that LOOP leaves to follow its body. -/
def loopPad (k : Nat) (f : CP) (kt : Kite) : Nat :=
  if f.csrc = 0 then 0 else (loopMax f - loopCount kt f) * walkCycles kt k 8192 (kt.ipc + 1) (kt.ipc + f.body.toNat)

theorem effLoop_eq (k t : Nat) (f : CP) (kt : Kite) : effLoop k t f kt =
    let x := kt.readHaz k 0 (loopReads f)
    if loopCount kt f = 0 then
      if loopPad k f kt = 0 then { x with pc := kt.ipc + f.body.toNat + 1 }
      else { x with
        frames := .loop (kt.ipc + 1) (kt.ipc + f.body.toNat) 0 (loopPad k f kt) true (some (t + loopPad k f kt)) :: x.frames
        pc := kt.ipc + f.body.toNat + 1 }
    else { x with
      frames := .loop (kt.ipc + 1) (kt.ipc + f.body.toNat) (loopCount kt f) (loopPad k f kt) (f.csrc == 1) none :: x.frames
      pc := kt.ipc + 1 } := by
  have hx : kt.readHaz k 0 (loopReads f) = if f.csrc = 0 then kt else kt.readHaz k 0 [.s (f.ext.toNat / 2 ^ 27)] := by
    unfold loopReads
    split <;> rfl
  rw [hx]
  rfl

/-- Settles O8: BRB and LOOP open their frame over the hazard reports, and a due padding closes its frame. -/
theorem branchesAndLoops : Obligations.BranchesAndLoops := by
  unfold Obligations.BranchesAndLoops
  refine ⟨fun k f s h hc => ?brb, fun k f s h => ⟨fun hc => ?loop, fun hreg hr hb hpc hn hmax => ?above⟩, fun k s rest hst hhold => ?pads⟩
  case brb =>
    exact slotDone_of_execSlot [if f.csrc = 0 then .f (f.reg.toNat % 8) else .s f.reg.toNat]
      (hazBlind_enter [_] _) h (exec_brb k f s) hc rfl (issuing_stopped h)
  case loop =>
    have enter : ∀ fr pc, effLoop k ((s.kite k).t s.cyc) f (s.kite k) =
        { (s.kite k).readHaz k 0 (loopReads f) with frames := fr ++ ((s.kite k).readHaz k 0 (loopReads f)).frames, pc := pc } →
        ∃ t, exec (.loop k f) s = .next t ∧ slotDone k { s.kite k with frames := fr ++ (s.kite k).frames, pc := pc } s t :=
      fun fr pc he => slotDone_of_execSlot (loopReads f) (hazBlind_enter fr pc) h (exec_loop k f s) hc he (issuing_stopped h)
    rw [effLoop_eq] at enter
    change ∃ t, _ ∧ slotDone k (if loopCount (s.kite k) f ≠ 0 then _ else if loopPad k f (s.kite k) = 0 then _ else _) s t
    by_cases hn : loopCount (s.kite k) f = 0
    · rw [if_neg (not_not.2 hn)]
      by_cases hp : loopPad k f (s.kite k) = 0
      · rw [if_pos hp]
        exact enter [] _ ((if_pos hn).trans (if_pos hp))
      · rw [if_neg hp]
        exact enter [_] _ ((if_pos hn).trans (if_neg hp))
    · rw [if_pos hn]
      exact enter [_] _ (if_neg hn)
  case above =>
    rw [if_neg (by rw [hreg]; decide)] at hmax
    exact raises_of_execSlot h (exec_loop k f s) (chkLoop_over hreg hr hb hpc hn (by rw [loopCount, if_neg (by rw [hreg]; decide)]; exact hmax))
  case pads =>
    intro kt t
    refine ⟨fun a t0 len armEnd join hf hpc ht => ?_, fun start last left pad reg e hf ht => ?_⟩
    · have hj := brbJoin_due hst hhold hf hpc ht
      refine ⟨hj, fun hrest => hj.trans ?_⟩
      subst hrest
      rw [closePads_settle_nil _ _ _ rfl]
    · have hj := loopPadEnd_due hst hhold hf ht
      refine ⟨hj, fun hrest => hj.trans ?_⟩
      subst hrest
      rw [closePads_settle_nil _ _ _ rfl]

end Sys2Proof.Stated
end

section
/-! SUPPORT. The M slot and the matrix engine (R48, R67–R86): what its instructions leave at issue, where a pass is placed, group
updates, and the engine's events. -/
namespace Sys2Proof.Stated
open Sys2Proof.Machine

/-! ### The M slot (R67, R72–R74, R82) -/

theorem hazBlind_mcfgNext (c : Option MCfg) : HazBlind fun x => { x with mcfgNext := c } := ⟨fun _ _ _ _ _ _ _ => rfl, fun _ => rfl⟩

theorem hazBlind_zeroPend (b : Option Bool) : HazBlind fun x => { x with zeroPend := b } := ⟨fun _ _ _ _ _ _ _ => rfl, fun _ => rfl⟩

theorem hazBlind_swapPend (b : Bool) : HazBlind fun x => { x with swapPend := b } := ⟨fun _ _ _ _ _ _ _ => rfl, fun _ => rfl⟩

theorem hazBlind_seed (d : Option Seed) : HazBlind fun x => { x with seed := d } := ⟨fun _ _ _ _ _ _ _ => rfl, fun _ => rfl⟩

/-- A set-up is taken with its fields as MSET gives them, and its extents within the arrangement. -/
theorem msetCfg_fields {f : MSetF} {c : MCfg} (h : msetCfg f = some c) : c.arr = f.arr.toNat ∧ Fmt.ofCode f.fmta.toNat = some c.fa ∧
    Fmt.ofCode f.fmtb.toNat = some c.fb ∧ c.passes = f.passes.toNat ∧ c.ktail = (if f.ktail = 0 then 128 else f.ktail.toNat) ∧
    c.rows = f.rows.toNat ∧ c.cols = f.cols.toNat ∧ 1 ≤ c.rows ∧ c.rows ≤ c.shape.2.1 ∧ 1 ≤ c.cols ∧ c.cols ≤ c.shape.2.2 := by
  unfold msetCfg at h
  split at h
  next g xa xb a b harr ha hb =>
    dsimp only at h
    split at h
    next hok =>
      cases h
      simp only [Bool.and_eq_true, bne_iff_ne, ne_eq, decide_eq_true_eq] at hok
      obtain ⟨⟨⟨⟨_, hrows⟩, hxa⟩, hcols⟩, hxb⟩ := hok
      have hpos : ∀ x : BitVec 10, ¬x = 0 → 1 ≤ x.toNat := fun x hx => Nat.pos_of_ne_zero fun h0 => hx (BitVec.eq_of_toNat_eq h0)
      have hshape : (arrShape f.arr.toNat).getD (1, 128, 128) = (g, xa, xb) := by rw [harr]; rfl
      refine ⟨rfl, ha, hb, rfl, ?_, rfl, rfl, hpos _ hrows, ?_, hpos _ hcols, ?_⟩
      · simp [zeroAs, BitVec.toNat_eq]
      · rw [MCfg.shape, hshape]
        exact hxa
      · rw [MCfg.shape, hshape]
        exact hxb
    next => cases h
  next => cases h

theorem hazStep_setB {a b : Kite} (h : hazStep a b) : b.setB = a.setB := by rw [h.1]
theorem hazStep_ipc {a b : Kite} (h : hazStep a b) : b.ipc = a.ipc := by rw [h.1]

theorem effMseed_accepted {k t tv : Nat} {f : MSeedF} {kt : Kite} (hseed : kt.seed = none) (hrel : kt.released (!kt.setB) = true) :
    effMseed k t tv f kt = { kt.hazardIf (kt.drains tv) k 6 1 with
      seed := some ⟨t, !(kt.hazardIf (kt.drains tv) k 6 1).setB, f.row.toNat, [], (kt.hazardIf (kt.drains tv) k 6 1).ipc⟩ } :=
  if_neg (by simp [hseed, hrel])

theorem effMseed_refused {k t tv : Nat} {f : MSeedF} {kt : Kite} (h : kt.seed ≠ none ∨ kt.released (!kt.setB) = false) :
    effMseed k t tv f kt = kt.event k .s evSeedRefused :=
  if_pos (by simpa [Option.isSome_iff_ne_none] using h)

/-- Settles O11: each instruction leaves its mark for the end of the cycle, over the hazards that Table 4.10 has reported. -/
theorem matrixSlotEffects : Obligations.MatrixSlotEffects := by
  unfold Obligations.MatrixSlotEffects
  intro k s h kt t
  have hs : kt.stopped = false := issuing_stopped h
  refine ⟨fun f c hc => ⟨?mset, msetCfg_fields hc⟩, fun f hf => ?illegal, fun f hf => ?mzero, fun f hf => ?mswap, fun f hf hseed hrel => ?mseed,
    fun f hf href => ?refused⟩
  case mset =>
    exact slotDone_of_execSlot [] (hazBlind_mcfgNext (some c)) h (exec_mset k f s) (by simp [illegalIf, hc])
      (congrArg (fun c => { s.kite k with mcfgNext := c }) hc) hs
  case illegal =>
    exact raises_of_execSlot (e := .illegal) h (exec_mset k f s) (by simp [illegalIf, hf])
  case mzero =>
    have hx := hazStep_trans (Kite.hazardIf_step kt (!decide (f.set = 1) && kt.updatesDue (t + 1)) k 5 1)
      (Kite.hazardIf_step (kt.hazardIf (!decide (f.set = 1) && kt.updatesDue (t + 1)) k 5 1)
        (decide (f.set = 1) && (kt.hazardIf (!decide (f.set = 1) && kt.updatesDue (t + 1)) k 5 1).drains (kt.tv s.cyc)) k 6 1)
    refine slotDone_of_reports (hazBlind_zeroPend _) hx h (exec_mzero k f s) (by simp [illegalIf, hf]) ?_ hs
    dsimp only [effMzero]
    rw [hazStep_setB hx, beq_eq_decide]
  case mswap =>
    exact slotDone_of_reports (hazBlind_swapPend true) (Kite.hazardIf_step _ _ k 4 1) h (exec_mswap k f s) (by simp [illegalIf, hf]) rfl hs
  case mseed =>
    have hx := Kite.hazardIf_step kt (kt.drains (kt.tv s.cyc)) k 6 1
    refine slotDone_of_reports (hazBlind_seed (some ⟨t, !kt.setB, f.row.toNat, [], kt.ipc⟩)) hx h (exec_mseed k f s) (by simp [illegalIf, hf]) ?_ hs
    rw [effMseed_accepted hseed hrel]
    exact congrArg (fun d => ({ kt.hazardIf (kt.drains (kt.tv s.cyc)) k 6 1 with seed := some d } : Kite))
      (by rw [hazStep_setB hx, hazStep_ipc hx])
  case refused =>
    exact refuses_of_event (exec_of_execSlot h (exec_mseed k f s) (by simp [illegalIf, hf]) (effMseed_refused href)) rfl rfl hs

/-! ### Passes (R75, R77, R80) -/

/-- The first cycle in which a pass can enter but for an inflation: behind its first tile, and behind the pass before. -/
def passEarliest (kt : Kite) (p : Pass) : Nat := max (p.r0 + 1 + p.cfg.tLead) (match kt.lastEntry with
  | some l => l + 1
  | none => 0)

section
variable (kt : Kite) (t : Nat) (f : MFeedF)

theorem newPass_r0_entering {l : Nat} {q : Pass} (hl : kt.lastEntry = some l) (ht : t ≤ l) (hq : kt.passes.getLast? = some q) :
    (newPass kt t f).r0 = max (t + 1) q.lastTile := by
  simp [newPass, hl, ht, hq]

theorem newPass_r0_behind {l : Nat} (hl : kt.lastEntry = some l) (ht : l < t) : (newPass kt t f).r0 = t + 1 := by
  simp [newPass, hl, Nat.not_le.2 ht]

theorem newPass_r0_first (hl : kt.lastEntry = none) : (newPass kt t f).r0 = t + 1 := by
  simp [newPass, hl]

theorem newPass_infl : (newPass kt t f).infl = match kt.lastEntry with
    | none => some t
    | some l => if passEarliest kt (newPass kt t f) ≤ l + 256 then none else some (max t (l + 286)) := by
  cases hl : kt.lastEntry <;> simp only [newPass, passEarliest, hl]

theorem newPass_e0 : (newPass kt t f).e0 = match (newPass kt t f).infl with
    | some b => max (passEarliest kt (newPass kt t f)) (b + 32)
    | none => passEarliest kt (newPass kt t f) := rfl

variable {kt}

theorem newPass_busy {l : Nat} (hl : kt.lastEntry = some l) (h : passEarliest kt (newPass kt t f) ≤ l + 256) :
    (newPass kt t f).e0 = passEarliest kt (newPass kt t f) ∧ (newPass kt t f).infl = none := by
  have hi : (newPass kt t f).infl = none := by rw [newPass_infl, hl]; exact if_pos h
  rw [newPass_e0, hi]
  exact ⟨rfl, rfl⟩

theorem newPass_idle {l : Nat} (hl : kt.lastEntry = some l) (h : l + 256 < passEarliest kt (newPass kt t f)) :
    (newPass kt t f).e0 = max (passEarliest kt (newPass kt t f)) (max t (l + 286) + 32) ∧
      (newPass kt t f).infl = some (max t (l + 286)) := by
  have hi : (newPass kt t f).infl = some (max t (l + 286)) := by rw [newPass_infl, hl]; exact if_neg (Nat.not_le.2 h)
  rw [newPass_e0, hi]
  exact ⟨rfl, rfl⟩

theorem newPass_first (hl : kt.lastEntry = none) : (newPass kt t f).e0 = max (t + 2 + (newPass kt t f).cfg.tLead) (t + 32) ∧
    (newPass kt t f).infl = some t := by
  have hi : (newPass kt t f).infl = some t := by rw [newPass_infl, hl]
  rw [newPass_e0, hi, passEarliest, hl, newPass_r0_first kt t f hl]
  exact ⟨by simp, rfl⟩

end

/-- Settles O12: MFEED is discarded with one queued, and else adds its pass, whose times are those of R75 and R80. -/
theorem matrixFeedStartsPass : Obligations.MatrixFeedStartsPass := by
  unfold Obligations.MatrixFeedStartsPass
  intro k f s h hc kt t
  have hs : kt.stopped = false := issuing_stopped h
  refine ⟨fun hq => ?queued, fun hq => ⟨newPass kt t f, ?starts, rfl, rfl, rfl, rfl, fun l q => newPass_r0_entering kt t f,
    fun l => newPass_r0_behind kt t f, newPass_r0_first kt t f, fun l hl hle => ?busy, fun l hl hlt => ?idle, newPass_first t f⟩⟩
  case queued =>
    exact refuses_of_event (exec_of_execSlot h (exec_mfeed k f s) hc (if_pos hq)) rfl rfl hs
  case starts =>
    exact slotDone_of_execSlot_quiet h (exec_mfeed k f s) hc (if_neg (Bool.eq_false_iff.1 hq)) rfl rfl hs
  case busy =>
    have he : passEarliest kt (newPass kt t f) = max ((newPass kt t f).r0 + 1 + (newPass kt t f).cfg.tLead) (l + 1) := by
      rw [passEarliest, hl]
    exact he ▸ newPass_busy t f hl (he ▸ hle)
  case idle =>
    have he : passEarliest kt (newPass kt t f) = max ((newPass kt t f).r0 + 1 + (newPass kt t f).cfg.tLead) (l + 1) := by
      rw [passEarliest, hl]
    exact he ▸ newPass_idle t f hl (he ▸ hlt)

/-! ### Accumulator sets and group updates (R48, R67, R72) -/

theorem accSet_setAcc_self (kt : Kite) (b : Bool) (a : AccSet) : (kt.setAcc b a).accSet b = a := by cases b <;> rfl

theorem accSet_setAcc_not (kt : Kite) (b : Bool) (a : AccSet) : (kt.setAcc b a).accSet (!b) = kt.accSet (!b) := by cases b <;> rfl

/-- Kite `b` is kite `a` with other accumulators. -/
def accsOnly (a b : Kite) : Prop := ∃ x y, b = { a with accA := x, accB := y }

theorem accsOnly_setAcc (kt : Kite) (b : Bool) (a : AccSet) : accsOnly kt (kt.setAcc b a) := by
  cases b
  · exact ⟨a, kt.accB, rfl⟩
  · exact ⟨kt.accA, a, rfl⟩

theorem accsOnly_iff {a b : Kite} : accsOnly a b ↔ b = { a with accA := b.accA, accB := b.accB } :=
  ⟨fun ⟨x, y, h⟩ => by rw [h], fun h => ⟨_, _, h⟩⟩

/-- The container of an enabled coordinate. -/
def cellIndex (p : Pass) (c : Nat × Nat × Nat) : Nat := container p.cfg c.1 c.2.1 c.2.2

/-- What group update `u` makes of a coordinate's accumulator. -/
def cellUpdated (p : Pass) (u : Nat) (c : Nat × Nat × Nat) (old : Nat) : Nat :=
  accUpdate (if u = 0 && p.feed.zero == 1 then 0 else old) (p.sumOf u c.1 c.2.1 c.2.2)

/-- Group update `u` at one coordinate. -/
def updateCell (k : Nat) (p : Pass) (u : Nat) (kt : Kite) (c : Nat × Nat × Nat) : Kite :=
  kt.setAcc kt.setB { kt.accSet kt.setB with
    cells := mapSet (kt.accSet kt.setB).cells (cellIndex p c) (cellUpdated p u c (kt.acc k kt.setB (cellIndex p c))) }

theorem groupUpdate_eq (k : Nat) (p : Pass) (u : Nat) (kt : Kite) : groupUpdate k p u kt = p.cells.foldl (updateCell k p u) kt := rfl

section
variable (k : Nat) (p : Pass) (u : Nat)

theorem updateCell_accsOnly (kt : Kite) (c : Nat × Nat × Nat) : accsOnly kt (updateCell k p u kt c) := accsOnly_setAcc kt _ _

theorem updateCell_setB (kt : Kite) (c : Nat × Nat × Nat) : (updateCell k p u kt c).setB = kt.setB := by
  obtain ⟨x, y, h⟩ := updateCell_accsOnly k p u kt c
  rw [h]

theorem acc_updateCell_self (kt : Kite) (c : Nat × Nat × Nat) :
    (updateCell k p u kt c).acc k kt.setB (cellIndex p c) = cellUpdated p u c (kt.acc k kt.setB (cellIndex p c)) := by
  rw [Kite.acc, updateCell, accSet_setAcc_self]
  simp

theorem acc_updateCell_ne (kt : Kite) {c : Nat × Nat × Nat} {m : Nat} (h : m ≠ cellIndex p c) :
    (updateCell k p u kt c).acc k kt.setB m = kt.acc k kt.setB m := by
  rw [Kite.acc, updateCell, accSet_setAcc_self]
  simp only [mapGet_mapSet_ne _ _ _ _ h]
  rfl

theorem acc_updateCell_not (kt : Kite) (c : Nat × Nat × Nat) (m : Nat) :
    (updateCell k p u kt c).acc k (!kt.setB) m = kt.acc k (!kt.setB) m := by
  rw [Kite.acc, updateCell, accSet_setAcc_not]
  rfl

theorem updateCells_accsOnly (l : List (Nat × Nat × Nat)) (kt : Kite) : accsOnly kt (l.foldl (updateCell k p u) kt) := by
  induction l generalizing kt with
  | nil => exact ⟨kt.accA, kt.accB, rfl⟩
  | cons c l ih =>
    obtain ⟨x, y, h⟩ := updateCell_accsOnly k p u kt c
    obtain ⟨x', y', h'⟩ := ih (updateCell k p u kt c)
    exact ⟨x', y', by rw [List.foldl_cons, h', h]⟩

theorem acc_updateCells_not (l : List (Nat × Nat × Nat)) (kt : Kite) (m : Nat) :
    (l.foldl (updateCell k p u) kt).acc k (!kt.setB) m = kt.acc k (!kt.setB) m := by
  induction l generalizing kt with
  | nil => rfl
  | cons c l ih => rw [List.foldl_cons, ← updateCell_setB k p u kt c, ih, updateCell_setB, acc_updateCell_not]

/-- A container of no coordinate keeps its value. -/
theorem acc_updateCells_ne {l : List (Nat × Nat × Nat)} {m : Nat} (h : ∀ c ∈ l, m ≠ cellIndex p c) (kt : Kite) :
    (l.foldl (updateCell k p u) kt).acc k kt.setB m = kt.acc k kt.setB m := by
  induction l generalizing kt with
  | nil => rfl
  | cons c l ih =>
    rw [List.foldl_cons, ← updateCell_setB k p u kt c, ih (fun d hd => h d (List.mem_cons_of_mem c hd)), updateCell_setB,
      acc_updateCell_ne k p u kt (h c List.mem_cons_self)]

/-- With a container of its own, each coordinate is updated once, from the value it held. -/
theorem acc_updateCells_mem {l : List (Nat × Nat × Nat)} (hl : (l.map (cellIndex p)).Nodup) {c : Nat × Nat × Nat} (hc : c ∈ l) (kt : Kite) :
    (l.foldl (updateCell k p u) kt).acc k kt.setB (cellIndex p c) = cellUpdated p u c (kt.acc k kt.setB (cellIndex p c)) := by
  induction l generalizing kt with
  | nil => cases hc
  | cons d l ih =>
    obtain ⟨hd, hl⟩ := List.nodup_cons.1 hl
    have hne : ∀ e ∈ l, cellIndex p d ≠ cellIndex p e := fun e he h => hd (h ▸ List.mem_map_of_mem he)
    rw [List.foldl_cons]
    obtain rfl | hc := List.mem_cons.1 hc
    · rw [← updateCell_setB k p u kt c, acc_updateCells_ne k p u hne, updateCell_setB, acc_updateCell_self]
    · rw [← updateCell_setB k p u kt d, ih hl hc, updateCell_setB, acc_updateCell_ne k p u kt (hne c hc).symm]

end

theorem mem_cells {p : Pass} {g i j : Nat} : (g, i, j) ∈ p.cells ↔ g < p.groups ∧ i < p.cfg.rows ∧ j < p.cfg.cols := by
  simp [Pass.cells]

/-- Within the arrangement's extents no two coordinates share a container. -/
theorem container_injective {X Y g i j g' i' j' : Nat} (hi : i < X) (hj : j < Y) (hi' : i' < X) (hj' : j' < Y)
    (h : g * (X * Y) + i * Y + j = g' * (X * Y) + i' * Y + j') : g = g' ∧ i = i' ∧ j = j' := by
  have hY : 0 < Y := Nat.zero_lt_of_lt hj
  have hassoc : ∀ a b : Nat, a * (X * Y) + b * Y = (a * X + b) * Y := fun a b => by rw [Nat.add_mul, Nat.mul_assoc]
  rw [hassoc, hassoc] at h
  have hrow : g * X + i = g' * X + i' := by
    have := congrArg (· / Y) h
    simpa [Nat.mul_comm _ Y, Nat.mul_add_div hY, Nat.div_eq_of_lt hj, Nat.div_eq_of_lt hj'] using this
  have hX : 0 < X := Nat.zero_lt_of_lt hi
  have hg : g = g' := by
    have := congrArg (· / X) hrow
    simpa [Nat.mul_comm _ X, Nat.mul_add_div hX, Nat.div_eq_of_lt hi, Nat.div_eq_of_lt hi'] using this
  subst hg
  rw [hrow] at h
  omega

theorem cells_cellIndex_nodup {p : Pass} (hr : p.cfg.rows ≤ p.cfg.shape.2.1) (hc : p.cfg.cols ≤ p.cfg.shape.2.2) :
    (p.cells.map (cellIndex p)).Nodup := by
  refine List.Nodup.map_on ?_ ?_
  · rintro ⟨g, i, j⟩ h ⟨g', i', j'⟩ h' heq
    obtain ⟨-, hi, hj⟩ := mem_cells.1 h
    obtain ⟨-, hi', hj'⟩ := mem_cells.1 h'
    obtain ⟨rfl, rfl, rfl⟩ := container_injective (hi.trans_le hr) (hj.trans_le hc) (hi'.trans_le hr) (hj'.trans_le hc) heq
    rfl
  · have hcells : p.cells = List.range p.groups ×ˢ (List.range p.cfg.rows ×ˢ List.range p.cfg.cols) := by
      simp only [Pass.cells, SProd.sprod, List.product, List.map_flatMap, List.map_map]
      rfl
    rw [hcells]
    exact List.nodup_range.product (List.nodup_range.product List.nodup_range)

/-- Settles O14: the enabled coordinates have containers of their own, each updated once. -/
theorem groupUpdateResult : Obligations.GroupUpdateResult := by
  unfold Obligations.GroupUpdateResult
  intro k p n kt hr hc u index
  refine ⟨fun g i j hg hi hj => ?_, fun m hm => ?_, acc_updateCells_not k p n p.cells kt, accsOnly_iff.1 (updateCells_accsOnly k p n p.cells kt)⟩
  · have h := acc_updateCells_mem k p n (cells_cellIndex_nodup hr hc) (mem_cells.2 ⟨hg, hi, hj⟩) kt
    simp only [cellUpdated, Bool.and_eq_true, decide_eq_true_eq, beq_iff_eq] at h
    exact h
  · refine acc_updateCells_ne k p n (fun c hmem => ?_) kt
    obtain ⟨hg, hi, hj⟩ := mem_cells.1 hmem
    exact hm _ _ _ hg hi hj

/-! ### The events of the engine (R74, R76, R80, R86) -/

/-- The entry of key `n` of a list put under the keys from `m` on. -/
theorem mapGet_zipIdx {α : Type} (l : List α) (m n : Nat) :
    mapGet ((l.zipIdx m).map fun x => (x.2, x.1)) (m + n) = l[n]? := by
  induction l generalizing m n with
  | nil => rfl
  | cons x l ih =>
    simp only [List.zipIdx_cons, List.map_cons, mapGet]
    cases n with
    | zero => exact if_pos rfl
    | succ n => rw [if_neg (by omega), ← Nat.add_assoc, Nat.add_right_comm, ih]; rfl

theorem passesEnd_single {k t : Nat} {kt : Kite} {p : Pass} (hp : kt.passes = [p]) (ht : p.lastUpdate = t) : passesEnd k t kt =
    { groupUpdate k p (p.groupCount - 1) kt with mPasses := (kt.mPasses + 1) % 2 ^ 48, passes := [] } := by
  obtain ⟨x, y, hu⟩ := updateCells_accsOnly k p (p.groupCount - 1) p.cells kt
  rw [← groupUpdate_eq] at hu
  simp only [passesEnd, hp, List.filter_cons, List.filter_nil, ht, beq_self_eq_true, if_true, List.foldl_cons, List.foldl_nil, wrapAdd]
  rw [hu]
  simp only [hp, List.filter_cons, List.filter_nil, ht, bne_self_eq_false, Bool.false_eq_true, if_false]

/-- The set that a complete seed leaves. -/
def seeded (kt : Kite) (d : Seed) : Kite :=
  { kt.setAcc d.set ⟨false, d.cells.zipIdx.map fun x => (x.2, x.1)⟩ with seed := none }

theorem seeded_accsOnly (kt : Kite) (d : Seed) : seeded kt d = { kt with accA := (seeded kt d).accA, accB := (seeded kt d).accB, seed := none } := by
  obtain ⟨x, y, h⟩ := accsOnly_setAcc kt d.set ⟨false, d.cells.zipIdx.map fun x => (x.2, x.1)⟩
  rw [seeded, h]

theorem acc_seeded_self (kt : Kite) (d : Seed) (k : Nat) {n : Nat} (hn : n < d.cells.length) :
    (seeded kt d).acc k d.set n = d.cells.getD n 0 := by
  have hset : (seeded kt d).accSet d.set = ⟨false, d.cells.zipIdx.map fun x => (x.2, x.1)⟩ := accSet_setAcc_self kt d.set _
  have hget := mapGet_zipIdx d.cells 0 n
  rw [Nat.zero_add] at hget
  rw [Kite.acc, hset]
  simp [hget, hn]

theorem acc_seeded_not (kt : Kite) (d : Seed) (k n : Nat) : (seeded kt d).acc k (!d.set) n = kt.acc k (!d.set) n := by
  have hset : (seeded kt d).accSet (!d.set) = kt.accSet (!d.set) := accSet_setAcc_not kt d.set _
  rw [Kite.acc, hset]
  rfl

theorem hazBlind_seeded (d : Seed) : HazBlind fun x => seeded x d := by
  unfold seeded Kite.setAcc
  cases d.set <;> exact ⟨fun _ _ _ _ _ _ _ => rfl, fun _ => rfl⟩

section
variable {k tv : Nat} {kt : Kite} {d : Seed} (hd : kt.seed = some d) (hn : 16384 ≤ d.cells.length)
include hd hn

theorem seedEnd_complete : seedEnd k tv kt = seeded (kt.hazardAtIf (kt.drains tv && d.set == !kt.setB) k d.pc 6 1) d := by
  rw [seedEnd, hd]
  exact if_pos hn

theorem seedDue_complete : kt.seedDue = true := by
  rw [Kite.seedDue, hd]
  exact decide_eq_true hn

end

theorem drainWrite_live {k : Nat} {kt : Kite} {d : Drain} (hd : kt.drain = some d)
    (hb : kt.bankLive (bankOf ((d.row + d.next) % 16384)) = true) :
    (drainWrite k kt).drain = some { d with next := d.next + 1 } ∧
      (drainWrite k kt).banks = kt.banks ∧
      (drainWrite k kt).rows = mapSet kt.rows ((d.row + d.next) % 16384) (drainRow k kt d.set d.next % 2 ^ rowBits) := by
  simp only [drainWrite, hd, Kite.writeRow, wrapRow, spadRows, hb, if_true, and_self]

theorem getLsbD_eq_bit {w : Nat} (v : BitVec w) (i : Nat) : v.getLsbD i = bit v.toNat i := by
  rw [bit, BitVec.getLsbD, Nat.testBit_eq_decide_div_mod_eq, beq_eq_decide]

/-- Settles O15: each event is due in the cycle that the statement names, and its effect is that of its function. -/
theorem matrixEvents : Obligations.MatrixEvents := by
  unfold Obligations.MatrixEvents
  intro k s kt t
  refine ⟨fun p hh hp ht => ?last, fun l q hh hl hpairs hq ht => ?deflation, fun d hd hn => ?seed, fun v hup hgo hst => ?drain,
    fun d hd hb => ?row, fun d hd hn => ?done⟩
  case last =>
    have hdue : p.lastUpdate = t := ht
    have hevs : (groupUpdate k p (p.groupCount - 1) kt).evs = [] := by
      obtain ⟨x, y, hu⟩ := updateCells_accsOnly k p (p.groupCount - 1) p.cells kt
      rw [groupUpdate_eq, hu]
      rfl
    refine keeps_of_put ?_ hevs
    rw [exec_passLastUpdate, execPassLastUpdate, ← passesEnd_single hp hdue]
    have hlast : kt.lastUpdateDue t = true := by simp [Kite.lastUpdateDue, hp, hdue]
    exact congrArg _ (if_pos (show (kt.hold.isNone && kt.lastUpdateDue t) = true by rw [hh, hlast]; rfl))
  case deflation =>
    have hdue : deflationDue l t = true := by
      simp only [deflationDue, Bool.and_eq_true, decide_eq_true_eq, beq_iff_eq]
      omega
    have hpairsLeft : deflatedPairs l t = q := by
      rw [deflatedPairs]
      omega
    refine keeps_of_put ?_ rfl
    rw [exec_deflation, execDeflation, ← hpairsLeft]
    have hdefl : deflate t kt = { kt with pairs := min kt.pairs (deflatedPairs l t) } := by
      rw [deflate, hl]
      exact if_pos hdue
    rw [← hdefl]
    have hdefls : kt.deflates t = true := by simp [Kite.deflates, hl, hpairs, hdue]
    exact congrArg _ (if_pos (show (kt.hold.isNone && kt.deflates t) = true by rw [hh, hdefls]; rfl))
  case seed =>
    have hexec : exec (.mseedComplete k) s = .next (s.putKite k (seedEnd k (kt.tv s.cyc) kt)) := by
      rw [exec_mseedComplete, execMseedComplete]
      exact congrArg _ (if_pos (seedDue_complete hd hn))
    rw [seedEnd_complete hd hn] at hexec
    refine ⟨seeded kt d, seeded_accsOnly kt d, fun n => acc_seeded_self kt d k, acc_seeded_not kt d k, fun hdr => ?_, ?_⟩
    · rw [hdr, Bool.false_and] at hexec
      exact keeps_of_put hexec ((hazBlind_seeded d).evs kt)
    · exact ⟨_, hexec, putKite_hazardOnly (reported_of_hazStep ((hazBlind_seeded d).hazStep (Kite.hazardAtIf_step kt _ k d.pc 6 1)) ⟨_, rfl⟩ (by rw [(hazBlind_seeded d).evs]; nofun)) ((hazBlind_seeded d).evs kt)⟩
  case drain =>
    refine keeps_of_put ?_ rfl
    rw [exec_testDrain, execTestDrain, if_pos hup, getLsbD_eq_bit, mtestWrite, if_neg (by simp [← getLsbD_eq_bit, hgo])]
    exact congrArg _ (congrArg (s.putKite k) (if_pos hst))
  case row =>
    intro u
    obtain ⟨hdrain, hbanks, hrows⟩ := drainWrite_live hd hb
    refine ⟨hdrain, ?_, fun r hr => ?_⟩
    · simp [Kite.rowRaw, u, hrows, drainRow]
    · simp only [Kite.rowRaw, u, hrows, mapGet_mapSet_ne _ _ _ _ hr, Kite.bank, hbanks]
  case done =>
    have hdue : kt.drainDue = true := by
      rw [Kite.drainDue, hd]
      exact decide_eq_true hn
    refine keeps_of_put ?_ rfl
    rw [exec_testDrainDone, execTestDrainDone]
    exact congrArg _ ((if_pos hdue).trans (congrArg (s.putKite k) (if_pos hdue)))

end Sys2Proof.Stated
end

section
/-! SUPPORT. Bit fields of rows and registers (R6, R31, R89, R129): what a field holds after others are replaced, and the register
and scratchpad writes of the keel. -/
namespace Sys2Proof.Stated
open Sys2Proof.Machine

/-! ### Bit fields -/

@[simp] theorem testBit_bits (x lo w j : Nat) : (bits x lo w).testBit j = (decide (j < w) && x.testBit (lo + j)) := by
  rw [bits, Nat.testBit_mod_two_pow, Nat.testBit_div_two_pow, Nat.add_comm]

/-- A replaced field is the new value inside, and the old one outside. -/
theorem testBit_setBits (x lo len v j : Nat) : (setBits x lo len v).testBit j =
    if lo ≤ j ∧ j < lo + len then v.testBit (j - lo) else x.testBit j := by
  have hlow : v % 2 ^ len * 2 ^ lo + x % 2 ^ lo < 2 ^ (lo + len) := by
    have hv : v % 2 ^ len < 2 ^ len := Nat.mod_lt _ (Nat.two_pow_pos len)
    have hx : x % 2 ^ lo < 2 ^ lo := Nat.mod_lt _ (Nat.two_pow_pos lo)
    calc v % 2 ^ len * 2 ^ lo + x % 2 ^ lo < v % 2 ^ len * 2 ^ lo + 2 ^ lo := Nat.add_lt_add_left hx _
      _ = (v % 2 ^ len + 1) * 2 ^ lo := (Nat.succ_mul _ _).symm
      _ ≤ 2 ^ len * 2 ^ lo := Nat.mul_le_mul_right _ hv
      _ = 2 ^ (lo + len) := by rw [Nat.pow_add, Nat.mul_comm]
  rw [setBits, Nat.add_assoc, Nat.mul_comm, Nat.testBit_two_pow_mul_add _ hlow, Nat.mul_comm (v % 2 ^ len),
    Nat.testBit_two_pow_mul_add _ (Nat.mod_lt _ (Nat.two_pow_pos lo))]
  simp only [Nat.testBit_div_two_pow, Nat.testBit_mod_two_pow]
  by_cases h1 : j < lo + len
  · by_cases h2 : j < lo
    · simp [h1, h2, Nat.not_le.2 h2]
    · have h3 : j - lo < len := by omega
      simp [h1, h2, h3, Nat.not_lt.1 h2]
  · have h2 : j - (lo + len) + (lo + len) = j := by omega
    simp [h1, h2]

/-- A field inside the replaced one is read from the new value. -/
theorem bits_setBits_inside {lo len a w : Nat} (x v : Nat) (h : a + w ≤ len) : bits (setBits x lo len v) (lo + a) w = bits v a w := by
  refine Nat.eq_of_testBit_eq fun j => ?_
  simp only [testBit_bits, testBit_setBits]
  by_cases hj : j < w
  · have hin : lo ≤ lo + a + j ∧ lo + a + j < lo + len := by omega
    have hsub : lo + a + j - lo = a + j := by omega
    simp [hin, hsub]
  · simp [hj]

/-- A field beside the replaced one keeps its value. -/
theorem bits_setBits_beside {lo len a w : Nat} (x v : Nat) (h : a + w ≤ lo ∨ lo + len ≤ a) :
    bits (setBits x lo len v) a w = bits x a w := by
  refine Nat.eq_of_testBit_eq fun j => ?_
  simp only [testBit_bits, testBit_setBits]
  by_cases hj : j < w
  · have hout : ¬(lo ≤ a + j ∧ a + j < lo + len) := by omega
    simp [hout]
  · simp [hj]

/-- Packed elements are read back one by one. -/
theorem bits_packElems (w : Nat) (l : List Nat) (i : Nat) : bits (packElems w l) (i * w) w = l.getD i 0 % 2 ^ w := by
  induction l generalizing i with
  | nil => simp [packElems, bits]
  | cons x l ih =>
    have hx : x % 2 ^ w < 2 ^ w := Nat.mod_lt _ (Nat.two_pow_pos w)
    cases i with
    | zero => simp [packElems, bits]
    | succ i =>
      rw [packElems, Nat.add_comm, bits, Nat.add_mul, Nat.one_mul, Nat.pow_add, Nat.mul_comm (2 ^ (i * w)),
        ← Nat.div_div_eq_div_mul, Nat.mul_add_div (Nat.two_pow_pos w), Nat.div_eq_of_lt hx, Nat.add_zero]
      exact ih i

/-! ### Register writes and stores of the keel (R129, R152, R184) -/

theorem sreg_mapSet_self (kt : Kite) (n : Nat) (v : Word) : Kite.sreg { kt with sregs := mapSet kt.sregs n v, sq := [] } n = v := by
  simp [Kite.sreg, mapGetD]

theorem sreg_mapSet_ne (kt : Kite) {n m : Nat} (v : Word) (h : m ≠ n) :
    Kite.sreg { kt with sregs := mapSet kt.sregs n v, sq := [] } m = kt.sreg m := by
  simp only [Kite.sreg, mapGetD, mapGet_mapSet_ne _ _ _ _ h]

theorem applyWrites_single {kt : Kite} {t n : Nat} {v : Word} (h : kt.sq = [⟨t + 1, false, .s n, v⟩]) (tv : Nat) (vec : Bool) :
    kt.applyWrites t tv vec true = { kt with sregs := mapSet kt.sregs n v, sq := [] } := by
  simp [Kite.applyWrites, h, Kite.setReg]

section
variable {kt : Kite} {k a : Nat} (n v : Nat) (hb : kt.bankLive (bankOf (a / 512)) = true)
include hb

theorem storeBytes_rows : (kt.storeBytes k a n v).rows =
    mapSet kt.rows (a / 512) (setBits (kt.rowRaw k (a / 512)) (a % 512 * 8) (n * 8) v) ∧ (kt.storeBytes k a n v).banks = kt.banks := by
  rw [Kite.storeBytes, if_pos hb]
  exact ⟨rfl, rfl⟩

theorem rowRaw_storeBytes_self : (kt.storeBytes k a n v).rowRaw k (a / 512) = setBits (kt.rowRaw k (a / 512)) (a % 512 * 8) (n * 8) v := by
  rw [Kite.rowRaw, (storeBytes_rows n v hb).1, mapGet_mapSet_self, Option.getD_some]

theorem rowRaw_storeBytes_ne {r : Nat} (hr : r ≠ a / 512) : (kt.storeBytes k a n v).rowRaw k r = kt.rowRaw k r := by
  obtain ⟨hrows, hbanks⟩ := storeBytes_rows (k := k) n v hb
  simp only [Kite.rowRaw, hrows, mapGet_mapSet_ne _ _ _ _ hr, Kite.bank, hbanks]

end

/-- Settles O5: a queued write sets its register alone, and a store replaces the bits of its bytes alone. -/
theorem scalarWritesTakeEffect : Obligations.ScalarWritesTakeEffect := by
  unfold Obligations.ScalarWritesTakeEffect
  refine ⟨fun kt t tv n v vec hsq => ?_, fun kt k a n v _ hb => ⟨fun i hi => ?_, fun b _ hout => ?_, fun r => rowRaw_storeBytes_ne n v hb⟩⟩
  · rw [applyWrites_single hsq]
    exact ⟨rfl, sreg_mapSet_self kt n v, fun m => sreg_mapSet_ne kt v⟩
  · rw [rowRaw_storeBytes_self n v hb, Nat.add_mul]
    exact bits_setBits_inside _ _ (by omega)
  · rw [rowRaw_storeBytes_self n v hb]
    exact bits_setBits_beside _ _ (by omega)

end Sys2Proof.Stated
end

section
/-! SUPPORT. The V slot (R89–R94, R118, R119, R187–R194): how an instruction starts on its unit or is turned away, and what
a chunk writes. -/
namespace Sys2Proof.Stated
open Sys2Proof.Machine

/-! ### Issue (R90–R92) -/

theorem setVrun_evs (kt : Kite) (r : VRun) : (kt.setVrun r).evs = kt.evs := by
  unfold Kite.setVrun
  split <;> rfl

theorem setVrun_stopped (kt : Kite) (r : VRun) : (kt.setVrun r).stopped = kt.stopped := by
  unfold Kite.setVrun
  split <;> rfl

theorem hazBlind_setVrun (r : VRun) : HazBlind fun x => x.setVrun r := by
  unfold Kite.setVrun
  constructor
  · intro x c p sl n st es
    cases r.kind.unit <;> rfl
  · intro x
    cases r.kind.unit <;> rfl

theorem hazBlind_vDiscard (n : Nat) : HazBlind fun x => { x with vDiscard := n } := ⟨fun _ _ _ _ _ _ _ => rfl, fun _ => rfl⟩

theorem hazStep_scalar {a b : Kite} (h : hazStep a b) (v : VKind) : v.scalar b = v.scalar a := by
  rw [h.1]
  cases v <;> rfl

/-- An instruction that names a busy unit is discarded. -/
theorem discarded_of_busy {i : Instr} {k : Fin 256} {s : State} (h : issuing s k)
    (hi : exec i s = .next (s.putKite k (vbusyDiscard k (s.kite k)))) :
    refuses i k { s.kite k with vDiscard := min ((s.kite k).vDiscard + 1) 4294967295 } evVbusy s :=
  refuses_of_event_reports ((hazBlind_vDiscard (satAdd 32 (s.kite k).vDiscard 1)).hazStep (Kite.hazard_step ((s.kite k).event k .s evVbusy) k 10 2))
    hi rfl rfl (issuing_stopped h)

section
variable {i : Instr} {k : Fin 256} {s : State} {v : VKind} {chk : Kite → Option Exc} (h : issuing s k)
  (hi : exec i s = execSlot k 2 chk (fun _ tv kt => issueV k tv v kt) s) (hc : chk (s.kite k) = none)
include h hi hc

/-- A well-encoded V-slot instruction starts on its free unit, is refused for its count, or is discarded at a busy unit. -/
theorem onUnit_of_execSlot : onUnit i k v s := by
  have hs := issuing_stopped h
  refine ⟨fun hfree hcount => ?_, fun hbusy => ?_, fun hfree hcount => ?_⟩
  · have hx := hazStep_trans (Kite.readHaz_step (s.kite k) k 2 v.sreads) (Kite.hazardIf_step ((s.kite k).readHaz k 2 v.sreads)
      (v.isAcc && (s.kite k).shadowNow ((s.kite k).t ((s.kite k).tv s.cyc + (s.kite k).lagV))) k 6 1)
    refine slotDone_of_reports (hazBlind_setVrun _) hx h hi hc ?_ ((setVrun_stopped _ _).trans hs)
    rw [← hazStep_scalar hx v, ← hazStep_ipc hx, issueV, if_neg (Bool.eq_false_iff.1 hfree), if_pos hcount]
  · exact discarded_of_busy h (exec_of_execSlot h hi hc (if_pos hbusy))
  · exact refuses_of_event (exec_of_execSlot h hi hc ((if_neg (Bool.eq_false_iff.1 hfree)).trans (if_neg (Bool.eq_false_iff.1 hcount)))) rfl rfl hs

end

section
variable {k : Fin 256} {s : State} (h : issuing s k)
include h

theorem alu_onUnit {i : Instr} {f : VA} {fn : AluFn}
    (hi : exec i s = execSlot k 2 (fun kt => orExc (chkVa fn f) (chkVaCount kt s.cyc f)) (fun _ tv kt => issueV k tv (.alu fn f) kt) s)
    (hc : chkVa fn f = none ∧ chkVaCount (s.kite k) s.cyc f = none) : onUnit i k (.alu fn f) s :=
  onUnit_of_execSlot h hi (orExc_eq_none_iff.2 hc)

end

/-- Settles O16: every V-slot instruction issues by one rule, behind its own checks. -/
theorem vectorSlotEffects : Obligations.VectorSlotEffects := by
  unfold Obligations.VectorSlotEffects
  intro k s h ok
  refine ⟨fun f => ?alu, fun f => onUnit_of_execSlot h (exec_cvt k f s), fun f hc => ?sfu,
    fun f hc hn => onUnit_of_execSlot h (exec_vshuf k f s) (orExc_eq_none_iff.2 ⟨hc, hn⟩),
    fun f => onUnit_of_execSlot h (exec_vtree k f s), fun f => onUnit_of_execSlot h (exec_vacc k f s),
    fun f => onUnit_of_execSlot h (exec_vsum k f s),
    fun f hc => ⟨onUnit_of_execSlot h (exec_vld k f s) hc, onUnit_of_execSlot h (exec_vst k f s) hc⟩⟩
  case alu =>
    exact ⟨alu_onUnit h (exec_vadd k f s), alu_onUnit h (exec_vsub k f s), alu_onUnit h (exec_vmul k f s),
      alu_onUnit h (exec_vfma k f s), alu_onUnit h (exec_vmin k f s), alu_onUnit h (exec_vmax k f s),
      alu_onUnit h (exec_vneg k f s), alu_onUnit h (exec_vabs k f s), alu_onUnit h (exec_vceq k f s),
      alu_onUnit h (exec_vcne k f s), alu_onUnit h (exec_vclt k f s), alu_onUnit h (exec_vcle k f s),
      alu_onUnit h (exec_vcgt k f s), alu_onUnit h (exec_vcge k f s), alu_onUnit h (exec_vsel k f s),
      alu_onUnit h (exec_vand k f s), alu_onUnit h (exec_vor k f s), alu_onUnit h (exec_vxor k f s),
      alu_onUnit h (exec_vshl k f s), alu_onUnit h (exec_vshr k f s), alu_onUnit h (exec_vsra k f s)⟩
  case sfu =>
    exact ⟨onUnit_of_execSlot h (exec_vexp2 k f s) hc, onUnit_of_execSlot h (exec_vlog2 k f s) hc,
      onUnit_of_execSlot h (exec_vrcp k f s) hc, onUnit_of_execSlot h (exec_vrsqrt k f s) hc,
      onUnit_of_execSlot h (exec_vsqrt k f s) hc, onUnit_of_execSlot h (exec_vsinpi k f s) hc,
      onUnit_of_execSlot h (exec_vcospi k f s) hc, onUnit_of_execSlot h (exec_vtanh k f s) hc,
      onUnit_of_execSlot h (exec_vlogi k f s) hc, onUnit_of_execSlot h (exec_verf k f s) hc⟩

/-! ### Chunks (R89–R91) -/

/-- A single queued register write that is due replaces its bits of its register. -/
theorem applyVec_single {kt : Kite} {k tv : Nat} {w : VWrite} (hw : w.isDue tv = true) :
    ({ kt with vq := [w] }.applyVec k tv) =
      { kt with vregs := mapSet kt.vregs w.reg (setBits (kt.vreg k w.reg) w.lo w.len w.val), vq := [] } := by
  simp only [Kite.applyVec, hw, List.filter_cons, List.filter_nil, if_true, Bool.not_true, Bool.false_eq_true, if_false, sortBy,
    List.foldr_cons, List.foldr_nil, sortIns, List.foldl_cons, List.foldl_nil, Kite.vset]
  rfl

section
variable (kt : Kite) (k n v : Nat)

theorem vreg_mapSet_self : Kite.vreg { kt with vregs := mapSet kt.vregs n v, vq := [] } k n = v := by
  rw [Kite.vreg, mapGet_mapSet_self, Option.getD_some]

theorem vreg_mapSet_ne {r : Nat} (h : r ≠ n) : Kite.vreg { kt with vregs := mapSet kt.vregs n v, vq := [] } k r = kt.vreg k r := by
  rw [Kite.vreg, mapGet_mapSet_ne _ _ _ _ h, Kite.vreg]

end

/-- The write that a chunk of an element-wise instruction queues: its elements, packed, at their place in Vd. -/
theorem vchunk_alu (k tv : Nat) (kt : Kite) (fn : AluFn) (f : VA) (t0 n occ sc pc c : Nat) :
    vchunk k tv ⟨.alu fn f, t0, n, occ, sc, pc⟩ c kt =
      [elemWrite t0 (tv + aluLat (fmtOf f.fmt)) f.vd.toNat (if fn.isCmp then 32 else (fmtOf f.fmt).width) (c * aluRate fn (fmtOf f.fmt))
        ((List.range (min (aluRate fn (fmtOf f.fmt)) (n - c * aluRate fn (fmtOf f.fmt)))).map fun i =>
          aluAt kt k fn f sc (c * aluRate fn (fmtOf f.fmt) + i))] := rfl

/-- What a due write of elements leaves: the elements at their places, everything else of the register, and the other registers. -/
theorem elemWrite_applied {kt u : Kite} {k tv iss due reg w first : Nat} {xs : List Nat} (hdue : due ≤ tv + 1)
    (hu : u = { kt with vq := [elemWrite iss due reg w first xs] }.applyVec k tv) :
    u = { kt with vregs := u.vregs, vq := [] } ∧
      (∀ i, first ≤ i → i < first + xs.length → u.velem k reg w i = xs.getD (i - first) 0 % 2 ^ w) ∧
      (∀ i, i < first ∨ first + xs.length ≤ i → u.velem k reg w i = kt.velem k reg w i) ∧
      ∀ r, r ≠ reg → u.vreg k r = kt.vreg k r := by
  rw [applyVec_single (decide_eq_true hdue)] at hu
  subst hu
  refine ⟨rfl, fun i hlo hhi => ?_, fun i hout => ?_, fun r => vreg_mapSet_ne kt k _ _⟩
  · have hi : i * w = first * w + (i - first) * w := by rw [← Nat.add_mul, Nat.add_sub_cancel' hlo]
    have hfit : (i - first) * w + w ≤ xs.length * w := by
      rw [← Nat.succ_mul]
      exact Nat.mul_le_mul_right w (by omega)
    rw [Kite.velem, hi, ← bits_packElems, ← bits_setBits_inside _ _ hfit]
    exact congrArg (bits · _ _) (vreg_mapSet_self kt k _ _)
  · have hout : i * w + w ≤ first * w ∨ first * w + xs.length * w ≤ i * w := by
      obtain h | h := hout
      · exact .inl (Nat.succ_mul i w ▸ Nat.mul_le_mul_right w h)
      · exact .inr (Nat.add_mul _ _ w ▸ Nat.mul_le_mul_right w h)
    rw [Kite.velem, Kite.velem, ← bits_setBits_beside (kt.vreg k reg) (packElems w xs) hout]
    exact congrArg (bits · _ _) (vreg_mapSet_self kt k _ _)

/-- Settles O17: a chunk queues one write, of its elements, which is due in the cycle named. -/
theorem vectorElementsWritten : Obligations.VectorElementsWritten := by
  unfold Obligations.VectorElementsWritten
  intro k kt fn f t0 tv n occ sc pc c x w e ws u
  have hdue : tv + aluLat x ≤ tv + aluLat x - 1 + 1 := Nat.le_succ_of_pred_le le_rfl
  have hu : u = { kt with vq := [elemWrite t0 (tv + aluLat x) f.vd.toNat w (c * e)
      ((List.range (min e (n - c * e))).map fun i => aluAt kt k fn f sc (c * e + i))] }.applyVec k (tv + aluLat x - 1) :=
    congrArg (fun ws => { kt with vq := ws }.applyVec k (tv + aluLat x - 1)) (vchunk_alu k tv kt fn f t0 n occ sc pc c)
  obtain ⟨hkt, hin, hout, hrest⟩ := elemWrite_applied hdue hu
  rw [List.length_map, List.length_range] at hin hout
  refine ⟨hkt, fun i hlo hhi => ?_, hout, hrest⟩
  have hi : i - c * e < min e (n - c * e) := by omega
  rw [hin i hlo hhi, List.getD_eq_getElem?_getD, List.getElem?_map, List.getElem?_range hi]
  simp only [Option.map_some, Option.getD_some, Nat.add_sub_cancel' hlo]

end Sys2Proof.Stated
end

section
/-! SUPPORT. The element-wise operations on INT32 (R94, R188, Table 9.6), as operations on words of 32 bits; the start and the end of a
chain (R118, R119). -/
namespace Sys2Proof.Stated
open Sys2Proof.Machine

/-! ### Whole numbers as values -/

theorem scaled_ofInt (x : Int) : scaled (decide (x < 0)) x.natAbs 0 0 = x := by
  unfold scaled
  by_cases h : x < 0
  · simp only [h, decide_true, if_true, sub_self, Int.toNat_zero, pow_zero, mul_one]
    omega
  · simp only [h, decide_false, Bool.false_eq_true, if_false, sub_self, Int.toNat_zero, pow_zero, mul_one]
    omega

theorem ofInt_lt (x y : Int) : (Val.ofInt x).lt (Val.ofInt y) = decide (x < y) := by
  simp only [Val.ofInt, Val.lt, cmpFin, min_self, scaled_ofInt, sub_neg]

theorem ofInt_eqv (x y : Int) : (Val.ofInt x).eqv (Val.ofInt y) = decide (x = y) := by
  simp only [Val.ofInt, Val.eqv, cmpFin, min_self, scaled_ofInt, sub_eq_zero]

theorem sext_toNat (A : BitVec 32) : sext 32 A.toNat = A.toInt := by
  have h := A.isLt
  rw [sext, BitVec.toInt_eq_toNat_cond, Nat.mod_eq_of_lt h]
  split <;> split <;> omega

theorem decode_int32 (A : BitVec 32) : Fmt.decode .int32 A.toNat = Val.ofInt A.toInt :=
  congrArg Val.ofInt (sext_toNat A)

/-! ### The operations -/

/-- What an operation gives of two words of 32 bits, as a word. -/
def wordOp (fn : AluFn) (A B : BitVec 32) : BitVec 32 := BitVec.ofNat 32 (aluElem fn .int32 A.toNat B.toNat 0)

section
variable (A B : BitVec 32)

theorem wordOp_add : wordOp .add A B = A + B := by
  apply BitVec.eq_of_toNat_eq
  simp [wordOp, aluElem]

theorem wordOp_sub : wordOp .sub A B = A - B := by
  apply BitVec.eq_of_toNat_eq
  simp only [wordOp, aluElem, if_true, BitVec.toNat_ofNat, BitVec.toNat_sub]
  omega

theorem wordOp_mul : wordOp .mul A B = A * B := by
  apply BitVec.eq_of_toNat_eq
  simp [wordOp, aluElem]

theorem wordOp_and : wordOp .and A B = A &&& B := by
  simp [wordOp, aluElem]

theorem wordOp_or : wordOp .or A B = A ||| B := by
  simp [wordOp, aluElem]

theorem wordOp_xor : wordOp .xor A B = A ^^^ B := by
  simp [wordOp, aluElem]

theorem wordOp_shl : wordOp .shl A B = A <<< (B.toNat % 32) := by
  apply BitVec.eq_of_toNat_eq
  simp [wordOp, aluElem, Nat.shiftLeft_eq]

theorem wordOp_shr : wordOp .shr A B = A >>> (B.toNat % 32) := by
  apply BitVec.eq_of_toNat_eq
  simp only [wordOp, aluElem, BitVec.toNat_ofNat, BitVec.toNat_ushiftRight, Nat.shiftRight_eq_div_pow]
  exact Nat.mod_eq_of_lt (lt_of_le_of_lt (Nat.div_le_self _ _) A.isLt)

theorem wordOp_sra : wordOp .sra A B = A.sshiftRight (B.toNat % 32) := by
  have hpos : (0 : Int) ≤ A.toInt / ((2 ^ (B.toNat % 32) : Nat) : Int) % ((2 ^ 32 : Nat) : Int) := Int.emod_nonneg _ (by decide)
  simp only [wordOp, aluElem, sext_toNat, wrapI, BitVec.sshiftRight, Int.shiftRight_eq_div_pow]
  apply BitVec.eq_of_toNat_eq
  rw [BitVec.toNat_ofNat, BitVec.toNat_ofInt]
  exact Nat.mod_eq_of_lt (by omega)

/-- A comparison gives 1 where its relation holds of the signed values, and else 0. -/
theorem wordOp_cmp (fn : AluFn) (p : Bool) (hfn : aluElem fn .int32 A.toNat B.toNat 0 = b2n p) :
    wordOp fn A B = if p then 1 else 0 := by
  rw [wordOp, hfn]
  cases p <;> rfl

theorem wordOp_ceq : wordOp .ceq A B = if A = B then 1 else 0 := by
  rw [wordOp_cmp A B .ceq (decide (A = B)) ?_]
  · simp only [decide_eq_true_eq]
  · simp only [aluElem, cmpElem, decode_int32, ofInt_eqv, BitVec.toInt_inj]

theorem wordOp_cne : wordOp .cne A B = if A = B then 0 else 1 := by
  rw [wordOp_cmp A B .cne (!decide (A = B)) ?_]
  · by_cases h : A = B <;> simp [h]
  · simp only [aluElem, cmpElem, decode_int32, ofInt_eqv, BitVec.toInt_inj]

theorem wordOp_clt : wordOp .clt A B = if A.toInt < B.toInt then 1 else 0 := by
  rw [wordOp_cmp A B .clt (decide (A.toInt < B.toInt)) ?_]
  · simp only [decide_eq_true_eq]
  · simp only [aluElem, cmpElem, decode_int32, ofInt_lt]

theorem wordOp_cle : wordOp .cle A B = if A.toInt ≤ B.toInt then 1 else 0 := by
  rw [wordOp_cmp A B .cle (decide (A.toInt ≤ B.toInt)) ?_]
  · simp only [decide_eq_true_eq]
  · simp only [aluElem, cmpElem, decode_int32, ofInt_lt, ofInt_eqv, ← Bool.decide_or, ← le_iff_lt_or_eq]

theorem wordOp_cgt : wordOp .cgt A B = if B.toInt < A.toInt then 1 else 0 := by
  rw [wordOp_cmp A B .cgt (decide (B.toInt < A.toInt)) ?_]
  · simp only [decide_eq_true_eq]
  · simp only [aluElem, cmpElem, decode_int32, ofInt_lt]

theorem wordOp_cge : wordOp .cge A B = if B.toInt ≤ A.toInt then 1 else 0 := by
  rw [wordOp_cmp A B .cge (decide (B.toInt ≤ A.toInt)) ?_]
  · simp only [decide_eq_true_eq]
  · simp only [aluElem, cmpElem, decode_int32, ofInt_lt, ofInt_eqv, ← Bool.decide_or, le_iff_lt_or_eq, eq_comm]

end

/-! ### Operands -/

section
variable (k : Fin 256) (kt : Kite) (f : VA) (sc i : Nat)

/-- Element `j` of register `r`, as a word. -/
def wordElem (r : BitVec 5) (j : Nat) : BitVec 32 := BitVec.ofNat 32 (kt.velem k r.toNat 32 j)

theorem wordElem_toNat (r : BitVec 5) (j : Nat) : (wordElem k kt r j).toNat = kt.velem k r.toNat 32 j :=
  Nat.mod_eq_of_lt (Nat.mod_lt _ (Nat.two_pow_pos 32))

/-- The second operand, as BMODE names it (Table 5.2). -/
def wordSecond : BitVec 32 :=
  match f.bmode.toNat with
  | 0 => wordElem k kt f.vb i
  | 1 => BitVec.ofNat 32 sc
  | 2 => wordElem k kt f.vb (i / 2 ^ f.logb.toNat)
  | _ => wordElem k kt f.vb (i % 2 ^ f.logb.toNat)

theorem wordSecond_toNat : (wordSecond k kt f sc i).toNat = secondElem kt k f 32 sc i := by
  unfold wordSecond secondElem
  generalize f.bmode.toNat = m
  match m with
  | 0 => exact wordElem_toNat _ _ _ _
  | 1 => exact BitVec.toNat_ofNat _ _
  | 2 => exact wordElem_toNat _ _ _ _
  | _ + 3 => exact wordElem_toNat _ _ _ _

variable {f} (hf : f.fmt = 14)
include hf

theorem fmtOf_int32 : fmtOf f.fmt = .int32 := by rw [hf]; rfl

/-- Of an operation of two operands, an element is that of the two words. -/
theorem aluAt_int32 {fn : AluFn} (h : ¬(fn = .neg ∨ fn = .abs)) (hc : ¬(fn = .fma ∨ fn = .sel)) :
    BitVec.ofNat 32 (aluAt kt k fn f sc i) = wordOp fn (wordElem k kt f.va i) (wordSecond k kt f sc i) := by
  have hsel : ¬fn = .sel := fun h => hc (.inr h)
  simp only [aluAt, fmtOf_int32 hf, wordOp, wordElem_toNat, wordSecond_toNat, Bool.or_eq_true, decide_eq_true_eq, if_neg h, if_neg hc,
    if_neg hsel]
  rfl

/-- VSEL takes the second operand's element where its selector is not zero, and the third's where it is. -/
theorem aluAt_sel : BitVec.ofNat 32 (aluAt kt k .sel f sc i) =
    if wordElem k kt f.va i ≠ 0 then wordSecond k kt f sc i else wordElem k kt f.vc i := by
  have hsel : aluAt kt k .sel f sc i = Fmt.canon .int32 (if (wordElem k kt f.va i).toNat % 2 ^ 32 ≠ 0 then (wordSecond k kt f sc i).toNat
      else (wordElem k kt f.vc i).toNat) := by
    rw [wordElem_toNat, wordElem_toNat, wordSecond_toNat, aluAt, fmtOf_int32 hf]
    rfl
  apply BitVec.eq_of_toNat_eq
  rw [hsel, Nat.mod_eq_of_lt (BitVec.isLt _)]
  by_cases h : wordElem k kt f.va i = 0
  · have h0 : (wordElem k kt f.va i).toNat = 0 := congrArg BitVec.toNat h
    rw [if_neg (not_not.2 h0), if_neg (not_not.2 h)]
    exact (Nat.mod_mod _ _).trans (Nat.mod_eq_of_lt (BitVec.isLt _))
  · have h0 : (wordElem k kt f.va i).toNat ≠ 0 := fun h0 => h (BitVec.eq_of_toNat_eq h0)
    rw [if_pos h0, if_pos h]
    exact (Nat.mod_mod _ _).trans (Nat.mod_eq_of_lt (BitVec.isLt _))

end

/-- Settles O18: an element of an INT32 operation is the operation on two words. -/
theorem vectorIntegerElement : Obligations.VectorIntegerElement := by
  unfold Obligations.VectorIntegerElement
  intro k kt f sc i hf el a b r
  have hr : ∀ fn, ¬(fn = .neg ∨ fn = .abs) → ¬(fn = .fma ∨ fn = .sel) → r fn = wordOp fn a b := fun fn => aluAt_int32 k kt sc i hf
  have hsel : r .sel = if a ≠ 0 then b else el f.vc i := aluAt_sel k kt sc i hf
  refine ⟨?_, ?_, ?_, ?_, ?_, ?_, ?_, ?_, ?_, ?_, ?_, ?_, ?_, ?_, ?_, hsel⟩
  · rw [hr .add (by decide) (by decide), wordOp_add]
  · rw [hr .sub (by decide) (by decide), wordOp_sub]
  · rw [hr .mul (by decide) (by decide), wordOp_mul]
  · rw [hr .and (by decide) (by decide), wordOp_and]
  · rw [hr .or (by decide) (by decide), wordOp_or]
  · rw [hr .xor (by decide) (by decide), wordOp_xor]
  · rw [hr .shl (by decide) (by decide), wordOp_shl]
  · rw [hr .shr (by decide) (by decide), wordOp_shr]
  · rw [hr .sra (by decide) (by decide), wordOp_sra]
  · rw [hr .ceq (by decide) (by decide), wordOp_ceq]
  · rw [hr .cne (by decide) (by decide), wordOp_cne]
  · rw [hr .clt (by decide) (by decide), wordOp_clt]
  · rw [hr .cle (by decide) (by decide), wordOp_cle]
  · rw [hr .cgt (by decide) (by decide), wordOp_cgt]
  · rw [hr .cge (by decide) (by decide), wordOp_cge]

/-! ### Chains (R118, R119) -/

theorem hazBlind_chain (c : ChainRun) (ch : Nat) : HazBlind fun x => { x with chain := some c, cCh := ch, cTile := 0 } :=
  ⟨fun _ _ _ _ _ _ _ => rfl, fun _ => rfl⟩

theorem hazStep_sreg {a b : Kite} (h : hazStep a b) (n : Nat) : b.sreg n = a.sreg n := by rw [h.1]; rfl

/-- The chain that a legal VCHAIN starts in vector cycle `tv`. -/
def startedChain (kt : Kite) (k tv : Nat) (f : VX) : ChainRun :=
  let st := (chainProg kt k f.ch.toNat).2
  let runs := placeAll f st tv
  ⟨f, tv, (chainProg kt k f.ch.toNat).1, st, (List.range 4).map fun i => (kt.sreg (f.sp.toNat + i)).toNat, runs, chainEndOf st runs tv, [],
    kt.ipc⟩

/-- A VCHAIN that finds the three units free reports what it reads, and starts its chain. -/
theorem effVchain_free {k tv : Nat} {f : VX} {kt : Kite} (h : ∀ u, kt.vbusy u tv = false) :
    ∃ x, hazStep kt x ∧ effVchain k tv f kt = { x with chain := some (startedChain kt k tv f), cCh := f.ch.toNat, cTile := 0 } := by
  have hx := hazStep_trans (Kite.readHaz_step kt k 2 ((List.range 4).map fun i => .s (f.sp.toNat + i)))
    (Kite.hazardIf_step _ (isDrain (stageW (chainProg kt k f.ch.toNat).2 1) &&
      (kt.readHaz k 2 ((List.range 4).map fun i => .s (f.sp.toNat + i))).shadowNow
        ((kt.readHaz k 2 ((List.range 4).map fun i => .s (f.sp.toNat + i))).t
          (tv + (kt.readHaz k 2 ((List.range 4).map fun i => .s (f.sp.toNat + i))).lagV))) k 6 1)
  refine ⟨_, hx, ?_⟩
  simp only [startedChain, ← hazStep_sreg hx, ← hazStep_ipc hx]
  rw [effVchain, h, h, h]
  rfl

/-- Only the vector registers of a kite change in a fold of register writes. -/
theorem foldl_vset {α : Type} (w : Kite → α → Kite) (hw : ∀ kt a, ∃ vs, w kt a = { kt with vregs := vs }) (l : List α) (kt : Kite) :
    ∃ vs, l.foldl w kt = { kt with vregs := vs } := by
  induction l generalizing kt with
  | nil => exact ⟨kt.vregs, rfl⟩
  | cons a l ih =>
    obtain ⟨vs, hvs⟩ := hw kt a
    obtain ⟨us, hus⟩ := ih (w kt a)
    exact ⟨us, by rw [List.foldl_cons, hus, hvs]⟩

/-- The write of one STAT result to its register. -/
def statStore (k : Nat) (c : ChainRun) (kt : Kite) (x : Nat × List Nat) : Kite :=
  let w := stageW c.stages (x.1 / 512)
  let node := (treeReduce (statOp (bits w 0 2)) (x.2.map some)).getD 0
  kt.vset k (stVc w) (x.1 % 512 * 32) 32
    (if bit w 2 then statOp (bits w 0 2) (kt.velem k (stVc w) 32 (x.1 % 512)) node else node)

/-- At its end a chain writes its STAT results, frees the units and is counted. -/
theorem chainFinish_due {k tv : Nat} {kt : Kite} {c : ChainRun} (hc : kt.chain = some c) (h : c.tEnd ≤ tv) :
    ∃ vs, (c.stats = [] → vs = kt.vregs) ∧
      chainFinish k tv kt = { kt with vregs := vs, chain := none, cChains := (kt.cChains + 1) % 2 ^ 32 } := by
  rw [chainFinish, hc]
  dsimp only
  rw [if_neg (Nat.not_lt.2 h)]
  generalize hl : c.stats = l
  cases l with
  | nil => exact ⟨kt.vregs, fun _ => rfl, rfl⟩
  | cons x l =>
    obtain ⟨vs, hvs⟩ := foldl_vset (statStore k c) (fun kt a => ⟨_, rfl⟩) (x :: l) kt
    exact ⟨vs, nofun, congrArg (fun y : Kite => { y with chain := none, cChains := wrapAdd 32 y.cChains 1 }) hvs⟩

/-- Settles O19: VCHAIN issues as any V-slot instruction does, and CHAIN_END finishes a chain that is due. -/
theorem chainStartEnd : Obligations.ChainStartEnd := by
  unfold Obligations.ChainStartEnd
  intro k s kt tv
  refine ⟨fun f h hc hfree => ?start, fun f h hc hbusy => ?busy, fun c hr hch hend => ?finish⟩
  case start =>
    obtain ⟨x, hx, he⟩ := effVchain_free (k := k) (f := f) hfree
    exact ⟨startedChain kt k tv f, slotDone_of_reports (hazBlind_chain _ _) hx h (exec_vchain k f s) hc he (issuing_stopped h), rfl, rfl,
      rfl, rfl, rfl, rfl⟩
  case busy =>
    obtain ⟨u, hu⟩ := hbusy
    refine discarded_of_busy h (exec_of_execSlot h (exec_vchain k f s) hc (if_pos ?_))
    cases u with
    | alu => exact Bool.or_eq_true_iff.2 (.inl (Bool.or_eq_true_iff.2 (.inl hu)))
    | sfu => exact Bool.or_eq_true_iff.2 (.inl (Bool.or_eq_true_iff.2 (.inr hu)))
    | mem => exact Bool.or_eq_true_iff.2 (.inr hu)
  case finish =>
    obtain ⟨vs, hvs, hfin⟩ := chainFinish_due (k := k) hch hend
    have hdue : kt.chainDue tv = true := by
      rw [Kite.chainDue, hch, hr]
      exact congrArg (· && true) (decide_eq_true hend)
    refine ⟨vs, hvs, keeps_of_put ?_ rfl⟩
    rw [exec_chainEnd, execChainEnd]
    exact congrArg _ ((if_pos hdue).trans (congrArg _ hfin))

end Sys2Proof.Stated
end

section

/-! SUPPORT. The queue, and the reset state. -/

namespace Sys2Proof.Stated
open Sys2Proof.Machine

/-- Settles O1: by the definition of a step. -/
theorem stepRunsFrontCommand : Obligations.StepRunsFrontCommand := by
  unfold Obligations.StepRunsFrontCommand
  intro s c rest h
  rw [step, h]
  rfl

/-- Settles O58: every map of the reset state is empty, so each of its fields reads its default. -/
theorem resetState : Obligations.ResetState := by
  unfold Obligations.ResetState
  refine ⟨rfl, rfl, rfl, fun k => ⟨rfl, rfl, rfl, fun n => rfl, rfl, rfl, rfl, fun c => rfl⟩, fun a => rfl, rfl, rfl, rfl, rfl, rfl,
    rfl, rfl, rfl, rfl, rfl, rfl, rfl, fun n => ⟨rfl, rfl⟩, fun q => rfl, fun p => ⟨rfl, rfl⟩, fun b => rfl, rfl, rfl, rfl, rfl, rfl,
    rfl, rfl, rfl, rfl, rfl⟩

end Sys2Proof.Stated
end

section
/-! SUPPORT. The memories of the module and of the host stay canonical. One lemma for each function of the model that returns a state. -/
namespace Sys2Proof.Stated
open Sys2Proof.Machine

/-- The memory of the module is canonical. -/
structure MemOk (p : Pgm) : Prop where
  mem : memWf p.mem = true

/-- The memories of the module and of the host are canonical. -/
structure Canon (s : State) : Prop where
  pgm : MemOk s.pgm
  hst : memWf s.hst.mem = true

/-! A change of other fields keeps them. -/

theorem MemOk.same {p : Pgm}
    {poisoned broken weak onDie linkBad rewrite undef undefN marks tlb freeH freeL pool frames spaces edits backlog dropping
    migs pins epoch oldest status arg0 arg1 arg2 resBase resSize nPtprot nAbandon nRetired nNoframe retList pxEn pxInsert
    loWater hiWater pxStatus pxRemoved lookups hits cow wpWrite compact trimming pxDesc index pxNew scrubPos scrubPasses
    scrubStart eccH eccL}
    (h : MemOk p) :
    MemOk
      ⟨p.mem, poisoned, broken, weak, onDie, linkBad, rewrite, undef, undefN, marks, tlb, freeH, freeL, pool, frames, spaces,
    edits, backlog, dropping, migs, pins, epoch, oldest, status, arg0, arg1, arg2, resBase, resSize, nPtprot, nAbandon,
    nRetired, nNoframe, retList, pxEn, pxInsert, loWater, hiWater, pxStatus, pxRemoved, lookups, hits, cow, wpWrite, compact,
    trimming, pxDesc, index, pxNew, scrubPos, scrubPasses, scrubStart, eccH, eccL⟩ :=
  ⟨h.mem⟩

theorem Canon.same {s : State} {pending phase cyc free kites tel brd sch xpt lnk pwr sec pins out}
    (h : Canon s) : Canon ⟨pending, phase, cyc, free, kites, tel, brd, s.pgm, sch, xpt, lnk, s.hst, pwr, sec, pins, out⟩ :=
  ⟨h.pgm, h.hst⟩

theorem Canon.withPgm {s : State} {p : Pgm} {pending phase cyc free kites tel brd sch xpt lnk pwr sec pins out}
    (h : Canon s) (hp : MemOk p) :
    Canon ⟨pending, phase, cyc, free, kites, tel, brd, p, sch, xpt, lnk, s.hst, pwr, sec, pins, out⟩ :=
  ⟨hp, h.hst⟩

theorem Canon.sameHst {s : State} {pending phase cyc free kites tel brd sch xpt lnk pwr sec pins out}
    {queues bdpAddr bdpFirst bdpErr bdpCount doorbell badreg linkUp master d3 waits errs masked pendingVec models variants}
    (h : Canon s) :
    Canon ⟨pending, phase, cyc, free, kites, tel, brd, s.pgm, sch, xpt, lnk, 
      ⟨queues, bdpAddr, bdpFirst, bdpErr, bdpCount, doorbell, badreg, linkUp, master, d3, waits, s.hst.mem, errs, masked, pendingVec, models, variants⟩, pwr, sec, pins, out⟩ :=
  ⟨h.pgm, h.hst⟩

theorem Canon.ite {c : Prop} [Decidable c] {s t : State} (hs : Canon s) (ht : Canon t) : Canon (if c then s else t) := by
  split <;> assumption

theorem Canon.foldl {α : Type} {f : State → α → State} (hf : ∀ s x, Canon s → Canon (f s x)) {l : List α} {s : State}
    (h : Canon s) : Canon (l.foldl f s) :=
  List.foldlRecOn l f h fun s h x _ => hf s x h

theorem MemOk.ite {c : Prop} [Decidable c] {p q : Pgm} (hp : MemOk p) (hq : MemOk q) : MemOk (if c then p else q) := by
  split <;> assumption

theorem MemOk.foldl {α : Type} {f : Pgm → α → Pgm} (hf : ∀ p x, MemOk p → MemOk (f p x)) {l : List α} {p : Pgm}
    (h : MemOk p) : MemOk (l.foldl f p) :=
  List.foldlRecOn l f h fun p h x _ => hf p x h


theorem Canon.of_eq {α : Type} {x : α × State} {a : α} {t : State} (e : x = (a, t)) (h : Canon x.2) : Canon t := by
  rw [e] at h
  exact h

theorem Canon.of_eq3 {α β : Type} {x : α × β × State} {a : α} {b : β} {t : State} (e : x = (a, b, t)) (h : Canon x.2.2) : Canon t := by
  rw [e] at h
  exact h

theorem Canon.foldl2 {α β : Type} {f : β × State → α → β × State} (hf : ∀ x a, Canon x.2 → Canon (f x a).2) {l : List α}
    {b : β} {s : State} (h : Canon s) : Canon (l.foldl f (b, s)).2 :=
  List.foldlRecOn (motive := fun x => Canon x.2) l f h fun x h a _ => hf x a h

theorem Canon.foldl3 {α β γ : Type} {f : β × γ × State → α → β × γ × State} (hf : ∀ x a, Canon x.2.2 → Canon (f x a).2.2) {l : List α}
    {b : β} {c : γ} {s : State} (h : Canon s) : Canon (l.foldl f (b, c, s)).2.2 :=
  List.foldlRecOn (motive := fun x => Canon x.2.2) l f h fun x h a _ => hf x a h

theorem Canon.foldl1 {α β : Type} {f : State × β → α → State × β} (hf : ∀ x a, Canon x.1 → Canon (f x a).1) {l : List α}
    {s : State} {b : β} (h : Canon s) : Canon (l.foldl f (s, b)).1 :=
  List.foldlRecOn (motive := fun x => Canon x.1) l f h fun x h a _ => hf x a h

theorem Canon.ite2 {α : Type} {c : Prop} [Decidable c] {a b : α × State} (ha : Canon a.2) (hb : Canon b.2) :
    Canon (if c then a else b).2 := by
  split <;> assumption

theorem Canon.ite3 {α β : Type} {c : Prop} [Decidable c] {a b : α × β × State} (ha : Canon a.2.2) (hb : Canon b.2.2) :
    Canon (if c then a else b).2.2 := by
  split <;> assumption

theorem Canon.iteArb {c : Prop} [Decidable c] {a b : Arb} (ha : Canon a.s) (hb : Canon b.s) : Canon (if c then a else b).s := by
  split <;> assumption

theorem Canon.foldlArb {α : Type} {f : Arb → α → Arb} (hf : ∀ x a, Canon x.s → Canon (f x a).s) {l : List α}
    {x : Arb} (h : Canon x.s) : Canon (l.foldl f x).s :=
  List.foldlRecOn (motive := fun x => Canon x.s) l f h fun x h a _ => hf x a h

theorem MemOk.foldl1 {α β : Type} {f : Pgm × β → α → Pgm × β} (hf : ∀ x a, MemOk x.1 → MemOk (f x a).1) {l : List α}
    {p : Pgm} {b : β} (h : MemOk p) : MemOk (l.foldl f (p, b)).1 :=
  List.foldlRecOn (motive := fun x => MemOk x.1) l f h fun x h a _ => hf x a h

theorem MemOk.foldl2 {α β : Type} {f : β × Pgm → α → β × Pgm} (hf : ∀ x a, MemOk x.2 → MemOk (f x a).2) {l : List α}
    {b : β} {p : Pgm} (h : MemOk p) : MemOk (l.foldl f (b, p)).2 :=
  List.foldlRecOn (motive := fun x => MemOk x.2) l f h fun x h a _ => hf x a h

section
variable {s : State} {p : Pgm}

theorem Canon.drew (h : Canon s) : Canon s.drew := h.same

theorem Canon.emit {o} (h : Canon s) : Canon (s.emit o) := h.same

theorem Canon.wait {x} (h : Canon s) : Canon (s.wait x) := h.sameHst

theorem Canon.hostPut {a l} (h : Canon s) : Canon (s.hostPut a l).2 := by
  unfold State.hostPut
  split
  · exact h
  · split
    · exact h.wait
    · dsimp only
      split
      · exact h.emit
      · exact ⟨h.pgm, memWf_memWrites _ _ _ h.hst⟩

theorem Canon.vector {v} (h : Canon s) : Canon (s.vector v) := .ite h.sameHst (.ite (.ite h.wait h.emit) h)

theorem Canon.crossAgain (h : Canon s) : Canon s.crossAgain := by
  unfold State.crossAgain
  refine Canon.ite ?_ ?_
  · exact h
  · refine Canon.foldl (fun _ _ hs => ?_) h.sameHst
    split
    · exact hs.hostPut
    · exact hs.vector

theorem Canon.setQueue {q x} (h : Canon s) : Canon (s.setQueue q x) := h.sameHst

theorem Canon.queueIrq {q} (h : Canon s) : Canon (s.queueIrq q) := h.setQueue.vector

theorem Canon.cqWrite {q l} (h : Canon s) : Canon (s.cqWrite q l) := .ite h.hostPut.setQueue.queueIrq h.hostPut.setQueue

theorem Canon.postCqe {e} (h : Canon s) : Canon (s.postCqe e) := .ite h.setQueue (.ite h.setQueue.setQueue h.setQueue.cqWrite)

theorem Canon.drainHeld {q n} (h : Canon s) : Canon (s.drainHeld q n) := by
  induction n generalizing s with
  | zero => exact h
  | succ n ih =>
    unfold State.drainHeld
    dsimp only
    split
    · exact h
    · exact .ite h (ih h.setQueue.cqWrite)

theorem Canon.setReq {n r} (h : Canon s) : Canon (s.setReq n r) := h.same

theorem Canon.upWin {t f} (h : Canon s) : Canon (s.upWin t f) := h.same

theorem Canon.complete {n status} (h : Canon s) : Canon (s.complete n status) := .ite h (.ite h.setReq.drew h.setReq.drew.postCqe.upWin)

theorem Canon.log {e} (h : Canon s) : Canon (s.log e) := by
  unfold State.log
  dsimp only
  split
  · exact h.same.vector.emit
  · exact h.same

theorem Canon.logRecord {e} (h : Canon s) : Canon (s.logRecord e).2 := h.log

theorem Canon.logs {es} (h : Canon s) : Canon (s.logs es) := Canon.foldl (fun _ _ hs => hs.log) h

theorem Canon.ignoredReg {unit loc} (h : Canon s) : Canon (s.ignoredReg unit loc) := h.log

theorem Canon.badReg (h : Canon s) : Canon s.badReg := h.log.sameHst

theorem Canon.enterMinimal {code detail} (h : Canon s) : Canon (s.enterMinimal code detail) := h.sameHst

theorem Canon.fatal {e code detail} (h : Canon s) : Canon (s.fatal e code detail) :=
  Canon.enterMinimal (Canon.same (Canon.foldl (fun _ _ hs => Canon.ite hs hs.complete) h.logRecord))

theorem Canon.faultSlot {n status} (h : Canon s) : Canon (s.faultSlot n status) := .ite h h.setReq

theorem Canon.faultStep {status} (h : Canon s) : Canon (s.faultStep status) := by
  unfold State.faultStep
  split
  · exact h
  · exact Canon.foldl (fun _ _ hs => hs.faultSlot) h

theorem Canon.dropWaits {k} (h : Canon s) : Canon (s.dropWaits k) := h.same

theorem Canon.kiteEvent {k e} (h : Canon s) : Canon (s.kiteEvent k e) := .ite (.ite h.log.faultStep (.ite h.log.faultStep h.log)) h.log

theorem Canon.setKite {k kt} (h : Canon s) : Canon (s.setKite k kt) := h.same

theorem Canon.putKite {k kt} (h : Canon s) : Canon (s.putKite k kt) := by
  unfold State.putKite
  refine Canon.setKite (Canon.ite ?_ ?_)
  · exact Canon.dropWaits (Canon.foldl (fun _ _ hs => hs.kiteEvent) h)
  · exact Canon.foldl (fun _ _ hs => hs.kiteEvent) h

theorem MemOk.upFrame {a f} (h : MemOk p) : MemOk (p.upFrame a f) := by
  unfold Pgm.upFrame
  split
  · exact h.same
  · exact h

theorem MemOk.alloc {loft c a q} (h : MemOk p) (heq : p.alloc loft c = some (a, q)) : MemOk q := by
  obtain ⟨_, _, hq⟩ := Option.map_eq_some_iff.1 heq
  exact (Prod.mk.inj hq).2 ▸ h.same

theorem MemOk.release {b} (h : MemOk p) : MemOk (p.release b) := by
  unfold Pgm.release
  split
  · exact h
  · exact MemOk.ite h.same.same h.same.same

theorem MemOk.takeTable {a q} (h : MemOk p) (heq : p.takeTable = some (a, q)) : MemOk q := by
  unfold Pgm.takeTable at heq
  split at heq
  · cases heq
  · exact (Prod.mk.inj (Option.some.inj heq)).2 ▸ h.same

theorem MemOk.dropTable {a} (h : MemOk p) : MemOk (p.dropTable a) := h.same

theorem MemOk.countEcc {a unc} (h : MemOk p) : MemOk (p.countEcc a unc) := .ite h.same h.same

theorem MemOk.retireFrame {a} (h : MemOk p) : MemOk (p.retireFrame a) := by
  unfold Pgm.retireFrame
  split <;> exact h.same

theorem MemOk.corrected {a} (h : MemOk p) : MemOk (p.corrected a) := by
  unfold Pgm.corrected
  split <;> exact h.same

theorem MemOk.poison {bs} (h : MemOk p) : MemOk (p.poison bs) :=
  MemOk.foldl (fun _ _ hs => MemOk.ite hs hs.same.retireFrame) h

theorem Canon.deviceEcc {blk} (h : Canon s) : Canon (s.deviceEcc blk) :=
  .ite (Canon.log (h.withPgm h.pgm.same)) (.ite (Canon.log (h.withPgm h.pgm.same.countEcc)) h)

theorem Canon.checkBlock {blk} (h : Canon s) : Canon (s.checkBlock blk).2 := by
  unfold State.checkBlock
  dsimp only
  split
  · exact h.log
  · split
    · split
      · exact Canon.fatal (h.withPgm h.pgm.same.countEcc.poison)
      · exact Canon.log (h.withPgm h.pgm.same.countEcc.poison)
    · split
      · exact Canon.log (h.withPgm h.pgm.countEcc.corrected.same)
      · exact h

theorem Canon.touchBlock {blk} (h : Canon s) : Canon (s.touchBlock blk).2 := h.deviceEcc.checkBlock

theorem Canon.readPft {fs} (h : Canon s) : Canon (s.readPft fs) := Canon.foldl (fun _ _ hs => hs.touchBlock) h

theorem Canon.withPft {fs f} (h : Canon s) (hf : ∀ s, Canon s → Canon (f s)) : Canon (s.withPft fs f) :=
  .ite h.readPft (hf _ h.readPft)

theorem MemOk.rewriteAll (h : MemOk p) : MemOk p.rewriteAll := h.same

theorem Canon.readMem {a n} (h : Canon s) : Canon (s.readMem a n).2.2 := by
  unfold State.readMem
  refine Canon.foldl2 (fun _ _ hs => ?_) h
  exact hs.touchBlock

theorem MemOk.undefine {a n} (h : MemOk p) : MemOk (p.undefine a n) := .ite h h.same

theorem MemOk.write {a l} (h : MemOk p) : MemOk (p.write a l) := .ite h ⟨memWf_memWrites _ _ _ h.mem⟩

end

end Sys2Proof.Stated
end

section

/-! SUPPORT. Page tables, copies and the ports: both memories stay canonical. -/

namespace Sys2Proof.Stated
open Sys2Proof.Machine
section
variable {s : State} {p : Pgm}

theorem Canon.badTable {e} (h : Canon s) : Canon (s.badTable e) := Canon.log (h.withPgm (.ite h.pgm.same.countEcc.poison h.pgm))

theorem Canon.walkBy {who va} (h : Canon s) : Canon (s.walkBy who va).2 := by
  unfold State.walkBy
  dsimp only
  split
  · exact h
  · split
    · exact h
    · split
      · exact h.withPgm h.pgm.same
      · exact h.badTable
      · exact h

theorem Canon.setPort {p x} (h : Canon s) : Canon (s.setPort p x) := h.same

theorem Canon.endRemote {tag status} (h : Canon s) : Canon (s.endRemote tag status) := by
  unfold State.endRemote
  split
  · exact h
  · exact h.setKite.same

theorem Canon.undeliverable {m} (h : Canon s) : Canon (s.undeliverable m) := .ite h.log.same.faultStep (.ite h.endRemote h)

theorem Canon.quadPower {q} (h : Canon s) : Canon (s.quadPower q) := h.same

theorem Canon.free1 {p vc n} (h : Canon s) : Canon (s.free1 p vc n) := h.setPort

theorem Canon.portStops {p st} (h : Canon s) : Canon (s.portStops p st) := by
  unfold State.portStops
  refine Canon.foldl (fun _ _ hs => ?_) ?_
  · exact Canon.ite hs.undeliverable hs
  · refine Canon.quadPower (Canon.foldl (fun _ _ hs => ?_) h.setPort)
    split
    · exact Canon.ite hs hs.free1
    · exact hs

theorem Canon.retrain {p} (h : Canon s) : Canon (s.retrain p) := .ite h (.ite h.setPort.portStops h.setPort)

theorem Canon.violCount {p row} (h : Canon s) : Canon (s.violCount p row) := .ite h.setPort.portStops h.setPort

theorem Canon.violate {p row} (h : Canon s) : Canon (s.violate p row) := h.log.violCount

theorem Canon.sendFlit {p kind vc last dst payload msg} (h : Canon s) : Canon (s.sendFlit p kind vc last dst payload msg) :=
  h.setPort.emit

theorem Canon.fill {p} (h : Canon s) : Canon (s.fill p) := Canon.foldl (fun _ _ hs => Canon.ite hs.setPort.emit hs) h

theorem Canon.pump {p n} (h : Canon s) : Canon (s.pump p n) := by
  induction n generalizing s with
  | zero => exact h
  | succ n ih =>
    unfold State.pump
    dsimp only
    refine .ite h ?_
    split
    · exact h
    · split
      · exact h
      · refine ih ?_
        split
        · exact .ite h.setPort.sendFlit.free1.fill h.setPort.sendFlit.free1
        · exact h.setPort.sendFlit

theorem Canon.enqueue {m} (h : Canon s) : Canon (s.enqueue m).2 := by
  unfold State.enqueue
  dsimp only
  split
  · exact h.same
  · split
    · exact h
    · split
      · exact h.same.setPort.pump
      · exact h.same

theorem Canon.lerboSend {dst mtype body} (h : Canon s) : Canon (s.lerboSend dst mtype body) := .ite h.enqueue h.enqueue.undeliverable

theorem Canon.forward {p dst mtype ttl src body} (h : Canon s) : Canon (s.forward p dst mtype ttl src body) :=
  .ite h.free1.violate (.ite h.enqueue h.free1.violate)

theorem Canon.takeAack {p aack} (h : Canon s) : Canon (s.takeAack p aack) := by
  unfold State.takeAack
  dsimp only
  split
  · exact h
  · exact Canon.ite h h.setPort

theorem Canon.takeCredit {p vc n} (h : Canon s) : Canon (s.takeCredit p vc n) := h.setPort

theorem Canon.fecIn {p corr unc} (h : Canon s) : Canon (s.fecIn p corr unc) := .ite h.setPort.retrain h.setPort

theorem Canon.lerboRx {r mtype body} (h : Canon s) : Canon (s.lerboRx r mtype body).2 := by
  unfold State.lerboRx
  extract_lets p x
  split
  · exact h
  rename_i vc owed excess s₁ s₂ s₃ away _
  have h₂ : Canon s₂ := Canon.foldl (fun _ _ hs => hs.takeCredit) h.setPort.takeAack
  have h₃ : Canon s₃ := h₂.pump
  clear_value s₃
  have ha : Canon (away s₃) := h₃.free1.fecIn
  split
  next ok t heq =>
    have ht : Canon t := by
      exact .of_eq heq (.ite2 ha.violate (.ite2 ha.violate (.ite2 ha.violate (.ite2 ha h₃.forward.fecIn))))
    dsimp only
    exact ht.fill

theorem Canon.signal {m b amt by_} (h : Canon s) : Canon (s.signal m b amt by_) := .ite h.same h.lerboSend

theorem MemOk.queue {host k} (h : MemOk p) : MemOk (p.queue host k) := h.same

theorem MemOk.queueDrop {host sp} (h : MemOk p) : MemOk (p.queueDrop host sp) := h.queue

theorem MemOk.later {ks} (h : MemOk p) : MemOk (p.later ks) := h.same

theorem MemOk.release1 {fs} (h : MemOk p) : MemOk (p.release1 fs) := h.later

theorem Canon.pgmStatus {c} (h : Canon s) : Canon (s.pgmStatus c) := h.withPgm h.pgm.same

theorem Canon.pgmEdit {c k} (h : Canon s) : Canon (s.pgmEdit c k) := .ite (Canon.pgmStatus (h.withPgm h.pgm.queue)) h.pgmStatus

theorem Canon.pgmAlloc (h : Canon s) : Canon (pgmAlloc s) := by
  unfold Machine.pgmAlloc
  refine Canon.ite ?_ ?_
  · exact h.pgmStatus
  · split
    next heq =>
      refine h.withPft ?_
      · intro _ hs
        split
        next heq =>
          exact Canon.pgmStatus (hs.withPgm (MemOk.same (hs.pgm.alloc heq)))
        · exact hs.pgmStatus
    · exact h.pgmStatus

theorem Canon.pgmMap (h : Canon s) : Canon (pgmMap s) := h.withPft (fun _ hs => hs.pgmEdit)

theorem Canon.pgmUnmap (h : Canon s) : Canon (pgmUnmap s) := h.pgmEdit

theorem Canon.pgmIncref (h : Canon s) : Canon (pgmIncref s) := h.withPft (fun _ hs => hs.pgmEdit)

theorem Canon.pgmDecref (h : Canon s) : Canon (pgmDecref s) := h.withPft (fun _ hs => hs.pgmEdit)

theorem Canon.pgmDropspace (h : Canon s) : Canon (pgmDropspace s) := h.pgmEdit

theorem Canon.migrate {host sp va loft} (h : Canon s) : Canon (s.migrate host sp va loft).2 := by
  unfold State.migrate
  split
  · exact h
  · split
    · split
      · exact h
      · split
        · exact h
        · split
          · exact h
          · split
            next heq =>
              exact h.withPgm (MemOk.same (h.pgm.alloc heq))
            · exact h
    · exact h

theorem Canon.pgmMigrate (h : Canon s) : Canon (pgmMigrate s) := h.withPft (fun _ hs => hs.migrate.pgmStatus)

theorem MemOk.copyOn {d} (h : MemOk p) : MemOk (p.copyOn d) := by
  unfold Pgm.copyOn
  split
  · exact h
  · exact h.same

theorem Canon.migrateCopyDone {frame} (h : Canon s) : Canon (migrateCopyDone frame s) := by
  unfold Machine.migrateCopyDone
  split
  · exact h
  · exact h.readMem.withPgm h.readMem.pgm.write.poison.same

theorem MemOk.addTabs {sp keys} (h : MemOk p) : MemOk (p.addTabs sp keys).2 := by
  unfold Pgm.addTabs
  refine MemOk.foldl2 (fun _ _ hs => ?_) h
  split
  · exact hs
  · split
    next heq =>
      exact hs.takeTable heq
    · exact hs

theorem MemOk.install {n l} (h : MemOk p) : MemOk (p.install n l) := by
  unfold Pgm.install
  dsimp only
  split
  · exact h
  next heq =>
    refine MemOk.same (MemOk.addTabs ?_)
    split at heq
    · cases heq
      exact h
    · obtain ⟨x, hx, hq⟩ := Option.map_eq_some_iff.1 heq
      cases hq
      exact h.takeTable hx

theorem MemOk.spoil {n va} (h : MemOk p) : MemOk (p.spoil n va) := h.same

theorem MemOk.protectFrame {a} (h : MemOk p) : MemOk (p.protectFrame a) := h.same

theorem MemOk.applyEdit {e} (h : MemOk acc.1) : MemOk (Pgm.applyEdit acc e).1 := by
  unfold Pgm.applyEdit
  dsimp only
  split
  · exact MemOk.install (MemOk.ite h.protectFrame h)
  · split
    · exact h
    · split
      · exact h
      · exact h.same.spoil
  · exact h
  · exact h
  · split
    · exact h
    · exact h.same.spoil
  · split
    · exact h
    · exact h.same

theorem MemOk.dropSome {d budget} (h : MemOk p) : MemOk (p.dropSome d budget).1 := MemOk.foldl (fun _ _ hs => hs.dropTable) h

theorem MemOk.drops {c bs bh} (h : MemOk p) : MemOk (p.drops c bs bh).1 := by
  unfold Pgm.drops
  refine MemOk.same (MemOk.foldl1 (fun _ _ hs => ?_) h)
  exact hs.dropSome

end

end Sys2Proof.Stated
end

section

/-! SUPPORT. Frames, edits and export streams: both memories stay canonical. -/

namespace Sys2Proof.Stated
open Sys2Proof.Machine
section
variable {s : State} {p : Pgm}

theorem MemOk.incFrame {a} (h : MemOk p) : MemOk (p.incFrame a) := .ite h.upFrame.same h.upFrame

theorem MemOk.decFrame {a} (h : MemOk p) : MemOk (p.decFrame a) := h.upFrame

theorem MemOk.endMigs (h : MemOk p) : MemOk p.endMigs.1 := by
  unfold Pgm.endMigs
  dsimp only
  refine MemOk.foldl1 (fun _ _ hs => ?_) h
  split
  · exact hs
  · split
    · exact hs.same.same
    · exact hs.same.release

theorem MemOk.takeImports (h : MemOk p) : MemOk p.takeImports := by
  unfold Pgm.takeImports
  refine MemOk.foldl (fun p x hp => ?_) h.same
  refine .ite hp.release1 (MemOk.foldl (fun _ _ hs => hs.protectFrame) ?_)
  split
  · exact hp.same
  · exact hp.same

theorem MemOk.boundary (h : MemOk p) : MemOk p.boundary.1 := by
  unfold Pgm.boundary
  refine MemOk.same (MemOk.foldl (fun _ _ hs => ?_) ?_)
  · exact hs.decFrame
  · refine MemOk.foldl (fun _ _ hs => ?_) ?_
    · exact hs.incFrame
    · refine MemOk.same (MemOk.foldl1 (fun _ _ hs => ?_) ?_)
      · exact hs.applyEdit
      · refine MemOk.drops (MemOk.foldl1 (fun _ _ hs => ?_) (MemOk.same (MemOk.foldl1 (fun _ _ hs => ?_) h)))
        · exact hs.applyEdit
        · exact hs.applyEdit

theorem Canon.epochBoundary (h : Canon s) : Canon (epochBoundary s) := by
  have hlog : ∀ l : List Nat, Canon (l.foldl (fun s _ => s.log ⟨.s, uMem, evMigrateAbandoned, 0xFFFF, 0xFFFF, 0⟩) s) :=
    fun _ => Canon.foldl (fun _ _ hs => hs.log) h
  exact Canon.readPft ⟨MemOk.boundary (MemOk.same h.pgm.takeImports.endMigs), (hlog _).hst⟩

theorem Canon.leaveQuar {b f} (h : Canon s) : Canon (s.leaveQuar b f) :=
  .ite (.ite (Canon.log (h.withPgm h.pgm.same)) (h.withPgm h.pgm.same)) (h.withPgm h.pgm.release)

theorem Canon.epochRetire (h : Canon s) : Canon (epochRetire s) := by
  unfold Machine.epochRetire
  refine Canon.ite ?_ ?_
  · exact h
  · exact Canon.foldl (fun _ _ hs => hs.leaveQuar) (h.withPgm h.pgm.same)

theorem MemOk.dropEntry {k} (h : MemOk p) : MemOk (p.dropEntry k) := by
  unfold Pgm.dropEntry
  split
  · exact h
  · exact h.same.release1

theorem MemOk.makeRoom (h : MemOk p) : MemOk p.makeRoom := by
  unfold Pgm.makeRoom
  refine MemOk.ite ?_ ?_
  · split
    · exact h.dropEntry.same
    · exact h
  · exact h

theorem MemOk.putEntry {k e} (h : MemOk p) : MemOk (p.putEntry k e) := MemOk.same (.ite h.dropEntry (.ite h h.makeRoom))

theorem Canon.pageRows {a nkv psize rb nv} (h : Canon s) : Canon (s.pageRows a nkv psize rb nv).2 := by
  unfold State.pageRows
  refine Canon.foldl2 (fun _ _ hs => ?_) h
  exact hs.readMem

theorem Canon.digestHolds {m a nv dig} (h : Canon s) : Canon (s.digestHolds m a nv dig).2 := by
  unfold State.digestHolds
  refine Canon.foldl2 (fun _ _ hs => ?_) h
  split
  · exact hs
  · exact hs.pageRows

theorem Canon.pxStatus {c} (h : Canon s) : Canon (s.pxStatus c) := h.withPgm h.pgm.same

theorem Canon.entryHolds {e} (h : Canon s) : Canon (s.entryHolds e).2 := by
  unfold State.entryHolds
  split
  · exact h.drew
  · refine Canon.foldl2 (fun _ _ hs => ?_) h
    split
    · exact hs
    · exact hs.digestHolds

theorem Canon.pxInsert (h : Canon s) : Canon (pxInsert s) := by
  unfold Machine.pxInsert
  refine h.withPft fun s hs => .ite hs.pxStatus (.ite hs.pxStatus ?_)
  dsimp only
  refine .ite hs.entryHolds.pxStatus (.ite hs.entryHolds.pxStatus (Canon.pxStatus ⟨?_, hs.entryHolds.hst⟩))
  dsimp only
  split
  · exact hs.entryHolds.pgm.same
  · exact MemOk.same (MemOk.ite hs.entryHolds.pgm hs.entryHolds.pgm.makeRoom)

theorem Canon.pxRemove (h : Canon s) : Canon (pxRemove s) := .ite (Canon.pxStatus (h.withPgm h.pgm.dropEntry)) h.pxStatus

theorem Canon.pxFlush (h : Canon s) : Canon (pxFlush s) :=
  Canon.pxStatus (h.withPgm (MemOk.foldl (fun _ _ hs => hs.dropEntry) h.pgm))

theorem Canon.pxTrim (h : Canon s) : Canon (pxTrim s) := by
  unfold Machine.pxTrim
  refine Canon.ite ?_ ?_
  · refine Canon.foldl (fun _ _ hs => ?_) (h.withPgm h.pgm.same)
    split
    · exact Canon.ite hs (hs.withPgm hs.pgm.dropEntry.same)
    · exact hs
  · exact h.withPgm h.pgm.same

theorem Canon.setStream {n x} (h : Canon s) : Canon (s.setStream n x) := h.same

theorem Canon.unpin {hd} (h : Canon s) : Canon (s.unpin hd) := h.withPgm h.pgm.same

theorem Canon.markOn {n x layer sg ps} (h : Canon s) : Canon (s.markOn n x layer sg ps).1 := by
  unfold State.markOn
  dsimp only
  refine Canon.foldl1 (fun _ _ hs => ?_) h
  split
  · exact hs
  · split
    · split
      · exact hs.walkBy
      · exact hs.walkBy.withPgm hs.walkBy.pgm.same
    · exact hs.walkBy

theorem Canon.markFinal {n layer sg ps} (h : Canon s) : Canon (s.markFinal n layer sg ps) := by
  unfold State.markFinal
  dsimp only
  split
  · exact h.markOn.same
  · exact h.markOn.setStream

theorem Canon.exportNotice {handle layer head kind rows} (h : Canon s) : Canon (s.exportNotice handle layer head kind rows) :=
  .ite h.markFinal h

theorem Canon.exportRow {x f layer sg pos} (h : Canon s) : Canon (s.exportRow x f layer sg pos).2.2 := by
  unfold State.exportRow
  split <;> exact h.readMem

theorem Canon.imageBytes {x e layer pg off len} (h : Canon s) : Canon (s.imageBytes x e layer pg off len).2.2 := by
  unfold State.imageBytes
  refine Canon.foldl3 (fun _ _ hs => ?_) h
  exact hs.exportRow

theorem Canon.sign {manifest} (h : Canon s) : Canon (s.sign manifest).2 := h.drew

theorem Canon.buildManifest {x e abort status} (h : Canon s) : Canon (s.buildManifest x e abort status).2.2 := by
  unfold State.buildManifest
  extract_lets places
  split
  next pd bad t heq =>
    have ht : Canon t := by
      refine .of_eq3 heq (Canon.foldl3 (fun _ _ hs => ?_) h)
      exact hs.imageBytes
    clear heq
    extract_lets body
    clear_value body
    refine .ite3 ?_ ht
    split
    next sg u heq => exact Canon.of_eq heq (ht.sign (manifest := body))

theorem Canon.endAbort {n} (h : Canon s) : Canon (s.endAbort n) := h.setStream.unpin

theorem Canon.stopStream {n st status} (h : Canon s) : Canon (s.stopStream n st status) :=
  .ite h (.ite (Canon.endAbort (.ite h.buildManifest.setStream.same h.buildManifest.setStream)) (.ite h.buildManifest.setStream.same h.buildManifest.setStream))

theorem Canon.cutStream {n} (h : Canon s) : Canon (s.cutStream n) := .ite h (.ite h.setStream.endAbort h.setStream)

theorem Canon.failStream {n} (h : Canon s) : Canon (s.failStream n) := by
  unfold State.failStream
  dsimp only
  split
  · exact h.stopStream.faultSlot
  · exact h.setStream.unpin.log.same
  · exact h

theorem Canon.poisonStream {n a} (h : Canon s) : Canon (s.poisonStream n a) := .ite h.setStream.unpin.log.same h.faultSlot.stopStream

theorem Canon.seal {n host} (h : Canon s) : Canon (s.seal n host) :=
  .ite (Canon.complete (.ite h.setStream.unpin h.setStream)) (Canon.faultSlot (.ite h.setStream.unpin h.setStream))

theorem Canon.sendFrame {e msg} (h : Canon s) : Canon (s.sendFrame e msg) := h.setPort.emit.drew

theorem Canon.transmit {n e x m msg data} (h : Canon s) : Canon (s.transmit n e x m msg data) := by
  unfold State.transmit
  split
  · exact h.hostPut
  · exact h.setStream.lerboSend
  · exact h.setStream.sendFrame

theorem Canon.sendMsg {n seq m retx} (h : Canon s) : Canon (s.sendMsg n seq m retx) := by
  unfold State.sendMsg
  extract_lets x e
  split
  next data bad t heq =>
    have ht : Canon t := by
      split at heq
      · cases heq
        exact h
      · exact .of_eq3 heq h.imageBytes
    split
    · exact ht.poisonStream
    · exact .ite (.ite (.ite (Canon.endAbort (Canon.transmit (.ite ht.same ht.setStream))) (Canon.transmit (.ite ht.same ht.setStream)))
        (Canon.seal (Canon.transmit (.ite ht.same ht.setStream)))) (Canon.transmit (.ite ht.same ht.setStream))

theorem Canon.pageData {n} (h : Canon s) : Canon (pageData n s) := by
  unfold Machine.pageData
  dsimp only
  refine Canon.ite ?_ ?_
  · exact h
  · split
    · exact h.sendMsg
    · split
      · exact h.sendMsg
      · exact h

theorem Canon.manifest {n} (h : Canon s) : Canon (manifest n s) := by
  unfold Machine.manifest
  dsimp only
  refine Canon.ite ?_ ?_
  · exact h
  · split
    · exact h.sendMsg
    · split
      · refine Canon.poisonStream ?_
        split
        · exact h.buildManifest.setStream
        · exact h
      · refine Canon.sendMsg ?_
        split
        · exact h.buildManifest.setStream
        · exact h

theorem Canon.rxViolation {rx t row} (h : Canon s) : Canon (s.rxViolation rx t row) := by
  unfold State.rxViolation
  refine Canon.ite ?_ ?_
  · split
    · exact h.log.same
    · exact h.log
  · refine Canon.violCount ?_
    split
    · exact h.log.same
    · exact h.log

theorem Canon.streamViolation {rx n row} (h : Canon s) : Canon (s.streamViolation rx n row) :=
  .ite h.setStream.rxViolation.failStream h.setStream.rxViolation

theorem Canon.msgViolation {rx msg row} (h : Canon s) : Canon (s.msgViolation rx msg row) := .ite h.streamViolation h.rxViolation

theorem Canon.msgStream {rx type msg t} (h : Canon s) (heq : s.msgStream rx type msg = .inr t) : Canon t := by
  unfold State.msgStream at heq
  split at heq
  · cases heq
    exact h.msgViolation
  · dsimp only at heq
    split at heq
    · cases heq
      exact h.msgViolation
    · cases heq

theorem Canon.ackEnd {n} (h : Canon s) : Canon (s.ackEnd n) := .ite h (.ite h.setStream.unpin (.ite h.endAbort h))

theorem Canon.ack {rx msg} (h : Canon s) : Canon (ack rx msg s) := by
  unfold Machine.ack
  split
  next heq =>
    exact h.msgStream heq
  · exact Canon.ite h.streamViolation (Canon.ite h.setStream.ackEnd.streamViolation h.setStream.ackEnd)

end

end Sys2Proof.Stated
end

section

/-! SUPPORT. Answers of receivers, messages and moves: both memories stay canonical. -/

namespace Sys2Proof.Stated
open Sys2Proof.Machine
section
variable {s : State} {p : Pgm}

theorem Canon.nak {rx msg} (h : Canon s) : Canon (nak rx msg s) := by
  unfold Machine.nak
  split
  next heq =>
    exact h.msgStream heq
  · refine Canon.ite ?_ ?_
    · exact h.streamViolation
    · refine Canon.ite ?_ ?_
      · exact h.streamViolation
      · split
        · exact h.streamViolation
        · refine Canon.ite ?_ ?_
          · exact h.streamViolation
          · refine Canon.ite ?_ ?_
            · exact h
            · split
              · exact Canon.ite h.failStream h.setStream
              · exact h.setStream
              · exact h.setStream
              · exact h.failStream

theorem Canon.credit {rx msg} (h : Canon s) : Canon (credit rx msg s) := by
  unfold Machine.credit
  split
  next heq =>
    exact h.msgStream heq
  · exact Canon.ite h.streamViolation h.setStream

theorem Canon.retransmit {n} (h : Canon s) : Canon (retransmit n s) := by
  unfold Machine.retransmit
  dsimp only
  refine Canon.ite ?_ ?_
  · exact h
  · split
    · exact h
    · exact Canon.ite (Canon.ite h.failStream h.endAbort) (Canon.ite h.setStream.sendMsg h.setStream.setStream)

theorem Canon.rateIncrease {n} (h : Canon s) : Canon (rateIncrease n s) := .ite h h.setStream

theorem Canon.sealedTimeout {n} (h : Canon s) : Canon (sealedTimeout n s) := .ite h.failStream h

theorem Canon.targetWrite {t w v} (h : Canon s) : Canon (targetWrite t w v s) := .ite h.ignoredReg h.same

theorem Canon.answer {src ctx msg} (h : Canon s) : Canon (s.answer src ctx msg) := h.lerboSend

theorem Canon.answerNak {src ctx hd seq code} (h : Canon s) : Canon (s.answerNak src ctx hd seq code) := h.answer

theorem Canon.rxManifest {key ctx src hd seq x} (h : Canon s) : Canon (s.rxManifest key ctx src hd seq x) := by
  unfold State.rxManifest
  refine Canon.ite ?_ ?_
  · exact h.answerNak
  · refine Canon.ite ?_ ?_
    · exact h.answerNak
    · refine Canon.ite ?_ ?_
      · exact h.same
      · exact Canon.foldl (fun _ _ hs => hs.answerNak) h

theorem Canon.rxMessage {src ctx msg} (h : Canon s) : Canon (s.rxMessage src ctx msg) := by
  have hw : ∀ (c : Bool) a l, Canon (if c then s else { s with pgm := s.pgm.write a l }) := fun _ _ _ => .ite h ⟨h.pgm.write, h.hst⟩
  unfold State.rxMessage
  dsimp only
  refine .ite h (.ite h.answerNak (.ite h.answerNak (.ite (Canon.answerNak h.same) ?_)))
  refine .ite (Canon.rxManifest (.ite (Canon.answer ?_) ?_)) (.ite (Canon.answer ?_) ?_) <;>
    exact Canon.answer (Canon.same (hw _ _ _))

theorem Canon.pageRowsOf {k out l} (h : Canon s) : Canon (s.pageRowsOf k out l).2.2 := by
  induction l generalizing s with
  | nil => exact h
  | cons va rest ih =>
    unfold State.pageRowsOf
    dsimp only
    split
    · exact h.walkBy
    · split
      · exact ⟨h.walkBy.pgm.same, h.walkBy.log.hst⟩
      · exact ih h.walkBy

theorem Canon.planPage {k kt t out sm ss row reel n} (h : Canon s) : Canon (s.planPage k kt t out sm ss row reel n).2 := by
  unfold State.planPage
  dsimp only
  split
  · exact h
  · split
    · exact h
    · split <;> exact h.pageRowsOf

theorem Canon.planSend {kt t sd row reel n brd} (h : Canon s) : Canon (s.planSend kt t sd row reel n brd).2 := by
  unfold State.planSend
  dsimp only
  split
  · exact h
  · exact .ite2 h (.ite2 (.ite2 h (.ite2 h (.ite2 h h))) (.ite2 h (.ite2 h h.same)))

theorem Canon.kvFail {k slot wp} (h : Canon s) : Canon (s.kvFail k slot wp) :=
  Canon.faultSlot (Canon.setKite (.ite ⟨h.pgm.same, h.log.hst⟩ h.log))

theorem Canon.planKv {k rows} (h : Canon s) : Canon (s.planKv k rows).2 := by
  unfold State.planKv
  dsimp only
  refine Canon.foldl2 (fun _ _ hs => ?_) h
  split
  · split
    · refine Canon.kvFail ?_
      split
      · exact hs.walkBy
      · exact hs
    · split
      · exact hs.walkBy
      · exact hs
  · refine Canon.kvFail ?_
    split
    · exact hs.walkBy
    · exact hs

theorem Canon.plan {k t raw brd} (h : Canon s) : Canon (s.plan k t raw brd).2 := by
  unfold State.plan
  split
  · exact h
  · exact h.planPage
  · exact h.planSend
  · exact h
  · exact h
  · exact h
  · exact h.planKv

theorem Canon.post {k t p} (h : Canon s) : Canon (s.post k t p) := by
  unfold State.post
  refine Canon.setKite ?_
  split
  · refine Canon.ite ?_ ?_
    · split
      · exact h.plan.same
      · exact h.same
    · split
      · exact h.plan
      · exact h
  · split
    · exact h.plan
    · exact h

theorem Canon.postD {k t p} (h : Canon s) : Canon (s.postD k t p) := .ite h.setKite h.post

theorem Canon.postWaiting {k} (h : Canon s) : Canon (s.postWaiting k) := by
  unfold State.postWaiting
  refine Canon.ite ?_ ?_
  · exact h
  · exact Canon.foldl (fun _ _ hs => hs.postD) h.setKite

theorem Canon.postChain {k} (h : Canon s) : Canon (s.postChain k) := Canon.foldl (fun _ _ hs => hs.postD) h.setKite

theorem Canon.rowIn {k ch d row a} (h : Canon s) : Canon (s.rowIn k ch d row a) := h.readMem.putKite

theorem Canon.rowOut {k ch d row a} (h : Canon s) : Canon (s.rowOut k ch d row a) := Canon.putKite (.ite (h.withPgm h.pgm.write.poison) h)

theorem Canon.rowSend {k ch d row} (h : Canon s) : Canon (s.rowSend k ch d row) := by
  unfold State.rowSend
  dsimp only
  split
  · exact h.putKite.setKite
  · exact Canon.ite h.putKite.lerboSend h.putKite
  · exact h

theorem Canon.rowNote {k ch d row} (h : Canon s) : Canon (s.rowNote k ch d row) := h.putKite

theorem Canon.moveAccess {k ch d row} (h : Canon s) : Canon (s.moveAccess k ch d row) := by
  unfold State.moveAccess
  split
  · exact Canon.ite h.rowOut h.rowIn
  · exact Canon.ite h.rowOut h.rowIn
  · exact h.putKite
  · split <;> exact h.putKite
  · exact h.rowNote
  · exact h.rowSend

theorem Canon.kvRowsDue {k ch} (h : Canon s) : Canon (s.kvRowsDue k ch) := by
  unfold State.kvRowsDue
  dsimp only
  split
  · exact h
  · split
    · refine Canon.ite ?_ ?_
      · split
        · exact Canon.setKite (h.withPgm h.pgm.write)
        · exact h
      · exact h
    · exact h

theorem Canon.inboundDone {i row st} (h : Canon s) : Canon (s.inboundDone i row st) := by
  unfold State.inboundDone
  dsimp only
  split
  · split
    · split
      · exact h.setKite
      · exact h
    · exact h
  · split
    · split
      · split
        · exact h.setKite
        · exact h
      · exact h
    · refine Canon.ite ?_ ?_
      · refine Canon.lerboSend ?_
        split
        · refine Canon.signal ?_
          split
          · split
            · exact h.setKite.same
            · exact h.same
          · exact h.same
        · split
          · split
            · exact h.setKite.same
            · exact h.same
          · exact h.same
      · split
        · split
          · exact h.setKite.same
          · exact h.same
        · exact h.same

theorem Canon.inboundAccess {k row} (h : Canon s) : Canon (s.inboundAccess k row) := by
  unfold State.inboundAccess
  dsimp only
  split
  · exact h
  · exact h.putKite.inboundDone

theorem Canon.take {a row} (h : Canon s) : Canon (Arb.take a row s).s := h

theorem Canon.claimMove {a k snap urgent ch} (h : Canon a.s) : Canon (claimMove k snap urgent a ch).s := by
  unfold Machine.claimMove
  refine Canon.iteArb h ?_
  split
  · exact h
  · refine Canon.iteArb h ?_
    split
    · exact h
    · exact Canon.iteArb h.moveAccess h.setKite

theorem Canon.claimNote {a k snap urgent ch} (h : Canon a.s) : Canon (claimNote k snap urgent a ch).s := by
  unfold Machine.claimNote
  split
  · split
    · refine Canon.iteArb (Canon.foldlArb (fun _ _ hs => ?_) h) h
      exact Canon.claimMove hs
    · exact h
  · exact h

theorem Canon.claimChan {k snap urgent ch} (h : Canon a.s) : Canon (claimChan k snap urgent a ch).s := h.claimMove.claimNote

theorem Canon.claimInbound {a k snap urgent} (h : Canon a.s) : Canon (claimInbound k snap urgent a).s := by
  unfold Machine.claimInbound
  refine Canon.iteArb h ?_
  split
  · exact Canon.iteArb h (Canon.iteArb h.inboundAccess h.setKite)
  · exact h

theorem Canon.claimDrain {a k} (h : Canon a.s) : Canon (claimDrain k a).s :=
  Canon.foldlArb (fun _ _ hs => hs.putKite) h

theorem Canon.claimSeed {a k t held} (h : Canon a.s) : Canon (claimSeed k t held a).s := by
  unfold Machine.claimSeed
  refine Canon.iteArb h ?_
  split
  · exact h
  · exact Canon.iteArb h h.putKite

theorem Canon.claimFeeder {a k t snap held b} (h : Canon a.s) : Canon (claimFeeder k t snap held b a).s := by
  unfold Machine.claimFeeder
  extract_lets kt
  split
  · exact h
  · refine List.foldlRecOn (motive := fun x : Bool × Arb => Canon x.2.s) _ _ h fun x hx w _ => ?_
    dsimp only
    split
    · exact hx
    · split
      · exact hx
      · split
        · exact hx
        · exact hx.putKite

theorem Canon.narrowLost {k row port x} (h : Canon a.s) : Canon (narrowLost k row port x a).s := h.putKite

theorem Canon.claimNarrow {a k tv x} (h : Canon a.s) : Canon (claimNarrow k tv a x).s :=
  Canon.iteArb h.putKite h.narrowLost

theorem Canon.claimRepair {a k} (h : Canon a.s) : Canon (claimRepair k a).s := by
  have hi : ∀ r d, Canon (if ((a.s.kite k).repairing = r && (a.s.kite k).repaired = d) = true then a.s
      else a.s.setKite k { a.s.kite k with repairing := r, repaired := d }) := fun _ _ => .ite h h.setKite
  unfold Machine.claimRepair
  refine Canon.iteArb (hi _ _) ?_
  split
  · exact Canon.iteArb (hi _ _) (hi _ _)
  · split
    · exact h.putKite
    · exact hi _ _

theorem Canon.bankCycle {k} (h : Canon s) : Canon (s.bankCycle k) := by
  unfold State.bankCycle
  refine Canon.foldl (fun _ _ hs => ?_) ?_
  · exact hs.kvRowsDue
  · refine Canon.claimRepair (Canon.foldlArb (fun _ _ hs => ?_) ?_)
    · exact hs.claimNarrow
    · refine Canon.foldlArb (fun _ _ hs => ?_) ?_
      · exact hs.claimNarrow
      · refine Canon.claimInbound (Canon.foldlArb (fun _ _ hs => ?_) (Canon.claimFeeder (Canon.claimFeeder (Canon.claimSeed (Canon.claimInbound (Canon.foldlArb (fun _ _ hs => ?_) h.setKite.claimDrain))))))
        · exact hs.claimChan
        · exact hs.claimChan

theorem Canon.moveComplete {k ch} (h : Canon s) : Canon (moveComplete k ch s) := by
  unfold Machine.moveComplete
  dsimp only
  refine Canon.ite ?_ ?_
  · exact h
  · split
    · exact h
    · split
      · refine Canon.ite ?_ ?_
        · split
          · exact Canon.ite (Canon.ite h.putKite.faultStep h.putKite) (Canon.exportNotice (Canon.ite h.putKite.faultStep h.putKite))
          · exact Canon.ite h.putKite.faultStep h.putKite
        · refine Canon.signal ?_
          split
          · exact Canon.ite (Canon.ite h.putKite.faultStep h.putKite) (Canon.exportNotice (Canon.ite h.putKite.faultStep h.putKite))
          · exact Canon.ite h.putKite.faultStep h.putKite
      · split
        · exact Canon.ite (Canon.ite h.putKite.faultStep h.putKite) (Canon.exportNotice (Canon.ite h.putKite.faultStep h.putKite))
        · exact Canon.ite h.putKite.faultStep h.putKite

theorem Canon.writeRows {r f rows} (h : Canon s) : Canon (writeRows r f rows s) :=
  .ite h.lerboRx (.ite h.lerboRx.violate (.ite h.lerboRx.violate (.ite h.lerboRx.violate.lerboSend (.ite h.lerboRx.lerboSend (Canon.setKite (.ite h.lerboRx h.lerboRx.same))))))

theorem Canon.writeDone {r tag status rsv} (h : Canon s) : Canon (writeDone r tag status rsv s) :=
  .ite h.lerboRx (.ite h.lerboRx.violate h.lerboRx.endRemote)

theorem Canon.issue {k slot e eff} (h : Canon s) (hf : ∀ s, Canon s → Canon (eff s)) : Canon (s.issue k slot e eff) := by
  unfold State.issue
  refine .ite h ?_
  split
  · exact h.putKite
  · exact hf _ h

theorem Canon.onKite {k eff} (h : Canon s) : Canon (s.onKite k eff) := h.putKite

end

end Sys2Proof.Stated
end

section

/-! SUPPORT. Keels, units and bridles: both memories stay canonical. -/

namespace Sys2Proof.Stated
open Sys2Proof.Machine
section
variable {s : State} {p : Pgm}

theorem Canon.haltReq {k} (h : Canon s) : Canon (haltReq k s) := .ite h h.putKite

theorem Canon.prepare {l again} (h : Canon s) : Canon (s.prepare l again).2 := by
  unfold State.prepare
  dsimp only
  split
  · exact h
  · split
    · exact h.readMem
    · exact Canon.foldl (fun _ _ hs => hs.setKite) h.readMem

theorem Canon.noteLaunch {l rs} (h : Canon s) : Canon (s.noteLaunch l rs) := .ite h.same.same h.same

theorem Canon.zeroBridles {bs} (h : Canon s) : Canon (s.zeroBridles bs) := h.same

theorem Canon.go {l} (h : Canon s) : Canon (s.go l) := by
  unfold State.go
  refine Canon.noteLaunch (Canon.ite ?_ ?_)
  · exact Canon.zeroBridles (Canon.foldl (fun _ _ hs => hs.dropWaits.setKite) h)
  · exact Canon.foldl (fun _ _ hs => hs.dropWaits.setKite) h

theorem Canon.unitReqs {ms tag cmd desc} (h : Canon s) : Canon (s.unitReqs ms tag cmd desc) :=
  Canon.foldl (fun _ _ hs => hs.lerboSend) h

theorem Canon.unitDone {c} (h : Canon s) : Canon (s.unitDone c) := h.same

theorem Canon.installTrain {u t} (h : Canon s) : Canon (s.installTrain u t) := h.same

theorem Canon.removeTrain {u} (h : Canon s) : Canon (s.removeTrain u) := h.same

theorem Canon.unitWait {kind u t l ms status} (h : Canon s) : Canon (s.unitWait kind u t l ms status) := h.same

theorem Canon.unitFinish {o} (h : Canon s) : Canon (s.unitFinish o) := by
  unfold State.unitFinish
  refine Canon.ite ?_ ?_
  · split
    · exact h.installTrain.unitDone
    · exact h.unitReqs.same.unitDone
    · exact h.unitDone
  · refine Canon.ite ?_ ?_
    · refine Canon.ite ?_ ?_
      · exact h.removeTrain.unitDone
      · split
        · exact h.unitReqs.unitDone
        · exact h.unitDone
    · exact Canon.ite (Canon.ite h.same h.unitDone) h.unitDone

theorem Canon.unitDefine (h : Canon s) : Canon (unitDefine s) := by
  unfold Machine.unitDefine
  dsimp only
  exact .ite h.ignoredReg (.ite h.unitDone (.ite h.installTrain.unitDone h.unitWait.unitReqs))

theorem Canon.unitDelete {u} (h : Canon s) : Canon (unitDelete u s) :=
  .ite h.ignoredReg (.ite h.same.unitDone (.ite h.same.removeTrain.unitDone h.same.unitWait.unitReqs))

theorem Canon.launchWith {l again} (h : Canon s) : Canon (s.launchWith l again) := by
  unfold State.launchWith
  split
  · exact h.unitDone
  · exact Canon.ite h.prepare.unitDone h.prepare.unitWait.unitReqs

theorem Canon.unitLaunch (h : Canon s) : Canon (unitLaunch s) := .ite h.ignoredReg (.ite h.unitDone h.launchWith)

theorem Canon.unitGo (h : Canon s) : Canon (unitGo s) := by
  unfold Machine.unitGo
  split
  · split
    · exact Canon.ite h.unitReqs.go.unitDone h
    · exact h
  · exact h

theorem Canon.unitTimeout (h : Canon s) : Canon (unitTimeout s) := by
  unfold Machine.unitTimeout
  split
  · exact Canon.ite h.unitFinish h
  · exact h

theorem Canon.haltKites {rs} (h : Canon s) : Canon (s.haltKites rs) := Canon.foldl (fun _ _ hs => hs.haltReq) h

theorem Canon.haltUnitKites {u rs} (h : Canon s) : Canon (s.haltUnitKites u rs) := h.haltKites.same

theorem Canon.unitHalt {u} (h : Canon s) : Canon (unitHalt u s) := by
  unfold Machine.unitHalt
  dsimp only
  refine Canon.ite ?_ ?_
  · exact h.ignoredReg
  · split
    · exact h.same.unitDone
    · exact Canon.ite h.same.unitDone (Canon.ite h.same.haltUnitKites.unitDone h.same.haltUnitKites.unitWait.unitReqs)

theorem Canon.unitAct {src tag cmd d} (h : Canon s) : Canon (s.unitAct src tag cmd d).2 := by
  unfold State.unitAct
  extract_lets +onlyGivenNames u
  clear_value u
  refine .ite2 ?_ (.ite2 ?_ (.ite2 ?_ (.ite2 h (.ite2 ?_ ?_))))
  · split
    exact .ite h.same h
  · refine .ite2 h ?_
    extract_lets +onlyGivenNames l
    clear_value l
    split
    next c t heq =>
      have ht : Canon t := .of_eq heq h.prepare
      exact .ite ht.same ht
  · split
    · exact Canon.same h.go
    · exact h
  · split
    · exact h
    · exact .ite2 h h.haltUnitKites
  · exact .ite2 h.removeTrain (.ite h.removeTrain h)

theorem Canon.unitReq {r tag cmd rsv d} (h : Canon s) : Canon (Machine.unitReq r tag cmd rsv d s) := by
  unfold Machine.unitReq
  split
  next ok t heq =>
    have ht : Canon t := .of_eq heq h.lerboRx
    refine .ite ht (.ite ht.violate ?_)
    split
    next c u heq =>
      have hu : Canon u := .of_eq heq ht.unitAct
      exact Canon.lerboSend (.ite hu.violate hu)

theorem Canon.unitRsp {r tag status rsv} (h : Canon s) : Canon (unitRsp r tag status rsv s) := by
  unfold Machine.unitRsp
  refine Canon.ite ?_ ?_
  · exact h.lerboRx
  · refine Canon.ite ?_ ?_
    · exact h.lerboRx.violate
    · split
      · exact Canon.ite h.lerboRx.unitReqs h.lerboRx
      · exact h.lerboRx
      · exact Canon.ite h.lerboRx (Canon.ite h.lerboRx.unitFinish h.lerboRx.same)

theorem Canon.bridleEval {b fab} (h : Canon s) : Canon (bridleEval b fab s) := h.same

theorem Canon.waitExpiry {b k fab} (h : Canon s) : Canon (waitExpiry b k fab s) := h.same

theorem Canon.arrive {b amt count} (h : Canon s) : Canon (s.arrive b amt count) := h.same

theorem Canon.brdCount {b v} (h : Canon s) : Canon (brdCount b v s) := .ite h (.ite h.ignoredReg h.arrive)

theorem Canon.brdAddW {b v} (h : Canon s) : Canon (brdAddW b v s) := .ite h.arrive h

theorem Canon.signalRx {r b amt} (h : Canon s) : Canon (signalRx r b amt s) := by
  unfold Machine.signalRx
  split
  next ok t heq =>
    have ht : Canon t := .of_eq heq h.lerboRx
    exact .ite ht (.ite ht.violate (.ite ht.same (Canon.same ht.violate)))

theorem Canon.promoteOne {j slot} (h : Canon s) : Canon (s.promoteOne j slot).2 := by
  unfold State.promoteOne
  dsimp only
  split
  · exact h
  · refine .ite2 h ?_
    split
    · exact h
    · exact h.same

theorem Canon.promoteAll {j slot n} (h : Canon s) : Canon (s.promoteAll j slot n) := by
  induction n generalizing s with
  | zero => exact h
  | succ n ih =>
    unfold State.promoteAll
    exact .ite (ih h.promoteOne) h.promoteOne

theorem Canon.promote {j} (h : Canon s) : Canon (s.promote j) := by
  unfold State.promote
  refine Canon.ite ?_ ?_
  · exact Canon.foldl (fun _ _ hs => hs.promoteAll) h
  · exact h

theorem Canon.copyFor {n chs} (h : Canon s) : Canon (s.copyFor n chs) := h.same

theorem Canon.replan {j} (h : Canon s) : Canon (s.replan j) := by
  unfold State.replan
  dsimp only
  refine Canon.foldl (fun _ _ hs => ?_) h.same
  split
  · exact hs.same.copyFor
  · exact hs.setReq

theorem Canon.answerCmd {q e status detail hint} (h : Canon s) : Canon (s.answerCmd q e status detail hint) :=
  .ite h.postCqe.drew.setQueue h.postCqe.drew

theorem Canon.answerOk {q e} (h : Canon s) : Canon (s.answerOk q e) := h.answerCmd

theorem Canon.refuse {q e status detail hint} (h : Canon s) : Canon (s.refuse q e status detail hint) := h.same.upWin.answerCmd

theorem Canon.accept {slot r m keys chs endRound} (h : Canon s) : Canon (s.accept slot r m keys chs endRound) := by
  unfold State.accept
  refine Canon.postCqe (Canon.drew (Canon.upWin (h.withPgm ?_)))
  refine MemOk.ite ?_ ?_
  · exact MemOk.same (MemOk.foldl (fun _ _ hs => hs.queue) h.pgm)
  · exact MemOk.foldl (fun _ _ hs => hs.queue) h.pgm

theorem Canon.idlePlan (h : Canon s) : Canon s.idlePlan := h.withPgm h.pgm.same

theorem Canon.prefillAt {a b} (h : Canon s) : Canon (s.prefillAt a b) := by
  unfold State.prefillAt
  refine Canon.ite ?_ ?_
  · exact h.refuse
  · refine Canon.ite ?_ ?_
    · exact h.refuse
    · refine Canon.ite ?_ ?_
      · exact h.refuse
      · split
        · exact h.refuse
        · refine Canon.ite ?_ ?_
          · exact Canon.ite h.refuse (Canon.ite h.refuse h.refuse)
          · split
            · exact h.refuse
            · exact h.accept

theorem Canon.cancelAt {b} (h : Canon s) : Canon (s.cancelAt b) := by
  unfold State.cancelAt
  refine Canon.ite ?_ ?_
  · exact h.answerCmd
  · split
    · exact h.same.answerCmd.answerOk
    · split
      · exact h.setReq
      · exact Canon.ite h.answerCmd h.answerCmd

theorem Canon.loadModelAt {b} (h : Canon s) : Canon (s.loadModelAt b) := .ite h.answerCmd (.ite h.answerCmd (.ite h.answerCmd h.sameHst))

theorem Canon.unloadModelAt {b} (h : Canon s) : Canon (s.unloadModelAt b) := by
  unfold State.unloadModelAt
  refine Canon.ite ?_ ?_
  · exact h.answerCmd
  · split
    · exact h.answerCmd
    · exact Canon.ite h.answerCmd (Canon.ite h.answerCmd (Canon.answerOk ⟨h.pgm.release1, h.hst⟩))

theorem Canon.readGood {a n} (h : Canon s) : Canon (s.readGood a n).2 := by
  unfold State.readGood
  split
  · exact h
  · exact h.readMem

theorem Canon.checkWeights {ws} (h : Canon s) : Canon (s.checkWeights ws).2 := by
  unfold State.checkWeights
  refine Canon.foldl2 (fun _ _ hs => ?_) h
  split
  · exact hs.readGood
  · exact hs

end

end Sys2Proof.Stated
end

section

/-! SUPPORT. Plans, weights, requests and queues: both memories stay canonical. -/

namespace Sys2Proof.Stated
open Sys2Proof.Machine
section
variable {s : State} {p : Pgm}

theorem Canon.postFor {q cid status detail} (h : Canon s) : Canon (s.postFor q cid status detail) := h.postCqe.drew

theorem Canon.modelDone {m} (h : Canon s) : Canon (s.modelDone m) := by
  unfold State.modelDone
  dsimp only
  split
  · exact h
  · refine Canon.ite ?_ ?_
    · exact h
    · split
      · exact h.readGood.sameHst.postFor
      · split
        · exact h.readGood.checkWeights.sameHst.postFor
        · exact Canon.postFor ⟨h.readGood.checkWeights.pgm.later, h.readGood.checkWeights.hst⟩

theorem Canon.installAt {b} (h : Canon s) : Canon (s.installAt b) := by
  unfold State.installAt
  refine Canon.ite ?_ ?_
  · exact h.answerCmd
  · refine Canon.ite ?_ ?_
    · exact h.answerCmd
    · split
      · exact h.answerCmd
      · exact Canon.ite h.answerCmd (Canon.ite h.answerCmd h.sameHst)

theorem Canon.removeAt {b} (h : Canon s) : Canon (s.removeAt b) := by
  unfold State.removeAt
  refine Canon.ite ?_ ?_
  · exact h.answerCmd
  · split
    · exact h.answerCmd
    · exact Canon.ite h.answerCmd (Canon.ite h.answerCmd (Canon.answerOk ⟨h.pgm.queueDrop, h.hst⟩))

theorem Canon.variantRows {x m} (h : Canon s) : Canon (s.variantRows x m).2 := by
  unfold State.variantRows
  refine Canon.foldl2 (fun _ _ hs => ?_) h
  exact hs.pageRows

theorem Canon.variantHolds {x} (h : Canon s) : Canon (s.variantHolds x).2 := by
  unfold State.variantHolds
  split
  · exact h.drew
  · exact h.variantRows

theorem Canon.variantDone {v} (h : Canon s) : Canon (s.variantDone v) := by
  unfold State.variantDone
  split
  · exact h
  · refine Canon.ite ?_ ?_
    · exact h
    · refine Canon.ite ?_ ?_
      · exact h.sameHst.postFor
      · refine Canon.ite ?_ ?_
        · exact h.variantHolds.sameHst.postFor
        · exact Canon.postFor (⟨(MemOk.foldl (fun _ _ hs => hs.queue) h.variantHolds.pgm), h.variantHolds.hst⟩)

theorem Canon.decideSub {a b} (h : Canon s) : Canon (s.decideSub a b) := by
  unfold State.decideSub
  split
  · exact h.prefillAt
  · exact h.cancelAt
  · exact h.loadModelAt
  · exact h.unloadModelAt
  · exact h.installAt
  · exact h.removeAt
  · exact h.answerCmd

theorem Canon.decideRound {a n} (h : Canon s) : Canon (s.decideRound a n) := by
  induction n generalizing s with
  | zero => exact h
  | succ n ih =>
    unfold State.decideRound
    split
    · exact h
    · exact ih (Canon.decideSub h.same)

theorem Canon.admissionRound {r} (h : Canon s) : Canon (admissionRound r s) := .ite h h.decideRound.same

theorem Canon.submit {q opc e} (h : Canon s) : Canon (s.submit q opc e) := .ite h h.setQueue.drew.decideSub

theorem Canon.effSig {k f} (h : Canon s) : Canon (effSig k f s) := .ite h.putKite.same (.ite h.putKite h.putKite)

theorem Canon.register {k b theta m} (h : Canon s) : Canon (s.register k b theta m) := h.same

theorem Canon.shiftWaits {k} (h : Canon s) : Canon (s.shiftWaits k) := by
  unfold State.shiftWaits
  dsimp only
  split
  · exact Canon.ite h.same h
  · exact h

theorem Canon.effWait {k arrive f} (h : Canon s) : Canon (effWait k arrive f s) := by
  unfold Machine.effWait
  dsimp only
  split
  · exact h.putKite.register
  · exact h.putKite.same

theorem Canon.bridleNotice {k} (h : Canon s) : Canon (bridleNotice k s) := by
  unfold Machine.bridleNotice
  dsimp only
  split
  · exact h.same
  · exact Canon.ite h.same.putKite h.same

theorem Canon.plannedRelease {k} (h : Canon s) : Canon (plannedRelease k s) := by
  unfold Machine.plannedRelease
  dsimp only
  split
  · exact h
  · exact Canon.ite h.putKite h

theorem Canon.anchorTimeout {k} (h : Canon s) : Canon (anchorTimeout k s) := by
  unfold Machine.anchorTimeout
  dsimp only
  split
  · exact h
  · exact Canon.ite h.putKite h

theorem Canon.upTick {j f} (h : Canon s) : Canon (s.upTick j f) := h.same

theorem Canon.recordHost {j l} (h : Canon s) : Canon (s.recordHost j l) := .ite h (.ite h.hostPut h.hostPut.same)

theorem Canon.recordPorts {j l} (h : Canon s) : Canon (s.recordPorts j l) :=
  .ite h (.ite h.same (.ite (.ite h.enqueue h.same) (.ite h.same h.sendFrame)))

theorem Canon.tickRecord {j} (h : Canon s) : Canon (s.tickRecord j) := h.upTick.same.recordHost.recordPorts

theorem Canon.txcfgWrite {v} (h : Canon s) : Canon (txcfgWrite v s) := .ite h.ignoredReg h.same

theorem Canon.logTail {v} (h : Canon s) : Canon (logTail v s) := .ite h.ignoredReg h.same

theorem Canon.measure {offset} (h : Canon s) : Canon (s.measure offset) := h.drew.same

theorem Canon.ptpMessage {p m} (h : Canon s) : Canon (ptpMessage p m s) := .ite h (.ite h.measure h)

theorem Canon.pps {width} (h : Canon s) : Canon (pps width s) := .ite h (.ite h.same.measure h.same)

theorem Canon.sourceTimeout (h : Canon s) : Canon (sourceTimeout s) := .ite h.same.log h

theorem Canon.tbSet {v} (h : Canon s) : Canon (tbSet v s) := .ite h (.ite h.ignoredReg h.same)

theorem Canon.wakeRequest {d} (h : Canon s) : Canon (wakeRequest d s) := .ite h (.ite h.same.crossAgain h.same)

theorem Canon.saveMargin (h : Canon s) : Canon s.saveMargin := h.same

theorem Canon.marginSave (h : Canon s) : Canon (marginSave s) := .ite h.same.saveMargin h

theorem Canon.mstepArm {arm} (h : Canon s) : Canon (mstepArm arm s) := .ite h h.same.saveMargin

theorem Canon.forecast (h : Canon s) : Canon s.forecast := .ite h.drew.same.log h.drew.same

theorem Canon.upDie {d f} (h : Canon s) : Canon (s.upDie d f) := h.same

theorem Canon.marginStep (h : Canon s) : Canon (marginStep s) := by
  unfold Machine.marginStep
  refine Canon.ite ?_ ?_
  · exact h
  · exact Canon.forecast (Canon.foldl (fun _ _ hs => Canon.ite hs.upDie hs) h)

theorem Canon.hourDie {d} (h : Canon s) : Canon (s.hourDie d) := by
  unfold State.hourDie
  split
  · exact h
  · exact Canon.ite h.upDie.same.saveMargin.log h.upDie

theorem Canon.hourEnd (h : Canon s) : Canon s.hourEnd := by
  unfold State.hourEnd
  refine Canon.ite ?_ ?_
  · exact h
  · exact Canon.forecast (Canon.same (Canon.foldl (fun _ _ hs => hs.hourDie) h))

theorem Canon.warn {d tj mem} (h : Canon s) : Canon (s.warn d tj mem) := Canon.foldl (fun _ _ hs => hs.log) h.upDie

theorem Canon.judge {d tj mem} (h : Canon s) : Canon (s.judge d tj mem) := .ite (.ite h.upDie.log h) (.ite h.upDie h.upDie)

theorem Canon.sampleDie {x d} (h : Canon s) : Canon (s.sampleDie x d) := .ite h.upDie.warn.judge h.upDie.warn

theorem Canon.sensorSample {x} (h : Canon s) : Canon (sensorSample x s) := by
  unfold Machine.sensorSample
  extract_lets _ _ s₁ s₂
  have h₂ : Canon s₂ := Canon.hourEnd (Canon.foldl (fun _ _ hs => hs.sampleDie) h.same)
  split
  · exact .ite h₂.same (Canon.fatal h₂.same)
  · split
    · exact .ite h₂.fatal h₂
    · exact h₂

theorem Canon.queueDisableDone {q} (h : Canon s) : Canon (queueDisableDone q s) := .ite h.setQueue h

theorem Canon.qcfgWrite {q v} (h : Canon s) : Canon (qcfgWrite q v s) :=
  .ite h (.ite (.ite h.setQueue.queueDisableDone (.ite h h.ignoredReg)) (.ite h.setQueue (.ite h.setQueue.sameHst h.ignoredReg)))

theorem Canon.queueBaseWrite {q cq v} (h : Canon s) : Canon (queueBaseWrite q cq v s) := .ite h (.ite (.ite h h.ignoredReg) h.setQueue)

end

end Sys2Proof.Stated
end

section

/-! SUPPORT. The bulk data port, host entries and ports: both memories stay canonical. -/

namespace Sys2Proof.Stated
open Sys2Proof.Machine
section
variable {s : State} {p : Pgm}

theorem Canon.takeEntry {q stamp e} (h : Canon s) : Canon (s.takeEntry q stamp e) := h.setQueue.same

theorem Canon.fetchEntry {q stamp} (h : Canon s) : Canon (s.fetchEntry q stamp) := by
  unfold State.fetchEntry
  dsimp only
  split
  · exact h.setQueue.takeEntry
  · exact h.setQueue.takeEntry.drew

theorem Canon.fetch {q n} (h : Canon s) : Canon (s.fetch q n) := by
  induction n generalizing s with
  | zero => exact h
  | succ n ih =>
    unfold State.fetch
    dsimp only
    refine .ite h ?_
    split
    · exact h
    · exact .ite (ih h.setQueue) (ih h.fetchEntry)

theorem Canon.badDoorbell {q row} (h : Canon s) : Canon (s.badDoorbell q row) := h.log.sameHst

theorem Canon.sqTail {q bytes v} (h : Canon s) : Canon (sqTail q bytes v s) := by
  unfold Machine.sqTail
  dsimp only
  split
  · exact h.setQueue.drew.fetch
  · exact h.badDoorbell

theorem Canon.cqHead {q bytes v} (h : Canon s) : Canon (cqHead q bytes v s) := by
  unfold Machine.cqHead
  dsimp only
  split
  · exact h.setQueue.drainHeld.fetch
  · exact h.badDoorbell

theorem Canon.pcieLinkDown (h : Canon s) : Canon (pcieLinkDown s) :=
  Canon.drew (Canon.foldl (fun _ _ hs => hs.cutStream) h.sameHst)

theorem Canon.d3hot {enter} (h : Canon s) : Canon (d3hot enter s) := .ite h.sameHst h.sameHst.crossAgain

theorem Canon.bdpRefused {ev a write} (h : Canon s) : Canon (s.bdpRefused ev a write) := ⟨(.ite h.log.pgm.same h.log.pgm), h.log.hst⟩

theorem Canon.bdpMove {o n} (h : Canon s) : Canon (s.bdpMove o n) := .ite h h.sameHst

theorem Canon.bdpWrite {o data} (h : Canon s) : Canon (bdpWrite o data s) := by
  unfold Machine.bdpWrite
  refine Canon.ite ?_ ?_
  · exact h.same
  · refine Canon.ite ?_ ?_
    · exact h
    · refine Canon.bdpMove ?_
      split
      · refine Canon.bdpRefused (Canon.foldl (fun _ _ hs => ?_) h)
        split
        · exact hs.withPgm hs.pgm.write
        · exact hs
      · refine Canon.foldl (fun _ _ hs => ?_) h
        split
        · exact hs.withPgm hs.pgm.write
        · exact hs

theorem Canon.bdpRead {o n} (h : Canon s) : Canon (bdpRead o n s) := by
  unfold Machine.bdpRead
  dsimp only
  refine Canon.ite ?_ ?_
  · exact h.emit
  · refine Canon.ite ?_ ?_
    · exact h
    · split
      · exact h.bdpRefused.emit.bdpMove
      · exact h.readMem.emit.bdpMove

theorem Canon.bdpAddrWrite {v} (h : Canon s) : Canon (bdpAddrWrite v s) := .ite h.sameHst h

theorem Canon.train {p} (h : Canon s) : Canon (s.train p) := .ite h.setPort.quadPower h.setPort.quadPower

theorem Canon.resendFrom {p i} (h : Canon s) : Canon (s.resendFrom p i) := Canon.foldl (fun _ _ hs => hs.emit) h

theorem Canon.portUp {p} (h : Canon s) : Canon (s.portUp p) :=
  .ite h.setPort (Canon.fill (Canon.pump (.ite h.setPort.resendFrom h.setPort)))

theorem Canon.helloDone {p} (h : Canon s) : Canon (s.helloDone p) := .ite h (.ite h.portStops h.portUp)

theorem Canon.equalisationDone {p lock} (h : Canon s) : Canon (equalisationDone p lock s) :=
  .ite h (.ite h.setPort.sendFlit.helloDone (.ite h.portUp h))

theorem Canon.unquar {p} (h : Canon s) : Canon (unquar p s) := .ite h.train h

theorem Canon.pcfgWrite {p v} (h : Canon s) : Canon (pcfgWrite p v s) := by
  have hset : ∀ x, Canon ((if (s.port p).st != 0 && bits v 0 2 != (s.port p).mode then s.ignoredReg uPort p else s).setPort p x) :=
    fun _ => Canon.setPort (.ite h.ignoredReg h)
  refine .ite h (.ite (Canon.unquar ?_) ?_)
  · exact .ite (.ite (Canon.train (hset _)) (hset _)) (.ite (Canon.portStops (hset _)) (hset _))
  · exact .ite (.ite (Canon.train (hset _)) (hset _)) (.ite (Canon.portStops (hset _)) (hset _))

theorem Canon.pllLockLoss {q} (h : Canon s) : Canon (pllLockLoss q s) :=
  Canon.foldl (fun _ _ hs => Canon.ite hs.portStops hs) h

theorem Canon.sendReplay {p} (h : Canon s) : Canon (s.sendReplay p) := .ite h.setPort (.ite h.setPort.sendFlit.retrain h.setPort.sendFlit)

theorem Canon.outOfOrder {p} (h : Canon s) : Canon (s.outOfOrder p) := .ite h h.sendReplay

theorem Canon.linkIn {p aack credVc cred} (h : Canon s) : Canon (s.linkIn p aack credVc cred) := h.takeAack.takeCredit

theorem Canon.seqIn {p} (h : Canon s) : Canon (s.seqIn p) := h.setPort

theorem Canon.hello {p f} (h : Canon s) : Canon (hello p f s) :=
  .ite h (.ite (.ite h.outOfOrder (.ite h.linkIn.seqIn.setPort.pump.fill h.linkIn.seqIn.violate.retrain)) (.ite h.setPort.takeAack.helloDone (.ite h.setPort.takeAack.helloDone h)))

theorem Canon.replay {p f} (h : Canon s) : Canon (replay p f s) := by
  unfold Machine.replay
  refine Canon.ite ?_ ?_
  · exact h
  · refine Canon.ite ?_ ?_
    · exact h.outOfOrder
    · refine Canon.fill (Canon.pump ?_)
      split
      · exact h.linkIn.seqIn.resendFrom
      · exact h.linkIn.seqIn

theorem Canon.ctrlFlit {p l} (h : Canon s) : Canon (s.ctrlFlit p l) := by
  unfold State.ctrlFlit
  split
  · exact h.hello
  · exact h.replay
  · exact Canon.ite h.outOfOrder h.linkIn.seqIn.violate

theorem Canon.flitIn {p l} (h : Canon s) : Canon (s.flitIn p l) :=
  .ite h.setPort.violate (.ite h.setPort.violate (.ite h.setPort.violate h.setPort))

theorem Canon.flit {p f} (h : Canon s) : Canon (flit p f s) := by
  refine .ite h (.ite h.fecIn.same (.ite h.fecIn (.ite (Canon.fill (Canon.pump ?_)) (.ite h.fecIn.ctrlFlit (.ite h.fecIn.outOfOrder (Canon.fill (Canon.pump ?_)))))))
  · exact .ite h.fecIn.linkIn.violate h.fecIn.linkIn
  · exact .ite h.fecIn.linkIn.seqIn.flitIn h.fecIn.linkIn.seqIn.violate

theorem Canon.fromReceiver {rx msg} (h : Canon s) : Canon (s.fromReceiver rx msg) := by
  unfold State.fromReceiver
  split
  · exact h.ack
  · exact h.nak
  · exact h.credit
  · exact h.msgViolation

theorem Canon.dropFrame {p} (h : Canon s) : Canon (s.dropFrame p) := h.setPort

theorem Canon.takeFrame {p} (h : Canon s) : Canon (s.takeFrame p) := h.setPort

theorem Canon.ethernetFrame {p c f} (h : Canon s) : Canon (ethernetFrame p c f s) := by
  unfold Machine.ethernetFrame
  refine Canon.ite ?_ ?_
  · exact Canon.ite h.fecIn h
  · refine Canon.ite ?_ ?_
    · exact Canon.setPort (Canon.ite h.fecIn h)
    · refine Canon.ite ?_ ?_
      · exact Canon.dropFrame (Canon.ite h.fecIn h)
      · split
        · exact Canon.takeFrame (Canon.ite h.fecIn h)
        · exact Canon.ite (Canon.fromReceiver (Canon.takeFrame (Canon.ite h.fecIn h))) (Canon.dropFrame (Canon.ite h.fecIn h))
        · exact Canon.dropFrame (Canon.ite h.fecIn h)

theorem Canon.pfc {p en quanta} (h : Canon s) : Canon (pfc p en quanta s) := .ite h h.setPort

theorem Canon.yaphorIn {rx ctx msg} (h : Canon s) : Canon (s.yaphorIn rx ctx msg) := by
  unfold State.yaphorIn
  split
  · exact h.fromReceiver
  · exact h.fromReceiver
  · exact h.fromReceiver
  · exact h
  · exact h.rxMessage

theorem Canon.yaphor {r ctx rsv msg} (h : Canon s) : Canon (yaphor r ctx rsv msg s) :=
  .ite h.lerboRx (.ite h.lerboRx.violate h.lerboRx.yaphorIn)

theorem Canon.deliverLoop (h : Canon s) : Canon s.deliverLoop := Canon.foldl (fun _ _ hs => Canon.ite hs.yaphorIn hs) h.same

theorem Canon.moduleReset (h : Canon s) : Canon s.moduleReset := ⟨⟨rfl⟩, h.hst⟩

theorem Canon.perst {level ns} (h : Canon s) : Canon (perst level ns s) := .ite h.same (.ite h h.moduleReset.same)

theorem Canon.pwrGoodRise (h : Canon s) : Canon (pwrGoodRise s) := .ite h h.moduleReset.same

theorem Canon.powerLoss (h : Canon s) : Canon (powerLoss s) := h.moduleReset.same

theorem Canon.failStart {stage code detail own} (h : Canon s) : Canon (s.failStart stage code detail own) :=
  .ite h.same.enterMinimal h.moduleReset

theorem Canon.bringUp {n p i} (h : Canon s) : Canon (s.bringUp n p i) :=
  Canon.foldl (fun _ _ hs => Canon.ite hs.train hs) (Canon.ite (Canon.saveMargin (h.withPgm h.pgm.same)) (h.withPgm h.pgm.same))

theorem Canon.slowStart {stage} (h : Canon s) : Canon (s.slowStart stage) := h.failStart

end

end Sys2Proof.Stated
end

section

/-! SUPPORT. The start, attestation, and a tick: both memories stay canonical. -/

namespace Sys2Proof.Stated
open Sys2Proof.Machine
section
variable {s : State} {p : Pgm}

theorem Canon.bootLate {env n p i builtIn} (h : Canon s) : Canon (s.bootLate env n p i builtIn) := by
  unfold State.bootLate
  refine .ite h.slowStart ?_
  split
  · exact h.failStart
  · extract_lets s₁ s₂ _ s₃
    have h₃ : Canon s₃ := Canon.same (.ite h.bringUp.log h.bringUp)
    refine .ite h₃.slowStart ?_
    split
    · exact Canon.failStart (Canon.same h₃.logRecord)
    · exact h₃.same

theorem Canon.bootSecond {env} (h : Canon s) : Canon (s.bootSecond env) := by
  unfold State.bootSecond
  refine Canon.ite ?_ ?_
  · exact h.slowStart
  · split
    · exact h.failStart
    · exact Canon.ite h.same.failStart h.same.same.bootLate

theorem Canon.boot {env} (h : Canon s) : Canon (s.boot env) := by
  unfold State.boot
  refine Canon.ite ?_ ?_
  · exact h.same.failStart
  · refine Canon.ite ?_ ?_
    · exact h.same.same.slowStart
    · split
      · exact h.same.same.failStart
      · exact h.same.same.same.bootSecond

theorem Canon.moduleResetCmd {env} (h : Canon s) : Canon (moduleResetCmd env s) := .ite h.moduleReset.boot h.moduleReset

theorem Canon.bootTimeout {stage} (h : Canon s) : Canon (bootTimeout stage s) := .ite h (Canon.slowStart (.ite h.same h))

theorem Canon.updStatus {c} (h : Canon s) : Canon (s.updStatus c) := h.same

theorem Canon.staged {o n} (h : Canon s) : Canon (s.staged o n).2 := by
  unfold State.staged
  split
  · exact h
  · split
    · exact h.ignoredReg
    · exact h.readMem

theorem Canon.component {dev} (h : Canon s) : Canon (component dev s) := by
  unfold Machine.component
  refine .ite h ?_
  extract_lets _ s₁
  have h₁ : Canon s₁ := h.same
  refine .ite h₁.updStatus (.ite h₁.updStatus ?_)
  dsimp only
  split
  · exact h₁.staged.updStatus
  · refine .ite h₁.staged.updStatus ?_
    split
    · exact h₁.staged.staged.updStatus
    · split
      · exact h₁.staged.staged.updStatus
      · exact Canon.same h₁.staged.staged

theorem Canon.profiles (h : Canon s) : Canon (profiles s) := by
  unfold Machine.profiles
  dsimp only
  refine Canon.ite ?_ ?_
  · exact h
  · refine Canon.ite ?_ ?_
    · exact h.updStatus
    · refine Canon.ite ?_ ?_
      · exact h.updStatus
      · split
        · exact h.staged.updStatus
        · exact Canon.ite h.staged.updStatus h.staged.same

theorem Canon.updateDone {ok} (h : Canon s) : Canon (updateDone ok s) := by
  unfold Machine.updateDone
  split
  · exact h
  · exact h.same

theorem Canon.resetCmd (h : Canon s) : Canon (resetCmd s) := .ite h.moduleReset h

theorem Canon.profileNext {v} (h : Canon s) : Canon (profileNext v s) := .ite h h.same

theorem Canon.respond {code data} (h : Canon s) : Canon (s.respond code data) := h.emit

theorem Canon.spdm {f version ready go} (h : Canon s) (hf : ∀ s, Canon s → Canon (go s)) :
    Canon (s.spdm f version ready go) :=
  .ite h (.ite h.respond (.ite h.respond (hf _ h)))

theorem Canon.getVersion {f} (h : Canon s) : Canon (getVersion f s) := h.spdm (fun _ hs => hs.same.respond)

theorem Canon.getCapabilities {f} (h : Canon s) : Canon (getCapabilities f s) := h.spdm (fun _ hs => hs.same.respond)

theorem Canon.negotiate {f} (h : Canon s) : Canon (negotiate f s) := h.spdm (fun _ hs => (.ite hs.same.respond hs.respond))

theorem Canon.getDigests {f} (h : Canon s) : Canon (getDigests f s) := h.spdm (fun _ hs => hs.respond)

theorem Canon.getCertificate {f} (h : Canon s) : Canon (getCertificate f s) := h.spdm (fun _ hs => (.ite hs.respond hs.respond))

theorem Canon.spdmSign {response} (h : Canon s) : Canon (s.spdmSign response).2 := h.drew

theorem Canon.challenge {f} (h : Canon s) : Canon (challenge f s) := by
  unfold Machine.challenge
  dsimp only
  exact h.spdm (fun _ hs => (.ite hs.respond hs.drew.spdmSign.respond))

theorem Canon.getMeasurements {f} (h : Canon s) : Canon (getMeasurements f s) := by
  unfold Machine.getMeasurements
  dsimp only
  refine h.spdm ?_
  · intro _ hs
    split
    · exact hs.respond
    · exact Canon.ite hs.spdmSign.respond hs.respond

theorem Canon.pldmSensor {id} (h : Canon s) : Canon (pldmSensor id s) := by
  unfold Machine.pldmSensor
  refine Canon.ite ?_ ?_
  · exact h
  · split <;> exact h.emit

theorem Canon.schedCtl {kind tick rest} (h : Canon s) : Canon (s.schedCtl kind tick rest) :=
  Canon.foldl (fun _ _ hs => hs.lerboSend) h

theorem Canon.runWrite {run} (h : Canon s) : Canon (runWrite run s) := .ite h (.ite h.same.schedCtl h.same)

theorem Canon.planSlots {j} (h : Canon s) : Canon (s.planSlots j) := by
  obtain ⟨f, hf⟩ : ∃ f, f = State.planSlots := ⟨_, rfl⟩
  obtain ⟨behind, hb⟩ : ∃ b, b = State.scrubBehind := ⟨_, rfl⟩
  rw [← hf]
  delta State.planSlots at hf
  rw [← hb] at hf
  clear hb
  subst hf
  exact h.same

theorem Canon.physWrite {a l} (h : Canon s) : Canon (s.physWrite a l) := by
  unfold State.physWrite
  refine Canon.ite ?_ ?_
  · exact h.withPgm h.pgm.write
  · split
    · exact Canon.ite h.putKite h.ignoredReg
    · exact Canon.foldl (fun _ _ hs => Canon.ite hs.brdCount (Canon.ite hs.brdAddW hs)) h
    · exact h.ignoredReg

theorem Canon.needPage {n va cls} (h : Canon s) : Canon (s.needPage n va cls) := by
  unfold State.needPage
  refine Canon.ite ?_ ?_
  · exact h
  · split
    · exact h.faultSlot
    next heq =>
      exact Canon.setReq (h.withPgm (MemOk.queue (MemOk.undefine (h.pgm.alloc heq))))

theorem Canon.needCopy {n pg pos j r m} (h : Canon s) : Canon (s.needCopy n pg pos j r m) := .ite h h.same

theorem Canon.needPages {j c} (h : Canon s) : Canon (s.needPages j c) := by
  unfold State.needPages
  dsimp only
  split
  · exact h
  · refine Canon.ite ?_ ?_
    · exact h
    · split
      · refine Canon.foldl (fun _ _ hs => ?_) (Canon.foldl (fun _ _ hs => ?_) h)
        · exact hs.needPage
        · exact Canon.needCopy (Canon.foldl (fun _ _ hs => hs.needPage) hs)
      · exact Canon.foldl (fun _ _ hs => Canon.needCopy (Canon.foldl (fun _ _ hs => hs.needPage) hs)) h

theorem MemOk.lateEdits {slots} (h : MemOk p) : MemOk (p.lateEdits slots) := by
  unfold Pgm.lateEdits
  refine MemOk.foldl (fun _ _ hs => ?_) ?_
  · exact hs.decFrame
  · refine MemOk.foldl (fun _ _ hs => ?_) (MemOk.foldl1 (fun _ _ hs => ?_) h.same)
    · exact hs.incFrame
    · exact hs.applyEdit

theorem Canon.sendDesc {j d} (h : Canon s) : Canon (s.sendDesc j d) :=
  Canon.foldl (fun _ _ hs => Canon.foldl (fun _ _ hs => hs.lerboSend) hs) h

theorem Canon.planFreeze {j} (h : Canon s) : Canon (Machine.planFreeze j s) := by
  unfold Machine.planFreeze
  split
  · exact h
  obtain ⟨s₁, e⟩ : ∃ t, t = s.planSlots j := ⟨_, rfl⟩
  have h₁ : Canon s₁ := e ▸ h.planSlots
  rw [← e]
  clear e
  extract_lets s₁ _ s₂
  have h₂ : Canon s₂ := Canon.same h₁.promote
  clear_value s₂
  split
  · exact h₂
  next t _ =>
    extract_lets s₃ s₄ t' _ s₅
    have h₃ : Canon s₃ := Canon.foldl (fun _ _ hs => hs.needPages) h₂
    have h₄ : Canon s₄ := .ite (h₃.withPgm h₃.pgm.lateEdits) h₃
    have h₅ : Canon s₅ := h₄.same
    clear_value s₅
    exact .ite h₅ h₅.physWrite.sendDesc

theorem Canon.reload {l} (h : Canon s) : Canon (s.reload l) := Canon.go (Canon.foldl (fun _ _ hs => hs.setKite) h.readMem)

theorem Canon.switchTo {m} (h : Canon s) : Canon (s.switchTo m) := by
  unfold State.switchTo
  split
  · exact h
  · exact h.reload.same

theorem Canon.tryRelaunch (h : Canon s) : Canon s.tryRelaunch := by
  unfold State.tryRelaunch
  split
  · exact h
  · exact Canon.ite h.reload (Canon.ite h h.launchWith)

theorem Canon.endDuty {j} (h : Canon s) : Canon (s.endDuty j) := Canon.same (.ite h h.upTick)

theorem Canon.endPower {j} (h : Canon s) : Canon (s.endPower j) := .ite h.same (.ite h.log.upTick.same h.same)

theorem Canon.loseTick {j} (h : Canon s) : Canon (s.loseTick j) := h.upTick.same

theorem Canon.tickStart {j} (h : Canon s) : Canon (Machine.tickStart j s) := by
  unfold Machine.tickStart
  split
  · exact h
  split
  · exact Canon.schedCtl h.same
  extract_lets +onlyGivenNames s₁ lost tp sw
  have h₁ : Canon s₁ := h.endDuty.endPower
  clear_value s₁ lost tp sw
  extract_lets +onlyGivenNames _ s₂
  have h₂ : Canon s₂ := h₁.same
  clear_value s₂
  refine .ite h₂.loseTick ?_
  split
  · exact h₂
  · extract_lets +onlyGivenNames s₃
    have h₃ : Canon s₃ := .ite h₂.switchTo h₂
    clear_value s₃
    exact .ite h₃ (.ite h₃.loseTick h₃.same)

theorem Canon.shipMatched {c} (h : Canon s) : Canon (s.shipMatched c) := by
  unfold State.shipMatched
  dsimp only
  split
  · exact h
  · refine Canon.ite ?_ ?_
    · exact h
    · exact Canon.foldl (fun _ _ hs => Canon.foldl (fun _ _ hs => hs.markFinal) hs) h

theorem Canon.stepGo (h : Canon s) : Canon (stepGo s) := by
  unfold Machine.stepGo
  split
  · exact h
  · refine Canon.ite ?_ ?_
    · exact h
    · refine Canon.ite ?_ ?_
      · exact h.fatal
      · refine Canon.foldl (fun _ _ hs => ?_) (Canon.foldl (fun _ _ hs => ?_) h.same)
        · exact hs.shipMatched
        · exact hs.setKite

theorem Canon.upStream {n f} (h : Canon s) : Canon (s.upStream n f) := by
  unfold State.upStream
  split
  · exact h.same
  · exact h.setStream

theorem Canon.chunkDone {c} (h : Canon s) : Canon (s.chunkDone c) := .ite h (.ite h.setReq.upStream h.setReq)

theorem Canon.endStep {c g} (h : Canon s) : Canon (s.endStep c g) := by
  unfold State.endStep
  refine Canon.ite ?_ ?_
  · exact Canon.upTick (Canon.ite (Canon.log (Canon.ite h.same.log h.same)) (Canon.ite h.same.log h.same))
  · exact Canon.foldl (fun _ _ hs => hs.chunkDone) (Canon.upTick (Canon.ite (Canon.log (Canon.ite h.same.log h.same)) (Canon.ite h.same.log h.same)))

end

end Sys2Proof.Stated
end

section

/-! SUPPORT. Page copies, the prefix index and admission: both memories stay canonical. -/

namespace Sys2Proof.Stated
open Sys2Proof.Machine
section
variable {s : State} {p : Pgm}

theorem Canon.reportStep {c} (h : Canon s) : Canon (s.reportStep c) := h.lerboSend

theorem Canon.stepWatch (h : Canon s) : Canon s.stepWatch := by
  unfold State.stepWatch
  split
  · exact h
  · split
    · exact Canon.ite (Canon.ite h.reportStep.same h.endStep) h
    · exact h

theorem Canon.haltLate {g} (h : Canon s) : Canon (s.haltLate g) := Canon.foldl (fun _ _ hs => Canon.ite hs hs.haltReq) h

theorem Canon.stepCut {j} (h : Canon s) : Canon (stepCut j s) := by
  unfold Machine.stepCut
  split
  · exact h
  · refine Canon.ite ?_ ?_
    · exact h
    · refine Canon.ite ?_ ?_
      · exact h.haltLate.same
      · exact Canon.foldl (fun _ _ hs => Canon.ite hs (Canon.ite hs.faultSlot hs.setReq)) (Canon.ite h.haltLate.same.upTick h.haltLate.same.upTick.tryRelaunch)

theorem Canon.copyRows {m psize rows old new_} (h : Canon s) : Canon (s.copyRows m psize rows old new_) :=
  Canon.foldl (fun _ _ hs => hs.readMem.withPgm hs.readMem.pgm.write.poison) h

theorem Canon.cowDone {c r m} (h : Canon s) : Canon (s.cowDone c r m) := by
  unfold State.cowDone
  extract_lets f cls s₁ _ p
  have h₁ : Canon s₁ := by
    refine Canon.foldl (fun t x ht => .ite ht ?_) h
    split
    · exact ht.faultSlot
    next a q heq =>
      have hq : Canon ({ t with pgm := q.undefine a (2 ^ cls) } : State) := ⟨(ht.pgm.alloc heq).undefine, ht.hst⟩
      exact Canon.setReq ⟨hq.copyRows.pgm.queue.queue, hq.copyRows.hst⟩
  have hp : MemOk p := h₁.pgm.same
  exact ⟨.ite hp.lateEdits hp, h₁.hst⟩

theorem Canon.eachSection {m f} (h : Canon s) (hf : ∀ s a b, Canon s → Canon (f s a b)) : Canon (Model.eachSection m f s) :=
  Canon.foldl (fun _ _ hs => Canon.foldl (fun _ _ hs => hf _ _ _ hs) hs) h

theorem Canon.compactRow {n frm dest r m} (h : Canon s) : Canon (s.compactRow n frm dest r m) := by
  unfold State.compactRow
  refine h.eachSection ?_
  · intro _ _ _ hs
    split
    · exact hs.readMem.withPgm hs.readMem.pgm.write.poison
    · exact hs

theorem Canon.dropRow {n pos r m} (h : Canon s) : Canon (s.dropRow n pos r m) := by
  unfold State.dropRow
  refine h.eachSection ?_
  · intro _ _ _ hs
    split
    · exact hs.withPgm hs.pgm.undefine
    · exact hs

theorem Canon.compactDone {c r m} (h : Canon s) : Canon (s.compactDone c r m) := by
  unfold State.compactDone
  extract_lets tb s₁ len s₂ f psize gone p toks s₃ s₄ ps
  have h₁ : Canon s₁ := Canon.foldl (fun _ _ hs => .ite hs hs.compactRow) h
  have h₂ : Canon s₂ := Canon.foldl (fun _ _ hs => hs.dropRow) h₁
  have hp : MemOk p := MemOk.foldl (fun _ _ hp => MemOk.foldl (fun _ _ hp => hp.queue) hp) h₂.pgm
  have h₄ : Canon s₄ := Canon.upStream (Canon.setReq ⟨hp.same, h₂.hst⟩)
  exact Canon.foldl (fun _ _ hs => Canon.foldl (fun _ _ hs => hs.markFinal) hs) h₄

theorem Canon.pageCopyDone (h : Canon s) : Canon (pageCopyDone s) := by
  unfold Machine.pageCopyDone
  dsimp only
  split
  · exact h
  · refine Canon.ite ?_ ?_
    · exact h
    · split
      · exact h.same
      · exact Canon.ite h.same (Canon.ite h.same.compactDone h.same.cowDone)

theorem Canon.planCompact {ch} (h : Canon s) : Canon (s.planCompact ch) := by
  unfold State.planCompact
  dsimp only
  split
  · exact h
  · exact Canon.ite h h.same

theorem Canon.memberStart {r tick t0 cfg rsv} (h : Canon s) : Canon (memberStart r tick t0 cfg rsv s) :=
  .ite h.lerboRx (.ite h.lerboRx.violate (.ite h.lerboRx.violate (.ite h.lerboRx h.lerboRx.same)))

theorem Canon.memberBoundary {r tick rsv} (h : Canon s) : Canon (memberBoundary r tick rsv s) :=
  .ite h.lerboRx (.ite h.lerboRx.violate (.ite (.ite h.lerboRx.violate h.lerboRx.same) (.ite h.lerboRx h.lerboRx.violate)))

theorem Canon.memberStop {r tick rsv} (h : Canon s) : Canon (memberStop r tick rsv s) :=
  .ite h.lerboRx (.ite h.lerboRx.violate (.ite (.ite h.lerboRx.violate h.lerboRx.same) (.ite h.lerboRx h.lerboRx.violate)))

theorem Canon.memberDesc {r tick off data} (h : Canon s) : Canon (memberDesc r tick off data s) :=
  .ite h.lerboRx (.ite h.lerboRx.violate (.ite (.ite h.lerboRx.violate h.lerboRx.physWrite.same) (.ite h.lerboRx h.lerboRx.violate)))

theorem Canon.leadReport {r tick last holds} (h : Canon s) : Canon (leadReport r tick last holds s) :=
  .ite h.lerboRx (.ite h.lerboRx.violate (.ite h.lerboRx.same h.lerboRx))

theorem Canon.memberTick {j} (h : Canon s) : Canon (memberTick j s) := by
  unfold Machine.memberTick
  refine .ite h ?_
  extract_lets got d whole bound m sw s₁ s₂ _ s₃
  have h₁ : Canon s₁ := .ite h h.tickRecord
  have h₃ : Canon s₃ := Canon.same h₁.endDuty.endPower
  exact .ite (Canon.same (.ite h₃.switchTo h₃)) (.ite h₃.log (Canon.same h₃.log))

theorem Canon.pageDigests {fs nkv psize rb nv} (h : Canon s) : Canon (s.pageDigests fs nkv psize rb nv).2 := by
  unfold State.pageDigests
  refine Canon.foldl2 (fun _ _ hs => ?_) h
  exact hs.pageRows

theorem Canon.insertPage {n pg r m} (h : Canon s) : Canon (s.insertPage n pg r m) := by
  unfold State.insertPage
  dsimp only
  split
  · exact h
  · refine Canon.ite ?_ ?_
    · exact h
    · split
      · exact h.pageDigests
      · exact h.pageDigests.withPgm (MemOk.foldl (fun _ _ hs => hs.queue.protectFrame) h.pageDigests.pgm.putEntry)

theorem Canon.dropReq {n} (h : Canon s) : Canon (s.dropReq n) := Canon.setReq (h.withPgm (.ite h.pgm h.pgm.queueDrop))

theorem Canon.insertFrom {q m n} (h : Canon s) : Canon (s.insertFrom q m n) := by
  induction n generalizing s with
  | zero => exact h
  | succ n ih =>
    unfold State.insertFrom
    dsimp only
    split
    · exact h
    · exact .ite h.dropReq (.ite h (ih (h.insertPage.setReq)))

theorem Canon.insertReady (h : Canon s) : Canon s.insertReady := by
  unfold State.insertReady
  refine Canon.foldl (fun _ _ hs => ?_) h
  refine Canon.ite ?_ ?_
  · exact hs
  · split
    · exact hs.insertFrom
    · exact hs.dropReq

theorem Canon.beginInsert {n} (h : Canon s) : Canon (s.beginInsert n) := by
  unfold State.beginInsert
  dsimp only
  split
  · exact h.dropReq
  · refine Canon.setReq (Canon.foldl (fun _ _ hs => ?_) h)
    refine Canon.foldl (fun _ _ hs => ?_) hs
    split
    · exact Canon.ite hs hs.migrate
    · exact hs

theorem Canon.voidDescs {n} (h : Canon s) : Canon (s.voidDescs n) := by
  unfold State.voidDescs
  refine Canon.foldl (fun _ _ hs => ?_) h
  refine Canon.ite ?_ ?_
  · exact hs
  · exact Canon.foldl (fun _ _ hs => Canon.ite hs.physWrite hs) hs

theorem Canon.leave {n} (h : Canon s) : Canon (s.leave n) := h.voidDescs.same.dropReq

theorem Canon.postCancels {l status detail} (h : Canon s) : Canon (s.postCancels l status detail) :=
  Canon.foldl (fun _ _ hs => hs.postFor) h

theorem Canon.admitReq {n} (h : Canon s) : Canon (s.admitReq n) := by
  unfold State.admitReq
  dsimp only
  split
  · exact h.setReq.same
  · exact h.setReq

theorem Canon.endReq {n status st} (h : Canon s) : Canon (s.endReq n status st) := h.complete.postCancels.setReq.same.stopStream.leave

theorem Canon.takeCancels (h : Canon s) : Canon s.takeCancels := by
  unfold State.takeCancels
  refine Canon.foldl (fun _ _ hs => ?_) h
  refine Canon.ite ?_ ?_
  · exact hs
  · split
    · exact hs.same.setReq
    · exact hs

theorem Canon.outcome {n} (h : Canon s) : Canon (s.outcome n) := by
  unfold State.outcome
  refine Canon.ite ?_ ?_
  · exact h
  · refine Canon.ite ?_ ?_
    · exact h.postCancels.setReq
    · split
      · exact h.endReq
      · refine Canon.ite ?_ ?_
        · exact h.endReq
        · split
          · exact Canon.ite h.endReq h
          · exact h

theorem Canon.advance {ran next n} (h : Canon s) : Canon (s.advance ran next n) := .ite h.setReq (.ite h.setReq h)

theorem Canon.finish {n} (h : Canon s) : Canon (s.finish n) := .ite (.ite h.setReq.beginInsert h.setReq.leave) h

theorem Canon.freeReqs (h : Canon s) : Canon s.freeReqs := h.same

theorem Canon.makeUsable (h : Canon s) : Canon s.makeUsable := h.sameHst

theorem Canon.preBoundary (h : Canon s) : Canon s.preBoundary :=
  Canon.pxTrim (Canon.foldl (fun _ _ hs => hs.needPages) h.insertReady)

theorem Canon.reqBoundary {ran next} (h : Canon s) : Canon (s.reqBoundary ran next) := by
  unfold State.reqBoundary
  refine Canon.foldl (fun _ _ hs => ?_) ?_
  · exact hs.finish
  · refine Canon.foldl (fun _ _ hs => ?_) ?_
    · exact hs.advance
    · refine Canon.foldl (fun _ _ hs => ?_) (Canon.foldl (fun _ _ hs => ?_) h.freeReqs.takeCancels)
      · exact hs.outcome
      · exact Canon.ite hs.admitReq hs

theorem Canon.stepBoundary (h : Canon s) : Canon (Machine.stepBoundary s) := by
  unfold Machine.stepBoundary
  split
  · exact h
  extract_lets +onlyGivenNames b run chunks next s₁ s₂ s₃
  have h₃ : Canon s₃ := Canon.foldl (fun _ _ hs => hs.planCompact) h.preBoundary.epochBoundary.makeUsable.reqBoundary
  clear_value s₃
  extract_lets +onlyGivenNames _ s₄ s₅
  have h₅ : Canon s₅ := Canon.tryRelaunch h₃.same
  clear_value s₅
  split
  · extract_lets +onlyGivenNames s₆ _ s₇
    have h₇ : Canon s₇ := Canon.same h₅.replan
    clear_value s₇
    exact .ite (.ite h₇ h₇.tickRecord) (Canon.schedCtl (.ite h₇ h₇.tickRecord))
  · exact .ite (.ite h₅ h₅.tickRecord) (Canon.schedCtl (.ite h₅ h₅.tickRecord))

theorem Canon.exportDeadline {n} (h : Canon s) : Canon (exportDeadline n s) := .ite h h.stopStream.faultSlot

theorem Canon.resume {k} (h : Canon s) : Canon (resume k s) := .ite h.putKite h

theorem Canon.background (h : Canon s) : Canon s.background := .ite (h.withPgm h.pgm.copyOn.rewriteAll) h

theorem Canon.useSlot {k} (h : Canon s) : Canon (s.useSlot k) := h.same

theorem Canon.scrubMove {loft n} (h : Canon s) : Canon (s.scrubMove loft n) := .ite (h.withPgm h.pgm.same) (h.withPgm h.pgm.same)

theorem Canon.patrolScrub {loft mib} (h : Canon s) : Canon (patrolScrub loft mib s) := by
  unfold Machine.patrolScrub
  refine .ite h ?_
  extract_lets n s'
  have h' : Canon s' := Canon.foldl (fun _ _ hs => hs.touchBlock) h
  exact Canon.useSlot (Canon.scrubMove ⟨h'.pgm.rewriteAll, h'.hst⟩)

theorem Canon.wearLevelling {a} (h : Canon s) : Canon (wearLevelling a s) := by
  unfold Machine.wearLevelling
  dsimp only
  refine Canon.ite ?_ ?_
  · exact h
  · split
    · exact h.useSlot
    · exact Canon.ite h.useSlot (Canon.ite h.useSlot.migrate.same h.useSlot.migrate)

end

end Sys2Proof.Stated
end

section

/-! SUPPORT. Registers, host writes, and the cycle: both memories stay canonical. -/

namespace Sys2Proof.Stated
open Sys2Proof.Machine
section
variable {s : State} {p : Pgm}

theorem Canon.effPost {k reads raw ch bv sb} (h : Canon s) : Canon (effPost k reads raw ch bv sb s) := h.putKite.postD

theorem Canon.regIf {c unit t} (h : Canon s) (ht : Canon t) : Canon (s.regIf c unit t) := .ite ht h.ignoredReg

theorem Canon.writeUnitCmd {w} (h : Canon s) : Canon (s.writeUnitCmd w) := by
  unfold State.writeUnitCmd
  dsimp only
  refine Canon.ite ?_ ?_
  · exact h.ignoredReg
  · split
    · exact Canon.unitDefine (Canon.ite h.same h)
    · exact Canon.unitDelete (Canon.ite h.same h)
    · exact Canon.unitLaunch (Canon.ite h.same h)
    · exact Canon.unitHalt (Canon.ite h.same h)
    · exact Canon.ite h.same h

theorem Canon.writeGlb {o w} (h : Canon s) : Canon (s.writeGlb o w) := by
  unfold State.writeGlb
  refine Canon.ite ?_ ?_
  · split
    · exact h.queueBaseWrite
    · exact h.queueBaseWrite
    · exact h.qcfgWrite
    · exact h
  · exact Canon.ite h.bdpAddrWrite (Canon.ite h.sameHst (Canon.ite h.writeUnitCmd (Canon.ite h.same h)))

theorem Canon.writeSch {o w} (h : Canon s) : Canon (s.writeSch o w) := by
  unfold State.writeSch
  split
  · exact Canon.ite h.runWrite h
  · exact h.regIf h.same
  · exact h.regIf h.same
  · exact Canon.ite (h.regIf h.same) h
  · exact Canon.ite (h.regIf h.same) h
  · exact h

theorem Canon.writePgm {o w} (h : Canon s) : Canon (s.writePgm o w) := by
  unfold State.writePgm
  refine Canon.ite ?_ ?_
  · exact h.withPgm h.pgm.same
  · split
    · split
      · exact h.pgmAlloc
      · exact h.pgmMap
      · exact h.pgmUnmap
      · exact h.pgmIncref
      · exact h.pgmDecref
      · exact h.pgmDropspace
      · exact h.pgmMigrate
      · exact h
    · exact h.withPgm h.pgm.same
    · exact h.withPgm h.pgm.same
    · exact h.withPgm h.pgm.same
    · exact h.withPgm h.pgm.same
    · split
      · exact h.pxInsert
      · exact h.pxRemove
      · exact h.pxFlush
      · exact h
    · exact h

theorem Canon.writeXpt {o w} (h : Canon s) : Canon (s.writeXpt o w) := .ite h.same (.ite h.targetWrite (.ite h.same h))

theorem Canon.writeModid {v} (h : Canon s) : Canon (s.writeModid v) := by
  unfold State.writeModid
  refine Canon.ite ?_ ?_
  · exact Canon.ite h.log h
  · exact Canon.foldl (fun _ _ hs => Canon.ite hs.train hs) h.same

theorem Canon.writeLnk {o w} (h : Canon s) : Canon (s.writeLnk o w) := by
  unfold State.writeLnk
  refine Canon.ite ?_ ?_
  · split
    · exact Canon.ite h.pcfgWrite h
    · exact h.setPort
    · exact h
  · exact Canon.ite (Canon.ite h.writeModid h) (Canon.ite (Canon.ite h.same h) (Canon.ite h.same h.same))

theorem Canon.writeKte {k o w} (h : Canon s) : Canon (s.writeKte k o w) := by
  unfold State.writeKte
  refine Canon.ite ?_ ?_
  · exact h
  · refine Canon.ite ?_ ?_
    · exact h.putKite
    · refine Canon.ite ?_ ?_
      · exact h.putKite
      · refine Canon.ite ?_ ?_
        · exact h
        · split
          · exact Canon.ite (Canon.resume (Canon.ite h.haltReq h)) (Canon.ite h.haltReq h)
          · exact h.putKite
          · exact h.putKite

theorem Canon.writeBrd {o w} (h : Canon s) : Canon (s.writeBrd o w) :=
  .ite (.ite (Canon.brdAddW (.ite h.brdCount h)) (.ite h.brdCount h)) h

theorem Canon.writeTbCtl {v} (h : Canon s) : Canon (s.writeTbCtl v) := .ite h h.same

theorem Canon.writePwr {o w} (h : Canon s) : Canon (s.writePwr o w) := by
  unfold State.writePwr
  split
  · exact Canon.ite h.writeTbCtl h
  · exact h.tbSet
  · exact Canon.ite h.mstepArm h
  · exact h

theorem Canon.writeLock {v} (h : Canon s) : Canon (s.writeLock v) := .ite (.ite h.log h) h.same

theorem Canon.writeSec {o w} (h : Canon s) : Canon (s.writeSec o w) := by
  unfold State.writeSec
  split
  · exact Canon.ite h.profileNext h
  · refine Canon.ite ?_ ?_
    · exact h
    · split
      · exact h.same.component
      · exact h.same.profiles
      · exact h.same.resetCmd
      · exact h.same
  · exact h.same
  · exact Canon.ite h.writeLock h
  · exact h

theorem Canon.writeTel {o w} (h : Canon s) : Canon (s.writeTel o w) := by
  unfold State.writeTel
  split
  · exact Canon.ite h.same h
  · exact Canon.ite h.logTail h
  · exact Canon.ite h.same h
  · exact Canon.ite h.ignoredReg h.same
  · exact Canon.ite h.txcfgWrite h
  · exact h

theorem Canon.writeBlk {b o w} (h : Canon s) : Canon (s.writeBlk b o w) := by
  unfold State.writeBlk
  split
  · exact h.writeGlb
  · exact h.writeSch
  · exact h.writePgm
  · exact h.writeXpt
  · exact h.writeLnk
  · exact h
  · exact h.writeKte
  · exact h.writeBrd
  · exact h.writePwr
  · exact h.writeSec
  · exact h.writeTel

theorem Canon.registerWrite {off half v} (h : Canon s) : Canon (registerWrite off half v s) := .ite h (.ite h (.ite h.badReg h.writeBlk))

theorem Canon.padEnds {k loop} (h : Canon s) : Canon (s.padEnds k loop) := .ite h.putKite h

theorem Canon.sigsLeave {k} (h : Canon s) : Canon (s.sigsLeave k) := by
  unfold State.sigsLeave
  refine Canon.foldl (fun _ _ hs => ?_) (Canon.ite h h.setKite)
  split
  · exact hs.signal
  · exact hs

theorem Canon.kiteEnd {k} (h : Canon s) : Canon (s.kiteEnd k) := h.bankCycle.putKite.postWaiting.postChain.sigsLeave.putKite

theorem Canon.kiteStart {k} (h : Canon acc.1) : Canon (State.kiteStart acc k).1 := h.putKite.shiftWaits

theorem Canon.kitesEnd (h : Canon s) : Canon s.kitesEnd := by
  unfold State.kitesEnd
  refine Canon.ite ?_ ?_
  · exact Canon.stepWatch (Canon.foldl (fun _ _ hs => hs.kiteEnd) h)
  · exact h

theorem Canon.cycleEnd (h : Canon s) : Canon (cycleEnd s) := Canon.same (Canon.deliverLoop (.ite h.kitesEnd.background h.kitesEnd))

theorem Canon.passTime (h : Canon s) : Canon s.passTime := .ite h h.same

theorem Canon.kiteSamples {k} (h : Canon s) : Canon (s.kiteSamples k) := .ite h h.putKite

theorem Canon.cycleIssue (h : Canon s) : Canon (cycleIssue s) := by
  unfold Machine.cycleIssue
  extract_lets s₁ s₂
  have h₁ : Canon s₁ := .ite (Canon.foldl (fun _ _ hs => hs.kiteSamples) h) h
  have h₂ : Canon s₂ := Canon.passTime h₁.same
  have h₃ : ∀ c : Bool, Canon (if c = true then s₂.kiteList.foldl State.kiteStart (s₂, []) else (s₂, [])).1 := by
    intro c
    split
    · exact Canon.foldl1 (fun _ _ hs => hs.kiteStart) h₂
    · exact h₂
  exact Canon.same (h₃ _)

theorem Canon.idle (h : Canon s) : Canon (idle s) := .ite h.cycleIssue h.cycleEnd

theorem Canon.withPending {l} (h : Canon s) : Canon (s.withPending l) := h.same

theorem Canon.withFetchWord {nbits w} (h : Canon s) : Canon (s.withFetchWord nbits w) := by
  unfold State.withFetchWord
  split
  · exact h.withPending
  · exact h

end

end Sys2Proof.Stated
end

section

/-! SUPPORT. Every command, and every step, keeps both memories canonical. -/

namespace Sys2Proof.Stated
open Sys2Proof.Machine
section
variable {s : State}

/-- Whatever state the outcome goes on with has both memories in canonical form. -/
def Leads (o : Host.Outcome State Fault Refusal) : Prop := ∀ t, o = .next t → Canon t

theorem Leads.next (h : Canon s) : Leads (.next s) := by
  rintro _ ⟨⟩
  exact h

theorem Leads.repair {k} (h : Canon s) : Leads (execRepair k s) := by
  refine .next ?_
  split
  · exact h.putKite
  · exact h

theorem Leads.exec (h : Canon s) (i : Instr) : Leads (exec i s) := by
  cases i with
  | add | sub | and | or | xor | shl | shr | sra | mul | sel | mov | addi | andi | ori | xori | shli | shri | srai | muli | li 
  | lih | cmp | cmpi | ld | st | csrr | csrw | brb | loop | halt | mset | mfeed | mswap | mseed | mzero | vadd | vsub | vmul 
  | vfma | vmin | vmax | vneg | vabs | vceq | vcne | vclt | vcle | vcgt | vcge | vsel | vand | vor | vxor | vshl | vshr | vsra 
  | cvt | vexp2 | vlog2 | vrcp | vrsqrt | vsqrt | vsinpi | vcospi | vtanh | vlogi | verf | vshuf | vtree | vacc | vsum | vld 
  | vst | vchain | waitr | fence | tickwait => exact .next (h.issue fun _ hs => hs.onKite)
  | brbJoin | loopPadEnd => exact .next h.padEnds
  | stepend => exact .next (h.issue fun _ hs => hs.putKite)
  | dmov | dpage | dsend | dexport | dfill | dcopy => exact .next (h.issue fun _ hs => hs.effPost)
  | sig => exact .next (h.issue fun _ hs => hs.effSig)
  | wait | arrive => exact .next (h.issue fun _ hs => hs.effWait)
  | passLastUpdate | deflation | mseedComplete | testDrain | testDrainDone | chainEnd | reelCfgWrite | offReq | onReq 
  | bankPowerOff | bankCloseTimeout | bankWakeDone => exact .next (.ite h.putKite h)
  | moveComplete => exact .next h.moveComplete
  | plannedRelease => exact .next h.plannedRelease
  | bridleNotice => exact .next h.bridleNotice
  | anchorTimeout => exact .next h.anchorTimeout
  | haltReq => exact .next (.ite h.haltReq h)
  | resume => exact .next (.ite h.resume h)
  | pmemDataWrite => exact .next (.ite h h.putKite)
  | pmemDataRead => exact .next (.ite h.emit h.putKite.emit)
  | chainmemWrite => exact .next (.ite h (.ite h.badReg h.putKite))
  | repair => exact .repair h
  | define => exact .next (.ite h.unitDefine h)
  | delete => exact .next (.ite h.unitDelete h)
  | launch => exact .next (.ite h.unitLaunch h)
  | launchGo => exact .next h.unitGo
  | unitCmdTimeout => exact .next h.unitTimeout
  | haltUnit => exact .next (.ite h.unitHalt h)
  | bridleEvaluation => exact .next (.ite h.bridleEval h)
  | waitExpiry => exact .next (.ite h.waitExpiry h)
  | brdCountWrite => exact .next h.brdCount
  | brdAdd => exact .next h.brdAddW
  | alloc => exact .next (.ite h.pgmAlloc h)
  | map => exact .next (.ite h.pgmMap h)
  | unmap => exact .next (.ite h.pgmUnmap h)
  | incref => exact .next (.ite h.pgmIncref h)
  | decref => exact .next (.ite h.pgmDecref h)
  | dropspace => exact .next (.ite h.pgmDropspace h)
  | migrate => exact .next (.ite h.pgmMigrate h)
  | insert => exact .next (.ite h.pxInsert h)
  | remove => exact .next (.ite h.pxRemove h)
  | flush => exact .next (.ite h.pxFlush h)
  | migrateCopyDone => exact .next (.ite h.migrateCopyDone h)
  | stepBoundary => exact .next h.stepBoundary
  | epochRetire => exact .next h.epochRetire
  | patrolScrub => exact .next h.patrolScrub
  | hbmPhyCalibration | loftCalibration => exact .next (.ite h.useSlot h)
  | loftWearLevelling => exact .next h.wearLevelling
  | pageCopyDone => exact .next h.pageCopyDone
  | runWrite => exact .next h.runWrite
  | tickStart => exact .next (.ite h.memberTick h.tickStart)
  | stepGo => exact .next h.stepGo
  | planFreeze => exact .next h.planFreeze
  | admissionRound => exact .next h.admissionRound
  | stepCut => exact .next h.stepCut
  | exportDeadline => exact .next h.exportDeadline
  | sqTailDoorbell => exact .next h.sqTail
  | cqHeadDoorbell => exact .next h.cqHead
  | prefill | cancel | loadModel | unloadModel | installVariant | removeVariant => exact .next h.submit
  | modelLoadDone => exact .next h.modelDone
  | variantInstallDone => exact .next h.variantDone
  | qcfgWrite => exact .next h.qcfgWrite
  | queueBaseWrite => exact .next h.queueBaseWrite
  | queueDisableDone => exact .next h.queueDisableDone
  | interruptTimeout => exact .next (.ite h.queueIrq h)
  | bdpAddrWrite => exact .next h.bdpAddrWrite
  | bdpWrite => exact .next h.bdpWrite
  | bdpRead => exact .next h.bdpRead
  | pcieLinkDown => exact .next h.pcieLinkDown
  | registerWrite => exact .next h.registerWrite
  | targetWrite => exact .next (.ite h.targetWrite h)
  | pageData => exact .next h.pageData
  | manifest => exact .next h.manifest
  | ack => exact .next h.ack
  | nak => exact .next h.nak
  | credit => exact .next h.credit
  | retransmitTimeout => exact .next h.retransmit
  | rateIncrease => exact .next h.rateIncrease
  | sealedTimeout => exact .next h.sealedTimeout
  | yaphor => exact .next h.yaphor
  | unitReq => exact .next h.unitReq
  | unitRsp => exact .next h.unitRsp
  | write => exact .next h.writeRows
  | writeDone => exact .next h.writeDone
  | stepDesc => exact .next h.memberDesc
  | schedCtlStart => exact .next h.memberStart
  | schedCtlBoundary => exact .next h.memberBoundary
  | schedCtlStop => exact .next h.memberStop
  | stepDone => exact .next h.leadReport
  | signal => exact .next h.signalRx
  | lerboForward => exact .next h.lerboRx
  | hello => exact .next h.hello
  | replay => exact .next h.replay
  | replayRetry => exact .next (.ite h.sendReplay h)
  | aackTimeout => exact .next (.ite h.retrain h)
  | laneLockLoss => exact .next h.setPort.retrain
  | retrainTimeout | trainingTimeout => exact .next (.ite h.portStops h)
  | downRetry => exact .next (.ite h.train h)
  | pllLockLoss => exact .next h.pllLockLoss
  | pcfgWrite => exact .next h.pcfgWrite
  | unquar => exact .next h.unquar
  | ethernetFrame => exact .next h.ethernetFrame
  | pfc => exact .next h.pfc
  | ptpMessage => exact .next h.ptpMessage
  | pps => exact .next h.pps
  | timebaseSourceTimeout => exact .next h.sourceTimeout
  | tbSet => exact .next h.tbSet
  | wakeRequest => exact .next h.wakeRequest
  | sensorSample => exact .next h.sensorSample
  | marginPlanStep => exact .next h.marginStep
  | marginPlanSave => exact .next h.marginSave
  | mstepArm => exact .next h.mstepArm
  | txcfgWrite => exact .next (.ite h.txcfgWrite h)
  | logTailWrite => exact .next (.ite h.logTail h)
  | perst => exact .next h.perst
  | moduleReset => exact .next h.moduleResetCmd
  | bootStageTimeout => exact .next h.bootTimeout
  | pwrGoodRise => exact .next h.pwrGoodRise
  | powerLoss => exact .next h.powerLoss
  | component => exact .next h.component
  | profiles => exact .next h.profiles
  | reset => exact .next h.resetCmd
  | profileNextWrite => exact .next h.profileNext
  | getVersion => exact .next h.getVersion
  | getCapabilities => exact .next h.getCapabilities
  | negotiateAlgorithms => exact .next h.negotiate
  | getDigests => exact .next h.getDigests
  | getCertificate => exact .next h.getCertificate
  | challenge => exact .next h.challenge
  | getMeasurements => exact .next h.getMeasurements
  | pldmSensorRequest => exact .next h.pldmSensor
  | flit => exact .next h.flit
  | equalisationDone => exact .next h.equalisationDone
  | updateDone => exact .next h.updateDone
  | d3hot => exact .next h.d3hot

theorem Leads.step (h : Canon s) : Leads (step s) := by
  unfold Machine.step
  split
  · exact .next h.idle
  · exact .exec h.same _

end

/-- Settles O59: each function of the model that a command calls keeps both memories canonical, since memory is written by `memWrite`
and the bulk writes made of it alone. -/
theorem memoryStaysCanonical : Obligations.MemoryStaysCanonical := by
  unfold Obligations.MemoryStaysCanonical
  intro s t hp hh ht
  obtain ⟨hpgm, hhst⟩ := Leads.step ⟨⟨hp⟩, hh⟩ t ht
  exact ⟨hpgm.mem, hhst⟩

end Sys2Proof.Stated
end

section

/-! SUPPORT. A kite's window: halts (R442), program memory (R153) and chain memory (R104). -/

namespace Sys2Proof.Stated
open Sys2Proof.Machine
section
variable {k : Fin 256} {s : State}

/-! ### Halts (R442) -/

theorem exec_haltReq_up (hup : s.kteUp k = true) : exec (.haltReq k) s = .next (Machine.haltReq k s) :=
  congrArg Host.Outcome.next (if_pos hup)

theorem exec_resume_up (hup : s.kteUp k = true) : exec (.resume k) s = .next (Machine.resume k s) :=
  congrArg Host.Outcome.next (if_pos hup)

/-- The kite from which a halt is asked. -/
def askedHalt (cyc : Nat) (kt : Kite) : Kite := if kt.reqEnd = true then kt else { kt with reqEnd := true, haltAt := cyc + 1 }

theorem askedHalt_st (cyc : Nat) (kt : Kite) : (askedHalt cyc kt).st = kt.st := by
  unfold askedHalt
  split <;> rfl

theorem askedHalt_evs (cyc : Nat) (kt : Kite) : (askedHalt cyc kt).evs = kt.evs := by
  unfold askedHalt
  split <;> rfl

theorem askedHalt_unit (cyc : Nat) (kt : Kite) : (askedHalt cyc kt).unit = kt.unit := by
  unfold askedHalt
  split <;> rfl

theorem haltReq_running (hs : (s.kite k).stopped = false) : Machine.haltReq k s =
    s.putKite k (if s.isServing (askedHalt s.cyc (s.kite k)).unit then (askedHalt s.cyc (s.kite k)).event k .v evRegIgnored
      else askedHalt s.cyc (s.kite k)) := by
  rw [Machine.haltReq]
  exact if_neg (Bool.eq_false_iff.1 hs)

/-- A kite that runs and raises one event below class U, put back: the event is logged. -/
theorem putKite_event {kt : Kite} (hs : kt.stopped = false) (hevs : kt.evs = []) {cls : EvClass} (hcls : cls ≠ .u) (e info : Nat) :
    s.putKite k (kt.event k cls e info) = (s.log (Ev.kite cls e k info)).setKite k kt := by
  have hev : (kt.event k cls e info).evs = [Ev.kite cls e k info] := congrArg (· ++ [Ev.kite cls e k info]) hevs
  have hminor : ∀ x ∈ (kt.event k cls e info).evs, x.cls ≠ .u := fun x hx => by
    rw [hev, List.mem_singleton] at hx
    rw [hx]
    exact hcls
  refine (State.putKite_minor s k (kt.event k cls e info) hs hminor).trans ?_
  rw [hev]
  exact congrArg (State.setKite _ _) (withoutEvs hevs)

theorem putKite_ignored {kt : Kite} (hs : kt.stopped = false) (hevs : kt.evs = []) {e : Nat} :
    s.putKite k (kt.event k .v e) = (s.log (Ev.kite .v e k)).setKite k kt :=
  putKite_event (cls := .v) hs hevs nofun e 0

/-- Settles O26: by the cases of the keel's state, and whether its kite serves. -/
theorem haltResume : Obligations.HaltResume := by
  unfold Obligations.HaltResume
  intro k s hup
  have hstopped (hs : (s.kite k).stopped = false) : (askedHalt s.cyc (s.kite k)).stopped = false :=
    (stopped_of_st (askedHalt_st _ _)).trans hs
  refine ⟨fun hs => ?_, fun hs hn => ?_, fun hs hn => ?_, fun hst hreq => ?_, fun hno => ?_⟩
  · rw [exec_haltReq_up hup, Machine.haltReq]
    exact congrArg _ (if_pos hs)
  · rw [exec_haltReq_up hup, haltReq_running hs, askedHalt_unit, hn, if_neg Bool.false_ne_true,
      State.putKite_quiet _ _ _ (hstopped hs) (askedHalt_evs _ _)]
    rfl
  · rw [exec_haltReq_up hup, haltReq_running hs, askedHalt_unit, hn, if_pos rfl, putKite_ignored (hstopped hs) (askedHalt_evs _ _)]
    rfl
  · rw [exec_resume_up hup, Machine.resume]
    exact congrArg _ ((if_pos (by simp [hst, hreq])).trans (State.putKite_quiet _ _ _ rfl rfl))
  · rw [exec_resume_up hup, Machine.resume]
    refine congrArg _ (if_neg fun h => ?_)
    obtain ⟨hst, hreq⟩ := Bool.and_eq_true_iff.1 h
    obtain hne | hne := hno
    · exact hne (of_decide_eq_true hst)
    · exact Bool.false_ne_true (hne.symm.trans hreq)

/-! ### Program memory (R153) and chain memory (R104) -/

theorem exec_pmemDataWrite_up (hup : s.kteUp k = true) (w : Fin 4) (v : BitVec 64) : exec (.pmemDataWrite k w v) s =
    .next (s.putKite k (if (s.kite k).stopped then pmemWrite k w.val v.toNat (s.kite k) else (s.kite k).ignored k)) :=
  congrArg Host.Outcome.next (if_neg (by simp [hup]))

theorem exec_chainmemWrite_up (hup : s.kteUp k = true) {off : BitVec 15} (hoff : off.toNat % 512 < 272) (v : BitVec 64) :
    exec (.chainmemWrite k off v) s =
      .next (s.putKite k (if (s.kite k).stopped then chainMemWrite k off.toNat v.toNat (s.kite k) else (s.kite k).ignored k)) :=
  congrArg Host.Outcome.next ((if_neg (by simp [hup])).trans (if_neg (Nat.not_le.2 hoff)))

theorem exec_pmemDataRead_up (hup : s.kteUp k = true) (w : Fin 4) : exec (.pmemDataRead k w) s = .next ((s.putKite k
    (if w = 3 then { s.kite k with pmAddr := ((s.kite k).pmAddr + 1) % 8192 } else s.kite k)).emit
      (.word (BitVec.ofNat 64 ((s.kite k).bundle k (s.kite k).pmAddr / 2 ^ (64 * w.val))))) :=
  congrArg Host.Outcome.next (if_neg (by simp [hup]))

theorem pmemWrite_staged {kt : Kite} {w : Nat} (hw : w ≠ 3) (v : BitVec 64) :
    pmemWrite k w v.toNat kt = { kt with pmStage := mapSet kt.pmStage w v.toNat } := by
  rw [pmemWrite, Nat.mod_eq_of_lt v.isLt]
  exact if_neg hw

theorem pmemWrite_bundle {kt : Kite} (v : BitVec 64) : pmemWrite k 3 v.toNat kt = { kt with
    pmStage := mapSet kt.pmStage 3 v.toNat, pmAddr := (kt.pmAddr + 1) % 8192
    pmem := mapSet kt.pmem kt.pmAddr
      (kt.staged k 0 + 2 ^ 64 * kt.staged k 1 + 2 ^ 128 * kt.staged k 2 + 2 ^ 192 * v.toNat) } := by
  have hne (i : Nat) (hi : i ≠ 3) : Kite.staged { kt with pmStage := mapSet kt.pmStage 3 v.toNat } k i = kt.staged k i :=
    congrArg (fun o => Option.getD o _) (mapGet_mapSet_ne kt.pmStage 3 i v.toNat hi)
  have hself : Kite.staged { kt with pmStage := mapSet kt.pmStage 3 v.toNat } k 3 = v.toNat :=
    congrArg (fun o => Option.getD o _) (mapGet_mapSet_self kt.pmStage 3 v.toNat)
  rw [pmemWrite, Nat.mod_eq_of_lt v.isLt, ← hne 0 (by decide), ← hne 1 (by decide), ← hne 2 (by decide)]
  refine (if_pos rfl).trans ?_
  rw [hself]

theorem chainWord_chainMemWrite_self {kt : Kite} (o v : Nat) :
    (chainMemWrite k o v kt).chainWord k (o / 512 * 32 + o % 512 / 16) =
      setBits (kt.chainWord k (o / 512 * 32 + o % 512 / 16)) (64 * (o / 8 % 2)) 64 v :=
  congrArg (fun o => Option.getD o _) (mapGet_mapSet_self kt.chainMem _ _)

theorem chainWord_chainMemWrite_ne {kt : Kite} {o v j : Nat} (hj : j ≠ o / 512 * 32 + o % 512 / 16) :
    (chainMemWrite k o v kt).chainWord k j = kt.chainWord k j :=
  congrArg (fun o => Option.getD o _) (mapGet_mapSet_ne kt.chainMem _ _ _ hj)

theorem bits_word {v : BitVec 64} : bits v.toNat 0 64 = v.toNat := by
  rw [bits, pow_zero, Nat.div_one, Nat.mod_eq_of_lt v.isLt]

/-- Settles O27: what a write leaves of the staged words, the bundle and the chain word is read off the maps it sets. -/
theorem programAndChainMemory : Obligations.ProgramAndChainMemory := by
  unfold Obligations.ProgramAndChainMemory
  intro k s hup
  refine ⟨fun w v hs hw => ?_, fun v hs => ?_, fun w v hs => ?_, fun w => ?_, fun off v hoff hs => ?_, fun off v hoff hs => ?_⟩
  · refine keeps_of_put ((exec_pmemDataWrite_up hup w v).trans ?_) rfl
    rw [if_pos hs, pmemWrite_staged (Nat.ne_of_lt hw)]
  · refine keeps_of_put ((exec_pmemDataWrite_up hup 3 v).trans ?_) rfl
    rw [if_pos hs]
    exact congrArg (fun x => Host.Outcome.next (s.putKite k x)) (pmemWrite_bundle v)
  · rw [exec_pmemDataWrite_up hup, if_neg (Bool.eq_false_iff.1 hs)]
    exact congrArg _ (putKite_ignored hs rfl)
  · refine ⟨_, exec_pmemDataRead_up hup w, ?_⟩
    split
    · exact putKite_silent s k rfl
    · exact putKite_silent s k rfl
  · refine ⟨chainMemWrite k off.toNat v.toNat (s.kite k), keeps_of_put ((exec_chainmemWrite_up hup hoff v).trans ?_) rfl, rfl,
      ?_, ?_, fun j hj => chainWord_chainMemWrite_ne hj⟩
    · rw [if_pos hs]
    · rw [chainWord_chainMemWrite_self]
      exact (bits_setBits_inside (a := 0) _ _ (Nat.le_refl 64)).trans bits_word
    · rw [chainWord_chainMemWrite_self]
      exact bits_setBits_beside _ _ (by omega)
  · rw [exec_chainmemWrite_up hup hoff, if_neg (Bool.eq_false_iff.1 hs)]
    exact congrArg _ (putKite_ignored hs rfl)

end
end Sys2Proof.Stated
end

section

/-! SUPPORT. The reels of a kite, the power of its banks, and its repairs (R137, R141, R146–R149). -/

namespace Sys2Proof.Stated
open Sys2Proof.Machine

/-! ### Maps and bits -/

theorem mapGet_filter_keys {α : Type} (m : Map α) (p : Nat → Bool) (k : Nat) :
    mapGet (m.filter fun x => p x.1) k = if p k then mapGet m k else none := by
  induction m with
  | nil => simp [mapGet]
  | cons e rest ih =>
    obtain ⟨j, v⟩ := e
    by_cases hj : j = k
    · subst hj
      cases hp : p j <;> simp [List.filter_cons, hp, mapGet, ih]
    · cases hp : p j <;> simp [List.filter_cons, hp, mapGet, ih, hj]

theorem bit_toNat {w : Nat} (v : BitVec w) (i : Nat) : bit v.toNat i = v.getLsbD i := by
  rw [bit, BitVec.getLsbD, Nat.testBit_eq_decide_div_mod_eq]
  rfl

section
variable {k : Fin 256} {s : State}

/-! ### Reels (R141, R146) -/

theorem exec_reelCfgWrite_up (hup : s.kteUp k = true) (r : Fin 32) (v : BitVec 64) :
    exec (.reelCfgWrite k r v) s = .next (s.putKite k (reelCfg k (s.peerReels k) r.val v.toNat (s.kite k))) :=
  congrArg Host.Outcome.next (if_pos hup)

theorem reelCfg_taken {kt : Kite} {peers : List Nat} {r v : Nat} (huse : kt.reelInUse r = false) (hpeer : r ∉ peers)
    (hlg : v / 16384 % 16 ≤ 14) (hfit : v % 16384 + 2 ^ (v / 16384 % 16) ≤ 16384) : reelCfg k peers r v kt =
      { kt with reels := mapSet kt.reels r ⟨v % 16384, v / 16384 % 16, bit v 18, 0, 0⟩ } := by
  have h0 : bits v 0 14 = v % 16384 := by simp [bits]
  have h14 : bits v 14 4 = v / 16384 % 16 := rfl
  unfold reelCfg
  refine (if_neg (by simp [huse, hpeer])).trans ((if_neg ?_).trans ?_)
  · rw [h0, h14]
    simp [spadRows, hlg, Nat.not_lt.2 hfit]
  · rw [h0, h14]

theorem reelCfg_refused {kt : Kite} {peers : List Nat} {r v : Nat} (h : kt.reelInUse r = true ∨ r ∈ peers ∨ 14 < v / 16384 % 16 ∨
    16384 < v % 16384 + 2 ^ (v / 16384 % 16)) : ∃ es, reelCfg k peers r v kt =
      { kt with reelBad := min (kt.reelBad + 1) 65535, evs := es } := by
  have h0 : bits v 0 14 = v % 16384 := by simp [bits]
  have h14 : bits v 14 4 = v / 16384 % 16 := rfl
  unfold reelCfg
  split
  · exact ⟨_, rfl⟩
  next hfree =>
    refine ⟨_, if_pos ?_⟩
    rw [h0, h14]
    simp only [Bool.or_eq_true, List.contains_iff_mem, not_or] at hfree
    obtain huse | hpeer | hlg | hfit := h
    · exact absurd huse hfree.1
    · exact absurd hpeer hfree.2
    · simp [hlg]
    · simp [hfit, spadRows]

/-! ### Banks (R147, R149) -/

theorem bank_mapUpd {kt : Kite} (b j : Nat) (f : Bank → Bank) :
    Kite.bank { kt with banks := mapUpd kt.banks b {} f } j = if j = b then f (kt.bank b) else kt.bank j := by
  show mapGetD (mapSet kt.banks b (f (kt.bank b))) j {} = _
  split
  next h => rw [h, mapGetD, mapGet_mapSet_self]; rfl
  next h => rw [mapGetD, mapGet_mapSet_ne _ _ _ _ h]; rfl

theorem bank_setBank {kt : Kite} (b j : Nat) (st : BankSt) :
    (kt.setBank b st).bank j = if j = b then { kt.bank b with st := st } else kt.bank j := bank_mapUpd b j _

/-- A fold over the first `n` banks whose step at bank `b` changes what is observed of bank `b` alone. -/
theorem foldl_range_local {β : Type} {f : Kite → Nat → Kite} {obs : Kite → Nat → β} {g : Nat → β → β}
    (hself : ∀ x b, obs (f x b) b = g b (obs x b)) (hother : ∀ x b j, j ≠ b → obs (f x b) j = obs x j) (n : Nat) (kt : Kite) (j : Nat) :
    obs ((List.range n).foldl f kt) j = if j < n then g j (obs kt j) else obs kt j := by
  induction n with
  | zero => exact (if_neg (Nat.not_lt_zero j)).symm
  | succ n ih =>
    rw [List.range_succ, List.foldl_append, List.foldl_cons, List.foldl_nil]
    by_cases hj : j = n
    · subst hj
      rw [hself, ih, if_neg (Nat.lt_irrefl j), if_pos (Nat.lt_succ_self j)]
    · rw [hother _ _ _ hj, ih]
      exact if_congr (by omega) rfl rfl

/-- An ON bank that OFF_REQ names is closing. -/
def closeBank (cyc mask : Nat) (kt : Kite) (b : Nat) : Kite :=
  if bit mask b then
    match (kt.bank b).st with
    | .on => kt.setBank b (.closing cyc)
    | _ => kt
  else kt

theorem offReq_eq (cyc mask : Nat) (kt : Kite) : offReq cyc mask kt = (List.range 16).foldl (closeBank cyc mask) kt := rfl

theorem closeBank_eq (cyc mask : Nat) (kt : Kite) (b : Nat) : closeBank cyc mask kt b =
    if bit mask b = true ∧ (kt.bank b).st = .on then kt.setBank b (.closing cyc) else kt := by
  unfold closeBank
  split
  next hb =>
    split
    next hst => rw [if_pos ⟨hb, hst⟩]
    next hst => rw [if_neg fun h => hst h.2]
  next hb => rw [if_neg fun h => hb h.1]

theorem bank_offReq (cyc mask : Nat) (kt : Kite) (b : Nat) : (offReq cyc mask kt).bank b =
    if b < 16 then (if bit mask b = true ∧ (kt.bank b).st = .on then { kt.bank b with st := .closing cyc } else kt.bank b)
    else kt.bank b := by
  rw [offReq_eq]
  refine foldl_range_local (obs := Kite.bank)
    (g := fun b x => if bit mask b = true ∧ x.st = .on then { x with st := .closing cyc } else x) (fun x b => ?_) (fun x b j hj => ?_) 16 kt b
  · rw [closeBank_eq]
    split
    · exact (bank_setBank b b _).trans (if_pos rfl)
    · rfl
  · rw [closeBank_eq]
    split
    · exact (bank_setBank b j _).trans (if_neg hj)
    · rfl

theorem offReq_banks (cyc mask : Nat) (kt : Kite) : offReq cyc mask kt = { kt with banks := (offReq cyc mask kt).banks } := by
  rw [offReq_eq]
  refine List.foldlRecOn (motive := fun x : Kite => x = { kt with banks := x.banks }) _ _ rfl fun x hx b _ => ?_
  rw [closeBank_eq]
  split
  · exact congrArg (fun y : Kite => y.setBank b (.closing cyc)) hx
  · exact hx

/-- An OFF bank that ON_REQ names wakes, and a closing one is ON again. -/
def wakeBank (cyc mask : Nat) (kt : Kite) (b : Nat) : Kite :=
  if bit mask b then
    match (kt.bank b).st with
    | .off => { kt with banks := mapUpd kt.banks b {} fun x => { st := .waking cyc, gen := x.gen + 1 } }
    | .closing _ => { kt.setBank b .on with pwrAbort := kt.pwrAbort ||| 2 ^ b }
    | _ => kt
  else kt

theorem onReq_eq (cyc mask : Nat) (kt : Kite) : onReq cyc mask kt = (List.range 16).foldl (wakeBank cyc mask) kt := rfl

/-- What ON_REQ makes of a bank and of its abort bit. -/
def wokenBank (cyc mask b : Nat) (x : Bank × Bool) : Bank × Bool :=
  if bit mask b then
    match x.1.st with
    | .off => (⟨.waking cyc, x.1.gen + 1⟩, x.2)
    | .closing _ => ({ x.1 with st := .on }, true)
    | _ => x
  else x

/-- A bank and its abort bit. -/
def bankAbort (kt : Kite) (b : Nat) : Bank × Bool := (kt.bank b, kt.pwrAbort.testBit b)

theorem wokenBank_off {cyc mask b : Nat} {x : Bank × Bool} (hm : bit mask b = true) (hst : x.1.st = .off) :
    wokenBank cyc mask b x = (⟨.waking cyc, x.1.gen + 1⟩, x.2) := by
  obtain ⟨⟨st, gen⟩, a⟩ := x
  cases hst
  exact if_pos hm

theorem wokenBank_closing {cyc mask b c : Nat} {x : Bank × Bool} (hm : bit mask b = true) (hst : x.1.st = .closing c) :
    wokenBank cyc mask b x = ({ x.1 with st := .on }, true) := by
  obtain ⟨⟨st, gen⟩, a⟩ := x
  cases hst
  exact if_pos hm

theorem wokenBank_unnamed {cyc mask b : Nat} {x : Bank × Bool} (hm : bit mask b = false) : wokenBank cyc mask b x = x :=
  if_neg (Bool.eq_false_iff.1 hm)

theorem bankAbort_wakeBank_self (cyc mask : Nat) (kt : Kite) (b : Nat) :
    bankAbort (wakeBank cyc mask kt b) b = wokenBank cyc mask b (bankAbort kt b) := by
  unfold wakeBank wokenBank
  split
  · show _ = (match (kt.bank b).st with
      | .off => _
      | .closing _ => _
      | _ => _)
    split
    · exact Prod.ext ((bank_mapUpd b b _).trans (if_pos rfl)) rfl
    · refine Prod.ext ((bank_setBank b b _).trans (if_pos rfl)) ?_
      simp [bankAbort, Nat.testBit_or, Nat.testBit_two_pow_self]
    · rfl
  · rfl

theorem bankAbort_wakeBank_ne (cyc mask : Nat) (kt : Kite) {b j : Nat} (hj : j ≠ b) :
    bankAbort (wakeBank cyc mask kt b) j = bankAbort kt j := by
  unfold wakeBank
  split
  · split
    · exact Prod.ext ((bank_mapUpd b j _).trans (if_neg hj)) rfl
    · refine Prod.ext ((bank_setBank b j _).trans (if_neg hj)) ?_
      simp [bankAbort, Nat.testBit_or, Nat.testBit_two_pow_of_ne hj.symm]
    · rfl
  · rfl

theorem bankAbort_onReq (cyc mask : Nat) (kt : Kite) (b : Nat) : bankAbort (onReq cyc mask kt) b =
    if b < 16 then wokenBank cyc mask b (bankAbort kt b) else bankAbort kt b := by
  rw [onReq_eq]
  exact foldl_range_local (bankAbort_wakeBank_self cyc mask) (fun _ _ _ => bankAbort_wakeBank_ne cyc mask _) 16 kt b

theorem onReq_banks (cyc mask : Nat) (kt : Kite) :
    onReq cyc mask kt = { kt with banks := (onReq cyc mask kt).banks, pwrAbort := (onReq cyc mask kt).pwrAbort } := by
  rw [onReq_eq]
  refine List.foldlRecOn (motive := fun x : Kite => x = { kt with banks := x.banks, pwrAbort := x.pwrAbort }) _ _ rfl fun x hx b _ => ?_
  unfold wakeBank
  split
  · split
    · exact congrArg (fun y : Kite => { y with banks := mapUpd x.banks b {} fun x => { st := .waking cyc, gen := x.gen + 1 } }) hx
    · exact congrArg (fun y : Kite => { y with banks := (x.setBank b .on).banks, pwrAbort := x.pwrAbort ||| 2 ^ b }) hx
    · exact hx
  · exact hx

theorem getLsbD_lt {w b : Nat} {v : BitVec w} (h : v.getLsbD b = true) : b < w := by
  by_contra hb
  rw [BitVec.getLsbD_of_ge v b (Nat.not_lt.1 hb)] at h
  exact Bool.false_ne_true h

/-! ### Repairs (R137) -/

theorem exec_repair_some {r : Nat} (hr : (s.kite k).repaired = some r) : exec (.repair k) s = .next (s.putKite k { s.kite k with
    repairQ := (s.kite k).repairQ.filter fun x => x != r, soft := mapDel (s.kite k).soft r, repaired := none }) := by
  rw [exec_repair, execRepair, hr]

theorem exec_repair_none (hr : (s.kite k).repaired = none) : exec (.repair k) s = .next s := by
  rw [exec_repair, execRepair, hr]

/-- Settles O28: each request of SPAD_PWR acts on its own bank, and each event of a bank on that bank alone. -/
theorem banksAndReels : Obligations.BanksAndReels := by
  unfold Obligations.BanksAndReels
  intro k s
  refine ⟨fun r v hup huse hpeer hlg hfit => ?_, fun r v hup hbad => ?_, fun mask hup => ?off, fun mask hup => ?on, fun b c hst hc hn => ?_,
    fun b c hst hc hn => ?_, fun b c hst hc => ?_, fun r hr => ?_, fun hr => ?_⟩
  · refine keeps_of_put ((exec_reelCfgWrite_up hup r v).trans ?_) rfl
    rw [reelCfg_taken huse hpeer hlg hfit, bit_toNat]
  · obtain ⟨es, hes⟩ := reelCfg_refused (k := k) (kt := s.kite k) hbad
    refine ⟨_, exec_reelCfgWrite_up hup r v, ?_⟩
    rw [State.putKite_kite_self, hes]
    rfl
  case off =>
    have hbanks := offReq_banks s.cyc mask.toNat (s.kite k)
    refine ⟨_, keeps_of_put (congrArg Host.Outcome.next (if_pos hup)) (congrArg Kite.evs hbanks), hbanks, fun b => ?_⟩
    rw [bank_offReq, bit_toNat]
    split
    · rfl
    next hb => rw [if_neg fun h => hb (getLsbD_lt h.1)]
  case on =>
    have hbanks := onReq_banks s.cyc mask.toNat (s.kite k)
    refine ⟨_, keeps_of_put (congrArg Host.Outcome.next (if_pos hup)) (congrArg Kite.evs hbanks), hbanks, fun b => ?_⟩
    have hb := bankAbort_onReq s.cyc mask.toNat (s.kite k) b
    rw [← bit_toNat]
    refine ⟨fun hm hst => ?_, fun hm c hst => ?_, fun hm => ?_⟩
    · rw [if_pos (getLsbD_lt (bit_toNat mask b ▸ hm)), wokenBank_off hm hst] at hb
      exact congrArg Prod.fst hb
    · rw [if_pos (getLsbD_lt (bit_toNat mask b ▸ hm)), wokenBank_closing hm hst] at hb
      exact ⟨congrArg Prod.fst hb, congrArg Prod.snd hb⟩
    · rw [wokenBank_unnamed hm, ite_self] at hb
      exact ⟨congrArg Prod.fst hb, congrArg Prod.snd hb⟩
  · have hdue : (s.kite k).bankOffDue s.cyc b = true := by
      rw [Kite.bankOffDue, hst]
      simp [hc, hn]
    refine ⟨(s.kite k).bankGoesOff b, keeps_of_put (congrArg Host.Outcome.next (if_pos hdue)) rfl, rfl, (bank_setBank _ _ _).trans (if_pos rfl),
      fun j hj => (bank_setBank _ _ _).trans (if_neg hj), fun r hr => ?_, fun r hr => ?_⟩
    · exact (mapGet_filter_keys _ (fun r => bankOf r != b) r).trans (if_neg (by simp [bankOf, hr]))
    · exact (mapGet_filter_keys _ (fun r => bankOf r != b) r).trans (if_pos (by simp [bankOf, hr]))
  · have hdue : (s.kite k).bankCloseDue s.cyc b = true := by
      rw [Kite.bankCloseDue, hst]
      simp [hc, hn]
    exact ⟨_, keeps_of_put (congrArg Host.Outcome.next (if_pos hdue)) rfl, rfl, (bank_setBank _ _ _).trans (if_pos rfl),
      fun j hj => (bank_setBank _ _ _).trans (if_neg hj)⟩
  · have hdue : (s.kite k).bankWakeDue s.cyc b = true := by
      rw [Kite.bankWakeDue, hst]
      exact decide_eq_true hc
    exact ⟨_, keeps_of_put (congrArg Host.Outcome.next (if_pos hdue)) rfl, rfl, (bank_setBank _ _ _).trans (if_pos rfl),
      fun j hj => (bank_setBank _ _ _).trans (if_neg hj)⟩
  · refine ⟨_, keeps_of_put (exec_repair_some hr) rfl, rfl, fun x => ?_⟩
    simp
  · exact exec_repair_none hr

end
end Sys2Proof.Stated
end

section

/-! SUPPORT. The S slot: signals, fences and the tick wait (R159, R161, R200), anchors and their releases (R156–R158, R201, R202). -/

namespace Sys2Proof.Stated
open Sys2Proof.Machine

/-! ### Reports and an event -/

theorem reported_event {a x : Kite} (hx : hazStep a x) (ha : a.evs = []) (k e info : Nat) : reported a (x.event k .s e info) := by
  obtain ⟨hxa, hevs, -⟩ := hx
  refine ⟨⟨x.hzCode, x.hzPc, x.hzSlot, x.hzCount, x.hzStop, _, congrArg (fun y : Kite => y.event k .s e info) hxa⟩, fun y hy => ?_⟩
  obtain hy | hy := List.mem_append.1 hy
  · obtain hy | hy := hevs y hy
    · rw [ha] at hy
      exact absurd hy List.not_mem_nil
    · rw [hy]
      exact nofun
  · rw [List.mem_singleton.1 hy]
    exact nofun

theorem hazBlind_sendSig (t u amt : Nat) : HazBlind fun x => x.sendSig t u amt := ⟨fun _ _ _ _ _ _ _ => rfl, fun _ => rfl⟩

theorem kitesKept_putKite (s : State) (k : Nat) (kt : Kite) : kitesKept [k] s (s.putKite k kt) :=
  fun j hj => State.putKite_kite_ne s k j kt (by simpa using hj)

section
variable {k : Fin 256} {s : State}

/-- The kite that a step puts back differs from `g` of the old one by hazard reports alone. -/
theorem effect_of_put {i : Instr} {g : Kite → Kite} {x : Kite} (hg : HazBlind g) (hx : hazStep (s.kite k) x)
    (hi : exec i s = .next (s.putKite k (g x))) (hs : (g (s.kite k)).stopped = false) : effect i k (g (s.kite k)) s :=
  ⟨_, hi, slotDone_put s k _ _ (hg.hazStep hx) (hg.evs _) (hg.hzEn _) hs⟩

section
variable (h : issuing s k)
include h

/-- An instruction that issues through `State.issue` and whose check finds nothing has its effect. -/
theorem exec_of_issue {i : Instr} {slot : Nat} {c : Option Exc} {eff : State → State}
    (hi : exec i s = .next (s.issue k slot c eff)) (hc : c = none) : exec i s = .next (eff s) := by
  rw [hi, hc, State.issue_none h]

/-! ### Signals and fences (R161, R200, R211) -/

/-- The registers that SIG reads. -/
def sigReads (f : SSig) : List SReg := if f.areg = 0 then [.s f.sb.toNat] else [.s f.sb.toNat, .s f.sa.toNat]

section
variable {f : SSig} (hc : chkSig f = none)
include hc

theorem exec_sig_inRange {x : Nat × Nat} (hp : brunsAt (s.unitBruns (s.kite k).unit) ((s.kite k).s32 f.sb) = some x) :
    exec (.sig k f) s = .next (if sigAmt (s.kite k) f = 0 then s.putKite k ((s.kite k).readHaz k 4 (sigReads f))
      else s.putKite k (((s.kite k).readHaz k 4 (sigReads f)).sendSig ((s.kite k).t s.cyc) ((s.kite k).s32 f.sb) (sigAmt (s.kite k) f))) := by
  refine (exec_of_issue h (exec_sig k f s) hc).trans (congrArg _ (if_neg ?_))
  rw [State.bridleAt, hp]
  exact nofun

theorem exec_sig_outside (hp : brunsAt (s.unitBruns (s.kite k).unit) ((s.kite k).s32 f.sb) = none) :
    exec (.sig k f) s = .next { (s.putKite k (((s.kite k).readHaz k 4 (sigReads f)).event k .s evBridleRange ((s.kite k).s32 f.sb))) with
      brd := { s.brd with nRange := satAdd 16 s.brd.nRange 1 } } := by
  refine (exec_of_issue h (exec_sig k f s) hc).trans (congrArg _ (if_pos ?_))
  rw [State.bridleAt, hp]
  rfl

end

theorem fence_effect {f : SZ} (hf : f.rsv = 0) :
    effect (.fence k f) k (effFence ((s.kite k).t s.cyc) (s.kite k)) s :=
  slotDone_of_execSlot_quiet h (exec_fence k f s) (illegalIf_eq_none_iff.2 (by simp [hf])) rfl rfl rfl (issuing_stopped h)

end
end

section
variable {t : Nat} {kt : Kite}

theorem effFence_mono : kt.fenceTv ≤ (effFence t kt).fenceTv := Nat.le_max_left _ _

theorem effFence_store {r : VRun} {g : VM} (hr : kt.vMem = some r) (hk : r.kind = .st g) : r.t0 + r.occ - 1 ≤ (effFence t kt).fenceTv := by
  unfold effFence
  rw [hr]
  dsimp only
  rw [hk]
  exact Nat.le_trans (Nat.le_max_left _ _) (Nat.le_max_right _ _)

theorem effFence_idle (hv : kt.vMem = none) (hch : kt.chain = none) : (effFence t kt).fenceTv = kt.fenceTv := by
  unfold effFence
  rw [hv, hch]
  exact Nat.max_zero _

end

/-- Settles O22: by the range of the bridle and the amount of the signal; a fence keeps the latest of the writes it waits for. -/
theorem signalFenceTickwait : Obligations.SignalFenceTickwait := by
  unfold Obligations.SignalFenceTickwait
  intro k s h
  refine ⟨fun f hc => ⟨fun m b hp hamt => ?_, fun m b hp hamt => ?_, fun hp => ?_⟩, fun f hf => ?_, fun f hf hbar => ?_⟩
  · exact effect_of_put (hazBlind_sendSig _ _ (sigAmt (s.kite k) f)) (Kite.readHaz_step _ k 4 (sigReads f))
      ((exec_sig_inRange h hc hp).trans (congrArg _ (if_neg hamt))) (issuing_stopped h)
  · exact effect_of_put hazBlind_id (Kite.readHaz_step _ k 4 _)
      ((exec_sig_inRange h hc hp).trans (congrArg _ (if_pos hamt))) (issuing_stopped h)
  · exact ⟨_, exec_sig_outside h hc hp, kitesKept_putKite s k _,
      putKite_hazardOnly (reported_event (Kite.readHaz_step _ k 4 _) rfl k _ _) rfl, rfl⟩
  · exact ⟨(effFence ((s.kite k).t s.cyc) (s.kite k)).fenceTv, fence_effect h hf, effFence_mono, fun r g => effFence_store, effFence_idle⟩
  · exact slotDone_of_execSlot_quiet h (exec_tickwait k f s) (orExc_eq_none_iff.2 ⟨illegalIf_eq_none_iff.2 (by simp [hf]), hbar⟩)
      rfl rfl rfl rfl

end Sys2Proof.Stated
end

section

/-! SUPPORT. Anchors and their releases (R156–R158, R201, R202, R212, R219). -/

namespace Sys2Proof.Stated
open Sys2Proof.Machine

/-! ### Anchors that start -/

theorem hazBlind_comp {g g' : Kite → Kite} (hg : HazBlind g) (hg' : HazBlind g') : HazBlind fun x => g' (g x) :=
  ⟨fun x c p sl n st es => (congrArg g' (hg.comm x c p sl n st es)).trans (hg'.comm _ c p sl n st es),
    fun x => (hg'.hzEn _).trans (hg.hzEn x)⟩

theorem hazBlind_startAnchor (t : Nat) (on : AnchorOn) (fd : Nat) (m : Nat × Nat) : HazBlind fun x => x.startAnchor t on fd m :=
  ⟨fun _ _ _ _ _ _ _ => rfl, fun _ => rfl⟩

theorem waitTimes_eq (kt : Kite) (f : SWait) : waitTimes kt f =
    (if f.mreg = 0 then f.min.toNat else (kt.s f.tf).toNat % 2 ^ 24,
      if f.mreg = 0 then (if f.tf = 0 then 0 else 2 ^ (f.tf.toNat + 4)) else (kt.s f.tf).toNat / 2 ^ 32) := by
  unfold waitTimes
  split <;> rfl

/-- Putting a kite back does not move the fabric clock. -/
theorem fabFrom_putKite (s : State) (k : Nat) (kt : Kite) : (s.putKite k kt).fabFrom (s.putKite k kt).cyc = s.fabFrom s.cyc := by
  have h := (State.putKite_frame s k kt).2
  unfold eventFrame at h
  exact (congrArg (fun t : State => t.fabFrom t.cyc) h :)

theorem cyc_putKite (s : State) (k : Nat) (kt : Kite) : (s.putKite k kt).cyc = s.cyc := by
  have h := (State.putKite_frame s k kt).2
  unfold eventFrame at h
  exact (congrArg State.cyc h :)

theorem register_putKite (s : State) (k : Nat) (kt : Kite) (b theta : Nat) (m : Nat × Nat) : (s.putKite k kt).register k b theta m =
    { s.putKite k kt with brd := { (s.putKite k kt).brd with waits := (s.putKite k kt).brd.waits ++
      [⟨k, b, theta, s.fabFrom s.cyc, if m.2 = 0 then none else some (s.cyc + m.1 + m.2 - 16)⟩] } } := by
  have hcyc := cyc_putKite s k kt
  have hfab := fabFrom_putKite s k kt
  generalize s.putKite k kt = x at *
  rw [← hfab, ← hcyc]
  rfl

section
variable {k : Fin 256} {s : State} (h : issuing s k) {f : SWait} (hc : chkWait (s.kite k) f = none)
include h hc

/-- The registers that WAIT and ARRIVE read. -/
def waitReads (f : SWait) : List SReg := if f.mreg = 0 then [.s f.sb.toNat] else [.s f.sb.toNat, .s f.tf.toNat]

theorem exec_wait_issued : exec (.wait k f) s = .next (effWait k false f s) := exec_of_issue h (exec_wait k f s) hc

theorem exec_arrive_issued : exec (.arrive k f) s = .next (effWait k true f s) := exec_of_issue h (exec_arrive k f s) hc

end

section
variable {k : Fin 256} {s : State} {f : SWait}

/-- The kite as WAIT (`false`) or ARRIVE (`true`), whose own signal leaves, comes to its anchor. -/
def leaving (s : State) (k : Nat) (f : SWait) (arrive : Bool) (x : Kite) : Kite :=
  match arrive with
  | true => x.sendSig ((s.kite k).t s.cyc) ((s.kite k).s32 f.sb) 1
  | false => x

/-- The kite at that anchor. -/
def atAnchor (s : State) (k : Nat) (f : SWait) (arrive : Bool) (on : AnchorOn) (x : Kite) : Kite :=
  (leaving s k f arrive x).startAnchor ((s.kite k).t s.cyc) on f.fd.toNat (waitTimes (s.kite k) f)

theorem hazBlind_leaving (arrive : Bool) : HazBlind (leaving s k f arrive) := by
  cases arrive
  · exact hazBlind_id
  · exact hazBlind_sendSig _ _ _

theorem hazBlind_atAnchor (arrive : Bool) (on : AnchorOn) : HazBlind (atAnchor s k f arrive on) :=
  hazBlind_comp (g := leaving s k f arrive) (hazBlind_leaving arrive) (hazBlind_startAnchor _ _ _ _)

/-- The state in which a wait of the kite is registered, on an address that this module is home of. -/
theorem effWait_home {m b : Nat} (arrive : Bool)
    (hp : brunsAt (s.unitBruns (s.kite k).unit) ((s.kite k).s32 f.sb) = some (m, b)) (hme : s.isMe m = true) :
    effWait k arrive f s = (s.putKite k (atAnchor s k f arrive (.bridle b) ((s.kite k).readHaz k 4 (waitReads f)))).register
      k b (((s.kite k).s f.sb).toNat / 2 ^ 32) (waitTimes (s.kite k) f) := by
  unfold effWait State.bridleAt
  dsimp only
  rw [hp]
  simp only [Option.bind_some, hme, if_pos, Option.isSome_some, Bool.and_true]
  cases arrive <;> rfl

/-- A wait that no home here can take is refused; ARRIVE's signal leaves where the address is of its unit. -/
theorem effWait_refused {x : Option (Nat × Nat)} (arrive : Bool)
    (hp : brunsAt (s.unitBruns (s.kite k).unit) ((s.kite k).s32 f.sb) = x) (hme : ∀ m b, x = some (m, b) → s.isMe m = false) :
    effWait k arrive f s = { s.putKite k ((atAnchor s k f (arrive && x.isSome) .refused ((s.kite k).readHaz k 4 (waitReads f))).event k .s
      evWaitRefused ((s.kite k).s32 f.sb)) with brd := { s.brd with nRefused := satAdd 16 s.brd.nRefused 1 } } := by
  have hnone : (x.bind fun x => if s.isMe x.1 then some x.2 else none) = none := by
    cases x with
    | none => rfl
    | some y => exact if_neg (Bool.eq_false_iff.1 (hme y.1 y.2 rfl))
  unfold effWait State.bridleAt
  dsimp only
  rw [hp, hnone]
  unfold atAnchor
  cases arrive && x.isSome <;> rfl

/-- A registered wait: the kite stands at its anchor, by `g`, and the wait is the home's last. -/
theorem wait_registered {i : Instr} {g : Kite → Kite} {x : Kite} {b theta : Nat} (hg : HazBlind g) (hx : hazStep (s.kite k) x)
    (hs : (g (s.kite k)).stopped = false)
    (hi : exec i s = .next ((s.putKite k (g x)).register k b theta (waitTimes (s.kite k) f))) :
    ∃ y, exec i s = .next { y with brd := { y.brd with waits := y.brd.waits ++ [⟨k, b, theta, s.fabFrom s.cyc,
      if (waitTimes (s.kite k) f).2 = 0 then none
      else some (s.cyc + (waitTimes (s.kite k) f).1 + (waitTimes (s.kite k) f).2 - 16)⟩] } } ∧ slotDone k (g (s.kite k)) s y :=
  ⟨_, hi.trans (congrArg _ (register_putKite s k _ b theta _)), slotDone_put s k _ _ (hg.hazStep hx) (hg.evs _) (hg.hzEn _) hs⟩

/-- A refused wait: the kite stands at its anchor, by `g`, and the refusal is counted. -/
theorem wait_refused {i : Instr} {g : Kite → Kite} {x : Kite} {u : Nat} (hg : HazBlind g) (hx : hazStep (s.kite k) x)
    (hi : exec i s = .next { s.putKite k ((g x).event k .s evWaitRefused u) with
      brd := { s.brd with nRefused := satAdd 16 s.brd.nRefused 1 } }) :
    ∃ y, exec i s = .next y ∧ kitesKept [k] s y ∧ hazardOnly (g (s.kite k)) (y.kite k) ∧
      y.brd = { s.brd with nRefused := min (s.brd.nRefused + 1) 65535 } :=
  ⟨_, hi, kitesKept_putKite s k _, putKite_hazardOnly (reported_event (hg.hazStep hx) (hg.evs _) k _ _) (hg.evs _), rfl⟩

end

/-- Settles O23: by the home of the bridle that the scalar addresses. -/
theorem anchorStarts : Obligations.AnchorStarts := by
  unfold Obligations.AnchorStarts
  intro k s h kt t
  have hreads (rs : List SReg) : hazStep (s.kite k) ((s.kite k).readHaz k 4 rs) := Kite.readHaz_step _ k 4 rs
  constructor
  case left =>
    intro f hc u p tmo at_ sent
    have hblind (arrive : Bool) (on : AnchorOn) : HazBlind (atAnchor s k f arrive on) := hazBlind_atAnchor arrive on
    have htimes := waitTimes_eq (s.kite k) f
    have home {i : Instr} {arrive : Bool} {m b : Nat} (hi : exec i s = .next (effWait k arrive f s))
        (hp : brunsAt (s.unitBruns (s.kite k).unit) ((s.kite k).s32 f.sb) = some (m, b)) (hme : s.isMe m = true) :=
      wait_registered (hblind arrive (.bridle b)) (hreads (waitReads f)) rfl (hi.trans (congrArg _ (effWait_home arrive hp hme)))
    have refused {i : Instr} {arrive : Bool} {x : Option (Nat × Nat)} (hi : exec i s = .next (effWait k arrive f s))
        (hp : brunsAt (s.unitBruns (s.kite k).unit) ((s.kite k).s32 f.sb) = x) (hno : ∀ m b, x = some (m, b) → s.isMe m = false) :=
      wait_refused (hblind (arrive && x.isSome) .refused) (hreads (waitReads f)) (hi.trans (congrArg _ (effWait_refused arrive hp hno)))
    unfold atAnchor at home refused
    rw [htimes] at home refused
    have hwait := exec_wait_issued h hc
    have harrive := exec_arrive_issued h hc
    refine ⟨fun m b hp hme => ⟨home hwait hp hme, home harrive hp hme⟩, fun m b hp hme => ?_,
      fun hp => ⟨refused hwait hp nofun, refused harrive hp nofun⟩⟩
    have hno (m' b' : Nat) (e : some (m, b) = some (m', b')) : s.isMe m' = false := by
      cases e
      exact hme
    exact ⟨refused hwait hp hno, refused harrive hp hno⟩
  case right =>
    intro f hc
    exact slotDone_of_execSlot [.s f.st.toNat] (hazBlind_startAnchor _ _ _ _) h (exec_waitr k f s) hc rfl rfl

/-! ### Anchors that release -/

section
variable {k : Fin 256} {s : State}

/-- The kite whose anchor releases with a flag. -/
def released (kt : Kite) (t : Nat) (a : Anchor) (v : Bool) : Kite :=
  settle t 9 { kt with fregs := mapSet kt.fregs a.fd v, st := .issuing, anchor := none }

theorem releaseAnchor_eq (kt : Kite) (t : Nat) (a : Anchor) (v : Bool) : kt.releaseAnchor t a v = released kt t a v := by
  cases v <;> rfl

/-- A released keel runs, where it stands, and has raised nothing. -/
theorem released_runs (kt : Kite) (t : Nat) (a : Anchor) (v : Bool) (hevs : kt.evs = []) :
    (released kt t a v).stopped = false ∧ (released kt t a v).evs = [] ∧ (released kt t a v).hTimeout = kt.hTimeout := by
  obtain ⟨⟨fr, pc, st, hkt⟩, hrun⟩ := settle_moved t 9 { kt with fregs := mapSet kt.fregs a.fd v, st := .issuing, anchor := none }
  unfold released
  refine ⟨hrun rfl, ?_, ?_⟩
  · rw [hkt]
    exact hevs
  · rw [hkt]

theorem putKite_released (a : Anchor) (v : Bool) : s.putKite k ((s.kite k).releaseAnchor ((s.kite k).t s.cyc) a v) =
    s.setKite k (released (s.kite k) ((s.kite k).t s.cyc) a v) := by
  rw [releaseAnchor_eq]
  obtain ⟨hrun, hevs, -⟩ := released_runs (s.kite k) ((s.kite k).t s.cyc) a v rfl
  exact State.putKite_quiet _ _ _ hrun hevs

theorem frozenElse_not (kt : Kite) (hf : kt.frozenElse = false) {a : Anchor} (hp : a.p ≤ kt.t s.cyc) (hgo : (a.got || a.on == .refused) = true) :
    (!kt.frozenElse && decide (a.p ≤ kt.t s.cyc) && (a.got || a.on == .refused)) = true := by
  rw [hf, decide_eq_true hp, hgo]
  rfl

section
variable {a : Anchor} (ha : (s.kite k).anchor = some a)
include ha

/-- An anchor that was refused, or holds its condition, releases at the end of `p`. -/
theorem plannedRelease_due (hf : (s.kite k).frozenElse = false) (hp : a.p ≤ (s.kite k).t s.cyc)
    (hgo : (a.got || a.on == .refused) = true) :
    Machine.plannedRelease k s = s.setKite k (released (s.kite k) ((s.kite k).t s.cyc) a (!(a.on == .refused))) := by
  unfold Machine.plannedRelease
  dsimp only
  rw [ha, ← putKite_released]
  exact if_pos (frozenElse_not _ hf hp hgo)

/-- The notices that a kite has not taken. -/
def noticesLeft (s : State) (k : Nat) : List Notice := s.brd.notices.filter fun n => !(n.kite == k && decide (n.cyc ≤ s.cyc))

/-- An anchor whose condition arrives holds it before `p`, and releases after. -/
theorem bridleNotice_met (hst : (s.kite k).st = .anchor) (hm : (s.noticed k a || (s.kite k).reelMet a) = true) :
    Machine.bridleNotice k s = State.setKite { s with brd := { s.brd with notices := noticesLeft s k } } k
      (if a.late = 0 then { s.kite k with anchor := some { a with got := true } } else released (s.kite k) ((s.kite k).t s.cyc) a true) := by
  have hrel := releaseAnchor_eq { s.kite k with anchor := some { a with got := true } } ((s.kite k).t s.cyc) a true
  unfold Machine.bridleNotice
  dsimp only
  rw [ha]
  refine (if_pos hm).trans ?_
  split
  · exact State.putKite_quiet _ _ _ (by rw [Kite.stopped, hst]; rfl) rfl
  · obtain ⟨hrun, hevs, -⟩ := released_runs { s.kite k with anchor := some { a with got := true } } ((s.kite k).t s.cyc) a true rfl
    exact (congrArg _ hrel).trans (State.putKite_quiet _ _ _ hrun hevs)

/-- An anchor whose time limit runs out releases with 0, and that is counted and logged. -/
theorem anchorTimeout_due (ht : a.tmo ≠ 0) (hl : a.late = a.tmo) (hg : a.got = false) (hr : a.on ≠ .refused) :
    Machine.anchorTimeout k s = (s.log (Ev.kite .s evAnchorTimeout k)).setKite k
      { released (s.kite k) ((s.kite k).t s.cyc) a false with hTimeout := min ((s.kite k).hTimeout + 1) 65535 } := by
  obtain ⟨hrun, hevs, hcount⟩ := released_runs (s.kite k) ((s.kite k).t s.cyc) a false rfl
  unfold Machine.anchorTimeout
  dsimp only
  rw [ha]
  refine (if_pos (by simp [ht, hl, hg, hr])).trans ?_
  rw [releaseAnchor_eq, hcount]
  exact putKite_event (cls := .s) (kt := { released (s.kite k) ((s.kite k).t s.cyc) a false with
    hTimeout := min ((s.kite k).hTimeout + 1) 65535 }) hrun hevs nofun evAnchorTimeout 0

end

/-- Settles O24: by what holds of the anchor when its event comes; settling a keel leaves it running. -/
theorem anchorReleases : Obligations.AnchorReleases := by
  unfold Obligations.AnchorReleases
  intro k s a hst ha
  refine ⟨fun hf v => settle_nil _ 8 hf, fun hf hp hg hr => ?_, fun hf hp hr => ?_, fun hm => ?_, fun ht hl hg hr => ?_⟩
  · refine congrArg Host.Outcome.next ((plannedRelease_due ha hf hp (by rw [hg]; rfl)).trans ?_)
    rw [beq_eq_false_iff_ne.2 hr]
    rfl
  · refine congrArg Host.Outcome.next ((plannedRelease_due ha hf hp (by simp [hr])).trans ?_)
    rw [hr]
    rfl
  · refine ⟨noticesLeft s k, congrArg Host.Outcome.next (bridleNotice_met ha hst (by simpa using hm)), fun n => ?_⟩
    simp [noticesLeft, imp_iff_not_or]
  · exact congrArg Host.Outcome.next (anchorTimeout_due ha ht hl hg hr)

end

end Sys2Proof.Stated
end

section

/-! SUPPORT. The completion of a descriptor (R116, R168, R169, R171). -/

namespace Sys2Proof.Stated
open Sys2Proof.Machine

section
variable {k : Fin 256} {ch : Fin 4} {s : State} {d : Desc} {rest : List Desc}

/-- The kite when the oldest descriptor of a channel has completed: a status that is not 0 is kept, counted and logged. -/
def finished (k ch : Nat) (d : Desc) (rest : List Desc) (kt : Kite) : Kite :=
  let bad := d.status != 0
  let c := { kt.chan ch with
    queue := rest, done := wrapAdd 40 (kt.chan ch).done 1
    status := if bad then d.status else (kt.chan ch).status, errcnt := if bad then satAdd 16 (kt.chan ch).errcnt 1 else (kt.chan ch).errcnt }
  let kt := { kt with chans := mapSet kt.chans ch c }
  if bad then kt.event k (moveClass d.status) (evMove d.status) (d.first + ch * 2 ^ 32) else kt

/-- The requests that a failed descriptor of a serving kite faults. -/
def moveFaults (k : Nat) (d : Desc) (s : State) : State :=
  if (d.status = 4 || d.status = 6) && s.serveKites.contains k then s.faultStep (if d.status = 4 then 6 else 7) else s

/-- The notice that a completed DEXPORT delivers. -/
def noticed (d : Desc) (s : State) : State :=
  match d.kind with
  | .note h l hd kd _ nt => if d.status != 0 then s else s.exportNotice h l hd kd (tokenRows (d.buf.getD 0) nt)
  | _ => s

/-- The signal that a completed descriptor sends. -/
def signalled (d : Desc) (s : State) : State :=
  match d.bridle with
  | some b => if d.told then s else s.signal (b / 65536) (b % 65536) 1 (s.cyc + 80)
  | none => s

theorem noticed_other (hk : ¬∃ h l hd kd tm nt, d.kind = .note h l hd kd tm nt) : noticed d s = s := by
  unfold noticed
  split
  next h l hd kd tm nt hn => exact absurd ⟨h, l, hd, kd, tm, nt, hn⟩ hk
  next => rfl

theorem noticed_note {h l hd kd tm nt : Nat} (hs : d.status = 0) (hk : d.kind = .note h l hd kd tm nt) :
    noticed d s = s.exportNotice h l hd kd (tokenRows (d.buf.getD 0) nt) := by
  rw [noticed, hk, hs]
  rfl

theorem noticed_failed (hs : d.status ≠ 0) : noticed d s = s := by
  unfold noticed
  split
  · exact if_pos (bne_iff_ne.2 hs)
  · rfl

theorem moveFaults_none (h4 : d.status ≠ 4) (h6 : d.status ≠ 6) : moveFaults k d s = s := by
  refine if_neg ?_
  simp [h4, h6]

theorem signalled_none (hb : d.bridle = none) : signalled d s = s := by rw [signalled, hb]

theorem signalled_told {b : Nat} (hb : d.bridle = some b) (ht : d.told = true) : signalled d s = s := by
  rw [signalled, hb]
  exact if_pos ht

theorem signalled_home {b : Nat} (hb : d.bridle = some b) (ht : d.told = false) (hme : s.isMe (b / 65536) = true) :
    signalled d s = { s with brd := { s.brd with arrivals := s.brd.arrivals ++ [⟨b % 65536, s.fabBy (s.cyc + 80), 1, false⟩] } } := by
  rw [signalled, hb]
  exact (if_neg (Bool.eq_false_iff.1 ht)).trans (if_pos hme)

/-- The kite from whose channel a completed descriptor is taken. -/
def dequeued (kt : Kite) (ch : Nat) (rest : List Desc) : Kite :=
  { kt with chans := mapSet kt.chans ch { kt.chan ch with queue := rest, done := ((kt.chan ch).done + 1) % 2 ^ 40 } }

section
variable (hq : ((s.kite k).chan ch.val).queue = d :: rest) (hc : d.complete ≤ s.cyc) (hn : d.nrows ≤ d.next) (hl : d.left = 0)
include hq hc hn hl

theorem moveDue_of : s.moveDue k ch = true := by
  rw [State.moveDue, hq]
  simp [hc, hn, hl]

theorem exec_moveComplete_due : exec (.moveComplete k ch) s =
    .next (signalled d (noticed d (moveFaults k d (s.putKite k (finished k ch d rest (s.kite k)))))) := by
  refine congrArg Host.Outcome.next ((if_neg (by rw [moveDue_of hq hc hn hl]; exact nofun)).trans ?_)
  show (match ((s.kite k).chan ch.val).queue with
    | [] => _
    | d :: rest => _) = _
  rw [hq]
  rfl

/-- A descriptor that completed well. -/
theorem exec_moveComplete_good (hs : d.status = 0) : exec (.moveComplete k ch) s =
    .next (signalled d (noticed d ((if (s.kite k).stopped then s.dropWaits k else s).setKite k (dequeued (s.kite k) ch rest)))) := by
  have hfin : finished k ch d rest (s.kite k) = dequeued (s.kite k) ch rest := by
    rw [finished, hs]
    rfl
  rw [exec_moveComplete_due hq hc hn hl, hfin, moveFaults_none (by rw [hs]; decide) (by rw [hs]; decide), putKite_silent s k rfl]
  rfl

end

theorem finished_failed {kt : Kite} (hs : d.status ≠ 0) : ∃ es, finished k ch d rest kt = { kt with evs := es, chans := mapSet kt.chans ch { kt.chan ch with
      queue := rest, done := ((kt.chan ch).done + 1) % 2 ^ 40, status := d.status, errcnt := min ((kt.chan ch).errcnt + 1) 65535 } } := by
  have hbad : (d.status != 0) = true := bne_iff_ne.2 hs
  unfold finished
  rw [hbad]
  exact ⟨_, rfl⟩

end

/-- Settles O21: by the status of the descriptor and its bridle. -/
theorem moveCompletes : Obligations.MoveCompletes := by
  unfold Obligations.MoveCompletes
  intro k ch s d rest kt c hq hc hn hl note ok
  refine ⟨fun hs hb hk => ?_, fun h l hd kd tm nt hs hb hk => ?_, fun b hs hb hk ht => ?_, fun b hs hb hk ht hme => ?_, fun hs hb => ?_⟩
  · rw [exec_moveComplete_good hq hc hn hl hs, noticed_other hk, signalled_none hb]
    rfl
  · rw [exec_moveComplete_good hq hc hn hl hs, noticed_note hs hk, signalled_none hb]
    rfl
  · rw [exec_moveComplete_good hq hc hn hl hs, noticed_other hk, signalled_told hb ht]
    rfl
  · have hme' : ok.isMe (b / 65536) = true := by
      rw [← hme]
      dsimp only [ok]
      split <;> rfl
    refine ⟨ok.fabBy (ok.cyc + 80), (exec_moveComplete_good hq hc hn hl hs).trans ?_⟩
    rw [noticed_other hk]
    exact congrArg _ (signalled_home hb ht hme')
  · have h0 : d.status ≠ 0 := by omega
    obtain ⟨es, hes⟩ := finished_failed (k := k) (ch := ch) (rest := rest) (kt := s.kite k) h0
    refine ⟨_, exec_moveComplete_due hq hc hn hl, ?_⟩
    rw [moveFaults_none (by omega) (by omega), noticed_failed h0, signalled_none hb]
    refine ⟨kitesKept_putKite s k _, ?_⟩
    rw [State.putKite_kite_self, hes]
    rfl

end Sys2Proof.Stated
end

section

/-! SUPPORT. The end of a cycle delivers messages even where the clocks stand, and a delivered message can switch domains off. -/

namespace Sys2Proof.Stated
open Sys2Proof.Machine

/-- The arithmetic clock stands; a message waits in the loop of port 0 that names another module and is no message of a receiver; and
255 violations of the port's peer are within 1 s. -/
def oneViolationShort : State :=
  { State.reset with
    pwr := { State.reset.pwr with stopped := [0] }
    lnk := { State.reset.lnk with
      loop := [{ dst := 0, vc := 0, mtype := 0x31, ttl := 1, src := 5, body := [0, 0, 0, 0, 0, 0, 0, 3], left := 0, via := none }]
      ports := [(0, { st := 2, violAt := List.replicate 255 0 })] } }

/-- The 256th violation quarantines the port, and with its last port the quad's two domains stop (R340, R361). -/
theorem idle_oneViolationShort : (idle oneViolationShort).pwr.stopped = [0, 45, 69] := by decide +kernel

/-- Refutes O2: with the arithmetic clock standing, the first half of a cycle delivers a message that is the 256th violation of its
port, and so stops two domains more. -/
theorem not_emptyQueuePassesTime : ¬ Obligations.EmptyQueuePassesTime := by
  unfold Obligations.EmptyQueuePassesTime
  intro h
  obtain ⟨t, ht, -, hstands, -⟩ := h oneViolationShort rfl
  have hidle : idle oneViolationShort = t := Host.Outcome.next.inj ht
  have hkept : (idle oneViolationShort).pwr.stopped = [0] := by
    rw [hidle, (hstands rfl rfl).2]
    rfl
  rw [idle_oneViolationShort] at hkept
  exact absurd hkept (by decide)

end Sys2Proof.Stated
end

section

/-! SUPPORT. The D slot (R138, R139, R167, R169, R195–R198): how a posting is planned, bounded and queued. -/

namespace Sys2Proof.Stated
open Sys2Proof.Machine

/-! ### A state that differs by the checker's reports of one kite -/

/-- State `x` is state `s` but for what the hazard checker reports of kite `k`. -/
structure Reports (s : State) (k : Nat) (x : State) : Prop where
  kite : hazardOnly (s.kite k) (x.kite k)
  kept : kitesKept [k] s x
  rest : kitesAndLog s x

theorem reports_readHaz (s : State) (k slot : Nat) (rs : List SReg) (hs : (s.kite k).stopped = false) :
    Reports s k (s.putKite k ((s.kite k).readHaz k slot rs)) := by
  obtain ⟨hkite, hkept, hrest, -⟩ := slotDone_put s k (s.kite k) _ (Kite.readHaz_step _ k slot rs) rfl rfl hs
  exact ⟨hkite, hkept, hrest⟩

/-- What does not read the checker's record is the same of both kites. -/
theorem hazardOnly_read {α : Type} {a b : Kite} (F : Kite → α) (h : hazardOnly a b)
    (hF : ∀ c p sl n st, F { a with hzCode := c, hzPc := p, hzSlot := sl, hzCount := n, hzStop := st } = F a) : F b = F a := by
  unfold hazardOnly at h
  rw [h]
  exact hF _ _ _ _ _

/-- What reads neither kites nor the log is the same of both states. -/
theorem Reports.read {α : Type} {s x : State} {k : Nat} (h : Reports s k x) (F : State → α)
    (hF : ∀ kites tel out pv w, F { s with kites := kites, tel := tel, out := out, hst := { s.hst with pendingVec := pv, waits := w } } = F s) :
    F x = F s := by
  have hrest := h.rest
  unfold kitesAndLog at hrest
  rw [hrest]
  exact hF _ _ _ _ _

/-! ### A posting -/

/-- The cycles that the descriptors queued before a posting still have (R169). -/
def boundLeft (kt : Kite) (ch t : Nat) : Nat :=
  match (kt.chan ch).queue.getLast? with
  | some d => d.bound - t
  | none => 0

theorem boundLeft_eq (kt : Kite) (ch t : Nat) : boundLeft kt ch t = queued kt ch t := by
  unfold boundLeft queued
  cases (kt.chan ch).queue.getLast? <;> rfl

/-- The bound of a posting on channel `ch` (R169). -/
def postBound (kt : Kite) (t ch : Nat) (pl : Plan) : Nat := t + boundLeft kt ch t + pl.bound (kt.pacedRows t)

/-- Whether a plan is of rows that go to another module. -/
def Plan.away (pl : Plan) : Bool :=
  match pl.kind with
  | .remote _ _ _ _ _ _ => pl.status == 0
  | _ => false

/-- The descriptor that a posting queues. -/
def postDesc (kt : Kite) (t : Nat) (p : Post) (pl : Plan) (b : Option Nat) : Desc :=
  { kind := pl.kind, row := pl.row, reel := pl.reel, nrows := pl.nrows, issue := t, bound := postBound kt t p.ch pl, pace := pl.pace
    complete := max (t + 1) (postBound kt t p.ch pl - 96), status := pl.status, first := pl.first, bridle := b
    next := 0, left := b2n (Plan.away pl), waits := 0, buf := none, pc := p.pc, told := false }

/-- A kite with a descriptor queued, and its rows paced. -/
def enqueued (kt : Kite) (ch : Nat) (d : Desc) (ps : List (Nat × Nat × Nat × Nat)) : Kite :=
  { kt with chans := mapSet kt.chans ch { kt.chan ch with queue := (kt.chan ch).queue ++ [d] }, paced := ps }

/-- The rows that are paced after a posting. -/
def pacedAfter (kt : Kite) (t ch : Nat) (pl : Plan) : List (Nat × Nat × Nat × Nat) :=
  (kt.paced.filter fun x => decide (t < x.1)) ++ [(postBound kt t ch pl, pl.hbm, pl.loft, pl.send)]

/-- The completion bridle of a posting. -/
def bridlePlace (s : State) (kt : Kite) (u : Option Nat) : Option (Option Nat) :=
  match u with
  | none => some none
  | some u => (brunsAt (s.unitBruns kt.unit) u).map fun b => some ((if s.isMe b.1 then 0xFFFFF else b.1) * 65536 + b.2)

/-- The last message of a remote send names its channel. -/
def withSend (k ch : Nat) (pl : Plan) (s : State) : State :=
  match pl.kind with
  | .remote _ _ _ _ tag _ => if Plan.away pl then { s with lnk := { s.lnk with sends := mapSet s.lnk.sends tag (k, ch) } } else s
  | _ => s

/-- What a planned posting leaves. -/
def postPlan (k t : Nat) (p : Post) (b : Option Nat) (x : Plan × State) : State :=
  (withSend k p.ch x.1 x.2).setKite k
    (enqueued (x.2.kite k) p.ch (postDesc (x.2.kite k) t p x.1 b) (pacedAfter (x.2.kite k) t p.ch x.1))

theorem withSend_kite (k ch j : Nat) (pl : Plan) (s : State) : (withSend k ch pl s).kite j = s.kite j := by
  unfold withSend
  split
  · split <;> rfl
  · rfl

theorem post_eq {s : State} {k t : Nat} {p : Post} {b : Option Nat} (hb : bridlePlace s (s.kite k) p.bridle = some b) :
    s.post k t p = postPlan k t p b (s.plan k t p.raw b) := by
  have h : s.post k t p = postPlan k t p ((bridlePlace s (s.kite k) p.bridle).getD none)
      (match bridlePlace s (s.kite k) p.bridle with
        | some b => s.plan k t p.raw b
        | none => (p.raw.outOfRange, s)) := rfl
  rw [h, hb]
  rfl

/-! ### A D-slot instruction that posts -/

theorem enqueued_hazardOnly {a b : Kite} (h : hazardOnly a b) (hb : b.evs = []) (ch : Nat) (d : Desc) (ps : List (Nat × Nat × Nat × Nat)) :
    hazardOnly (enqueued a ch d ps) { enqueued b ch d ps with evs := [] } := by
  have hq : (b.chan ch).queue = (a.chan ch).queue := hazardOnly_read (fun x => (x.chan ch).queue) h fun _ _ _ _ _ => rfl
  have hevs : b.evs = a.evs := hazardOnly_read Kite.evs h fun _ _ _ _ _ => rfl
  unfold hazardOnly at h ⊢
  have hg := congrArg (fun x => enqueued x ch d ps) h
  have he : (enqueued a ch d ps).evs = [] := hevs.symm.trans hb
  refine (congrArg (fun x : Kite => { x with evs := [] }) hg).trans ?_
  dsimp only
  rw [← he]
  rfl

section
variable {k : Fin 256} {s : State} {i : Instr} {reads : List SReg} {raw : Kite → Raw} {ch : BitVec 2} {bv : BitVec 1} {sb : BitVec 5}
  {b : Option Nat} {c : Option Exc}

theorem bridlePlace_bridled {x : State} (hx : Reports s k x) (hb : bridled s k bv sb b) :
    bridlePlace x (x.kite k) (bridleOf (s.kite k) bv sb) = some b := by
  have hunit : (x.kite k).unit = (s.kite k).unit := hazardOnly_read Kite.unit hx.kite fun _ _ _ _ _ => rfl
  have hbruns (u : Nat) : x.unitBruns u = s.unitBruns u := hx.read (State.unitBruns · u) fun _ _ _ _ _ => rfl
  have hme (m : Nat) : x.isMe m = s.isMe m := hx.read (State.isMe · m) fun _ _ _ _ _ => rfl
  obtain ⟨rfl, rfl⟩ | ⟨m, y, rfl, hat, rfl⟩ := hb
  · rfl
  · have hof : bridleOf (s.kite k) 1 sb = some ((s.kite k).s32 sb) := rfl
    rw [hof, bridlePlace, hunit, hbruns, hat]
    dsimp only [Option.map_some]
    rw [hme]

/-- The state in which a D-slot instruction's operands are read. -/
def operandsRead (s : State) (k : Nat) (reads : List SReg) : State := s.putKite k ((s.kite k).readHaz k 3 reads)

variable (h : issuing s k) (hc : c = none) (hi : exec i s = .next (s.issue k 3 c (effPost k reads raw ch bv sb)))
  (hw : (s.kite k).dqWait = []) (hroom : ((s.kite k).chan ch.toNat).queue.length < 8) (hb : bridled s k bv sb b)
include h

theorem reports_operandsRead : Reports s k (operandsRead s k reads) := reports_readHaz s k 3 reads (issuing_stopped h)

include hc hi hw hroom hb

theorem exec_posts : exec i s = .next (postPlan k s.cyc ⟨ch.toNat, raw (s.kite k), bridleOf (s.kite k) bv sb, (s.kite k).ipc⟩ b
    ((operandsRead s k reads).plan k s.cyc (raw (s.kite k)) b)) := by
  have hx : Reports s k (operandsRead s k reads) := reports_operandsRead h
  have hwait : ((operandsRead s k reads).kite k).dqWait = [] := (hazardOnly_read Kite.dqWait hx.kite fun _ _ _ _ _ => rfl).trans hw
  have hlen : (((operandsRead s k reads).kite k).chan ch.toNat).queue.length < 8 := by
    rwa [hazardOnly_read (fun x => (x.chan ch.toNat).queue.length) hx.kite fun _ _ _ _ _ => rfl]
  refine (exec_of_issue h hi hc).trans (congrArg _ ((if_neg ?_).trans (post_eq (bridlePlace_bridled hx hb))))
  show ¬((operandsRead s k reads).kite k).postWaits ((operandsRead s k reads).kite k).dqWait _ = true
  rw [hwait, Kite.postWaits, Kite.chanFull, decide_eq_false (Nat.not_le.2 hlen)]
  exact nofun

end

/-- What a queued descriptor leaves. -/
theorem queued_of_reports {s x : State} {k : Nat} (hx : Reports s k x) (ch : Nat) (d : Desc) (ps : List (Nat × Nat × Nat × Nat)) :
    kitesKept [k] s (x.setKite k (enqueued (x.kite k) ch d ps)) ∧ kitesAndLog s (x.setKite k (enqueued (x.kite k) ch d ps)) ∧
      hazardOnly (enqueued (s.kite k) ch d ps) ((x.setKite k (enqueued (x.kite k) ch d ps)).kite k) := by
  refine ⟨fun j hj => ?_, ?_, ?_⟩
  · rw [State.setKite_kite_ne _ _ _ _ (by simpa using hj : j ≠ k)]
    exact hx.kept j hj
  · have hrest := hx.rest
    unfold kitesAndLog at hrest ⊢
    exact (congrArg (·.setKite k (enqueued (x.kite k) ch d ps)) hrest :)
  · rw [State.setKite_kite_self]
    exact enqueued_hazardOnly hx.kite rfl ch d ps


/-- A plan that stays on this module sends nothing. -/
theorem postPlan_stays {k t : Nat} {p : Post} {b : Option Nat} {pl : Plan} {x : State} (h : Plan.away pl = false) :
    postPlan k t p b (pl, x) = x.setKite k (enqueued (x.kite k) p.ch (postDesc (x.kite k) t p pl b) (pacedAfter (x.kite k) t p.ch pl)) := by
  have hw : withSend k p.ch pl x = x := by
    unfold withSend
    split
    · rw [if_neg (by rw [h]; exact nofun)]
    · rfl
  unfold postPlan
  rw [hw]

/-- The descriptor does not depend on what the checker reports. -/
theorem postDesc_reports {s x : State} {k : Nat} (hx : Reports s k x) (t : Nat) (p : Post) (pl : Plan) (b : Option Nat) :
    postDesc (x.kite k) t p pl b = postDesc (s.kite k) t p pl b :=
  hazardOnly_read (postDesc · t p pl b) hx.kite fun _ _ _ _ _ => rfl

/-- A planned descriptor is of its posting. -/
theorem postDesc_planned (kt : Kite) (t : Nat) (p : Post) (pl : Plan) (b : Option Nat) :
    (postDesc kt t p pl b).complete = max (t + 1) ((postDesc kt t p pl b).bound - 96) := rfl

/-! ### The plans of postings that nothing stands against -/

/-- The plan of a memory move (R196). -/
def memPlan (out : Bool) (sm ss : Word) (row : Nat) (reel : Option Nat) (n : Nat) : Plan :=
  let nl := ((memAddrs sm ss n).filter isLoft).length
  { kind := .mem out sm.toNat (ss.toNat % 65536 * 512), row := row, reel := reel, nrows := n, first := row
    l := if (inTiers sm.toNat && isLoft sm.toNat) || nl != 0 then 960 else 640, hbm := n - nl, loft := nl
    pace := if nl != 0 then 80 else 13 }

/-- The plan of a page move whose rows have the addresses `as`. -/
def pagePlan (out : Bool) (row : Nat) (reel : Option Nat) (as : List Nat) : Plan :=
  let nl := (as.filter isLoft).length
  { kind := .page out as, row := row, reel := reel, nrows := as.length, status := 0, first := row
    l := if nl = 0 then 2688 else 3008, hbm := as.length - nl, loft := nl, pace := if nl = 0 then 13 else 80 }

/-- The plan of a send within this module (R197). -/
def sendPlan (k2 dst : Nat) (rl : Option Nat) (row : Nat) (reel : Option Nat) (n : Nat) : Plan :=
  { kind := .send k2 dst rl, row := row, reel := reel, first := row, l := 320, pace := 4, nrows := n, send := n }

/-- The plan of a send to module `m`, of tag `tag`, with the completion bridle it carries. -/
def remotePlan (m k2 dst : Nat) (rl : Option Nat) (tag : Nat) (c : Option Nat) (hops : Nat) (row : Nat) (reel : Option Nat) (n : Nat) : Plan :=
  { kind := .remote m k2 dst rl tag c, row := row, reel := reel, first := row, l := 320 + 1250 * hops, pace := 13, nrows := n, send := n }

/-- The plan of an export notice (R198). -/
def notePlan (h l hd kd tm nt : Nat) : Plan :=
  { kind := .note h l hd kd tm nt, row := tm, first := tm, nrows := mapRowCount nt, l := 120 }

/-- The plan of a fill (R138). -/
def fillPlan (v row n : Nat) : Plan := { kind := .fill v, row := row, first := row, nrows := n, l := 98, own := 4 * n, pace := 4 }

/-- The plan of a copy (R139). -/
def copyPlan (desc : Bool) (srow drow n : Nat) : Plan :=
  { kind := .copy drow desc, row := srow, first := srow, nrows := n, l := 100, own := 8 * n, pace := 8 }

theorem memBad_false {sm ss : Word} (h512 : sm.toNat % 512 = 0) (hs : ss.toNat % 65536 ≠ 0) (h56 : sm.toNat < 2 ^ 56) :
    memBad sm ss = false := by
  unfold memBad
  rw [h512, decide_eq_false (Nat.not_le.2 h56), beq_eq_false_iff_ne.2 hs]
  rfl

theorem planMem_ok {s : State} {kt : Kite} {t : Nat} {out : Bool} {sm ss : Word} {row : Nat} {reel : Option Nat} {n : Nat}
    (hbad : memBad sm ss = false) (hin : ∀ a ∈ memAddrs sm ss n, inTiers a = true ∧ (out = true → s.pgm.inTable a = false))
    (hst : kt.ownStatus t out row reel n = 0) : s.planMem kt t out sm ss row reel n = memPlan out sm ss row reel n := by
  have htiers : ((memAddrs sm ss n).any fun x => !inTiers x) = false := by
    simp only [List.any_eq_false]
    intro a ha
    rw [(hin a ha).1]
    exact nofun
  have htab : (out && (memAddrs sm ss n).any s.pgm.inTable) = false := by
    cases out with
    | false => rfl
    | true =>
      rw [Bool.true_and, List.any_eq_false]
      intro a ha
      rw [(hin a ha).2 rfl]
      exact nofun
  unfold State.planMem
  extract_lets a loft as nl base refused st
  have hcond : ¬((memBad sm ss || as.any (fun x => !inTiers x) || (out && as.any s.pgm.inTable)) = true) := by
    rw [hbad, htiers, htab]
    exact nofun
  rw [if_neg hcond, if_pos (show st = 0 from hst)]
  rfl

theorem bankShut_false {kt : Kite} (h : ∀ n, (kt.bank n).st = .on) (rows : List Nat) : kt.bankShut rows = false := by
  unfold Kite.bankShut
  rw [List.any_eq_false]
  intro r _
  rw [h]
  exact nofun

theorem plan_mem_ok {x : State} {k t : Nat} {out : Bool} {sm ss : Word} {row : Nat} {reel : Option Nat} {n : Nat} {b : Option Nat}
    (h : x.planMem (x.kite k) t out sm ss row reel n = memPlan out sm ss row reel n) :
    x.plan k t (.mem out sm ss row reel n) b = (memPlan out sm ss row reel n, x) := congrArg (·, x) h

theorem plan_note_ok {x : State} {k t h l hd kd tm nt : Nat} {b : Option Nat} (hon : ∀ n, ((x.kite k).bank n).st = .on) :
    x.plan k t (.note h l hd kd tm nt) b = (notePlan h l hd kd tm nt, x) :=
  congrArg (·, x) (if_neg (by rw [bankShut_false hon]; exact nofun))

theorem plan_fill_ok {x : State} {k t v row n : Nat} {b : Option Nat} (hon : ∀ n, ((x.kite k).bank n).st = .on) :
    x.plan k t (.fill v row n) b = (fillPlan v row n, x) :=
  congrArg (·, x) (if_neg (by rw [bankShut_false hon]; exact nofun))

theorem plan_copy_ok {x : State} {k t srow drow n : Nat} {desc : Bool} {b : Option Nat} (hon : ∀ n, ((x.kite k).bank n).st = .on) :
    x.plan k t (.copy desc srow drow n) b = (copyPlan desc srow drow n, x) :=
  congrArg (·, x) (if_neg (by rw [bankShut_false hon]; exact nofun))

/-! ### The bounds of the plans -/

theorem bound_mem {sm ss : Word} {out : Bool} {row n : Nat} {reel : Option Nat} {p : Nat × Nat × Nat} (hn : n ≠ 0)
    (hbm : ∀ a ∈ memAddrs sm ss n, isLoft a = false) : (memPlan out sm ss row reel n).bound p = 640 + (n + p.1) * 13 := by
  have hnl : (memAddrs sm ss n).filter isLoft = [] := List.filter_eq_nil_iff.2 fun a ha => by rw [hbm a ha]; exact nofun
  have hfirst : isLoft sm.toNat = false :=
    hbm _ (List.mem_map.2 ⟨0, List.mem_range.2 (Nat.pos_of_ne_zero hn), by rw [Nat.zero_mul, Nat.add_zero]⟩)
  unfold Plan.bound memPlan
  rw [hnl, hfirst, Bool.and_false]
  simp [hn]

theorem bound_send {k2 dst row n : Nat} {rl reel : Option Nat} {p : Nat × Nat × Nat} (hn : n ≠ 0) :
    (sendPlan k2 dst rl row reel n).bound p = 320 + (n + p.2.2) * 4 := by
  simp [Plan.bound, sendPlan, hn]

theorem bound_remote {m k2 dst tag hops row n : Nat} {rl reel c : Option Nat} {p : Nat × Nat × Nat} (hn : n ≠ 0) :
    (remotePlan m k2 dst rl tag c hops row reel n).bound p = 320 + 1250 * hops + (n + p.2.2) * 13 := by
  simp [Plan.bound, remotePlan, hn]

theorem bound_note {h l hd kd tm nt : Nat} {p : Nat × Nat × Nat} : (notePlan h l hd kd tm nt).bound p = 120 := rfl

theorem bound_fill {v row n : Nat} {p : Nat × Nat × Nat} : (fillPlan v row n).bound p = 98 + 4 * n := by
  simp [Plan.bound, fillPlan]

theorem bound_copy {desc : Bool} {srow drow n : Nat} {p : Nat × Nat × Nat} : (copyPlan desc srow drow n).bound p = 100 + 8 * n := by
  simp [Plan.bound, copyPlan]

/-- A plan of rows for another module: the last message of the send names the channel. -/
theorem postPlan_away {k t : Nat} {p : Post} {b : Option Nat} {x : State} {m k2 dst tag hops row n : Nat} {rl reel c : Option Nat} {brd : Brd} :
    postPlan k t p b (remotePlan m k2 dst rl tag c hops row reel n, { x with brd := brd }) =
      { x.setKite k (enqueued (x.kite k) p.ch (postDesc (x.kite k) t p (remotePlan m k2 dst rl tag c hops row reel n) b)
          (pacedAfter (x.kite k) t p.ch (remotePlan m k2 dst rl tag c hops row reel n))) with
        brd := brd, lnk := { x.lnk with sends := mapSet x.lnk.sends tag (k, p.ch) } } := rfl

/-- A count field of which 0 stands for `top`. -/
theorem zeroAs_toNat {w : Nat} (top : Nat) (n : BitVec w) : zeroAs top n.toNat = if n = 0 then top else n.toNat := by
  unfold zeroAs
  by_cases h : n = 0
  · rw [if_pos h, h]
    rfl
  · rw [if_neg h, if_neg fun he => h (BitVec.eq_of_toNat_eq (he.trans (by simp)))]

theorem rowsOf_eq (n : BitVec 14) : rowsOf n = rowCount n := zeroAs_toNat 16384 n

theorem rowCount_ne (n : BitVec 14) : rowCount n ≠ 0 := by
  rw [← rowsOf_eq]
  unfold rowsOf zeroAs
  split <;> omega

/-! ### Destinations of a send -/

/-- What a send's scalar names above its unit-relative kite: a row, or a reel (R197). -/
def sendPlace (x dst : Nat) (rl : Option Nat) : Prop :=
  x / 2 ^ 32 = dst ∧ dst < 16384 ∧ rl = none ∨ x / 2 ^ 32 = 2 ^ 16 + dst ∧ dst < 32 ∧ rl = some dst

/-- The fields of the scalar, as the plan reads them. -/
theorem sendPlace_fields {x dst : Nat} {rl : Option Nat} (h : sendPlace x dst rl) :
    bits x 32 16 = dst ∧ dst % 16384 = dst ∧ x < 2 ^ 49 ∧
      (bit x 48 = false ∧ dst < 16384 ∧ rl = none ∨ bit x 48 = true ∧ dst < 32 ∧ rl = some dst) := by
  have hbits : bits x 32 16 = x / 2 ^ 32 % 2 ^ 16 := rfl
  have hbit : bit x 48 = (x / 2 ^ 48 % 2 == 1) := rfl
  obtain ⟨hd, hlt, hrl⟩ | ⟨hd, hlt, hrl⟩ := h
  · refine ⟨by omega, by omega, by omega, .inl ⟨?_, hlt, hrl⟩⟩
    rw [hbit, beq_eq_false_iff_ne]
    omega
  · refine ⟨by omega, by omega, by omega, .inr ⟨?_, hlt, hrl⟩⟩
    rw [hbit, beq_iff_eq]
    omega

section
variable {x : State} {k t : Nat} {sd : Word} {row : Nat} {reel : Option Nat} {n : Nat} {b : Option Nat} {rs : List Run} {m k2 dst : Nat}
  {rl : Option Nat} (hruns : x.unitRuns (x.kite k).unit = some rs) (hat : runsAt rs (sd.toNat % 2 ^ 32) = some (m, k2))
  (hplace : sendPlace sd.toNat dst rl) (hown : (x.kite k).ownStatus t true row reel n = 0)
include hruns hat hplace hown

theorem plan_send_ok (hme : x.isMe m = true) (hon : x.kiteOn k2 = true) (hdst : (x.kite k2).destStatus dst rl n = 0) :
    x.plan k t (.send sd row reel n) b = (sendPlan k2 dst rl row reel n, x) := by
  obtain ⟨hd, hmod, hlt, hrl⟩ := sendPlace_fields hplace
  show x.planSend (x.kite k) t sd row reel n b = _
  unfold State.planSend sendPlan
  obtain ⟨hbit, hdlt, rfl⟩ | ⟨hbit, hdlt, rfl⟩ := hrl <;>
    simp [-Nat.reducePow, hruns, hat, hd, hmod, Nat.not_le.2 hlt, hbit, Nat.not_le.2 hdlt, hme, hon, hown, hdst]

theorem plan_remote_ok (hme : x.isMe m = false) :
    ∃ c, x.plan k t (.send sd row reel n) b = (remotePlan m k2 dst rl x.brd.tag c (x.hops m) row reel n,
      { x with brd := { x.brd with tag := (x.brd.tag + 1) % 2 ^ 64 } }) := by
  obtain ⟨hd, hmod, hlt, hrl⟩ := sendPlace_fields hplace
  refine ⟨b.bind fun y => if y / 65536 = m then some (y % 65536) else none, ?_⟩
  show x.planSend (x.kite k) t sd row reel n b = _
  unfold State.planSend remotePlan
  obtain ⟨hbit, hdlt, rfl⟩ | ⟨hbit, hdlt, rfl⟩ := hrl <;>
    cases b <;> simp [-Nat.reducePow, hruns, hat, hd, Nat.not_le.2 hlt, hbit, Nat.not_le.2 hdlt, hme, hown, wrapAdd]

end

/-! ### The addresses of a page move -/

/-- A state with other looks held for its walkers. -/
def withTlb (s : State) (tlb : List (Nat × List (Nat × Nat))) : State := { s with pgm := { s.pgm with tlb := tlb } }

/-- The leaf that a walk meets. -/
theorem walk_leaf {p : Pgm} {va : Nat} {l : Leaf} (h : p.walk va = (some l, none)) :
    ∃ n off sp, vaSpace va = some (n, off) ∧ mapGet p.spaces n = some sp ∧ sp.leafAt off = some l := by
  unfold Pgm.walk at h
  split at h
  · exact absurd h nofun
  · next n off hsp =>
    split at h
    · exact absurd h nofun
    · next sp hm =>
      split at h
      · exact absurd h nofun
      · exact ⟨n, off, sp, hsp, hm, congrArg Prod.fst h⟩

/-- A walk that meets its leaf gives it, and changes at most the looks held for the kite. -/
theorem walkBy_leaf {s : State} {who va : Nat} {l : Leaf} (h : s.pgm.walk va = (some l, none)) :
    ∃ tlb, s.walkBy who va = (some l, withTlb s tlb) := by
  obtain ⟨n, off, sp, hsp, hm, hleaf⟩ := walk_leaf h
  by_cases hheld : ((mapGetD s.pgm.tlb who []).contains (n, l.off)) = true
  · refine ⟨s.pgm.tlb, ?_⟩
    simp only [State.walkBy, hsp, hm, Option.bind_some, hleaf, Option.filter, hheld, if_pos]
    rfl
  · refine ⟨mapSet s.pgm.tlb who ((mapGetD s.pgm.tlb who []).drop ((mapGetD s.pgm.tlb who []).length - 511) ++ [(n, l.off)]), ?_⟩
    simp only [State.walkBy, hsp, hm, Option.bind_some, hleaf, Option.filter, hheld, h, if_neg, Bool.false_eq_true]
    rfl

/-- The looks held for a kite do not bear on what its walks meet. -/
theorem pageRowsOf_ok {s : State} (k : Nat) {out : Bool} {as pas : List Nat}
    (h : List.Forall₂ (fun va pa => ∃ l, s.pgm.walk va = (some l, none) ∧ (out = true → l.wp = false) ∧ pa = l.phys va) as pas) :
    ∀ tlb, ∃ tlb', (withTlb s tlb).pageRowsOf k out as = (pas, true, withTlb s tlb') := by
  induction h with
  | nil => exact fun tlb => ⟨tlb, rfl⟩
  | @cons va pa as pas hva _ ih =>
    intro tlb
    obtain ⟨l, hwalk, hwp, rfl⟩ := hva
    obtain ⟨tlb₁, h₁⟩ := walkBy_leaf (who := k) (s := withTlb s tlb) hwalk
    obtain ⟨tlb₂, h₂⟩ := ih tlb₁
    have hfree : ¬(out && l.wp) = true := by
      cases out with
      | false => exact nofun
      | true => rw [hwp rfl]; exact nofun
    refine ⟨tlb₂, ?_⟩
    rw [State.pageRowsOf, h₁]
    dsimp only
    rw [if_neg hfree]
    exact congrArg (fun r : List Nat × Bool × State => (l.phys va :: r.1, r.2.1, r.2.2)) h₂

theorem plan_page_ok {x : State} {k t : Nat} {out : Bool} {sm ss : Word} {row : Nat} {reel : Option Nat} {n : Nat} {b : Option Nat}
    {pas : List Nat} (hbad : memBad sm ss = false) (hst : (x.kite k).ownStatus t out row reel n = 0)
    (hpas : List.Forall₂ (fun va pa => ∃ l, x.pgm.walk va = (some l, none) ∧ (out = true → l.wp = false) ∧ pa = l.phys va)
      (memAddrs sm ss n) pas) (htab : out = true → ∀ a ∈ pas, x.pgm.inTable a = false) :
    ∃ tlb, x.plan k t (.page out sm ss row reel n) b = (pagePlan out row reel pas, withTlb x tlb) := by
  obtain ⟨tlb, hrows⟩ := pageRowsOf_ok k hpas x.pgm.tlb
  have hrows : x.pageRowsOf k out (memAddrs sm ss n) = (pas, true, withTlb x tlb) := hrows
  have hclear : ¬(out && pas.any (withTlb x tlb).pgm.inTable) = true := by
    cases out with
    | false => exact nofun
    | true =>
      rw [Bool.true_and, Bool.not_eq_true, List.any_eq_false]
      exact fun a ha => Bool.eq_false_iff.1 (htab rfl a ha)
  refine ⟨tlb, ?_⟩
  show x.planPage k (x.kite k) t out sm ss row reel n = _
  unfold State.planPage
  extract_lets zero st
  rw [if_neg (Bool.eq_false_iff.1 hbad), show st = 0 from hst, hrows]
  dsimp only
  rw [if_neg hclear]
  rfl

/-! ### The statement -/

section
variable {k : Fin 256} {s : State} {i : Instr} {reads : List SReg} {raw : Kite → Raw} {ch : BitVec 2} {bv : BitVec 1} {sb : BitVec 5}
  {b : Option Nat} {c : Option Exc}
variable (h : issuing s k) (hc : c = none) (hi : exec i s = .next (s.issue k 3 c (effPost k reads raw ch bv sb)))
  (hw : (s.kite k).dqWait = []) (hroom : ((s.kite k).chan ch.toNat).queue.length < 8) (hb : bridled s k bv sb b)
include h hc hi hw hroom hb

/-- A plan that stays on this module and changes nothing of the state leaves its descriptor. -/
theorem posted_of_plan {pl : Plan} (hpl : (operandsRead s k reads).plan k s.cyc (raw (s.kite k)) b = (pl, operandsRead s k reads))
    (hstay : Plan.away pl = false) :
    posted i k ch.toNat (postDesc (s.kite k) s.cyc ⟨ch.toNat, raw (s.kite k), bridleOf (s.kite k) bv sb, (s.kite k).ipc⟩ pl b) s := by
  have hx : Reports s k (operandsRead s k reads) := reports_operandsRead h
  have hexec := exec_posts h hc hi hw hroom hb
  rw [hpl, postPlan_stays hstay, postDesc_reports hx] at hexec
  exact ⟨_, _, hexec, queued_of_reports hx _ _ _⟩

theorem exec_posts_page {pl : Plan} {tlb : List (Nat × List (Nat × Nat))}
    (hpl : (operandsRead s k reads).plan k s.cyc (raw (s.kite k)) b = (pl, withTlb (operandsRead s k reads) tlb))
    (hstay : Plan.away pl = false) :
    ∃ t ps, exec i s = .next t ∧ kitesKept [k] s t ∧ kitesAndLog { s with pgm := { s.pgm with tlb := t.pgm.tlb } } t ∧
      hazardOnly (enqueued (s.kite k) ch.toNat
        (postDesc (s.kite k) s.cyc ⟨ch.toNat, raw (s.kite k), bridleOf (s.kite k) bv sb, (s.kite k).ipc⟩ pl b) ps) (t.kite k) := by
  have hx : Reports s k (operandsRead s k reads) := reports_operandsRead h
  have hy : Reports (withTlb s tlb) k (withTlb (operandsRead s k reads) tlb) := by
    refine ⟨hx.kite, hx.kept, ?_⟩
    have hrest := hx.rest
    unfold kitesAndLog at hrest ⊢
    exact (congrArg (withTlb · tlb) hrest :)
  have hexec := exec_posts h hc hi hw hroom hb
  rw [hpl, postPlan_stays hstay, postDesc_reports hy] at hexec
  obtain ⟨hkept, hrest, hkite⟩ := queued_of_reports hy ch.toNat
    (postDesc (s.kite k) s.cyc ⟨ch.toNat, raw (s.kite k), bridleOf (s.kite k) bv sb, (s.kite k).ipc⟩ pl b)
    (pacedAfter ((withTlb (operandsRead s k reads) tlb).kite k) s.cyc ch.toNat pl)
  exact ⟨_, _, hexec, hkept, hrest, hkite⟩

end

section
variable {k : Fin 256} {s : State} {b : Option Nat}
variable (h : issuing s k) (hw : (s.kite k).dqWait = [])
include h hw

theorem dmov_posts {f : DM} (hc : chkDm f = none) (hroom : ((s.kite k).chan f.ch.toNat).queue.length < 8) (hb : bridled s k f.bv f.sb b)
    (hst : (s.kite k).ownStatus s.cyc (f.dir == 1) f.row.toNat (sprReel f.spr f.row) (rowCount f.nrows) = 0)
    (hbad : memBad ((s.kite k).s f.sm) ((s.kite k).s f.ss) = false)
    (hin : ∀ a ∈ memAddrs ((s.kite k).s f.sm) ((s.kite k).s f.ss) (rowCount f.nrows), inTiers a = true ∧ (f.dir = 1 → s.pgm.inTable a = false)) :
    posted (.dmov k f) k f.ch.toNat (postDesc (s.kite k) s.cyc ⟨f.ch.toNat, .mem (f.dir == 1) ((s.kite k).s f.sm) ((s.kite k).s f.ss)
      f.row.toNat (sprReel f.spr f.row) (rowsOf f.nrows), bridleOf (s.kite k) f.bv f.sb, (s.kite k).ipc⟩
      (memPlan (f.dir == 1) ((s.kite k).s f.sm) ((s.kite k).s f.ss) f.row.toNat (sprReel f.spr f.row) (rowCount f.nrows)) b) s := by
  have hx := reports_operandsRead (reads := dReads f.bv f.sb [f.sm, f.ss]) h
  refine posted_of_plan h hc (exec_dmov k f s) hw hroom hb ?_ rfl
  rw [rowsOf_eq]
  refine plan_mem_ok (planMem_ok hbad (fun a ha => ⟨(hin a ha).1, fun hd => ?_⟩) ?_)
  · rw [hx.read (fun y => y.pgm.inTable a) fun _ _ _ _ _ => rfl]
    exact (hin a ha).2 (beq_iff_eq.1 hd)
  · rw [hazardOnly_read (fun y => y.ownStatus s.cyc (f.dir == 1) f.row.toNat (sprReel f.spr f.row) (rowCount f.nrows)) hx.kite fun _ _ _ _ _ => rfl]
    exact hst

theorem dpage_posts {f : DM} {pas : List Nat} (hc : chkDm f = none) (hroom : ((s.kite k).chan f.ch.toNat).queue.length < 8)
    (hb : bridled s k f.bv f.sb b)
    (hst : (s.kite k).ownStatus s.cyc (f.dir == 1) f.row.toNat (sprReel f.spr f.row) (rowCount f.nrows) = 0)
    (hbad : memBad ((s.kite k).s f.sm) ((s.kite k).s f.ss) = false)
    (hpas : List.Forall₂ (fun va pa => ∃ l, s.pgm.walk va = (some l, none) ∧ ((f.dir == 1) = true → l.wp = false) ∧ pa = l.phys va)
      (memAddrs ((s.kite k).s f.sm) ((s.kite k).s f.ss) (rowCount f.nrows)) pas)
    (htab : f.dir = 1 → ∀ a ∈ pas, s.pgm.inTable a = false) :
    ∃ t ps, exec (.dpage k f) s = .next t ∧ kitesKept [k] s t ∧ kitesAndLog { s with pgm := { s.pgm with tlb := t.pgm.tlb } } t ∧
      hazardOnly (enqueued (s.kite k) f.ch.toNat (postDesc (s.kite k) s.cyc ⟨f.ch.toNat, .page (f.dir == 1) ((s.kite k).s f.sm)
        ((s.kite k).s f.ss) f.row.toNat (sprReel f.spr f.row) (rowsOf f.nrows), bridleOf (s.kite k) f.bv f.sb, (s.kite k).ipc⟩
        (pagePlan (f.dir == 1) f.row.toNat (sprReel f.spr f.row) pas) b) ps) (t.kite k) := by
  have hx := reports_operandsRead (reads := dReads f.bv f.sb [f.sm, f.ss]) h
  have hpl : ∃ tlb, (operandsRead s k (dReads f.bv f.sb [f.sm, f.ss])).plan k s.cyc (.page (f.dir == 1) ((s.kite k).s f.sm)
      ((s.kite k).s f.ss) f.row.toNat (sprReel f.spr f.row) (rowsOf f.nrows)) b =
      (pagePlan (f.dir == 1) f.row.toNat (sprReel f.spr f.row) pas, withTlb (operandsRead s k (dReads f.bv f.sb [f.sm, f.ss])) tlb) := by
    rw [rowsOf_eq]
    refine plan_page_ok hbad ?_ ?_ ?_
    · rw [hazardOnly_read (fun y => y.ownStatus s.cyc (f.dir == 1) f.row.toNat (sprReel f.spr f.row) (rowCount f.nrows)) hx.kite fun _ _ _ _ _ => rfl]
      exact hst
    · refine hpas.imp fun va pa ⟨l, hwalk, hrest⟩ => ⟨l, ?_, hrest⟩
      rw [hx.read (fun y => y.pgm.walk va) fun _ _ _ _ _ => rfl]
      exact hwalk
    · intro hd a ha
      rw [hx.read (fun y => y.pgm.inTable a) fun _ _ _ _ _ => rfl]
      exact htab (beq_iff_eq.1 hd) a ha
  obtain ⟨tlb, hpl⟩ := hpl
  exact exec_posts_page h hc (exec_dpage k f s) hw hroom hb hpl rfl

section
variable {f : DS} {rs : List Run} {m k2 dst : Nat} {rl : Option Nat} (hc : chkDs f = none)
  (hroom : ((s.kite k).chan f.ch.toNat).queue.length < 8) (hb : bridled s k f.bv f.sb b)
  (hst : (s.kite k).ownStatus s.cyc true f.row.toNat (sprReel f.spr f.row) (rowCount f.nrows) = 0)
  (hruns : s.unitRuns (s.kite k).unit = some rs) (hat : runsAt rs (((s.kite k).s f.sd).toNat % 2 ^ 32) = some (m, k2))
  (hplace : sendPlace ((s.kite k).s f.sd).toNat dst rl)
include hc hroom hb hst hruns hat hplace

theorem dsend_posts (hme : s.isMe m = true) (hon : s.kiteOn k2 = true) (hdst : (s.kite k2).destStatus dst rl (rowCount f.nrows) = 0) :
    posted (.dsend k f) k f.ch.toNat (postDesc (s.kite k) s.cyc ⟨f.ch.toNat, .send ((s.kite k).s f.sd) f.row.toNat (sprReel f.spr f.row)
      (rowsOf f.nrows), bridleOf (s.kite k) f.bv f.sb, (s.kite k).ipc⟩
      (sendPlan k2 dst rl f.row.toNat (sprReel f.spr f.row) (rowCount f.nrows)) b) s := by
  have hx := reports_operandsRead (reads := dReads f.bv f.sb [f.sd]) h
  refine posted_of_plan h hc (exec_dsend k f s) hw hroom hb ?_ rfl
  rw [rowsOf_eq]
  refine plan_send_ok (rs := rs) ?_ hat hplace ?_ ?_ ?_ ?_
  · rw [hazardOnly_read Kite.unit hx.kite fun _ _ _ _ _ => rfl]
    rw [hx.read (fun y => y.unitRuns (s.kite k).unit) fun _ _ _ _ _ => rfl]
    exact hruns
  · rw [hazardOnly_read (fun y => y.ownStatus s.cyc true f.row.toNat (sprReel f.spr f.row) (rowCount f.nrows)) hx.kite fun _ _ _ _ _ => rfl]
    exact hst
  · rw [hx.read (fun y => y.isMe m) fun _ _ _ _ _ => rfl]
    exact hme
  · rw [hx.read (fun y => y.kiteOn k2) fun _ _ _ _ _ => rfl]
    exact hon
  · by_cases hk : k2 = k
    · subst hk
      rw [hazardOnly_read (fun y => y.destStatus dst rl (rowCount f.nrows)) hx.kite fun _ _ _ _ _ => rfl]
      exact hdst
    · rw [hx.kept k2 (by simpa using hk)]
      exact hdst

theorem dsend_posts_away (hme : s.isMe m = false) :
    ∃ x c ps, exec (.dsend k f) s = .next { x with
        brd := { x.brd with tag := (x.brd.tag + 1) % 2 ^ 64 }, lnk := { x.lnk with sends := mapSet x.lnk.sends x.brd.tag (k.val, f.ch.toNat) } } ∧
      kitesKept [k] s x ∧ kitesAndLog s x ∧
      hazardOnly (enqueued (s.kite k) f.ch.toNat (postDesc (s.kite k) s.cyc ⟨f.ch.toNat, .send ((s.kite k).s f.sd) f.row.toNat
        (sprReel f.spr f.row) (rowsOf f.nrows), bridleOf (s.kite k) f.bv f.sb, (s.kite k).ipc⟩
        (remotePlan m k2 dst rl s.brd.tag c (s.hops m) f.row.toNat (sprReel f.spr f.row) (rowCount f.nrows)) b) ps) (x.kite k) := by
  have hx := reports_operandsRead (reads := dReads f.bv f.sb [f.sd]) h
  have hexec := exec_posts h hc (exec_dsend k f s) hw hroom hb
  generalize operandsRead s k (dReads f.bv f.sb [f.sd]) = x at hx hexec
  have hpl := plan_remote_ok (x := x) (k := k) (t := s.cyc) (sd := (s.kite k).s f.sd) (row := f.row.toNat) (reel := sprReel f.spr f.row)
    (n := rowCount f.nrows) (b := b) (rs := rs) (m := m) (k2 := k2) ?_ hat hplace ?_ ?_
  · obtain ⟨c, hpl⟩ := hpl
    have htag : x.brd.tag = s.brd.tag := hx.read (fun y => y.brd.tag) fun _ _ _ _ _ => rfl
    have hhops : x.hops m = s.hops m := hx.read (fun y => y.hops m) fun _ _ _ _ _ => rfl
    rw [hhops] at hpl
    rw [rowsOf_eq] at hexec ⊢
    rw [hpl] at hexec
    obtain ⟨hkept, hrest, hkite⟩ := queued_of_reports hx f.ch.toNat
      (postDesc (s.kite k) s.cyc ⟨f.ch.toNat, .send ((s.kite k).s f.sd) f.row.toNat (sprReel f.spr f.row) (rowCount f.nrows),
        bridleOf (s.kite k) f.bv f.sb, (s.kite k).ipc⟩
        (remotePlan m k2 dst rl s.brd.tag c (s.hops m) f.row.toNat (sprReel f.spr f.row) (rowCount f.nrows)) b)
      (pacedAfter (x.kite k) s.cyc f.ch.toNat
        (remotePlan m k2 dst rl s.brd.tag c (s.hops m) f.row.toNat (sprReel f.spr f.row) (rowCount f.nrows)))
    refine ⟨_, c, _, ?_, hkept, hrest, hkite⟩
    rw [hexec, postPlan_away, ← htag, postDesc_reports hx]
    rfl
  · rw [hazardOnly_read Kite.unit hx.kite fun _ _ _ _ _ => rfl]
    rw [hx.read (fun y => y.unitRuns (s.kite k).unit) fun _ _ _ _ _ => rfl]
    exact hruns
  · rw [hazardOnly_read (fun y => y.ownStatus s.cyc true f.row.toNat (sprReel f.spr f.row) (rowCount f.nrows)) hx.kite fun _ _ _ _ _ => rfl]
    exact hst
  · rw [hx.read (fun y => y.isMe m) fun _ _ _ _ _ => rfl]
    exact hme

end

section
variable (hon : ∀ n, ((s.kite k).bank n).st = .on)
include hon

omit hw in
theorem operandsRead_banks (reads : List SReg) (n : Nat) : (((operandsRead s k reads).kite k).bank n).st = .on := by
  rw [hazardOnly_read (fun y => (y.bank n).st) (reports_operandsRead (reads := reads) h).kite fun _ _ _ _ _ => rfl]
  exact hon n

theorem dexport_posts {f : DX} (hc : chkDx f = none) (hroom : ((s.kite k).chan f.ch.toNat).queue.length < 8) (hb : bridled s k f.bv f.sb b) :
    posted (.dexport k f) k f.ch.toNat (postDesc (s.kite k) s.cyc ⟨f.ch.toNat, .note ((s.kite k).s32 f.ss) f.layer.toNat f.head.toNat
      f.kind.toNat f.tmap.toNat (zeroAs 4096 f.ntok.toNat), bridleOf (s.kite k) f.bv f.sb, (s.kite k).ipc⟩
      (notePlan ((s.kite k).s32 f.ss) f.layer.toNat f.head.toNat f.kind.toNat f.tmap.toNat (zeroAs 4096 f.ntok.toNat)) b) s :=
  posted_of_plan h hc (exec_dexport k f s) hw hroom hb (plan_note_ok (operandsRead_banks h hon _)) rfl

theorem dfill_posts {f : DF} (hc : chkDf f = none) (hroom : ((s.kite k).chan f.ch.toNat).queue.length < 8) (hb : bridled s k f.bv f.sb b) :
    posted (.dfill k f) k f.ch.toNat (postDesc (s.kite k) s.cyc ⟨f.ch.toNat, .fill ((s.kite k).s32 f.sv) f.row.toNat (rowsOf f.nrows),
      bridleOf (s.kite k) f.bv f.sb, (s.kite k).ipc⟩ (fillPlan ((s.kite k).s32 f.sv) f.row.toNat (rowsOf f.nrows)) b) s :=
  posted_of_plan h hc (exec_dfill k f s) hw hroom hb (plan_fill_ok (operandsRead_banks h hon _)) rfl

theorem dcopy_posts {f : DC} (hc : chkDc f = none) (hroom : ((s.kite k).chan f.ch.toNat).queue.length < 8) (hb : bridled s k f.bv f.sb b) :
    posted (.dcopy k f) k f.ch.toNat (postDesc (s.kite k) s.cyc ⟨f.ch.toNat, .copy (f.dir == 1) f.srow.toNat f.drow.toNat (rowsOf f.nrows),
      bridleOf (s.kite k) f.bv f.sb, (s.kite k).ipc⟩ (copyPlan (f.dir == 1) f.srow.toNat f.drow.toNat (rowsOf f.nrows)) b) s :=
  posted_of_plan h hc (exec_dcopy k f s) hw hroom hb (plan_copy_ok (operandsRead_banks h hon _)) rfl

end

end

/-- The bound of a descriptor, by its plan's. -/
theorem postDesc_bound {kt : Kite} {t : Nat} {p : Post} {pl : Plan} {b : Option Nat} {l r : Nat} (h : pl.bound (kt.pacedRows t) = l + r) :
    (postDesc kt t p pl b).bound = t + queued kt p.ch t + l + r := by
  rw [Nat.add_assoc, ← h, ← boundLeft_eq]
  rfl

/-- The addresses of a page move, taken by their numbers. -/
theorem forall₂_of_getElem? {as pas : List Nat} {R : Nat → Nat → Prop} (hlen : pas.length = as.length)
    (h : ∀ i, i < as.length → ∃ pa, pas[i]? = some pa ∧ R (as.getD i 0) pa) : List.Forall₂ R as pas := by
  refine List.forall₂_iff_get.2 ⟨hlen.symm, fun i hi hj => ?_⟩
  obtain ⟨pa, hpa, hR⟩ := h i hi
  rw [List.getElem?_eq_getElem hj] at hpa
  rw [List.getD_eq_getElem _ _ hi] at hR
  cases hpa
  exact hR

/-- Settles O20: each D-slot instruction's plan is the one nothing stands against, and its descriptor is that plan's. -/
theorem moveSlotPosts : Obligations.MoveSlotPosts := by
  unfold Obligations.MoveSlotPosts
  intro k s h hw kt t room ready planned
  refine ⟨?_, ?_, ?_, ?_, ?_⟩
  · intro f b hc hroom hb hst h512 hstride h56 addrs
    have hbad : memBad ((s.kite k).s f.sm) ((s.kite k).s f.ss) = false := memBad_false h512 hstride h56
    refine ⟨fun hin => ⟨_, dmov_posts h hw hc hroom hb hst hbad hin, rfl, ⟨rfl, rfl, rfl, rfl, rfl, rfl⟩, rfl, rfl,
      fun hbm => postDesc_bound (bound_mem (rowCount_ne _) hbm)⟩, ?_⟩
    · intro pas hpas hlen htab
      have hall := forall₂_of_getElem? (as := addrs)
        (R := fun va pa => ∃ l, s.pgm.walk va = (some l, none) ∧ ((f.dir == 1) = true → l.wp = false) ∧ pa = l.phys va) (pas := pas)
        (by rw [hlen]; simp [addrs]) (fun i hi => by
          obtain ⟨l, hwalk, hwp, hpa⟩ := hpas i (by simpa [addrs] using hi)
          exact ⟨_, hpa, l, hwalk, fun hd => hwp (beq_iff_eq.1 hd), rfl⟩)
      obtain ⟨t', ps, hexec, hkept, hrest, hkite⟩ := dpage_posts h hw hc hroom hb hst hbad hall htab
      exact ⟨_, t', ps, hexec, hkept, hrest, hkite, rfl, ⟨rfl, hlen, rfl, rfl, rfl, rfl⟩, rfl, rfl⟩
  · intro f b rs m k2 dst rl hc hroom hb hst hruns hat hplace
    constructor
    · intro hme hon hdst
      exact ⟨_, dsend_posts h hw hc hroom hb hst hruns hat hplace hme hon hdst, rfl, ⟨rfl, rfl, rfl, rfl, rfl, rfl⟩, rfl, rfl,
        postDesc_bound (bound_send (rowCount_ne _))⟩
    · intro hme
      obtain ⟨x, c, ps, hexec, hkept, hrest, hkite⟩ := dsend_posts_away h hw hc hroom hb hst hruns hat hplace hme
      exact ⟨_, x, c, ps, hexec, hkept, hrest, hkite, rfl, ⟨rfl, rfl, rfl, rfl, rfl, rfl⟩, rfl, rfl,
        (postDesc_bound (bound_remote (rowCount_ne _))).trans (congrArg (· + _) (Nat.add_assoc ..).symm)⟩
  · intro f b hc hroom hb hon n
    have hn : zeroAs 4096 f.ntok.toNat = n := zeroAs_toNat 4096 f.ntok
    have hposted := dexport_posts h hw hon hc hroom hb
    rw [hn] at hposted
    exact ⟨_, hposted, rfl, ⟨rfl, rfl, rfl, rfl, rfl, rfl⟩, rfl, rfl, postDesc_bound (r := 0) rfl⟩
  · intro f b hc hroom hb hon
    have hposted := dfill_posts h hw hon hc hroom hb
    rw [rowsOf_eq] at hposted
    exact ⟨_, hposted, rfl, ⟨rfl, rfl, rfl, rfl, rfl, rfl⟩, rfl, postDesc_bound bound_fill⟩
  · intro f b hc hroom hb hon
    have hposted := dcopy_posts h hw hon hc hroom hb
    rw [rowsOf_eq] at hposted
    exact ⟨_, hposted, rfl, ⟨rfl, rfl, rfl, rfl, rfl, rfl⟩, rfl, postDesc_bound bound_copy⟩

end Sys2Proof.Stated
end

section

/-! SUPPORT. The configuration of the queues (R366, R367). -/

namespace Sys2Proof.Stated
open Sys2Proof.Machine

@[simp] theorem setQueue_queue (s : State) (q : Nat) (x : Queue) : (s.setQueue q x).queue q = x := by
  unfold State.queue State.setQueue mapGetD
  rw [mapGet_mapSet_self]
  rfl

@[simp] theorem setQueue_setQueue (s : State) (q : Nat) (x y : Queue) : (s.setQueue q x).setQueue q y = s.setQueue q y := by
  unfold State.setQueue
  rw [mapSet_mapSet]

theorem setQueue_queue_ne (s : State) (q j : Nat) (x : Queue) (h : j ≠ q) : (s.setQueue q x).queue j = s.queue j := by
  unfold State.queue State.setQueue mapGetD
  rw [mapGet_mapSet_ne _ _ _ _ h]

/-- Whether something of a queue remains depends on its outstanding commands and on the requests only. -/
theorem queueBusy_setQueue (s : State) (q : Nat) (x : Queue) (h : x.outst = (s.queue q).outst) :
    (s.setQueue q x).queueBusy q = s.queueBusy q := by
  unfold State.queueBusy
  rw [setQueue_queue, h]
  rfl

/-- A queue of which nothing remains is off (R367). -/
def queueOff (x : Queue) : Queue := { x with en := false, draining := false, tails := [], held := [] }

theorem queueDisableDone_idle {s : State} {q : Nat} (hd : (s.queue q).draining = true) (hb : s.queueBusy q = false) :
    queueDisableDone q s = s.setQueue q (queueOff (s.queue q)) :=
  if_pos (show ((s.queue q).draining && !s.queueBusy q) = true by rw [hd, hb]; rfl)

theorem queueDisableDone_busy {s : State} {q : Nat} (hb : s.queueBusy q = true) : queueDisableDone q s = s :=
  if_neg (show ¬((s.queue q).draining && !s.queueBusy q) = true by rw [hb, Bool.not_true, Bool.and_false]; exact nofun)

section
variable {s : State} {q v : Nat} (hup : s.glbUp = true)
include hup

theorem not_glbDown : ¬(!s.glbUp) = true := by
  rw [hup]
  exact nofun

theorem qcfgWrite_on (hen : (s.queue q).en = true) : qcfgWrite q v s =
    if !bit v 0 then queueDisableDone q (s.setQueue q { s.queue q with draining := true, tails := [] })
    else if v % 2 ^ 39 = (s.queue q).cfg then s else s.ignoredReg uHost q :=
  (if_neg (not_glbDown hup)).trans (if_pos hen)

/-- The fields that a write of QCFG gives to a queue that is off. -/
def configured (x : Queue) (v : Nat) : Queue :=
  { x with logd := bits v 1 4, vec := bits v 5 6, ccount := bits v 11 12, ctime := bits v 23 16 }

/-- A queue that starts empty. -/
def started (y : Queue) : Queue :=
  { y with
    en := true, draining := false, sqHead := 0, sqTail := 0, tails := [], cqHead := 0, cqTail := 0, phase := true, held := []
    irqN := 0, irqAt := none }

/-- The fields with which a queue may start (R366). -/
def startable (s : State) (y : Queue) : Bool :=
  s.ready && 1 ≤ y.logd && y.logd ≤ 12 && 1 ≤ y.ccount && y.vec ≤ 62 && y.sqBase % 4096 = 0 && y.cqBase % 4096 = 0

theorem qcfgWrite_off (hen : (s.queue q).en = false) : qcfgWrite q v s =
    if !bit v 0 then s.setQueue q (configured (s.queue q) v)
    else if startable s (configured (s.queue q) v) then
      { s.setQueue q (started (configured (s.queue q) v)) with
        hst := { (s.setQueue q (started (configured (s.queue q) v))).hst with linkUp := true, master := true } }
    else s.ignoredReg uHost q :=
  (if_neg (not_glbDown hup)).trans (if_neg (Bool.eq_false_iff.1 hen))

theorem queueBaseWrite_on {cq : Bool} (hen : (s.queue q).en = true) : queueBaseWrite q cq v s =
    if v = (if cq then (s.queue q).cqBase else (s.queue q).sqBase) then s else s.ignoredReg uHost q :=
  (if_neg (not_glbDown hup)).trans (if_pos hen)

theorem queueBaseWrite_off {cq : Bool} (hen : (s.queue q).en = false) : queueBaseWrite q cq v s =
    s.setQueue q (if cq then { s.queue q with cqBase := v } else { s.queue q with sqBase := v }) :=
  (if_neg (not_glbDown hup)).trans (if_neg (Bool.eq_false_iff.1 hen))

end

theorem startable_iff {s : State} {x : Queue} {v : Nat} : startable s (configured x v) = true ↔ s.ready = true ∧
    (1 ≤ bits v 1 4 ∧ bits v 1 4 ≤ 12 ∧ bits v 5 6 ≤ 62 ∧ 1 ≤ bits v 11 12 ∧ x.sqBase % 4096 = 0 ∧ x.cqBase % 4096 = 0) := by
  unfold startable configured
  simp only [Bool.and_eq_true, decide_eq_true_eq]
  tauto

/-- Settles O42: by whether the queue is on, and by the bit EN that is written. -/
theorem queueConfiguration : Obligations.QueueConfiguration := by
  unfold Obligations.QueueConfiguration
  intro s q v hup x f set y good
  have hbit : bit v.toNat 0 = v.getLsbD 0 := bit_toNat v 0
  have hgood : startable s (configured x v.toNat) = true ↔ s.ready = true ∧ good := startable_iff
  have hcfg : exec (.qcfgWrite q v) s = .next (qcfgWrite q.val v.toNat s) := rfl
  have hbase (cq : Bool) : exec (.queueBaseWrite q cq v) s = .next (queueBaseWrite q.val cq v.toNat s) := rfl
  have hdraining : (s.setQueue q.val { x with draining := true, tails := [] }).queueBusy q.val = s.queueBusy q.val :=
    queueBusy_setQueue s q.val _ rfl
  refine ⟨?_, ?_, ?_, ?_, ?_, ?_, ?_, ?_, ?_, ?_⟩
  · intro hen hv
    rw [hcfg, qcfgWrite_off hup hen, hbit, hv]
    rfl
  · intro hen hv hready hg
    have hstart := qcfgWrite_off (v := v.toNat) hup hen
    rw [hbit, hv] at hstart
    exact ⟨_, congrArg Host.Outcome.next (hstart.trans ((if_neg nofun).trans (if_pos (hgood.2 ⟨hready, hg⟩)))), rfl, rfl⟩
  · intro hen hv hbad
    have hno : startable s (configured x v.toNat) = false := by
      rw [Bool.eq_false_iff]
      intro h
      obtain ⟨hready, hg⟩ := hgood.1 h
      obtain hr | hr := hbad
      · exact absurd hready (Bool.eq_false_iff.1 hr)
      · exact hr hg
    rw [hcfg, qcfgWrite_off hup hen, hbit, hv, hno]
    rfl
  · intro hen hv hbusy
    rw [hcfg, qcfgWrite_on hup hen, hbit, hv]
    exact congrArg _ (queueDisableDone_busy (hdraining.trans hbusy))
  · intro hen hv hbusy
    have hidle := queueDisableDone_idle (congrArg Queue.draining (setQueue_queue s q.val { x with draining := true, tails := [] }))
      (hdraining.trans hbusy)
    rw [setQueue_queue, setQueue_setQueue] at hidle
    rw [hcfg, qcfgWrite_on hup hen, hbit, hv]
    exact congrArg _ hidle
  · intro hen hv hsame
    rw [hcfg, qcfgWrite_on hup hen, hbit, hv, if_neg nofun, if_pos hsame]
  · intro hen hv hother
    rw [hcfg, qcfgWrite_on hup hen, hbit, hv, if_neg nofun, if_neg hother]
  · intro hd hb
    exact congrArg _ (queueDisableDone_idle hd hb)
  · intro hen
    rw [hbase, hbase, queueBaseWrite_off hup hen, queueBaseWrite_off hup hen]
    exact ⟨rfl, rfl⟩
  · intro hen
    rw [hbase, hbase, queueBaseWrite_on hup hen, queueBaseWrite_on hup hen]
    exact ⟨fun h => congrArg _ (if_pos h), fun h => congrArg _ (if_neg h), fun h => congrArg _ (if_pos h), fun h => congrArg _ (if_neg h)⟩

end Sys2Proof.Stated
end

section

/-! SUPPORT. Attestation and the sensors on the management bus (R415, R416, R426, R428). -/

namespace Sys2Proof.Stated
open Sys2Proof.Machine

section
variable {s : State} {f : SpdmF} {version : Nat} {ready : Bool} {go : State → State} (hsmb : s.smbUp = true)
include hsmb

theorem not_smbDown : ¬(!s.smbUp) = true := by
  rw [hsmb]
  exact nofun

/-- A request of the right version, in its order, is answered. -/
theorem spdm_go (hv : f.version.toNat = version) (hr : ready = true) : s.spdm f version ready go = go s := by
  unfold State.spdm
  rw [if_neg (not_smbDown hsmb), if_neg (by rw [hv]; simp), hr]
  rfl

/-- A request out of order is answered with an error. -/
theorem spdm_early (hv : f.version.toNat = version) (hr : ready = false) : s.spdm f version ready go = s.respond spdmError [0x04, 0] := by
  unfold State.spdm
  rw [if_neg (not_smbDown hsmb), if_neg (by rw [hv]; simp), hr]
  rfl

/-- A request of another version is answered with an error. -/
theorem spdm_version (hv : f.version.toNat ≠ version) : s.spdm f version ready go = s.respond spdmError [0x41, 0] := by
  unfold State.spdm
  rw [if_neg (not_smbDown hsmb), if_pos (bne_iff_ne.2 hv)]

end

/-- The indices of Table 18.8. -/
theorem measureIdx_bounds {i : Nat} (h : i ∈ measureIdx) : i ≠ 0 ∧ i < 32 := by
  have hall : ∀ i ∈ measureIdx, i ≠ 0 ∧ i < 32 := by decide
  exact hall i h

/-- The measurements that a request asks for: their number, and their indices. -/
theorem getMeasurements_one {s : State} {f : SpdmF} {i : Nat} (hsmb : s.smbUp = true) (hv : f.version.toNat = 0x14) (halg : s.sec.spdmAlg = true)
    (hi : i ∈ measureIdx) (hp : f.p2.toNat = i) : getMeasurements f s =
      if bit f.p1.toNat 0 then ((s.spdmSign (leBytes 1 1 ++ s.measures [i])).2).respond 0x60
        (leBytes 1 1 ++ s.measures [i] ++ (s.spdmSign (leBytes 1 1 ++ s.measures [i])).1)
      else s.respond 0x60 (leBytes 1 1 ++ s.measures [i]) := by
  obtain ⟨h0, h32⟩ := measureIdx_bounds hi
  refine (spdm_go hsmb hv halg).trans ?_
  have hff : ¬i = 0xFF := by omega
  have hcontains : measureIdx.contains i = true := List.contains_iff_mem.2 hi
  dsimp only
  rw [hp, if_neg h0, if_neg hff, if_pos hcontains]
  dsimp only
  rw [if_neg h0]
  rfl

/-- A sensor of Table 19.5 has a value. -/
theorem sensor_some (s : State) {id : Nat} (h1 : 1 ≤ id) (h15 : id ≤ 15) : ∃ v, s.sensor id = some v := by
  interval_cases id <;> exact ⟨_, rfl⟩

theorem sensor_none (s : State) {id : Nat} (h : id = 0 ∨ 15 < id) : s.sensor id = none := by
  have hrange (a b : Nat) (ha : 1 ≤ a) (hb : b ≤ 15) : ¬(decide (a ≤ id) && decide (id ≤ b)) = true := by
    rw [Bool.and_eq_true, decide_eq_true_eq, decide_eq_true_eq]
    omega
  have hne (a : Nat) (ha : 1 ≤ a) (hb : a ≤ 15) : ¬id = a := by omega
  unfold State.sensor
  extract_lets rcd by_
  rw [if_neg (hne 1 ?_ ?_), if_neg (hrange 2 5 ?_ ?_), if_neg (hrange 6 9 ?_ ?_), if_neg (hne 10 ?_ ?_), if_neg (hne 11 ?_ ?_),
    if_neg (hne 12 ?_ ?_), if_neg (hne 13 ?_ ?_), if_neg (hne 14 ?_ ?_), if_neg (hne 15 ?_ ?_)]
  all_goals decide

theorem sensor_reserve (s : State) : s.sensor 12 = some s.reserve := rfl

theorem sensor_minimal (s : State) (h : s.minimal = true) : s.sensor 10 = some (s.die 4).tj := by
  unfold State.sensor
  rw [h]
  rfl

/-- The part of the chain that a request names. -/
theorem certificate_part {s : State} {f : SpdmF} (hp : f.p1.toNat % 16 = 0) (hoff : f.off.toNat < s.certChain.length) :
    (if f.p1.toNat % 16 != 0 || (s.certChain.drop f.off.toNat).isEmpty then s.respond spdmError [0x01, 0]
      else s.respond 0x02 (leBytes 2 ((s.certChain.drop f.off.toNat).take f.len.toNat).length ++
        leBytes 2 ((s.certChain.drop f.off.toNat).length - ((s.certChain.drop f.off.toNat).take f.len.toNat).length) ++
        (s.certChain.drop f.off.toNat).take f.len.toNat)) =
    s.respond 0x02 (leBytes 2 ((s.certChain.drop f.off.toNat).take f.len.toNat).length ++
        leBytes 2 (s.certChain.length - f.off.toNat - ((s.certChain.drop f.off.toNat).take f.len.toNat).length) ++
        (s.certChain.drop f.off.toNat).take f.len.toNat) := by
  have hne : ¬(f.p1.toNat % 16 != 0 || (s.certChain.drop f.off.toNat).isEmpty) = true := by
    rw [hp]
    simp
    omega
  rw [if_neg hne, List.length_drop]

theorem challenge_served {s : State} {f : SpdmF} (hp : f.p1 = 0) (hne : s.certChain ≠ []) : ¬(f.p1.toNat != 0 || s.certChain.isEmpty) = true := by
  rw [hp]
  simpa using hne

/-- The number of measurements. -/
theorem getMeasurements_count {s : State} {f : SpdmF} (hsmb : s.smbUp = true) (hv : f.version.toNat = 0x14) (halg : s.sec.spdmAlg = true)
    (hp : f.p1.getLsbD 0 = false) (hp2 : f.p2 = 0) : getMeasurements f s = s.respond 0x60 [24] := by
  refine (spdm_go hsmb hv halg).trans ?_
  dsimp only
  rw [hp2, bit_toNat, hp]
  rfl

theorem pldmSensor_some {s : State} {id v : Nat} (hsmb : s.smbUp = true) (hs : s.sensor id = some v) : pldmSensor id s = s.emit (.pldm id v) := by
  unfold pldmSensor
  rw [if_neg (not_smbDown hsmb), hs]

theorem pldmSensor_none {s : State} {id : Nat} (hsmb : s.smbUp = true) (hs : s.sensor id = none) : pldmSensor id s = s.emit (.pldmInvalid id) := by
  unfold pldmSensor
  rw [if_neg (not_smbDown hsmb), hs]

/-- Settles O57: by the version of the request, and by how far the exchange has come. -/
theorem attestation : Obligations.Attestation := by
  unfold Obligations.Attestation
  intro s f hpwr hglb replies x chain
  have hsmb : s.smbUp = true := by
    unfold State.smbUp
    rw [hpwr, hglb]
    rfl
  have hver {v : BitVec 8} (h : f.version = v) : f.version.toNat = v.toNat := congrArg _ h
  refine ⟨?_, ?_, ?_, ?_, ?_, ?_, ?_, ?_, ?_⟩
  · intro hv
    exact congrArg Host.Outcome.next (spdm_go hsmb (hver hv) rfl)
  · intro hv
    exact congrArg Host.Outcome.next (spdm_version hsmb fun h => hv (BitVec.eq_of_toNat_eq h))
  · intro hv hr
    exact congrArg Host.Outcome.next (spdm_go hsmb (hver hv) hr)
  · intro hv hr
    exact congrArg Host.Outcome.next (spdm_early hsmb (hver hv) hr)
  · intro hv hr ha hh
    refine congrArg Host.Outcome.next ((spdm_go hsmb (hver hv) hr).trans (if_pos ?_))
    rw [bit_toNat, bit_toNat, ha, hh]
    rfl
  · intro hv hr c hc
    have hno {go : State → State} : s.spdm f 0x14 s.sec.spdmAlg go = s.respond spdmError [0x04, 0] := spdm_early hsmb (hver hv) hr
    simp only [List.mem_cons, List.not_mem_nil, or_false] at hc
    obtain rfl | rfl | rfl | rfl := hc <;> exact congrArg Host.Outcome.next hno
  · intro hv halg
    refine ⟨?_, ?_, ?_, ?_, ?_, ?_⟩
    · exact congrArg Host.Outcome.next (spdm_go hsmb (hver hv) halg)
    · intro hp hoff
      exact ⟨_, rfl, congrArg Host.Outcome.next ((spdm_go hsmb (hver hv) halg).trans (certificate_part hp hoff))⟩
    · intro hp hne
      exact ⟨_, _, congrArg Host.Outcome.next ((spdm_go hsmb (hver hv) halg).trans (if_neg (challenge_served hp hne))), rfl,
        ((List.prefix_append _ _).trans (List.prefix_append _ _)).trans (List.prefix_append _ _), rfl, rfl⟩
    · intro hp hp2
      exact congrArg Host.Outcome.next (getMeasurements_count hsmb (hver hv) halg hp hp2)
    · intro i hi hp hp2
      have hone := getMeasurements_one hsmb (hver hv) halg hi hp2
      rw [bit_toNat, hp] at hone
      exact congrArg Host.Outcome.next hone
    · intro i hi hp hp2
      have hone := getMeasurements_one hsmb (hver hv) halg hi hp2
      rw [bit_toNat, hp] at hone
      exact ⟨_, _, congrArg Host.Outcome.next hone, rfl, rfl⟩
  · intro id h1 h15
    obtain ⟨v, hs⟩ := sensor_some s h1 h15
    refine ⟨v, ?_, ?_, ?_⟩
    · exact congrArg Host.Outcome.next (pldmSensor_some hsmb hs)
    · rintro rfl
      exact Option.some.inj (hs.symm.trans (sensor_reserve s))
    · rintro hmin rfl
      exact Option.some.inj (hs.symm.trans (sensor_minimal s hmin))
  · intro id hid
    exact congrArg Host.Outcome.next (pldmSensor_none hsmb (sensor_none s (hid.imp_left (congrArg BitVec.toNat))))

end Sys2Proof.Stated
end

section

/-! SUPPORT. Updates of flash, and its records (R400, R405, R409–R412). -/

namespace Sys2Proof.Stated
open Sys2Proof.Machine

/-! ### Records kept twice (R400) -/

theorem readRec_first {α : Type} {a b : FRec α} (ha : a.good = true) (hb : b.good = true → b.count ≤ a.count) : readRec a b = some a.val := by
  unfold readRec
  refine if_pos ?_
  cases hg : b.good with
  | false => rw [ha]; rfl
  | true => rw [ha, decide_eq_true (hb hg)]; rfl

theorem readRec_second {α : Type} {a b : FRec α} (hb : b.good = true) (ha : a.count < b.count) : readRec a b = some b.val := by
  unfold readRec
  rw [if_neg, if_pos hb]
  rw [hb, decide_eq_false (Nat.not_le.2 ha), Bool.and_eq_true]
  exact fun h => absurd h.2 nofun

/-- What is written is what is read. -/
theorem readRec_writeRec {α : Type} (a b : FRec α) (v : α) : readRec (writeRec a b v).1 (writeRec a b v).2 = some v := by
  have hle {f : Bool} {x y : Nat} : (f = true → x ≤ (max y (if f then x else 0)) + 1) ∧ (f = true → x < max (if f then x else 0) y + 1) := by
    constructor <;> rintro rfl <;> simp <;> omega
  unfold writeRec
  extract_lets n
  split
  · exact readRec_first rfl hle.1
  · next h =>
    refine readRec_second rfl (hle.2 ?_)
    cases hg : a.good with
    | false => exact absurd (by rw [hg]; rfl) h
    | true => rfl

theorem boot_setBoot (x : Sec) (b : BootRec) : (x.setBoot b).boot = b := by
  have h := readRec_writeRec x.primary.boot x.recovery.boot b
  exact congrArg (Option.getD · _) h

/-! ### Components -/

theorem comp_setComp (f : Flash) (c : Comp) {k : Nat} (hk : k ∈ [1, 2, 3]) : (f.setComp k c).comp k = some c := by
  simp only [List.mem_cons, List.not_mem_nil, or_false] at hk
  obtain rfl | rfl | rfl := hk <;> rfl

theorem comp_spoil {f : Flash} {c : Comp} {k : Nat} (hk : k ∈ [1, 2, 3]) (h : (f.spoil k).comp k = some c) : c.good = false := by
  have hbad {o : Option Comp} (ho : (o.map fun x => { x with good := false }) = some c) : c.good = false := by
    obtain ⟨y, -, rfl⟩ := Option.map_eq_some_iff.1 ho
    rfl
  simp only [List.mem_cons, List.not_mem_nil, or_false] at hk
  obtain rfl | rfl | rfl := hk <;> exact hbad h

theorem cutUpdate_comp {x : Sec} {dev : Bool} {k : Nat} {c : Comp} (h : x.busy = some (.comp dev k c)) : x.cutUpdate =
    if dev then { x with recovery := x.recovery.spoil k } else { x with primary := x.primary.spoil k } := by
  obtain ⟨⟩ := x
  cases h
  rfl

/-! ### The commands (R409, R411) -/

section
variable {s : State}

/-- The device that a command of SEC.UPDATE names. -/
def withDev (s : State) (dev : Bool) : State := { s with sec := { s.sec with dev := dev } }

/-- A staged component whose header is in range is written, or refused (R411). -/
def componentChecked (dev : Bool) (s : State) (l : Option (List Byte)) : State :=
  match l with
  | none => s.updStatus 2
  | some l =>
    match s.sec.componentOp dev l with
    | .inl c => s.updStatus c
    | .inr op => { s with sec := { s.sec with busy := some op } }

/-- A staged header is checked, and the component after it. -/
def componentStaged (dev : Bool) (s : State) (h : Option (List Byte)) : State :=
  match h with
  | none => s.updStatus 2
  | some h =>
    if badHeader h then s.updStatus 1
    else componentChecked dev (s.staged 0 (0x800 + fieldLe h 0xC 4 + 3309)).2 (s.staged 0 (0x800 + fieldLe h 0xC 4 + 3309)).1

theorem component_up {dev : Bool} (hup : s.glbUp = true) : component dev s =
    if s.sec.busy.isSome then (withDev s dev).updStatus 4
    else if s.sec.lockUpd then (withDev s dev).updStatus 5
    else componentStaged dev ((withDev s dev).staged 0 0x800).2 ((withDev s dev).staged 0 0x800).1 := by
  refine (if_neg (not_glbDown hup)).trans ?_
  unfold componentStaged componentChecked
  generalize State.staged = staged
  extract_lets sec x
  rewrite [show withDev s dev = x from rfl, show s.sec.busy = x.sec.busy from rfl, show s.sec.lockUpd = x.sec.lockUpd from rfl]
  clear_value x
  rcases staged x 0 0x800 with ⟨_ | h, u⟩
  · rfl
  · refine if_congr Iff.rfl rfl (if_congr Iff.rfl rfl (if_congr Iff.rfl rfl ?_))
    generalize Sec.componentOp = op
    rcases staged u 0 (0x800 + fieldLe h 0xC 4 + 3309) with ⟨_ | l, v⟩
    · rfl
    · rfl

theorem componentStaged_bad {dev : Bool} {h : List Byte} (hbad : badHeader h = true) : componentStaged dev s (some h) = s.updStatus 1 :=
  if_pos hbad

theorem componentStaged_good {dev : Bool} {h : List Byte} (hgood : badHeader h = false) : componentStaged dev s (some h) =
    componentChecked dev (s.staged 0 (0x800 + fieldLe h 0xC 4 + 3309)).2 (s.staged 0 (0x800 + fieldLe h 0xC 4 + 3309)).1 :=
  if_neg (Bool.eq_false_iff.1 hgood)

/-- The first bytes of the staging buffer. -/
def stagedBytes (s : State) (n : Nat) : List Byte := (List.range n).map fun i => mapGetD s.sec.staging i 0

/-- The bytes staged from the start, in minimal mode (R412). -/
theorem staged_minimal (dev : Bool) (n : Nat) (hmin : s.minimal = true) :
    (withDev s dev).staged 0 n = (some (stagedBytes s n), withDev s dev) := by
  unfold State.staged stagedBytes
  rw [if_pos (show (withDev s dev).minimal = true from hmin)]
  simp only [Nat.zero_add]
  rfl

/-- What the check of a component answers, by its outcomes. -/
theorem componentChecked_eq (dev : Bool) (l : List Byte) :
    let old := s.sec.floor
    let f := (max old.1 (fieldLe l 0x800 2), max old.2.1 (fieldLe l 0x802 2), max old.2.2 (fieldLe l 0x804 2))
    let refused := fun c => { s with sec := { s.sec with dev := dev, status := c } }
    let begun := fun op => { s with sec := { s.sec with dev := dev, busy := some op } }
    componentChecked dev (withDev s dev) (some l) = if componentGood l (fieldLe l 0xC 4) = false then refused 2
      else if fieldLe l 4 1 = 4 then (if s.sec.floorSafe f = true then begun (.floor_ f) else refused 7)
      else if fieldLe l 8 2 < floorOf old (fieldLe l 4 1) then refused 3
      else begun (.comp dev (fieldLe l 4 1) ⟨true, fieldLe l 8 2, fieldLe l 0xA 2, fieldLe l 0x10 32⟩) := by
  intro old f refused begun
  have hop : (withDev s dev).sec.componentOp dev l = if !componentGood l (fieldLe l 0xC 4) then .inl 2
      else if fieldLe l 4 1 = 4 then (if s.sec.floorSafe f then .inr (.floor_ f) else .inl 7)
      else if fieldLe l 8 2 < floorOf old (fieldLe l 4 1) then .inl 3
      else .inr (.comp dev (fieldLe l 4 1) ⟨true, fieldLe l 8 2, fieldLe l 0xA 2, fieldLe l 0x10 32⟩) := rfl
  unfold componentChecked
  dsimp only
  rw [hop]
  cases componentGood l (fieldLe l 0xC 4) with
  | false => rfl
  | true =>
    by_cases h4 : fieldLe l 4 1 = 4
    · cases hsafe : s.sec.floorSafe f <;> simp [h4] <;> rfl
    · by_cases hsvn : fieldLe l 8 2 < floorOf old (fieldLe l 4 1)
      · simp [h4, hsvn]
        rfl
      · simp [h4, hsvn]
        rfl

theorem updateDone_busy {op : FlashOp} {ok : Bool} (hb : s.sec.busy = some op) :
    updateDone ok s = { s with sec := { (if ok then s.sec.writeOp op else s.sec.cutUpdate) with busy := none, status := if ok then 0 else 6 } } := by
  unfold updateDone
  rw [hb]

/-- What the profiles staged lead to. -/
def profilesStaged (s : State) (l : Option (List Byte)) : State :=
  match l with
  | none => s.updStatus 2
  | some l =>
    if ((List.range 4).map fun i => profileOf (sliceBytes l (144 * i) 144) i).any Option.isNone then s.updStatus 1
    else { s with sec := { s.sec with
      busy := some (.profs (((List.range 4).map fun i => profileOf (sliceBytes l (144 * i) 144) i).filterMap id)) } }

theorem profiles_up (hup : s.barUp = true) : profiles s =
    if s.sec.busy.isSome then s.updStatus 4
    else if s.sec.lockProf then s.updStatus 5
    else profilesStaged (s.staged 0 576).2 (s.staged 0 576).1 :=
  (if_neg (by rw [hup]; exact nofun)).trans rfl

/-- Four good records are written. -/
theorem profilesStaged_good {l : List Byte} {ps : List Profile} (hlen : ps.length = 4)
    (hps : ∀ i, i < 4 → profileOf (sliceBytes l (144 * i) 144) i = ps[i]?) :
    profilesStaged s (some l) = { s with sec := { s.sec with busy := some (.profs ps) } } := by
  have hmap : ((List.range 4).map fun i => profileOf (sliceBytes l (144 * i) 144) i) = ps.map some := by
    refine List.ext_getElem (by simp [hlen]) fun i hi hj => ?_
    have hi4 : i < 4 := by simpa using hi
    rw [List.getElem_map, List.getElem_map, List.getElem_range, hps i hi4, List.getElem?_eq_getElem]
  unfold profilesStaged
  dsimp only
  rw [hmap, if_neg (by simp), List.filterMap_map, Function.id_comp, List.filterMap_some]

theorem staged_read {l : List Byte} {u : State} {n : Nat} (hmin : s.minimal = false) (hlo : inTiers s.sec.addr = true)
    {e : Nat} (he : s.sec.addr + n - 1 = e) (hhi : inTiers e = true) (hread : s.readMem s.sec.addr n = (l, [], u)) : s.staged 0 n = (some l, u) := by
  unfold State.staged
  rw [hmin, if_neg nofun, Nat.add_zero, hlo, he, hhi, if_neg nofun, hread]
  rfl

end

/-- Settles O56: by what stands against the command, and by what is staged. -/
theorem flashUpdates : Obligations.FlashUpdates := by
  unfold Obligations.FlashUpdates
  intro s at_ staged
  have hst : staged = stagedBytes s := rfl
  clear_value staged
  subst hst
  have hidle {α : Type} {o : Option α} (h : o = none) : ¬o.isSome = true := by rw [h]; exact nofun
  have hbusy {α : Type} {o : Option α} (h : o ≠ none) : o.isSome = true := Option.isSome_iff_ne_none.2 h
  have hglb (h : s.minimal = true) : s.glbUp = true := by
    unfold State.glbUp
    rw [h, Bool.or_true]
  refine ⟨?_, ?_, ?_, ?_, ?_, ?_, ?_, ?_, ?_, ?_⟩
  · intro dev hup hb
    exact congrArg Host.Outcome.next ((component_up hup).trans (if_pos (hbusy hb)))
  · intro dev hup hb hl
    exact congrArg Host.Outcome.next ((component_up hup).trans ((if_neg (hidle hb)).trans (if_pos hl)))
  · intro dev hmin hb hl hbad
    refine congrArg Host.Outcome.next ((component_up (hglb hmin)).trans
      ((if_neg (hidle hb)).trans ((if_neg (Bool.eq_false_iff.1 hl)).trans ?_)))
    rw [staged_minimal dev 0x800 hmin]
    exact componentStaged_bad hbad
  · intro dev hmin hb hl hgood l k svn old f begun
    refine congrArg Host.Outcome.next ((component_up (hglb hmin)).trans
      ((if_neg (hidle hb)).trans ((if_neg (Bool.eq_false_iff.1 hl)).trans ?_)))
    rw [staged_minimal dev 0x800 hmin]
    refine (componentStaged_good hgood).trans ?_
    rw [staged_minimal dev _ hmin]
    exact componentChecked_eq dev l
  · intro hup hb
    exact congrArg Host.Outcome.next ((profiles_up hup).trans (if_pos (hbusy hb)))
  · intro hup hb hl
    exact congrArg Host.Outcome.next ((profiles_up hup).trans ((if_neg (hidle hb)).trans (if_pos hl)))
  · intro l u ps hup hmin hb hl hlo hhi hread hlen hps
    have hexec : exec .profiles s = .next (profiles s) := rfl
    rw [hexec, profiles_up hup, if_neg (hidle hb), if_neg (Bool.eq_false_iff.1 hl), staged_read hmin hlo (by omega) hhi hread,
      profilesStaged_good hlen hps]
  · intro dev k c hk hb
    refine ⟨⟨_, congrArg Host.Outcome.next (updateDone_busy hb), rfl, rfl, ?_⟩, _, congrArg Host.Outcome.next (updateDone_busy hb), rfl, rfl, ?_⟩
    · cases dev <;> exact ⟨comp_setComp _ c hk, rfl⟩
    · intro c' hc'
      have hcut := cutUpdate_comp hb
      have hc : (if dev then s.sec.cutUpdate.recovery else s.sec.cutUpdate.primary).comp k = some c' := hc'
      rw [hcut] at hc
      cases dev <;> exact comp_spoil hk hc
  · intro hb b
    refine congrArg Host.Outcome.next ?_
    unfold updateDone
    rw [hb]
  · intro v
    refine ⟨fun hup hl => ?_, fun hl => ?_⟩
    · refine ⟨_, congrArg Host.Outcome.next (if_neg (?_ : ¬(!s.glbUp || s.sec.lockProf) = true)), ?_, ?_, rfl⟩
      · rw [hup, hl]
        exact nofun
      · refine (congrArg BootRec.next (boot_setBoot s.sec _)).trans ?_
        rw [bit_toNat]
      · exact (congrArg BootRec.fails (boot_setBoot s.sec _)).trans rfl
    · exact congrArg Host.Outcome.next (if_pos (show (!s.glbUp || s.sec.lockProf) = true by rw [hl, Bool.or_true]))

end Sys2Proof.Stated
end

section

/-! SUPPORT. Doorbells, the fetching of submissions, and the interrupts of a queue (R368, R371, R375, R378). -/

namespace Sys2Proof.Stated
open Sys2Proof.Machine

/-! ### What goes to the host leaves the queues as they are -/

theorem hostPut_queues (s : State) (a : Nat) (l : List Byte) : (s.hostPut a l).2.hst.queues = s.hst.queues := by
  unfold State.hostPut
  split
  · rfl
  · split
    · rfl
    · dsimp only
      split <;> rfl

theorem vector_queues (s : State) (v : Nat) : (s.vector v).hst.queues = s.hst.queues := by
  unfold State.vector
  split
  · rfl
  · split
    · split <;> rfl
    · rfl

theorem queue_of_queues {s t : State} (h : t.hst.queues = s.hst.queues) (q : Nat) : t.queue q = s.queue q := by
  unfold State.queue
  rw [h]

/-- A completion entry that is written takes the next place of its ring. -/
theorem cqWrite_queue (s : State) (q : Nat) (l : List Byte) : ((s.cqWrite q l).queue q).cqTail = ((s.queue q).cqTail + 1) % (s.queue q).depth ∧
    ((s.cqWrite q l).queue q).held = (s.queue q).held ∧ ((s.cqWrite q l).queue q).cqHead = (s.queue q).cqHead := by
  have hirq (u : State) : (u.queueIrq q).queue q = { u.queue q with irqN := 0, irqAt := none } :=
    (queue_of_queues (vector_queues _ _) q).trans (setQueue_queue u q _)
  unfold State.cqWrite
  dsimp only
  split
  · rw [hirq, setQueue_queue]
    exact ⟨rfl, rfl, rfl⟩
  · rw [setQueue_queue]
    exact ⟨rfl, rfl, rfl⟩

/-! ### Fetching (R368, R371) -/

section
variable {s : State} {q : Nat}

/-- The entry that a fetch takes in. -/
theorem takeEntry_queue (st : Nat) (e : Sqe) : ∃ o, (s.takeEntry q st e).queue q = { s.queue q with outst := o } :=
  ⟨_, setQueue_queue s q _⟩

theorem takeEntry_sch (st : Nat) (e : Sqe) : ∃ b : Machine.Sub, (s.takeEntry q st e).sch = { s.sch with subs := s.sch.subs ++ [b] } ∧
    b.q = q ∧ b.stamp = st ∧ b.e = e ∧ (b.dup = true ↔ e.cid.toNat ∈ (s.queue q).outst) :=
  ⟨_, rfl, rfl, rfl, rfl, List.contains_iff_mem⟩

/-- One entry is fetched: the head of the ring moves by one. -/
theorem fetchEntry_queue (st : Nat) : ∃ o, (s.fetchEntry q st).queue q =
    { s.queue q with sqHead := ((s.queue q).sqHead + 1) % (s.queue q).depth, outst := o } := by
  unfold State.fetchEntry
  dsimp only
  split
  · obtain ⟨o, ho⟩ := takeEntry_queue (s := s.setQueue q { s.queue q with sqHead := ((s.queue q).sqHead + 1) % (s.queue q).depth }) (q := q) st (sqeOf _)
    rw [setQueue_queue] at ho
    exact ⟨o, ho⟩
  · obtain ⟨o, ho⟩ := takeEntry_queue (s := s.setQueue q { s.queue q with sqHead := ((s.queue q).sqHead + 1) % (s.queue q).depth }) (q := q) st (sqeOf _)
    rw [setQueue_queue] at ho
    exact ⟨o, ho⟩

theorem fetchEntry_subs (st : Nat) : (s.fetchEntry q st).sch.subs.length = s.sch.subs.length + 1 := by
  unfold State.fetchEntry
  dsimp only
  split <;> exact List.length_append

theorem fetchEntry_good {st : Nat} {bs : List Byte} (h : s.hostRead ((s.queue q).sqBase + 64 * (s.queue q).sqHead) 64 = some bs) :
    s.fetchEntry q st = (s.setQueue q { s.queue q with sqHead := ((s.queue q).sqHead + 1) % (s.queue q).depth }).takeEntry q st (sqeOf bs) := by
  unfold State.fetchEntry
  dsimp only
  have hread : (s.setQueue q { s.queue q with sqHead := ((s.queue q).sqHead + 1) % (s.queue q).depth }).hostRead
      ((s.queue q).sqBase + 64 * (s.queue q).sqHead) 64 = some bs := h
  rw [hread]

/-- A queue that fetches: on, not draining, and holding nothing. -/
def fetches (x : Queue) : Prop := x.en = true ∧ x.draining = false ∧ x.held = []

theorem fetches_open {x : Queue} (h : fetches x) : ¬(!x.en || x.draining || !x.held.isEmpty) = true := by
  obtain ⟨hen, hd, hh⟩ := h
  rw [hen, hd, hh]
  exact nofun

/-- With no doorbell left nothing is fetched. -/
theorem fetch_nil (n : Nat) (ht : (s.queue q).tails = []) : State.fetch q n s = s := by
  cases n with
  | zero => rfl
  | succ n =>
    unfold State.fetch
    dsimp only
    split
    · rfl
    · rw [ht]

theorem fetch_step {n v st : Nat} {rest : List (Nat × Nat)} (hf : fetches (s.queue q)) (ht : (s.queue q).tails = (v, st) :: rest) :
    State.fetch q (n + 1) s = if (s.queue q).sqHead = v then State.fetch q n (s.setQueue q { s.queue q with tails := rest })
      else State.fetch q n (s.fetchEntry q st) := by
  rw [State.fetch]
  dsimp only
  rw [if_neg (fetches_open hf), ht]

/-- The entries of a ring of `d` places that lie between two of its indices. -/
theorem ring_succ {d h v : Nat} (hh : h < d) (hv : v < d) (hne : h ≠ v) :
    (v + d - h) % d = (v + d - (h + 1) % d) % d + 1 := by
  by_cases hlast : h + 1 = d
  · rw [hlast, Nat.mod_self, Nat.sub_zero, Nat.add_mod_right, Nat.mod_eq_of_lt hv]
    have : v + d - h = v + 1 := by omega
    rw [this, Nat.mod_eq_of_lt (by omega)]
  · rw [Nat.mod_eq_of_lt (by omega : h + 1 < d)]
    by_cases hlt : h < v
    · have h1 : v + d - h = (v - h) + d := by omega
      have h2 : v + d - (h + 1) = (v - (h + 1)) + d := by omega
      rw [h1, h2, Nat.add_mod_right, Nat.add_mod_right, Nat.mod_eq_of_lt (by omega), Nat.mod_eq_of_lt (by omega)]
      omega
    · rw [Nat.mod_eq_of_lt (by omega), Nat.mod_eq_of_lt (by omega)]
      omega

/-- Every entry up to the index of a doorbell is fetched, in `m` steps. -/
theorem fetch_all (m : Nat) : ∀ (s : State) (n v st : Nat), fetches (s.queue q) → (s.queue q).tails = [(v, st)] →
    (s.queue q).sqHead < (s.queue q).depth → v < (s.queue q).depth →
    (v + (s.queue q).depth - (s.queue q).sqHead) % (s.queue q).depth = m → m < n →
    ((State.fetch q n s).queue q).sqHead = v ∧ ((State.fetch q n s).queue q).sqTail = (s.queue q).sqTail ∧
      ((State.fetch q n s).queue q).tails = [] ∧ (State.fetch q n s).sch.subs.length = s.sch.subs.length + m := by
  induction m with
  | zero =>
    intro s n v st hf ht hh hv hm hn
    obtain ⟨n, rfl⟩ : ∃ j, n = j + 1 := ⟨n - 1, by omega⟩
    have heq : (s.queue q).sqHead = v := by
      by_contra hne
      rw [ring_succ hh hv hne] at hm
      omega
    rw [fetch_step hf ht, if_pos heq, fetch_nil n (by rw [setQueue_queue]), setQueue_queue]
    exact ⟨heq, rfl, rfl, rfl⟩
  | succ m ih =>
    intro s n v st hf ht hh hv hm hn
    obtain ⟨n, rfl⟩ : ∃ j, n = j + 1 := ⟨n - 1, by omega⟩
    have hne : ¬(s.queue q).sqHead = v := by
      intro h
      rw [h, Nat.add_sub_cancel_left, Nat.mod_self] at hm
      omega
    obtain ⟨o, ho⟩ := fetchEntry_queue (s := s) (q := q) st
    rw [fetch_step hf ht, if_neg hne]
    have hnext := ring_succ hh hv hne
    have hdepth : ((s.fetchEntry q st).queue q).depth = (s.queue q).depth := by rw [ho]; rfl
    have hpos : 0 < (s.queue q).depth := by omega
    obtain ⟨h1, h2, h3, h4⟩ := ih (s.fetchEntry q st) n v st (by rw [ho]; exact hf) (by rw [ho]; exact ht)
      (by rw [hdepth, ho]; exact Nat.mod_lt _ hpos) (by rw [hdepth]; exact hv) (by rw [hdepth, ho]; dsimp only; omega) (by omega)
    refine ⟨h1, h2.trans (by rw [ho]), h3, ?_⟩
    rw [h4, fetchEntry_subs]
    omega

/-- One entry is fetched where the doorbell's index is the next. -/
theorem fetch_one {n v st : Nat} {bs : List Byte} (hf : fetches (s.queue q)) (ht : (s.queue q).tails = [(v, st)]) (hne : ¬(s.queue q).sqHead = v)
    (hv : ((s.queue q).sqHead + 1) % (s.queue q).depth = v) (hread : s.hostRead ((s.queue q).sqBase + 64 * (s.queue q).sqHead) 64 = some bs) :
    ∃ b : Machine.Sub, (State.fetch q (n + 2) s).sch = { s.sch with subs := s.sch.subs ++ [b] } ∧
      b.q = q ∧ b.stamp = st ∧ b.e = sqeOf bs ∧ (b.dup = true ↔ (sqeOf bs).cid.toNat ∈ (s.queue q).outst) := by
  obtain ⟨o, ho⟩ := fetchEntry_queue (s := s) (q := q) st
  have hstep := fetch_step (s := s.fetchEntry q st) (q := q) (n := n) (by rw [ho]; exact hf) (by rw [ho]; exact ht)
  rw [if_pos (by rw [ho]; exact hv), fetch_nil n (by rw [setQueue_queue])] at hstep
  obtain ⟨b, hsch, hbq, hst, he, hdup⟩ := takeEntry_sch
    (s := s.setQueue q { s.queue q with sqHead := ((s.queue q).sqHead + 1) % (s.queue q).depth }) (q := q) st (sqeOf bs)
  rw [setQueue_queue] at hdup
  refine ⟨b, ?_, hbq, hst, he, hdup⟩
  rw [fetch_step hf ht, if_neg hne, hstep, fetchEntry_good hread]
  exact hsch

end

/-! ### Doorbells (R375) -/

section
variable {s : State} {q v : Nat}

theorem sqTail_rung (hen : (s.queue q).en = true) (hv : v < (s.queue q).depth) (hd : (s.queue q).draining = false) :
    sqTail q 4 v s = State.fetch q { s.queue q with sqTail := v, tails := (s.queue q).tails ++ [(v, s.stamp)] }.work
      (s.setQueue q { s.queue q with sqTail := v, tails := (s.queue q).tails ++ [(v, s.stamp)] }).drew := by
  have hrow : (s.queue q).doorbellRow false 4 v = 1 := by
    unfold Queue.doorbellRow
    rw [hen, if_neg (Nat.not_le.2 hv)]
    rfl
  simp only [sqTail, hrow, hd, Bool.false_eq_true, if_false]

theorem cqHead_rung (hen : (s.queue q).en = true) (hv : v < (s.queue q).depth)
    (hused : (v + (s.queue q).depth - (s.queue q).cqHead) % (s.queue q).depth ≤ (s.queue q).cqUsed) :
    cqHead q 4 v s = State.fetch q (s.queue q).work
      (State.drainHeld q (s.queue q).held.length (s.setQueue q { s.queue q with cqHead := v })) := by
  have hrow : (s.queue q).doorbellRow true 4 v = 1 := by
    unfold Queue.doorbellRow
    rw [hen, if_neg (Nat.not_le.2 hv), decide_eq_false (Nat.not_lt.2 hused)]
    rfl
  simp only [cqHead, hrow]

/-- With no doorbell left, room that is freed is for the entries held alone. -/
theorem cqHead_drains (hen : (s.queue q).en = true) (hv : v < (s.queue q).depth)
    (hused : (v + (s.queue q).depth - (s.queue q).cqHead) % (s.queue q).depth ≤ (s.queue q).cqUsed) (ht : (s.queue q).tails = []) :
    cqHead q 4 v s = State.drainHeld q (s.queue q).held.length (s.setQueue q { s.queue q with cqHead := v }) := by
  have hwork : (s.queue q).work = 0 := by
    unfold Queue.work
    rw [ht]
    exact Nat.zero_mul _
  rw [cqHead_rung hen hv hused, hwork]
  rfl

/-- One entry that is held is written where there is room. -/
theorem drainHeld_one {l : List Byte} (hh : (s.queue q).held = [l]) (hroom : (s.queue q).cqFull = false) :
    State.drainHeld q 1 s = (s.setQueue q { s.queue q with held := [] }).cqWrite q l := by
  unfold State.drainHeld
  dsimp only
  rw [hh]
  exact if_neg (Bool.eq_false_iff.1 hroom)

/-- The rows of Table 16.7 that refuse a doorbell whatever its ring. -/
theorem doorbellRow_refused {x : Queue} {bytes : Nat} (h : x.en = false ∨ bytes ≠ 4 ∨ x.depth ≤ v) :
    ∃ row, row ∈ [2, 3, 5] ∧ ∀ cq, x.doorbellRow cq bytes v = row := by
  unfold Queue.doorbellRow
  cases hen : x.en with
  | false => exact ⟨2, by decide, fun _ => rfl⟩
  | true =>
    by_cases hb : bytes = 4
    · subst hb
      have hle : x.depth ≤ v := by
        rw [hen] at h
        simpa using h
      exact ⟨3, by decide, fun _ => by rw [if_pos hle]; rfl⟩
    · exact ⟨5, by decide, fun _ => by rw [if_neg nofun, if_pos (bne_iff_ne.2 hb)]⟩

theorem sqTail_refused {bytes row : Nat} (hrow : (s.queue q).doorbellRow false bytes v = row) (hm : row ∈ [2, 3, 5]) :
    sqTail q bytes v s = s.badDoorbell q row := by
  unfold sqTail
  dsimp only
  rw [hrow]
  simp only [List.mem_cons, List.not_mem_nil, or_false] at hm
  obtain rfl | rfl | rfl := hm <;> rfl

theorem cqHead_refused {bytes row : Nat} (hrow : (s.queue q).doorbellRow true bytes v = row) (hm : row ∈ [2, 3, 5]) :
    cqHead q bytes v s = s.badDoorbell q row := by
  unfold cqHead
  dsimp only
  rw [hrow]
  simp only [List.mem_cons, List.not_mem_nil, or_false] at hm
  obtain rfl | rfl | rfl := hm <;> rfl

/-- A doorbell that is refused is logged and counted. -/
theorem badDoorbell_counted (row : Nat) : ∃ pv ws,
    (s.badDoorbell q row) = { s.log ⟨.v, uHost, evPartner 2 row, q, 0xFFFF, 0⟩ with
      hst := { s.hst with pendingVec := pv, waits := ws, doorbell := min (s.hst.doorbell + 1) 4294967295 } } := by
  have h := State.log_frame s ⟨.v, uHost, evPartner 2 row, q, 0xFFFF, 0⟩
  unfold logOnly at h
  have hh := congrArg State.hst h
  exact ⟨_, _, congrArg (fun x : Hst => { s.log ⟨.v, uHost, evPartner 2 row, q, 0xFFFF, 0⟩ with
    hst := { x with doorbell := satAdd 32 x.doorbell 1 } }) hh⟩

end

/-! ### Interrupts (R378) -/

section
variable {s : State} {q : Nat}

theorem vector_unmasked {v : Nat} (hm : s.hst.masked.contains v = false) (hl : s.hst.linkUp = true) (hb : s.hst.master = true) :
    s.vector v = if s.hostWaits then s.wait (.msix v) else s.emit (.msix v) := by
  unfold State.vector
  rw [hm, hl, hb]
  rfl

theorem irqDue_iff {since : Nat} (hat : (s.queue q).irqAt = some since) :
    s.irqDue q = (decide (0 < (s.queue q).irqN) && decide (since + 1000 * (s.queue q).ctime ≤ s.now)) := by
  unfold State.irqDue
  dsimp only
  rw [hat]

end

/-- Settles O43: a doorbell by its row of Table 16.7, the fetching by the entries between the indices. -/
theorem doorbells : Obligations.Doorbells := by
  unfold Obligations.Doorbells
  intro s q v x set
  have htail (bytes : Nat) : exec (.sqTailDoorbell q bytes v) s = .next (sqTail q.val bytes v.toNat s) := rfl
  have hhead (bytes : Nat) : exec (.cqHeadDoorbell q bytes v) s = .next (cqHead q.val bytes v.toNat s) := rfl
  refine ⟨?_, ?_, ?_, ?_, ?_, ?_, ?_⟩
  · intro bytes hbad
    obtain ⟨row, hm, hrow⟩ := doorbellRow_refused hbad
    refine ⟨row, hm, fun c hc => ?_⟩
    obtain ⟨pv, ws, hbd⟩ := badDoorbell_counted (s := s) (q := q.val) row
    simp only [List.mem_cons, List.not_mem_nil, or_false] at hc
    obtain rfl | rfl := hc
    · refine ⟨_, congrArg Host.Outcome.next ((sqTail_refused (hrow false) hm).trans hbd), rfl, rfl⟩
    · refine ⟨_, congrArg Host.Outcome.next ((cqHead_refused (hrow true) hm).trans hbd), rfl, rfl⟩
  · intro hen hv hd ht hh hlt
    refine ⟨_, congrArg Host.Outcome.next (sqTail_rung hen hv hd), ?_⟩
    have hmod : (v.toNat + x.depth - x.sqHead) % x.depth < x.depth := Nat.mod_lt _ (by omega)
    have hq : ((s.setQueue q.val { x with sqTail := v.toNat, tails := x.tails ++ [(v.toNat, s.stamp)] }).drew).queue q.val =
        { x with sqTail := v.toNat, tails := [(v.toNat, s.stamp)] } := by
      rw [ht]
      exact setQueue_queue s q.val _
    have hwork : ({ x with sqTail := v.toNat, tails := x.tails ++ [(v.toNat, s.stamp)] } : Queue).work = x.depth + 1 := by
      rw [ht]
      exact Nat.one_mul _
    obtain ⟨h1, h2, h3, h4⟩ := fetch_all (q := q.val) ((v.toNat + x.depth - x.sqHead) % x.depth) _ (x.depth + 1) v.toNat s.stamp
      (by rw [hq]; exact ⟨hen, hd, hh⟩) (by rw [hq]) (by rw [hq]; exact hlt) (by rw [hq]; exact hv) (by rw [hq]; rfl) (by omega)
    rw [hwork]
    rw [hq] at h2
    exact ⟨h1, h2, h3, h4⟩
  · intro bs hen hd ht hh hlt hone hv hread
    have hvd : v.toNat < x.depth := by
      rw [hv]
      exact Nat.mod_lt _ (by omega)
    have hne : ¬x.sqHead = v.toNat := by
      rw [hv]
      by_cases hlast : x.sqHead + 1 = x.depth
      · rw [hlast, Nat.mod_self]
        omega
      · rw [Nat.mod_eq_of_lt (by omega)]
        omega
    have hq : ((s.setQueue q.val { x with sqTail := v.toNat, tails := x.tails ++ [(v.toNat, s.stamp)] }).drew).queue q.val =
        { x with sqTail := v.toNat, tails := [(v.toNat, s.stamp)] } := by
      rw [ht]
      exact setQueue_queue s q.val _
    have hwork : ({ x with sqTail := v.toNat, tails := x.tails ++ [(v.toNat, s.stamp)] } : Queue).work = x.depth + 1 := by
      rw [ht]
      exact Nat.one_mul _
    have hrung := sqTail_rung hen hvd hd
    rw [hwork] at hrung
    obtain ⟨n, hn⟩ : ∃ n, x.depth + 1 = n + 2 := ⟨x.depth - 1, by omega⟩
    rw [hn] at hrung
    obtain ⟨b, hb⟩ := fetch_one (s := (s.setQueue q.val { x with sqTail := v.toNat, tails := x.tails ++ [(v.toNat, s.stamp)] }).drew)
      (q := q.val) (n := n) (v := v.toNat) (st := s.stamp) (bs := bs) (by rw [hq]; exact ⟨hen, hd, hh⟩) (by rw [hq]) (by rw [hq]; exact hne)
      (by rw [hq]; exact hv.symm) (by rw [hq]; exact hread)
    rw [hq] at hb
    exact ⟨_, b, congrArg Host.Outcome.next hrung, hb⟩
  · intro hen hv hused hh ht
    have hdrain := cqHead_drains hen hv hused ht
    rw [show (s.queue q.val).held.length = 0 from congrArg List.length hh] at hdrain
    exact congrArg Host.Outcome.next hdrain
  · intro l hen hv hused hh ht hroom
    have hdrain := cqHead_drains hen hv hused ht
    rw [show (s.queue q.val).held.length = 1 from congrArg List.length hh, drainHeld_one (l := l) (by rw [setQueue_queue]; exact hh)
      (by rw [setQueue_queue]; exact decide_eq_false (Nat.not_le.2 hroom)), setQueue_queue, setQueue_setQueue] at hdrain
    obtain ⟨htl, hheld, hhd⟩ := cqWrite_queue (s.setQueue q.val { x with cqHead := v.toNat, held := [] }) q.val l
    rw [setQueue_queue] at htl hheld hhd
    exact ⟨_, congrArg Host.Outcome.next hdrain, hheld, hhd, htl⟩
  · intro since hn hat hdue hm hl hb
    have hirq : exec (.interruptTimeout q) s = .next (s.queueIrq q.val) := by
      refine congrArg Host.Outcome.next (if_pos ?_)
      rw [irqDue_iff hat, decide_eq_true hn, decide_eq_true hdue]
      rfl
    have hvec := vector_unmasked (s := s.setQueue q.val { x with irqN := 0, irqAt := none }) hm hl hb
    constructor
    · intro hw
      have hw' : (s.setQueue q.val { x with irqN := 0, irqAt := none }).hostWaits = false := hw
      rw [hw'] at hvec
      exact hirq.trans (congrArg Host.Outcome.next hvec)
    · intro hw
      have hw' : (s.setQueue q.val { x with irqN := 0, irqAt := none }).hostWaits = true := hw
      rw [hw'] at hvec
      exact hirq.trans (congrArg Host.Outcome.next hvec)
  · intro hn
    refine congrArg Host.Outcome.next (if_neg ?_)
    unfold State.irqDue
    dsimp only
    rw [show (s.queue q.val).irqN = 0 from hn]
    exact nofun

end Sys2Proof.Stated
end

section

/-! SUPPORT. Device memory as bytes, blocks without errors, and the bulk data port (R243, R244, R376, R377, R412). -/

namespace Sys2Proof.Stated
open Sys2Proof.Machine

/-! ### Bytes written -/

/-- A byte of a sparse memory after consecutive bytes are written. -/
theorem memRead_memWrites {m : List Host.Cell} (hm : memWf m = true) (a : Nat) (l : List Byte) (x : Nat) :
    memRead (memWrites m a l) x = if a ≤ x ∧ x < a + l.length then l.getD (x - a) 0 else memRead m x := by
  have key : ∀ (l : List Byte) (i : Nat) (m : List Host.Cell), memWf m = true →
      memRead (((l.zipIdx i).map fun (b, i) => (a + i, b)).foldl (fun m c => memWrite m c.1 c.2) m) x =
        if a + i ≤ x ∧ x < a + i + l.length then l.getD (x - (a + i)) 0 else memRead m x := by
    intro l
    induction l with
    | nil =>
      intro i m _
      rw [if_neg (by rw [List.length_nil]; omega)]
      rfl
    | cons b l ih =>
      intro i m hm
      rw [List.zipIdx_cons, List.map_cons, List.foldl_cons, ih (i + 1) _ (memWf_memWrite m _ _ hm), List.length_cons]
      by_cases hx : x = a + i
      · rw [if_neg (by omega), if_pos (by omega), hx, Nat.sub_self]
        exact memRead_memWrite_self m 0 (a + i) b hm
      · rw [memRead_memWrite_ne m (a + i) x b hx]
        by_cases hin : a + (i + 1) ≤ x ∧ x < a + (i + 1) + l.length
        · obtain ⟨j, hj⟩ : ∃ j, x - (a + i) = j + 1 := ⟨x - (a + i) - 1, by omega⟩
          have hj' : x - (a + (i + 1)) = j := by omega
          rw [if_pos hin, if_pos (by omega), hj, hj']
          rfl
        · rw [if_neg hin, if_neg (by omega)]
  exact key l 0 m hm

/-! ### Blocks without an error (R243) -/

section
variable {s : State} {b : Nat}

theorem sound_iff {p : Pgm} : p.sound b = true ↔ p.poisoned.contains b = false ∧ p.broken.contains b = false ∧
    p.weak.contains b = false ∧ p.onDie.contains b = false ∧ p.linkBad.contains b = false := by
  unfold Pgm.sound
  rw [Bool.not_eq_true', Bool.or_eq_false_iff, Bool.or_eq_false_iff, Bool.or_eq_false_iff, Bool.or_eq_false_iff]
  tauto

/-- Reading a block without an error changes nothing. -/
theorem touchBlock_sound (h : s.pgm.sound b = true) : s.touchBlock b = (false, s) := by
  obtain ⟨hpois, hbrok, hweak, hdie, hlink⟩ := sound_iff.1 h
  have hdev : s.deviceEcc b = s := by
    unfold State.deviceEcc
    extract_lets a
    rw [hlink, hdie, Bool.and_false, Bool.and_false]
    rfl
  unfold State.touchBlock State.checkBlock
  rw [hdev, hpois, hbrok, hweak]
  rfl

theorem foldl_touch_sound {bs bad : List Nat} (h : ∀ b ∈ bs, s.pgm.sound b = true) :
    bs.foldl (fun (acc : List Nat × State) b => (if (acc.2.touchBlock b).1 then acc.1 ++ [b] else acc.1, (acc.2.touchBlock b).2)) (bad, s) =
      (bad, s) := by
  induction bs with
  | nil => rfl
  | cons b bs ih =>
    rw [List.foldl_cons, touchBlock_sound (h b List.mem_cons_self)]
    exact ih fun x hx => h x (List.mem_cons_of_mem b hx)

/-- Reading bytes that lie in blocks without an error. -/
theorem readMem_sound {a n : Nat} (h : ∀ b ∈ blocksOf a n, s.pgm.sound b = true) : s.readMem a n = (s.pgm.bytes a n, [], s) := by
  have hfold := foldl_touch_sound (bad := []) h
  unfold State.readMem
  exact congrArg (fun r : List Nat × State => (r.2.pgm.bytes a n, r.1, r.2)) hfold

theorem readPft_sound {fs : List Nat} (h : ∀ a ∈ fs, s.pgm.sound (pftBlock a) = true) : s.readPft fs = s := by
  unfold State.readPft
  induction fs with
  | nil => rfl
  | cons a fs ih =>
    rw [List.foldl_cons, touchBlock_sound (h a List.mem_cons_self)]
    exact ih fun x hx => h x (List.mem_cons_of_mem a hx)

/-- A command whose frames' entries are good runs. -/
theorem withPft_sound {fs : List Nat} {f : State → State} (h : ∀ a ∈ fs, s.pgm.sound (pftBlock a) = true) : s.withPft fs f = f s := by
  unfold State.withPft
  rw [readPft_sound h]
  exact if_neg (by rw [Bool.and_not_self]; exact nofun)

end

/-! ### The bulk data port -/

theorem pieces_one {a : Nat} {l : List Byte} (hne : l ≠ []) (h : a % 4096 + l.length ≤ 4096) :
    ((pieces a l).filter fun x => !x.2.isEmpty) = [(a, l)] := by
  have htake : l.take (4096 - a % 4096) = l := List.take_of_length_le (by omega)
  have hdrop : l.drop (4096 - a % 4096) = [] := List.drop_of_length_le (by omega)
  unfold pieces
  dsimp only
  rw [htake, hdrop]
  simp [chunksOf, chunksFuel, hne]

theorem bdpMove_inside {s : State} {o n : Nat} (h : o + n < 2 ^ 24) : s.bdpMove o n = s :=
  if_pos (Bool.or_eq_true_iff.2 (.inr (decide_eq_true h)))

section
variable {s : State} {o : Nat} {l : List Byte} (hup : s.barUp = true) (hmin : s.minimal = false) (hne : l ≠ [])
  (hone : (s.hst.bdpAddr + o) % 4096 + l.length ≤ 4096) (hin : o + l.length < 2 ^ 24)
include hup hmin hne hone hin

/-- A write of bytes of one 4 KiB block. -/
theorem bdpWrite_one : bdpWrite o l s = match s.pgm.bdpRefuses (s.hst.bdpAddr + o) with
    | none => { s with pgm := s.pgm.write (s.hst.bdpAddr + o) l }
    | some e => s.bdpRefused e (s.hst.bdpAddr + o) true := by
  have htake : l.take (bdpWindow - o) = l := List.take_of_length_le (by unfold bdpWindow; omega)
  unfold bdpWrite
  rw [htake]
  dsimp only
  rw [hmin, hup, pieces_one hne hone, bdpMove_inside hin]
  cases hr : s.pgm.bdpRefuses (s.hst.bdpAddr + o) with
  | none => simp [hr]
  | some e => simp [hr]

end

/-- A refusal leaves memory as it is, and is counted. -/
theorem bdpRefused_write (s : State) (e a : Nat) : (s.bdpRefused e a true).pgm.mem = s.pgm.mem ∧ (s.bdpRefused e a true).hst.bdpErr = true ∧
    (s.bdpRefused e a true).hst.bdpCount = min (s.hst.bdpCount + 1) 32767 ∧
    (s.hst.bdpErr = false → (s.bdpRefused e a true).hst.bdpFirst = a % 2 ^ 48) := by
  have h := State.log_frame s ⟨.v, uHost, e, 0xFFFF, 0xFFFF, a⟩
  unfold logOnly at h
  unfold State.bdpRefused
  rw [h]
  refine ⟨?_, Bool.or_true _, rfl, fun he => ?_⟩
  · dsimp only
    split <;> rfl
  · dsimp only
    rw [he]
    rfl

/-- Bytes of the staging buffer after consecutive ones are written (R412). -/
theorem mapGetD_staged (m : Map Byte) (a : Nat) (l : List Byte) (x : Nat) :
    mapGetD (l.zipIdx.foldl (fun m (b, i) => mapSet m (a + i) b) m) x 0 =
      if a ≤ x ∧ x < a + l.length then l.getD (x - a) 0 else mapGetD m x 0 := by
  have key : ∀ (l : List Byte) (i : Nat) (m : Map Byte),
      mapGetD ((l.zipIdx i).foldl (fun m (b, i) => mapSet m (a + i) b) m) x 0 =
        if a + i ≤ x ∧ x < a + i + l.length then l.getD (x - (a + i)) 0 else mapGetD m x 0 := by
    intro l
    induction l with
    | nil =>
      intro i m
      rw [if_neg (by rw [List.length_nil]; omega)]
      rfl
    | cons b l ih =>
      intro i m
      rw [List.zipIdx_cons, List.foldl_cons, ih (i + 1), List.length_cons]
      by_cases hx : x = a + i
      · rw [if_neg (by omega), if_pos (by omega), hx, Nat.sub_self]
        unfold mapGetD
        rw [mapGet_mapSet_self]
        rfl
      · have hkeep : mapGetD (mapSet m (a + i) b) x 0 = mapGetD m x 0 := by
          unfold mapGetD
          rw [mapGet_mapSet_ne m (a + i) x b hx]
        by_cases hin : a + (i + 1) ≤ x ∧ x < a + (i + 1) + l.length
        · obtain ⟨j, hj⟩ : ∃ j, x - (a + i) = j + 1 := ⟨x - (a + i) - 1, by omega⟩
          have hj' : x - (a + (i + 1)) = j := by omega
          rw [if_pos hin, if_pos (by omega), hj, hj']
          rfl
        · rw [if_neg hin, if_neg (by omega)]
          exact hkeep
  exact key l 0 m

/-- A read of bytes that lie in the tiers, in blocks without an error. -/
theorem bdpRead_sound {s : State} {o n : Nat} (hup : s.barUp = true) (hmin : s.minimal = false) (hin : o + n < 2 ^ 24)
    (htier : ∀ i, i < n → inTiers (s.hst.bdpAddr + o + i) = true) (hgood : ∀ b ∈ blocksOf (s.hst.bdpAddr + o) n, s.pgm.sound b = true) :
    bdpRead o n s = s.emit (.read (s.pgm.bytes (s.hst.bdpAddr + o) n) false) := by
  have hn : min n (bdpWindow - o) = n := Nat.min_eq_left (by unfold bdpWindow; omega)
  have hfind : ((List.range n).find? fun i => !inTiers (s.hst.bdpAddr + o + i)) = none := by
    rw [List.find?_eq_none]
    intro i hi
    rw [htier i (List.mem_range.1 hi)]
    exact nofun
  unfold bdpRead
  dsimp only
  rw [hn, hmin, hup, hfind, if_neg nofun, if_neg nofun]
  dsimp only
  rw [readMem_sound hgood]
  exact bdpMove_inside hin

/-- Settles O44: by the block that a write lies in, and by the blocks that a read meets. -/
theorem bulkDataPort : Obligations.BulkDataPort := by
  unfold Obligations.BulkDataPort
  intro s
  refine ⟨?_, ?_, ?_, ?_, ?_⟩
  · intro v hup
    exact congrArg Host.Outcome.next (if_pos hup)
  · intro o l hup hmin hne hone hin hwf hfree
    have hw := bdpWrite_one hup hmin hne hone hin
    rw [hfree] at hw
    refine ⟨_, congrArg Host.Outcome.next hw, ?_, fun a => ?_⟩
    · dsimp only
      unfold Pgm.write
      rw [if_neg (by simpa using hne)]
    · dsimp only
      rw [← memRead_memWrites hwf]
      unfold Pgm.write
      rw [if_neg (by simpa using hne)]
  · intro o l ev hup hmin hne hone hin hrefuse
    have hw := bdpWrite_one hup hmin hne hone hin
    rw [hrefuse] at hw
    exact ⟨_, congrArg Host.Outcome.next hw, bdpRefused_write s ev _⟩
  · intro o n hup hmin hin htier hgood
    exact congrArg Host.Outcome.next (bdpRead_sound hup hmin hin htier hgood)
  · intro o l hmin hin
    have htake : l.take (bdpWindow - o.toNat) = l := List.take_of_length_le (by unfold bdpWindow; omega)
    have hw : bdpWrite o.toNat l s = { s with sec := { s.sec with
        staging := l.zipIdx.foldl (fun m (b, i) => mapSet m (o.toNat + i) b) s.sec.staging } } := by
      unfold bdpWrite
      rw [htake]
      exact if_pos hmin
    exact ⟨_, congrArg Host.Outcome.next hw, rfl, fun i => mapGetD_staged s.sec.staging o.toNat l i⟩

end Sys2Proof.Stated
end

section

/-! SUPPORT. Tables with entries taken out, and the commands of the prefix index (R271, R274, R275). -/

namespace Sys2Proof.Stated
open Sys2Proof.Machine

/-! ### Tables -/

section
variable {α : Type}

theorem mapGet_mem {m : Map α} {k : Nat} {v : α} (h : mapGet m k = some v) : (k, v) ∈ m := by
  induction m with
  | nil => exact absurd h nofun
  | cons e m ih =>
    obtain ⟨j, w⟩ := e
    unfold mapGet at h
    by_cases hj : j = k
    · rw [if_pos hj] at h
      cases h
      exact hj ▸ List.mem_cons_self
    · rw [if_neg hj] at h
      exact List.mem_cons_of_mem _ (ih h)

theorem mapAbove_mem {m : Map α} {lo j : Nat} {w : α} (h : mapAbove lo m = true) (hm : (j, w) ∈ m) : lo ≤ j := by
  induction m generalizing lo with
  | nil => exact absurd hm List.not_mem_nil
  | cons e m ih =>
    obtain ⟨i, x⟩ := e
    unfold mapAbove at h
    rw [Bool.and_eq_true, decide_eq_true_eq] at h
    obtain heq | htail := List.mem_cons.1 hm
    · cases heq
      exact h.1
    · exact (h.1.trans (Nat.le_succ i)).trans (ih h.2 htail)

theorem mem_mapGet_above {m : Map α} {lo k : Nat} {v : α} (hwf : mapAbove lo m = true) (h : (k, v) ∈ m) : mapGet m k = some v := by
  induction m generalizing lo with
  | nil => exact absurd h List.not_mem_nil
  | cons e m ih =>
    obtain ⟨j, w⟩ := e
    unfold mapAbove at hwf
    rw [Bool.and_eq_true] at hwf
    unfold mapGet
    obtain heq | htail := List.mem_cons.1 h
    · cases heq
      exact if_pos rfl
    · have hlt := mapAbove_mem hwf.2 htail
      rw [if_neg (by omega)]
      exact ih hwf.2 htail

/-- In a table of rising keys the entries are those it lists. -/
theorem mapGet_iff_mem {m : Map α} {k : Nat} {v : α} (hwf : mapWf m = true) : mapGet m k = some v ↔ (k, v) ∈ m :=
  ⟨mapGet_mem, mem_mapGet_above (by rwa [mapWf_eq_above] at hwf)⟩

theorem mapGet_mapDel_ne {m : Map α} {j k : Nat} (h : j ≠ k) : mapGet (mapDel m k) j = mapGet m j := by
  induction m with
  | nil => rfl
  | cons e m ih =>
    obtain ⟨i, w⟩ := e
    unfold mapDel
    by_cases hi : i = k
    · rw [if_pos hi, mapGet, if_neg (by omega)]
    · rw [if_neg hi]
      unfold mapGet
      rw [ih]

theorem mapGet_mapDel_self {m : Map α} {k : Nat} (hwf : mapWf m = true) : mapGet (mapDel m k) k = none := by
  have key : ∀ (m : Map α) (lo : Nat), mapAbove lo m = true → mapGet (mapDel m k) k = none := by
    intro m
    induction m with
    | nil => exact fun _ _ => rfl
    | cons e m ih =>
      intro lo hwf
      obtain ⟨i, w⟩ := e
      unfold mapAbove at hwf
      rw [Bool.and_eq_true] at hwf
      unfold mapDel
      by_cases hi : i = k
      · rw [if_pos hi]
        cases hg : mapGet m k with
        | none => rfl
        | some v => exact absurd (mapAbove_mem hwf.2 (mapGet_mem hg)) (by omega)
      · rw [if_neg hi, mapGet, if_neg hi]
        exact ih _ hwf.2
  rw [mapWf_eq_above] at hwf
  exact key m 0 hwf

theorem mapGet_mapDel {m : Map α} {k j : Nat} (hwf : mapWf m = true) : mapGet (mapDel m k) j = if j = k then none else mapGet m j := by
  by_cases h : j = k
  · rw [if_pos h, h, mapGet_mapDel_self hwf]
  · rw [if_neg h, mapGet_mapDel_ne h]

/-- A table from which several entries are taken. -/
theorem mapGet_foldl_mapDel (ks : List Nat) {m : Map α} {j : Nat} (hwf : mapWf m = true) :
    mapGet (ks.foldl mapDel m) j = if j ∈ ks then none else mapGet m j := by
  induction ks generalizing m with
  | nil => rfl
  | cons k ks ih =>
    rw [List.foldl_cons, ih (mapWf_mapDel m k hwf), mapGet_mapDel hwf]
    by_cases hj : j = k
    · rw [if_pos hj, if_pos (List.mem_cons.2 (.inl hj)), ite_self]
    · simp only [List.mem_cons, hj, false_or, if_false]

end

/-! ### Entries of the index -/

/-- The DECREFs of an entry's frames. -/
def releases (e : PEntry) : List Edit := (e.frames.take e.nl).map fun f => ⟨.dec f, false⟩

theorem release1_eq (p : Pgm) (fs : List Nat) : p.release1 fs = { p with backlog := p.backlog ++ fs.map fun f => ⟨.dec f, false⟩ } := by
  unfold Pgm.release1 Pgm.later
  rw [List.map_map]
  rfl

theorem dropEntry_some {p : Pgm} {k : Nat} {e : PEntry} (h : mapGet p.index k = some e) :
    p.dropEntry k = { p with index := mapDel p.index k, backlog := p.backlog ++ releases e } := by
  unfold Pgm.dropEntry
  rw [h]
  dsimp only
  rw [release1_eq]
  rfl

theorem dropEntry_none {p : Pgm} {k : Nat} (h : mapGet p.index k = none) : p.dropEntry k = p := by
  unfold Pgm.dropEntry
  rw [h]

/-- Taking an entry out changes the index and what is released alone. -/
theorem dropEntry_frame (p : Pgm) (k : Nat) : ∃ ix bl, p.dropEntry k = { p with index := ix, backlog := bl } := by
  cases h : mapGet p.index k with
  | none => exact ⟨_, _, dropEntry_none h⟩
  | some e => exact ⟨_, _, dropEntry_some h⟩

/-- Several entries are taken out, and the frames of each released. -/
theorem foldl_dropEntry (ks : List Nat) : ∀ p : Pgm, mapWf p.index = true → ∃ ix es,
    ks.foldl Pgm.dropEntry p = { p with index := ix, backlog := p.backlog ++ es } ∧
    (∀ j, mapGet ix j = if j ∈ ks then none else mapGet p.index j) ∧
    ∀ x, x ∈ es ↔ ∃ k e f, k ∈ ks ∧ mapGet p.index k = some e ∧ f ∈ e.frames.take e.nl ∧ x = ⟨.dec f, false⟩ := by
  induction ks with
  | nil => exact fun p _ => ⟨p.index, [], by rw [List.append_nil]; rfl, fun _ => rfl, fun x => by simp⟩
  | cons k ks ih =>
    intro p hwf
    cases hk : mapGet p.index k with
    | none =>
      obtain ⟨ix, es, heq, hix, hes⟩ := ih p hwf
      refine ⟨ix, es, by rw [List.foldl_cons, dropEntry_none hk, heq], fun j => ?_, fun x => (hes x).trans ?_⟩
      · rw [hix j]
        by_cases hj : j = k
        · rw [hj, hk, ite_self, ite_self]
        · simp only [List.mem_cons, hj, false_or]
      · constructor
        · rintro ⟨j, e, f, hj, hrest⟩
          exact ⟨j, e, f, List.mem_cons_of_mem k hj, hrest⟩
        · rintro ⟨j, e, f, hj, hg, hrest⟩
          obtain rfl | hj := List.mem_cons.1 hj
          · exact absurd (hk.symm.trans hg) nofun
          · exact ⟨j, e, f, hj, hg, hrest⟩
    | some e =>
      obtain ⟨ix, es, heq, hix, hes⟩ := ih { p with index := mapDel p.index k, backlog := p.backlog ++ releases e } (mapWf_mapDel p.index k hwf)
      refine ⟨ix, releases e ++ es, by rw [List.foldl_cons, dropEntry_some hk, heq, List.append_assoc], fun j => ?_, fun x => ?_⟩
      · rw [hix j, mapGet_mapDel hwf]
        by_cases hj : j = k
        · rw [if_pos hj, ite_self, if_pos (List.mem_cons.2 (.inl hj))]
        · simp only [List.mem_cons, hj, false_or, if_false]
      · rw [List.mem_append, hes x]
        constructor
        · rintro (hx | ⟨j, e', f, hj, hg, hrest⟩)
          · obtain ⟨f, hf, rfl⟩ := List.mem_map.1 hx
            exact ⟨k, e, f, List.mem_cons_self, hk, hf, rfl⟩
          · rw [mapGet_mapDel hwf] at hg
            by_cases hjk : j = k
            · rw [if_pos hjk] at hg
              exact absurd hg nofun
            · rw [if_neg hjk] at hg
              exact ⟨j, e', f, List.mem_cons_of_mem k hj, hg, hrest⟩
        · rintro ⟨j, e', f, hj, hg, hf, rfl⟩
          by_cases hjk : j = k
          · rw [hjk, hk] at hg
            cases hg
            exact .inl (List.mem_map.2 ⟨f, hf, rfl⟩)
          · obtain hj | hj := List.mem_cons.1 hj
            · exact absurd hj hjk
            · exact .inr ⟨j, e', f, hj, by rw [mapGet_mapDel_ne hjk]; exact hg, hf, rfl⟩

/-- The keys of the entries of a model digest. -/
theorem mem_keysOf {m : Map PEntry} {d k : Nat} (hwf : mapWf m = true) :
    k ∈ (m.filter fun (_, e) => e.mdig == d).map (·.1) ↔ ∃ e, mapGet m k = some e ∧ e.mdig = d := by
  rw [List.mem_map]
  constructor
  · rintro ⟨⟨j, e⟩, hm, rfl⟩
    obtain ⟨hm, hd⟩ := List.mem_filter.1 hm
    exact ⟨e, (mapGet_iff_mem hwf).2 hm, beq_iff_eq.1 hd⟩
  · rintro ⟨e, hg, hd⟩
    exact ⟨(k, e), List.mem_filter.2 ⟨mapGet_mem hg, beq_iff_eq.2 hd⟩, rfl⟩

/-! ### INSERT -/

/-- Making room takes an entry out of a full index, and no entry out of another. -/
theorem makeRoom_frame (p : Pgm) : ∃ ix bl n, p.makeRoom = { p with index := ix, backlog := bl, pxRemoved := n } ∧
    (p.entries < 262144 → p.makeRoom = p) := by
  unfold Pgm.makeRoom
  by_cases h : 262144 ≤ p.entries
  · rw [if_pos h]
    cases p.victim with
    | none => exact ⟨_, _, _, rfl, fun hlt => absurd h (Nat.not_le.2 hlt)⟩
    | some v =>
      obtain ⟨ix, bl, hd⟩ := dropEntry_frame p v
      exact ⟨ix, bl, _, congrArg (fun q : Pgm => { q with pxRemoved := wrapAdd 29 p.pxRemoved 1 }) hd, fun hlt => absurd h (Nat.not_le.2 hlt)⟩
  · rw [if_neg h]
    exact ⟨_, _, _, rfl, fun _ => rfl⟩

/-- What an INSERT leaves before its import is put in. -/
def insertRoom (p : Pgm) (key : Nat) : Pgm :=
  match mapGet p.pxNew key with
  | some o => p.release1 (o.frames.take o.nl)
  | none => if (mapGet p.index key).isSome then p else p.makeRoom

theorem insertRoom_frame (p : Pgm) (key : Nat) : ∃ ix bl n, insertRoom p key = { p with index := ix, backlog := bl, pxRemoved := n } ∧
    (mapGet p.pxNew key = none → (mapGet p.index key).isSome = true ∨ p.entries < 262144 → insertRoom p key = p) := by
  unfold insertRoom
  cases hn : mapGet p.pxNew key with
  | some o => exact ⟨_, _, _, release1_eq p _, fun h => absurd h nofun⟩
  | none =>
    dsimp only
    by_cases hs : (mapGet p.index key).isSome = true
    · rw [if_pos hs]
      exact ⟨_, _, _, rfl, fun _ _ => rfl⟩
    · rw [if_neg hs]
      obtain ⟨ix, bl, n, heq, hroom⟩ := makeRoom_frame p
      exact ⟨ix, bl, n, heq, fun _ h => hroom (h.resolve_left hs)⟩

/-- An entry whose frames are not all in ALLOC with count 1. -/
def busyFrames (p : Pgm) (e : PEntry) : Bool :=
  e.frames.any fun f => match p.frameAt f with
    | some x => x.st != .alloc || x.refcnt != 1
    | none => true

theorem busyFrames_iff {p : Pgm} {e : PEntry} : busyFrames p e = false ↔ ∀ f ∈ e.frames, ∃ x, p.frameAt f = some x ∧ x.st = .alloc ∧ x.refcnt = 1 := by
  unfold busyFrames
  rw [List.any_eq_false]
  refine forall₂_congr fun f _ => ?_
  cases p.frameAt f with
  | none => simp
  | some x => simp

/-- An INSERT that its digests have been judged for. -/
def insertJudged (key : Nat) (e : PEntry) (r : Bool × State) : State :=
  if !r.1 then r.2.pxStatus 9
  else if (r.2.pgm.entryOf key).any fun o => decide (e.nv ≤ o.nv) then r.2.pxStatus 0xB
  else ({ r.2 with pgm := { insertRoom r.2.pgm key with
    pxNew := mapSet (insertRoom r.2.pgm key).pxNew key { e with place := (insertRoom r.2.pgm key).freePlace } } }).pxStatus 0

/-- The checks of an INSERT, in their order. -/
def insertChecked (key : Nat) (e : PEntry) (s : State) : State :=
  if s.insertBad e then s.pxStatus 1
  else if busyFrames s.pgm e then s.pxStatus 8
  else insertJudged key e (s.entryHolds e)

theorem pxInsert_eq (s : State) : pxInsert s =
    s.withPft (s.pgm.descEntry.frames.filter inTiers) (insertChecked (leNat (s.pgm.descBytes 0 32)) s.pgm.descEntry) := rfl

/-- A number of the window's entry that is out of range. -/
theorem insertBad_range {s : State} (h : 4 ≤ leNat (s.pgm.descBytes 0x67 1) ∨ leNat (s.pgm.descBytes 0x64 2) = 0 ∨ 2048 < leNat (s.pgm.descBytes 0x64 2) ∨
    leNat (s.pgm.descBytes 0x66 1) = 0 ∨ 128 < leNat (s.pgm.descBytes 0x66 1) ∨ 65536 ≤ leNat (s.pgm.descBytes 0x60 4)) :
    s.insertBad s.pgm.descEntry = true := by
  have hnv : s.pgm.descEntry.nv = leNat (s.pgm.descBytes 0x64 2) := rfl
  have hnl : s.pgm.descEntry.nl = leNat (s.pgm.descBytes 0x66 1) := rfl
  have hj : s.pgm.descEntry.j = leNat (s.pgm.descBytes 0x60 4) := rfl
  generalize s.pgm.descEntry = e at hnv hnl hj ⊢
  rw [← hnv, ← hnl, ← hj] at h
  have hor {a b : Bool} (h : a = true) : (a || b) = true := Bool.or_eq_true_iff.2 (.inl h)
  have hsix : (decide (4 ≤ leNat (s.pgm.descBytes 0x67 1)) || decide (e.nv = 0) || decide (2048 < e.nv) || decide (e.nl = 0) ||
      decide (128 < e.nl) || decide (65536 ≤ e.j)) = true := by
    simp only [Bool.or_eq_true, decide_eq_true_eq]
    tauto
  exact hor (hor (hor (hor (hor (hor hsix)))))

/-- Settles O35: by the entry under the key, and by the checks of an INSERT in their order. -/
theorem prefixIndexCommands : Obligations.PrefixIndexCommands := by
  unfold Obligations.PrefixIndexCommands
  intro s hup p key le
  have hcmd (f : State → State) : s.pgmCmd f = .next (f s) := congrArg Host.Outcome.next (if_pos hup)
  refine ⟨?_, ?_, ?_, ?_⟩
  · intro hnone
    exact (hcmd _).trans (congrArg Host.Outcome.next (if_neg (by rw [hnone]; exact nofun)))
  · intro e he
    refine (hcmd _).trans (congrArg Host.Outcome.next ((if_pos (by rw [he]; rfl)).trans ?_))
    rw [dropEntry_some he]
    rfl
  · intro hwf
    obtain ⟨ix, es, heq, hix, hes⟩ := foldl_dropEntry ((p.index.filter fun (_, e) => e.mdig == le 0x40 32).map (·.1)) p hwf
    have hflush : pxFlush s = { s with pgm := { p with index := ix, backlog := p.backlog ++ es, pxStatus := 0 } } :=
      congrArg (fun q : Pgm => ({ s with pgm := q }).pxStatus 0) heq
    refine ⟨_, (hcmd _).trans (congrArg Host.Outcome.next hflush), rfl, fun k => ?_, es, rfl, fun x => (hes x).trans ?_⟩
    · refine (hix k).trans ?_
      by_cases hk : ∃ e, mapGet p.index k = some e ∧ e.mdig = le 0x40 32
      · rw [if_pos ((mem_keysOf hwf).2 hk)]
        obtain ⟨e, hg, hd⟩ := hk
        rw [hg, ← hd, Option.filter_some, if_neg (by rw [bne_self_eq_false]; exact nofun)]
      · rw [if_neg fun h => hk ((mem_keysOf hwf).1 h)]
        cases hg : mapGet p.index k with
        | none => rfl
        | some e =>
          have hne : e.mdig ≠ le 0x40 32 := fun h => hk ⟨e, hg, h⟩
          rw [Option.filter_some, if_pos (bne_iff_ne.2 hne)]
    · constructor
      · rintro ⟨k, e, f, hk, hg, hrest⟩
        obtain ⟨e', hg', hd⟩ := (mem_keysOf hwf).1 hk
        cases hg.symm.trans hg'
        exact ⟨k, e, f, hg, hd, hrest⟩
      · rintro ⟨k, e, f, hg, hd, hrest⟩
        exact ⟨k, e, f, (mem_keysOf hwf).2 ⟨e, hg, hd⟩, hg, hrest⟩
  · intro hgood
    have hins : exec .insert s = .next (insertChecked key p.descEntry s) :=
      (hcmd _).trans (congrArg Host.Outcome.next ((pxInsert_eq s).trans (withPft_sound fun a _ => hgood a)))
    have hbad (h : s.insertBad p.descEntry = true) : exec .insert s = .next { s with pgm := { p with pxStatus := 1 } } :=
      hins.trans (congrArg Host.Outcome.next (if_pos h))
    refine ⟨fun h => hbad (insertBad_range h), ?_⟩
    intro e
    refine ⟨rfl, rfl, rfl, rfl, rfl, rfl, rfl, rfl, rfl, hbad, ?_⟩
    intro idle
    have hidle : busyFrames s.pgm e = false ↔ idle := busyFrames_iff
    refine ⟨fun hok hno => ?_, fun ok x hx hok hyes => ?_⟩
    · refine hins.trans (congrArg Host.Outcome.next ((if_neg (Bool.eq_false_iff.1 hok)).trans (if_pos ?_)))
      cases hb : busyFrames s.pgm p.descEntry with
      | true => rfl
      | false => exact absurd (hidle.1 hb) hno
    · have hjudge : exec .insert s = .next (insertJudged key e (ok, x)) := by
        rw [← hx]
        exact hins.trans (congrArg Host.Outcome.next
          ((if_neg (Bool.eq_false_iff.1 hok)).trans (if_neg (Bool.eq_false_iff.1 (hidle.2 hyes)))))
      refine ⟨?_, ?_, ?_⟩
      · rintro rfl
        exact hjudge
      · rintro rfl o ho hle
        refine hjudge.trans (congrArg Host.Outcome.next ((if_neg nofun).trans (if_pos ?_)))
        rw [ho]
        exact decide_eq_true hle
      · rintro rfl hnew
        have hlow : ¬((x.pgm.entryOf key).any fun o => decide (e.nv ≤ o.nv)) = true := by
          cases ho : x.pgm.entryOf key with
          | none => exact nofun
          | some o => exact fun h => absurd (of_decide_eq_true h) (Nat.not_le.2 (hnew o ho))
        obtain ⟨ix, bl, n, hroom, hkeep⟩ := insertRoom_frame x.pgm key
        have hput := hjudge.trans (congrArg Host.Outcome.next ((if_neg nofun).trans (if_neg hlow)))
        refine ⟨_, (insertRoom x.pgm key).freePlace, hput, ?_, fun hn hs => ?_⟩
        · dsimp only [State.pxStatus]
          rw [hroom]
        · dsimp only [State.pxStatus]
          rw [hkeep hn hs]
          exact ⟨rfl, rfl, rfl⟩

end Sys2Proof.Stated
end

section

/-! SUPPORT. The commands of the page manager that queue an edit (R237–R239, R447, R448). -/

namespace Sys2Proof.Stated
open Sys2Proof.Machine

section
variable {s : State} {p : Pgm}

theorem pgmCmd_up (hup : s.barUp = true) (f : State → State) : s.pgmCmd f = .next (f s) := congrArg Host.Outcome.next (if_pos hup)

/-- An edit whose status is OK is queued. -/
theorem pgmEdit_zero (k : EditKind) : s.pgmEdit 0 k = { s with pgm := { s.pgm with edits := s.pgm.edits ++ [⟨k, true⟩], status := 0 } } := rfl

/-- An edit with another status is not. -/
theorem pgmEdit_refused {c : Nat} (k : EditKind) (h0 : c ≠ 0) (h2 : c ≠ 2) : s.pgmEdit c k = { s with pgm := { s.pgm with status := c } } := by
  unfold State.pgmEdit State.pgmStatus
  rw [if_neg h0, if_neg h2]

theorem pgmEdit_noFrame (k : EditKind) :
    s.pgmEdit 2 k = { s with pgm := { s.pgm with status := 2, nNoframe := min (s.pgm.nNoframe + 1) 65535 } } := rfl

/-! ### Room in the queue (R239, R284) -/

/-- One more edit of the host's that counts as `w` is one too many. -/
def tooMany (p : Pgm) (w : Nat) : Prop := 65536 < p.qlen + w ∨ 1024 < p.claimed + w

theorem queueFull_iff {w : Nat} : p.queueFull true w false = true ↔ tooMany p w := by
  unfold Pgm.queueFull tooMany
  simp

theorem queueFull_drop_iff {w : Nat} : p.queueFull true w true = true ↔ 65536 < p.qlen + w := by
  unfold Pgm.queueFull
  simp

/-- The status that ends with the judgement of the queue's room. -/
theorem fullStatus {w : Nat} : (tooMany p w → (if p.queueFull true w false then 7 else 0) = 7) ∧
    (¬tooMany p w → (if p.queueFull true w false then 7 else 0) = 0) :=
  ⟨fun h => if_pos (queueFull_iff.2 h), fun h => if_neg fun hf => h (queueFull_iff.1 hf)⟩

/-! ### MAP (Tables 11.6 and 11.7) -/

theorem frameInfo_of_frameAt {a : Nat} {f : Frame4} (hf : p.frameAt a = some f) (ht : inTiers a = true) :
    p.frameInfo a = some (f.cls, f.st == .alloc) := by
  unfold Pgm.frameAt at hf
  by_cases hm : a % 4096 = 0
  · rw [if_pos hm] at hf
    unfold Pgm.frameInfo
    rw [if_neg (by rw [hm, ht]; exact nofun), hf]
  · rw [if_neg hm] at hf
    exact absurd hf nofun

theorem frameInfo_none {a : Nat} (h : a % 4096 ≠ 0 ∨ inTiers a = false) : p.frameInfo a = none := by
  refine if_pos ?_
  rw [Bool.or_eq_true, bne_iff_ne, Bool.not_eq_true']
  exact h

/-- A MAP whose arguments fit its frame. -/
structure MapFits (p : Pgm) (sp va fr size : Nat) (f : Frame4) : Prop where
  frame : p.frameAt fr = some f
  tier : inTiers fr = true
  cls : f.cls = size
  space : sp < 12288
  aligned : va % 2 ^ size = 0
  region : (vaSpace va).map (·.1) = some sp

/-- Whether a MAP's granule lies over one of its space. -/
def overlaps (p : Pgm) (sp va size : Nat) : Prop :=
  ∃ l ∈ p.future sp, l.off < va - spaceBase sp + 2 ^ size ∧ va - spaceBase sp < l.off + 2 ^ l.size

variable {sp va fr size : Nat} {f : Frame4} {adopt : Bool}

/-- The status of a MAP that fits, by what comes after (Table 11.7). -/
theorem mapStatus_fits (h : MapFits p sp va fr size f) : p.mapStatus true sp va fr size adopt =
    if (p.future sp).any fun l => decide (l.off < va - spaceBase sp + 2 ^ size && va - spaceBase sp < l.off + 2 ^ l.size) then 4
    else if !(f.st == .alloc) then 8
    else if !adopt && decide (16777215 ≤ p.futureRef fr) then 6
    else if ivSum p.pool < p.tabsOwed sp + p.newTabs sp (p.future sp ++ [⟨va - spaceBase sp, size, false, fr⟩]) then 2
    else if p.queueFull true 1 false then 7 else 0 := by
  obtain ⟨hframe, htier, hcls, hspace, haligned, hregion⟩ := h
  unfold Pgm.mapStatus
  rw [frameInfo_of_frameAt hframe htier]
  refine if_neg ?_
  rw [hcls, haligned, hregion]
  simpa using hspace

theorem overlaps_iff : ((p.future sp).any fun l => decide (l.off < va - spaceBase sp + 2 ^ size && va - spaceBase sp < l.off + 2 ^ l.size)) = true ↔
    overlaps p sp va size := by
  unfold overlaps
  simp

theorem mapStatus_bad (h : 12288 ≤ sp ∨ va % 2 ^ size ≠ 0 ∨ fr % 4096 ≠ 0 ∨ inTiers fr = false) : p.mapStatus true sp va fr size adopt = 1 := by
  unfold Pgm.mapStatus
  cases hi : p.frameInfo fr with
  | none => rfl
  | some x =>
    obtain ⟨cls, alloc⟩ := x
    refine if_pos ?_
    have hfr : ¬(fr % 4096 ≠ 0 ∨ inTiers fr = false) := fun hf => by
      rw [frameInfo_none hf] at hi
      exact absurd hi nofun
    simp only [Bool.or_eq_true, decide_eq_true_eq, bne_iff_ne]
    tauto

section
variable (h : MapFits p sp va fr size f)
include h

theorem mapStatus_over (ho : overlaps p sp va size) : p.mapStatus true sp va fr size adopt = 4 := by
  rw [mapStatus_fits h]
  exact if_pos (overlaps_iff.2 ho)

variable (ho : ¬overlaps p sp va size)
include ho

theorem mapStatus_busy (hst : f.st ≠ .alloc) : p.mapStatus true sp va fr size adopt = 8 := by
  rw [mapStatus_fits h, if_neg (mt overlaps_iff.1 ho)]
  refine if_pos ?_
  rw [beq_eq_false_iff_ne.2 hst]
  rfl

variable (hst : f.st = .alloc)
include hst

theorem mapStatus_counted (had : adopt = false) (hr : 16777215 ≤ p.futureRef fr) : p.mapStatus true sp va fr size adopt = 6 := by
  rw [mapStatus_fits h, if_neg (mt overlaps_iff.1 ho), hst, had, decide_eq_true hr]
  rfl

/-- What is left of the judgement: the tables of its space, and the room in the queue. -/
theorem mapStatus_rest (hr : adopt = true ∨ p.futureRef fr < 16777215) : p.mapStatus true sp va fr size adopt =
    if ivSum p.pool < p.tabsOwed sp + p.newTabs sp (p.future sp ++ [⟨va - spaceBase sp, size, false, fr⟩]) then 2
    else if p.queueFull true 1 false then 7 else 0 := by
  have hc : ¬(!adopt && decide (16777215 ≤ p.futureRef fr)) = true := by
    rw [Bool.and_eq_true, decide_eq_true_eq, Bool.not_eq_true']
    rintro ⟨ha, hle⟩
    obtain hr | hr := hr
    · rw [ha] at hr
      exact absurd hr nofun
    · omega
  rw [mapStatus_fits h, if_neg (mt overlaps_iff.1 ho), if_neg (by rw [hst]; exact nofun), if_neg hc]

end

/-! ### INCREF, DECREF, UNMAP and DROPSPACE -/

theorem refStatus_none {inc : Bool} (h : p.frameAt fr = none) : p.refStatus true fr inc = 8 := by
  unfold Pgm.refStatus
  rw [h]

theorem refStatus_idle {inc : Bool} (h : p.frameAt fr = some f) (hbad : f.st ≠ .alloc ∨ p.futureRef fr ≤ 0) : p.refStatus true fr inc = 8 := by
  unfold Pgm.refStatus
  rw [h]
  refine if_pos ?_
  rw [Bool.or_eq_true, bne_iff_ne, decide_eq_true_eq]
  exact hbad

theorem refStatus_live {inc : Bool} (h : p.frameAt fr = some f) (hst : f.st = .alloc) (hpos : 0 < p.futureRef fr) : p.refStatus true fr inc =
    if inc && decide (16777215 ≤ p.futureRef fr) then 6 else if p.queueFull true 1 false then 7 else 0 := by
  unfold Pgm.refStatus
  rw [h]
  refine if_neg ?_
  rw [hst, decide_eq_false (Int.not_le.2 hpos)]
  exact nofun

theorem futureLeaf_iff : (p.futureLeaf sp va).isSome = true ↔
    spaceBase sp ≤ va ∧ ∃ l ∈ p.future sp, l.off ≤ va - spaceBase sp ∧ va - spaceBase sp < l.off + 2 ^ l.size := by
  unfold Pgm.futureLeaf
  by_cases h : spaceBase sp ≤ va
  · rw [if_pos h, List.find?_isSome]
    simp [h]
  · rw [if_neg h]
    simp [h]

theorem dropStatus_lives (hsp : sp < 12288) (hlives : p.spaceLives sp = true) :
    p.dropStatus true sp = if p.queueFull true (p.dropWeight sp) true then 7 else 0 := by
  refine if_neg ?_
  rw [hlives, decide_eq_false (Nat.not_le.2 hsp)]
  exact nofun

theorem dropStatus_bad (h : 12288 ≤ sp ∨ p.spaceLives sp = false) : p.dropStatus true sp = 1 := by
  refine if_pos ?_
  rw [Bool.or_eq_true, decide_eq_true_eq, Bool.not_eq_true']
  exact h

end

/-- Settles O32: each command by its status, in the order in which its checks are made. -/
theorem pageCommandsQueueEdits : Obligations.PageCommandsQueueEdits := by
  unfold Obligations.PageCommandsQueueEdits
  intro s hup p queues ends full off covered overlap fits tables
  refine ⟨fun hgood => ?_, ?_, ?_, ?_, ?_, ?_⟩
  · have hmap : exec .map s = .next (s.pgmEdit (p.mapStatus true p.argSpace p.arg1 p.arg2 p.argSize (bit p.arg0 28))
        (.map p.argSpace p.arg1 p.arg2 p.argSize (bit p.arg0 27) (bit p.arg0 28))) :=
      (pgmCmd_up hup _).trans (congrArg Host.Outcome.next (withPft_sound fun a ha => by rwa [List.mem_singleton.1 ha]))
    have hinc : exec .incref s = .next (s.pgmEdit (p.refStatus true p.arg2 true) (.inc p.arg2)) :=
      (pgmCmd_up hup _).trans (congrArg Host.Outcome.next (withPft_sound fun a ha => by rwa [List.mem_singleton.1 ha]))
    have hdec : exec .decref s = .next (s.pgmEdit (p.refStatus true p.arg2 false) (.dec p.arg2)) :=
      (pgmCmd_up hup _).trans (congrArg Host.Outcome.next (withPft_sound fun a ha => by rwa [List.mem_singleton.1 ha]))
    refine ⟨?_, ?_, ?_, ?_⟩
    · intro f hf ht hcls hfits
      have hfit : MapFits p p.argSpace p.arg1 p.arg2 p.argSize f := ⟨hf, ht, hcls, hfits.1, hfits.2.1, hfits.2.2⟩
      refine ⟨fun ho => ?_, fun ho hst => ?_, fun ho hst had hr => ?_, fun ho hst hr htab => ?_, fun ho hst hr htab hfull => ?_,
        fun ho hst hr htab hfull => ?_⟩
      · rw [mapStatus_over hfit ho] at hmap
        exact hmap
      · rw [mapStatus_busy hfit ho hst] at hmap
        exact hmap
      · rw [mapStatus_counted hfit ho hst had hr] at hmap
        exact hmap
      · rw [mapStatus_rest hfit ho hst hr, if_pos (Nat.not_le.1 htab)] at hmap
        exact hmap
      · rw [mapStatus_rest hfit ho hst hr, if_neg (Nat.not_lt.2 htab), fullStatus.1 hfull] at hmap
        exact hmap
      · rw [mapStatus_rest hfit ho hst hr, if_neg (Nat.not_lt.2 htab), fullStatus.2 hfull] at hmap
        exact hmap
    · intro hbad
      rw [mapStatus_bad hbad] at hmap
      exact hmap
    · intro f hf hst hpos
      rw [refStatus_live hf hst hpos] at hinc hdec
      rw [Bool.true_and] at hinc
      refine ⟨fun hfull => ?_, fun hfull => ?_, fun hr => ?_, fun hr => ⟨fun hfull => ?_, fun hfull => ?_⟩⟩
      · rw [Bool.false_and, if_neg nofun, fullStatus.2 hfull] at hdec
        exact hdec
      · rw [Bool.false_and, if_neg nofun, fullStatus.1 hfull] at hdec
        exact hdec
      · rw [if_pos (decide_eq_true hr)] at hinc
        exact hinc
      · rw [if_neg (by rw [decide_eq_false (Int.not_le.2 hr)]; exact nofun), fullStatus.2 hfull] at hinc
        exact hinc
      · rw [if_neg (by rw [decide_eq_false (Int.not_le.2 hr)]; exact nofun), fullStatus.1 hfull] at hinc
        exact hinc
    · rintro (hnone | ⟨f, hf, hbad⟩)
      · rw [refStatus_none hnone] at hinc hdec
        exact ⟨hinc, hdec⟩
      · rw [refStatus_idle hf hbad] at hinc hdec
        exact ⟨hinc, hdec⟩
  · intro hcov
    have hun : exec .unmap s = .next (s.pgmEdit (p.unmapStatus true p.argSpace p.arg1) (.unmap p.argSpace p.arg1)) := pgmCmd_up hup _
    rw [show p.unmapStatus true p.argSpace p.arg1 = if p.queueFull true 1 false then 7 else 0 from if_pos (futureLeaf_iff.2 hcov)] at hun
    refine ⟨fun hfull => ?_, fun hfull => ?_⟩
    · rw [fullStatus.2 hfull] at hun
      exact hun
    · rw [fullStatus.1 hfull] at hun
      exact hun
  · intro hcov
    have hun : exec .unmap s = .next (s.pgmEdit (p.unmapStatus true p.argSpace p.arg1) (.unmap p.argSpace p.arg1)) := pgmCmd_up hup _
    rw [show p.unmapStatus true p.argSpace p.arg1 = 3 from if_neg (mt futureLeaf_iff.1 hcov)] at hun
    exact hun
  · intro hsp hlives
    have hdrop : exec .dropspace s = .next (s.pgmEdit (p.dropStatus true p.argSpace) (.drop p.argSpace (p.dropWeight p.argSpace))) :=
      pgmCmd_up hup _
    rw [dropStatus_lives hsp hlives] at hdrop
    refine ⟨fun hroom => ?_, fun hfull => ?_⟩
    · rw [if_neg (mt queueFull_drop_iff.1 (Nat.not_lt.2 hroom))] at hdrop
      exact hdrop
    · rw [if_pos (queueFull_drop_iff.2 hfull)] at hdrop
      exact hdrop
  · intro hbad
    have hdrop : exec .dropspace s = .next (s.pgmEdit (p.dropStatus true p.argSpace) (.drop p.argSpace (p.dropWeight p.argSpace))) :=
      pgmCmd_up hup _
    rw [dropStatus_bad hbad] at hdrop
    exact hdrop
  · intro hnil
    refine ⟨?_, fun sp hsp => ?_⟩
    · unfold Pgm.spaceLives
      rw [hnil]
      rfl
    · unfold Pgm.dropWeight
      rw [hnil, hsp]
      exact (Nat.add_assoc _ _ _).symm

end Sys2Proof.Stated
end

section

/-! SUPPORT. Allocation out of the free lists, and migrations (R237, R238, R242, R278). -/

namespace Sys2Proof.Stated
open Sys2Proof.Machine

/-! ### Free lists (R237) -/

/-- What is left of one interval when another is taken out. -/
def ivCut (b m a n : Nat) : List (Nat × Nat) :=
  if a + n ≤ b || b + m ≤ a then [(b, m)]
  else (if b < a then [(b, a - b)] else []) ++ (if a + n < b + m then [(a + n, b + m - (a + n))] else [])

theorem ivHas_append (l l' : List (Nat × Nat)) (x : Nat) : ivHas (l ++ l') x = (ivHas l x || ivHas l' x) := List.any_append

theorem ivHas_one {b m x : Nat} : ivHas [(b, m)] x = true ↔ b ≤ x ∧ x < b + m := by
  unfold ivHas
  simp

theorem ivHas_if {P : Prop} [Decidable P] {b m x : Nat} : ivHas (if P then [(b, m)] else []) x = true ↔ P ∧ b ≤ x ∧ x < b + m := by
  by_cases h : P
  · rw [if_pos h, ivHas_one]
    exact (and_iff_right h).symm
  · rw [if_neg h]
    exact ⟨fun hf => absurd hf nofun, fun hp => absurd hp.1 h⟩

theorem ivHas_ivCut {b m a n x : Nat} : ivHas (ivCut b m a n) x = true ↔ (b ≤ x ∧ x < b + m) ∧ ¬(a ≤ x ∧ x < a + n) := by
  unfold ivCut
  by_cases hout : a + n ≤ b ∨ b + m ≤ a
  · rw [if_pos (by simpa using hout), ivHas_one]
    omega
  · rw [if_neg (by simpa using hout), ivHas_append, Bool.or_eq_true]
    rw [ivHas_if, ivHas_if]
    omega

/-- A block lies in what is left of a list of intervals. -/
theorem ivHas_ivSub (l : List (Nat × Nat)) (a n x : Nat) : ivHas (ivSub l a n) x = (ivHas l x && !decide (a ≤ x ∧ x < a + n)) := by
  induction l with
  | nil => rfl
  | cons e l ih =>
    obtain ⟨b, m⟩ := e
    have hsub : ivSub ((b, m) :: l) a n = ivCut b m a n ++ ivSub l a n := rfl
    have hcons : ivHas ((b, m) :: l) x = (ivHas [(b, m)] x || ivHas l x) := ivHas_append [(b, m)] l x
    rw [hsub, hcons, ivHas_append, ih, Bool.and_or_distrib_right]
    congr 1
    rw [Bool.eq_iff_iff, ivHas_ivCut, Bool.and_eq_true, ivHas_one, Bool.not_eq_true', decide_eq_false_iff_not]

/-! ### ALLOC -/

section
variable {p : Pgm} {loft : Bool} {c b : Nat}

/-- The page manager with a frame of class `c` taken at block `b`. -/
def allocated (p : Pgm) (loft : Bool) (c b : Nat) : Pgm :=
  { p with
    freeH := if loft then p.freeH else ivSub p.freeH b (2 ^ (c - 12)), freeL := if loft then ivSub p.freeL b (2 ^ (c - 12)) else p.freeL
    marks := p.unmark b (2 ^ (c - 12))
    frames := mapSet p.frames b
      { st := .alloc, cls := c, refcnt := 1, retire := (p.marked b (2 ^ (c - 12))).1, cecnt := (p.marked b (2 ^ (c - 12))).2 } }

theorem alloc_some (h : pickFree (if loft then p.freeL else p.freeH) c = some b) : p.alloc loft c = some (b * 4096, allocated p loft c b) := by
  unfold Pgm.alloc
  dsimp only
  rw [h]
  cases loft <;> rfl

theorem alloc_none (h : pickFree (if loft then p.freeL else p.freeH) c = none) : p.alloc loft c = none := by
  unfold Pgm.alloc
  dsimp only
  rw [h]
  rfl

/-- A frame that is taken leaves the migrations as they are. -/
theorem alloc_migs {a : Nat} {q : Pgm} (h : p.alloc loft c = some (a, q)) : q.migs = p.migs := by
  cases hb : pickFree (if loft then p.freeL else p.freeH) c with
  | none => exact absurd ((alloc_none hb).symm.trans h) nofun
  | some b =>
    have heq := (alloc_some hb).symm.trans h
    cases heq
    rfl

variable {s : State}

theorem pgmAlloc_range (hc : s.pgm.argClass < 12 ∨ 30 < s.pgm.argClass) : pgmAlloc s = { s with pgm := { s.pgm with status := 1 } } :=
  if_pos (by rwa [Bool.or_eq_true, decide_eq_true_eq, decide_eq_true_eq])

theorem not_range (h12 : 12 ≤ s.pgm.argClass) (h30 : s.pgm.argClass ≤ 30) : ¬(s.pgm.argClass < 12 || 30 < s.pgm.argClass) = true := by
  rw [Bool.or_eq_true, decide_eq_true_eq, decide_eq_true_eq]
  omega

theorem pgmAlloc_taken (h12 : 12 ≤ s.pgm.argClass) (h30 : s.pgm.argClass ≤ 30)
    (hb : pickFree (if s.pgm.argTier then s.pgm.freeL else s.pgm.freeH) s.pgm.argClass = some b) (hgood : s.pgm.sound (pftBlock (b * 4096)) = true) :
    pgmAlloc s = { s with pgm := { allocated s.pgm s.pgm.argTier s.pgm.argClass b with arg2 := b * 4096, status := 0 } } := by
  refine (if_neg (not_range h12 h30)).trans ?_
  rw [alloc_some hb]
  refine (withPft_sound fun a ha => by rwa [List.mem_singleton.1 ha]).trans ?_
  rw [alloc_some hb]
  rfl

theorem pgmAlloc_full (h12 : 12 ≤ s.pgm.argClass) (h30 : s.pgm.argClass ≤ 30)
    (hb : pickFree (if s.pgm.argTier then s.pgm.freeL else s.pgm.freeH) s.pgm.argClass = none) :
    pgmAlloc s = { s with pgm := { s.pgm with status := 2, nNoframe := min (s.pgm.nNoframe + 1) 65535 } } := by
  refine (if_neg (not_range h12 h30)).trans ?_
  rw [alloc_none hb]
  rfl

/-! ### Migrations (R242, R278) -/

/-- A migration begins where nothing stands against it. -/
theorem migrate_begins {host loft : Bool} {n va : Nat} {l : Leaf} {f : Frame4} {a : Nat} {q : Pgm} (hl : s.pgm.futureLeaf n va = some l)
    (hf : s.pgm.frameAt l.frame = some f) (hst : f.st = .alloc) (hone : s.pgm.futureRef l.frame = 1) (hroom : s.pgm.queueFull host 1 false = false)
    (ha : s.pgm.alloc loft f.cls = some (a, q)) :
    s.migrate host n va loft = (0, { s with pgm := { q with migs := s.pgm.migs ++
      [⟨n, spaceBase n + l.off, l.frame, a, f.cls, 30 * (10000 + (2 ^ f.cls + 63) / 64), false, false, host⟩] } }) := by
  unfold State.migrate
  rw [hl]
  dsimp only
  rw [hf]
  dsimp only
  rw [hst, hone, hroom, ha]
  dsimp only
  rw [alloc_migs ha]
  rfl

end

theorem write_mem {p : Pgm} {a : Nat} {l : List Byte} (hne : l ≠ []) : (p.write a l).mem = memWrites p.mem a l := by
  unfold Pgm.write
  rw [if_neg (by simpa using hne)]

/-- Bytes written where no migration copies from. -/
theorem write_aside {p : Pgm} {a : Nat} {l : List Byte} {m : Mig} (hm : p.migs = [m]) (hne : l ≠ [])
    (hdis : m.old + 2 ^ m.cls ≤ a ∨ a + l.length ≤ m.old) : p.write a l = { p with
      mem := (p.write a l).mem, undef := (p.write a l).undef
      poisoned := (p.write a l).poisoned, broken := (p.write a l).broken, weak := (p.write a l).weak, rewrite := (p.write a l).rewrite } := by
  have hkeep : (if m.old < a + l.length && a < m.old + 2 ^ m.cls then { m with bad := true } else m) = m := by
    refine if_neg ?_
    rw [Bool.and_eq_true, decide_eq_true_eq, decide_eq_true_eq]
    omega
  unfold Pgm.write
  rw [if_neg (by simpa using hne)]
  dsimp only
  rw [hm, List.map_singleton, hkeep]

/-- The one migration in hand ends its copy: the granule's bytes stand in the new frame. -/
theorem migrateCopyDone_one {s : State} {m : Mig} (hm : s.pgm.migs = [m]) (hc : m.copied = false)
    (hgood : ∀ b ∈ blocksOf m.old (2 ^ m.cls), s.pgm.sound b = true) : migrateCopyDone m.old s =
      { s with pgm := { (s.pgm.write m.new_ (s.pgm.bytes m.old (2 ^ m.cls))) with
        migs := (s.pgm.write m.new_ (s.pgm.bytes m.old (2 ^ m.cls))).migs.map fun x => if x.new_ = m.new_ then { x with copied := true } else x } } := by
  have hfind : (s.pgm.migs.find? fun x => x.old == m.old && !x.copied) = some m := by
    rw [hm, List.find?_cons_of_pos]
    rw [hc, beq_self_eq_true]
    rfl
  unfold migrateCopyDone
  rw [hfind]
  dsimp only
  rw [readMem_sound hgood]
  rfl

theorem bytes_length (p : Pgm) (a n : Nat) : (p.bytes a n).length = n := by
  unfold Pgm.bytes
  rw [List.length_map, List.length_range]

theorem bytes_getD (p : Pgm) {a n i : Nat} (h : i < n) : (p.bytes a n).getD i 0 = p.byte (a + i) := by
  unfold Pgm.bytes
  rw [List.getD_eq_getElem?_getD, List.getElem?_map, List.getElem?_range h]
  rfl

/-- Settles O33: by the free list of the tier, and by the migration's stages. -/
theorem pageAllocationAndMigration : Obligations.PageAllocationAndMigration := by
  unfold Obligations.PageAllocationAndMigration
  intro s p c list
  refine ⟨?_, ?_, ?_, ?_, ?_⟩
  · intro hup hc
    exact (pgmCmd_up hup _).trans (congrArg Host.Outcome.next (pgmAlloc_range hc))
  · intro hup h12 h30 hb
    exact (pgmCmd_up hup _).trans (congrArg Host.Outcome.next (pgmAlloc_full h12 h30 hb))
  · intro b hup h12 h30 hb hgood
    refine ⟨_, (pgmCmd_up hup _).trans (congrArg Host.Outcome.next (pgmAlloc_taken h12 h30 hb hgood)), rfl, fun x => ?_, ?_⟩
    · refine Eq.trans ?_ (ivHas_ivSub (list p) b (2 ^ (c - 12)) x)
      dsimp only [list, allocated]
      cases p.argTier <;> rfl
    · dsimp only [allocated]
      cases p.argTier <;> rfl
  · intro l f a q hup hl hf hst hgood hone hq hcl ha
    have hroom : p.queueFull true 1 false = false :=
      Bool.eq_false_iff.2 (mt queueFull_iff.1 (not_or.2 ⟨Nat.not_lt.2 hq, Nat.not_lt.2 hcl⟩))
    refine (pgmCmd_up hup _).trans (congrArg Host.Outcome.next ?_)
    refine (withPft_sound ?_).trans ?_
    · intro x hx
      rw [hl] at hx
      rwa [List.mem_singleton.1 hx]
    · dsimp only
      rw [migrate_begins hl hf hst hone hroom ha]
      rfl
  · intro m fr hm hold hc hleft hwf hgood hdis
    have hdue : s.migDue fr.toNat = true := by
      unfold State.migDue Pgm.copying
      rw [hm, List.find?_cons_of_pos (by rw [hc]; rfl), Option.any_some, hold, hleft, beq_self_eq_true]
      rfl
    have hlen : (p.bytes m.old (2 ^ m.cls)).length = 2 ^ m.cls := bytes_length _ _ _
    have hne : p.bytes m.old (2 ^ m.cls) ≠ [] := by
      intro h
      rw [h] at hlen
      exact absurd hlen (Nat.two_pow_pos m.cls).ne
    have hw := write_aside (a := m.new_) hm hne (by rw [hlen]; exact hdis)
    have hexec : exec (.migrateCopyDone fr) s = .next (migrateCopyDone m.old s) := by
      rw [hold]
      exact congrArg Host.Outcome.next (if_pos hdue)
    rw [migrateCopyDone_one hm hc hgood] at hexec
    have hmem : (p.write m.new_ (p.bytes m.old (2 ^ m.cls))).mem = memWrites p.mem m.new_ (p.bytes m.old (2 ^ m.cls)) := write_mem hne
    have hmigs : (p.write m.new_ (p.bytes m.old (2 ^ m.cls))).migs = [m] := (congrArg Pgm.migs hw).trans hm
    refine ⟨_, hexec, ?_, fun i hi => ?_, fun a ha => ?_⟩
    · dsimp only
      rw [hmigs, List.map_singleton, if_pos rfl]
      exact congrArg (fun q : Pgm => { s with pgm := { q with migs := [{ m with copied := true }] } }) hw
    · dsimp only
      rw [hmem, memRead_memWrites hwf, hlen, if_pos (by omega), Nat.add_sub_cancel_left, bytes_getD _ hi]
    · dsimp only
      rw [hmem, memRead_memWrites hwf, hlen, if_neg (by omega)]

end Sys2Proof.Stated
end

section

/-! SUPPORT. The background slots of the memory controllers (R243–R246, R308). -/

namespace Sys2Proof.Stated
open Sys2Proof.Machine

section
variable {s : State}

/-- A slot that a tick planned, with no step running. -/
theorem slotOpen_iff {k : Nat} : s.slotOpen k = true ↔ k ∈ s.sch.bgNow ∧ s.sch.cur = none := by
  unfold State.slotOpen
  rw [Bool.and_eq_true, List.contains_iff_mem, Option.isNone_iff_eq_none]

theorem log_pgm (e : Ev) : (s.log e).pgm = s.pgm := by
  have h := State.log_frame s e
  unfold logOnly at h
  rw [h]

theorem log_sch (e : Ev) : (s.log e).sch = s.sch := by
  have h := State.log_frame s e
  unfold logOnly at h
  rw [h]

/-! ### Errors of an HBM block (Table 11.8) -/

/-- A block of HBM that the devices correct nothing of. -/
theorem deviceEcc_none {b : Nat} (hl : s.pgm.linkBad = []) (hd : s.pgm.onDie = []) : s.deviceEcc b = s := by
  unfold State.deviceEcc
  extract_lets a
  rw [hl, hd, List.contains_nil, Bool.and_false, Bool.and_false]
  rfl

theorem isLoft_hbm {b : Nat} (h : b * 64 < loftBase) : isLoft (b * 64) = false := decide_eq_false (Nat.not_le.2 h)

theorem countEcc_hbm {p : Pgm} {b : Nat} {unc : Bool} (h : b * 64 < loftBase) : p.countEcc (b * 64) unc =
    { p with eccH := mapUpd p.eccH (b / 64 % 8) (0, 0) fun (c, u) => if unc then (c, satAdd 16 u 1) else (satAdd 32 c 1, u) } := by
  have hblk : b * 64 / 4096 = b / 64 := by omega
  unfold Pgm.countEcc memUnit
  rw [isLoft_hbm h, if_neg nofun, if_neg nofun, hblk]

theorem frameOf_blk {b : Nat} : b * 64 / 4096 = b / 64 := by omega

theorem corrected_free {p : Pgm} {a : Nat} (h : p.frameOf (a / 4096) = none) : p.corrected a =
    { p with marks := mapUpd p.marks (a / 4096) (false, 0) fun x => (x.1 || decide (8 ≤ x.2 + 1), min 31 (x.2 + 1)) } := by
  unfold Pgm.corrected
  rw [h]

theorem retireFrame_free {p : Pgm} {a : Nat} (h : p.frameOf (a / 4096) = none) : p.retireFrame a =
    { p with marks := mapUpd p.marks (a / 4096) (false, 0) fun x => (true, x.2) } := by
  unfold Pgm.retireFrame
  rw [h]

theorem contains_one (b : Nat) : [b].contains b = true := by simp

variable {b : Nat} (hl : s.pgm.linkBad = []) (hd : s.pgm.onDie = []) (hp : s.pgm.poisoned = []) (hbm : b * 64 < loftBase)
  (hf : s.pgm.frameOf (b / 64) = none)
include hl hd hp hbm hf

/-- A correctable error is corrected and counted, and its block noted for its rewriting. -/
theorem touchBlock_weak (hb : s.pgm.broken = []) (hw : s.pgm.weak = [b]) : ∃ rs, b ∈ rs ∧
    ((s.touchBlock b).2).pgm = { s.pgm with
      rewrite := rs, marks := mapUpd s.pgm.marks (b / 64) (false, 0) fun x => (x.1 || decide (8 ≤ x.2 + 1), min 31 (x.2 + 1))
      eccH := mapUpd s.pgm.eccH (b / 64 % 8) (0, 0) fun (c, u) => (satAdd 32 c 1, u) } ∧ ((s.touchBlock b).2).sch = s.sch := by
  have hcorr : (s.pgm.countEcc (b * 64) false).corrected (b * 64) = { s.pgm with
      marks := mapUpd s.pgm.marks (b / 64) (false, 0) fun x => (x.1 || decide (8 ≤ x.2 + 1), min 31 (x.2 + 1))
      eccH := mapUpd s.pgm.eccH (b / 64 % 8) (0, 0) fun (c, u) => (satAdd 32 c 1, u) } := by
    rw [countEcc_hbm hbm, corrected_free (by rw [frameOf_blk]; exact hf), frameOf_blk]
    rfl
  have hp' : s.pgm.poisoned.contains b = false := by rw [hp]; rfl
  have hb' : s.pgm.broken.contains b = false := by rw [hb]; rfl
  have hw' : s.pgm.weak.contains b = true := by rw [hw]; exact contains_one b
  unfold State.touchBlock
  rw [deviceEcc_none hl hd]
  unfold State.checkBlock
  extract_lets a e s' p
  rw [hp', hb', hw', if_neg nofun, if_neg nofun, if_pos rfl]
  refine ⟨if s.pgm.rewrite.contains b then
    s.pgm.rewrite else s.pgm.rewrite ++ [b],
    ?_, ?_, log_sch _⟩
  · by_cases h : s.pgm.rewrite.contains b = true
    · rw [if_pos h]
      exact List.contains_iff_mem.1 h
    · rw [if_neg h]
      exact List.mem_append_right _ (List.mem_singleton_self b)
  · exact (log_pgm _).trans
      (congrArg (fun q : Pgm => { q with rewrite := if q.rewrite.contains b then q.rewrite else q.rewrite ++ [b] }) hcorr)

/-- A block with an uncorrectable error is poisoned, and counted. -/
theorem touchBlock_broken (hb : s.pgm.broken = [b]) :
    ((s.touchBlock b).2).pgm = { s.pgm with
      broken := [], poisoned := [b], marks := mapUpd s.pgm.marks (b / 64) (false, 0) fun x => (true, x.2)
      eccH := mapUpd s.pgm.eccH (b / 64 % 8) (0, 0) fun (c, u) => (c, satAdd 16 u 1) } ∧ ((s.touchBlock b).2).sch = s.sch := by
  have hp' : s.pgm.poisoned.contains b = false := by rw [hp]; rfl
  have hb' : s.pgm.broken.contains b = true := by rw [hb]; exact contains_one b
  have hcut : s.pgm.broken.filter (fun x => x != b) = [] := by rw [hb]; simp
  have hplace : memPlace (b * 64) = 1 := by
    unfold memPlace
    rw [isLoft_hbm hbm]
    rfl
  have hpois : (({ s.pgm with broken := s.pgm.broken.filter fun x => x != b }).countEcc (b * 64) true).poison [b] = { s.pgm with
      broken := [], poisoned := [b], marks := mapUpd s.pgm.marks (b / 64) (false, 0) fun x => (true, x.2)
      eccH := mapUpd s.pgm.eccH (b / 64 % 8) (0, 0) fun (c, u) => (c, satAdd 16 u 1) } := by
    rw [hcut, countEcc_hbm hbm]
    unfold Pgm.poison
    rw [List.foldl_cons, List.foldl_nil, if_neg (by rw [hp]; exact nofun), retireFrame_free (by rw [frameOf_blk]; exact hf), frameOf_blk, hp]
    rfl
  unfold State.touchBlock
  rw [deviceEcc_none hl hd]
  unfold State.checkBlock
  extract_lets a e s' p
  rw [hp', hb', if_neg nofun, if_pos rfl, if_neg (by rw [hplace]; exact nofun)]
  exact ⟨(log_pgm _).trans hpois, log_sch _⟩

end

/-! ### The scrub (R246) -/

/-- A block from `lo` to `hi` of no RETIRED frame. -/
def scrubs (p : Pgm) (lo hi b : Nat) : Bool :=
  decide (lo ≤ b && b < hi) && !(match p.frameOf (b / 64) with
    | some (_, f) => f.st == .retired
    | none => false)

theorem scrubs_free {p : Pgm} {lo hi b : Nat} (hlo : lo ≤ b) (hhi : b < hi) (hf : p.frameOf (b / 64) = none) : scrubs p lo hi b = true := by
  unfold scrubs
  rw [hf]
  simp [hlo, hhi]

theorem scrubFinds_hbm (p : Pgm) (pos n : Nat) : p.scrubFinds false pos n = sortBy (fun a b => decide (a ≤ b))
    ((p.weak ++ p.broken ++ p.poisoned ++ p.onDie ++ p.linkBad).filter
      (scrubs p ((0 + pos * 2 ^ 20) / 64) ((0 + pos * 2 ^ 20) / 64 + n * 16384))).eraseDups := rfl

/-- The one block with an error is what a scrub of its place finds. -/
theorem scrubFinds_one {p : Pgm} {b pos n : Nat} (hall : p.weak ++ p.broken ++ p.poisoned ++ p.onDie ++ p.linkBad = [b])
    (hlo : pos * 16384 ≤ b) (hhi : b < (pos + n) * 16384) (hf : p.frameOf (b / 64) = none) : p.scrubFinds false pos n = [b] := by
  have hin : scrubs p ((0 + pos * 2 ^ 20) / 64) ((0 + pos * 2 ^ 20) / 64 + n * 16384) b = true :=
    scrubs_free (by omega) (by omega) hf
  rw [scrubFinds_hbm, hall, List.filter_cons_of_pos hin]
  rfl

theorem patrolScrub_hbm {s : State} {mib : Nat} (hopen : s.slotOpen 48 = true) (hpos : s.pgm.scrubPos.1 + mib < 589824) : patrolScrub false mib s =
    (({ (s.pgm.scrubFinds false s.pgm.scrubPos.1 mib).foldl (fun (s : State) b => (s.touchBlock b).2) s with
      pgm := ((s.pgm.scrubFinds false s.pgm.scrubPos.1 mib).foldl (fun (s : State) b => (s.touchBlock b).2) s).pgm.rewriteAll }).scrubMove false mib).useSlot 48 := by
  have hmin : min mib (tierMib false - s.pgm.scrubAt false) = mib := Nat.min_eq_left (by
    show mib ≤ 589824 - s.pgm.scrubPos.1
    omega)
  unfold patrolScrub
  refine (if_neg (by rw [show s.slotOpen (48 + b2n false) = true from hopen]; exact nofun)).trans ?_
  rw [hmin]
  rfl

theorem scrubMove_inside {s : State} {n : Nat} (h : s.pgm.scrubPos.1 + n < 589824) :
    s.scrubMove false n = { s with pgm := { s.pgm with scrubPos := (s.pgm.scrubPos.1 + n, s.pgm.scrubPos.2) } } := if_pos h

theorem rewriteAll_scrubPos (u : State) : ({ u with pgm := u.pgm.rewriteAll } : State).pgm.scrubPos = u.pgm.scrubPos := rfl

/-- A wear-levelling slot whose frame can be moved begins its migration. -/
theorem wearLevelling_begins {s t : State} {a n va : Nat} (hopen : s.slotOpen 50 = true) (hleaf : s.pgm.leafOf a = some (n, va))
    (hl : isLoft a = true) (hmig : (s.useSlot 50).migrate false n va true = (0, t)) : wearLevelling a s =
      { t with sch := { t.sch with
        wear := (t.sch.bnd - 1, (((s.useSlot 50).pgm.frameAt a).map fun f => 2 ^ f.cls).getD 0) :: t.sch.wear, wearAt := a } } := by
  unfold wearLevelling
  refine (if_neg (by rw [hopen]; exact nofun)).trans ?_
  have hleaf' : (s.useSlot 50).pgm.leafOf a = some (n, va) := hleaf
  dsimp only
  rw [hleaf', hl]
  exact (if_neg nofun).trans (by rw [hmig]; exact if_pos rfl)

/-- Settles O36: by the slot, and by the error of the block that a scrub finds. -/
theorem backgroundSlots : Obligations.BackgroundSlots := by
  unfold Obligations.BackgroundSlots
  intro s used open_
  have hopen {n : Nat} (h : open_ n) : s.slotOpen n = true := slotOpen_iff.2 h
  have hshut {n : Nat} (h : ¬open_ n) : s.slotOpen n = false := Bool.eq_false_iff.2 fun ht => h (slotOpen_iff.1 ht)
  refine ⟨fun h => ⟨fun ho => ?_, fun ho => ?_⟩, fun c => ⟨fun ho => ?_, fun ho => ?_⟩, ?_, ?_, ?_, ?_, ?_⟩
  · exact congrArg Host.Outcome.next (if_pos (hopen ho))
  · exact congrArg Host.Outcome.next (if_neg (Bool.eq_false_iff.1 (hshut ho)))
  · exact congrArg Host.Outcome.next (if_pos (hopen ho))
  · exact congrArg Host.Outcome.next (if_neg (Bool.eq_false_iff.1 (hshut ho)))
  · intro x mib ho
    have hplace : 48 + b2n (x == 1) = 48 + x.val := by
      obtain rfl | rfl : x = 0 ∨ x = 1 := by omega
      · rfl
      · rfl
    refine congrArg Host.Outcome.next (if_pos ?_)
    rw [hplace, hshut ho]
    rfl
  · intro mib b ho hpos hbr hpo hdie hlink hw hlo hhi hf
    have hbm : b * 64 < loftBase := by
      unfold loftBase
      omega
    obtain ⟨rs, hrs, hpgm, hsch⟩ := touchBlock_weak hlink hdie hpo hbm hf hbr hw
    have hscrub := patrolScrub_hbm (hopen ho) hpos
    rw [scrubFinds_one (by rw [hw, hbr, hpo, hdie, hlink]; rfl) hlo hhi hf] at hscrub
    rw [List.foldl_cons, List.foldl_nil, scrubMove_inside (by rw [rewriteAll_scrubPos, hpgm]; exact hpos)] at hscrub
    refine ⟨_, congrArg Host.Outcome.next hscrub, congrArg (fun x : Sch => x.bgNow.filter fun y => y != 48) hsch, ?_⟩
    have hcut : [b].filter (fun x => !rs.contains x) = [] := by
      rw [List.filter_cons_of_neg (by rw [List.contains_iff_mem.2 hrs]; exact nofun)]
      rfl
    refine (congrArg (fun q : Pgm => { q.rewriteAll with scrubPos := (q.scrubPos.1 + mib, q.scrubPos.2) }) hpgm).trans ?_
    unfold Pgm.rewriteAll
    dsimp only
    rw [hw, hcut]
    rfl
  · intro mib b ho hpos hw hpo hdie hlink hbr hlo hhi hf
    have hbm : b * 64 < loftBase := by
      unfold loftBase
      omega
    obtain ⟨hpgm, hsch⟩ := touchBlock_broken hlink hdie hpo hbm hf hbr
    have hscrub := patrolScrub_hbm (hopen ho) hpos
    rw [scrubFinds_one (by rw [hw, hbr, hpo, hdie, hlink]; rfl) hlo hhi hf] at hscrub
    rw [List.foldl_cons, List.foldl_nil, scrubMove_inside (by rw [rewriteAll_scrubPos, hpgm]; exact hpos)] at hscrub
    refine ⟨_, congrArg Host.Outcome.next hscrub, ?_⟩
    refine (congrArg (fun q : Pgm => { q.rewriteAll with scrubPos := (q.scrubPos.1 + mib, q.scrubPos.2) }) hpgm).trans ?_
    unfold Pgm.rewriteAll
    dsimp only
    rw [hw]
    rfl
  · intro fr ho
    refine congrArg Host.Outcome.next (if_pos ?_)
    rw [hshut ho]
    rfl
  · intro fr n va l f a q ho hloft hleaf hl hfr hf hst hone hq ha
    have hroom : s.pgm.queueFull false 1 false = false := by
      unfold Pgm.queueFull
      rw [decide_eq_false (Nat.not_lt.2 hq)]
      rfl
    have hmig := migrate_begins (s := s.useSlot 50) (host := false) (loft := true) hl (by rw [hfr]; exact hf) hst (by rw [hfr]; exact hone) hroom ha
    refine ⟨_, congrArg Host.Outcome.next (wearLevelling_begins (hopen ho) hleaf hloft hmig), rfl, ?_⟩
    rw [hfr]
    rfl

end Sys2Proof.Stated
end

section
/-! SUPPORT. The register writes of BAR0 (R7–R9, R363) and the error log (R419–R421). -/
namespace Sys2Proof.Stated
open Sys2Proof.Machine

/-! ### A write reaches its register -/

/-- While BAR0 serves every block it serves each. -/
theorem serves_of_barUp {s : State} (h : s.barUp = true) (b : Blk) : s.serves b = true := by
  have hg : s.glbUp = true := by unfold State.glbUp; rw [h]; rfl
  cases b with
  | glb => exact hg
  | sec => exact hg
  | tel => exact hg
  | _ => exact h

section Register
variable {s : State} {off o v : Nat} {b : Blk}

/-- A write of 8 bytes reaches the register at its offset. -/
theorem registerWrite_whole (h : s.barUp = true) (hb : blockOf (off / 8 * 8) = (b, o)) (hk : (b == .kte) = false)
    (hr : (s.regRead (off / 8 * 8)).isNone = false) (ha : off % 8 = 0) : registerWrite off false v s = s.writeBlk b o ⟨true, true, v⟩ := by
  unfold registerWrite
  simp only [hb, serves_of_barUp h b, hk, hr, ha, Bool.false_and, Bool.not_true, Bool.not_false, Bool.true_or, Bool.false_or, bne_self_eq_false,
    Bool.false_eq_true, if_false]

/-- A write of the low half at a multiple of 8 reaches the low half of its register. -/
theorem registerWrite_low (h : s.barUp = true) (hb : blockOf (off / 8 * 8) = (b, o)) (hk : (b == .kte) = false)
    (hr : (s.regRead (off / 8 * 8)).isNone = false) (ha : off % 8 = 0) :
    registerWrite off true v s = s.writeBlk b o ⟨true, false, v % 2 ^ 32⟩ := by
  have h4 : off % 4 = 0 := by omega
  unfold registerWrite
  simp only [hb, serves_of_barUp h b, hk, hr, ha, h4, Bool.true_and, Bool.false_and, Bool.not_true, Bool.not_false, Bool.true_or, Bool.false_or,
    bne_self_eq_false, Bool.false_eq_true, if_false, if_true, show (0 == 4) = false from rfl]

/-- A write of half a register at a multiple of 4 that is none of 8 reaches the high half. -/
theorem registerWrite_high (h : s.barUp = true) (hb : blockOf (off / 8 * 8) = (b, o)) (hk : (b == .kte) = false)
    (hr : (s.regRead (off / 8 * 8)).isNone = false) (ha : off % 8 = 4) :
    registerWrite off true v s = s.writeBlk b o ⟨false, true, v % 2 ^ 32 * 2 ^ 32⟩ := by
  have h4 : off % 4 = 0 := by omega
  unfold registerWrite
  simp only [hb, serves_of_barUp h b, hk, hr, ha, h4, Bool.true_and, Bool.false_and, Bool.not_true, Bool.not_false, Bool.true_or, Bool.false_or,
    bne_self_eq_false, Bool.false_eq_true, if_false, if_true, show (4 == 4) = true from rfl]

/-- An offset with no register is counted and logged. -/
theorem registerWrite_missing (h : s.barUp = true) (hb : blockOf (off / 8 * 8) = (b, o)) (hk : (b == .kte) = false)
    (hr : (s.regRead (off / 8 * 8)).isNone = true ∨ off % 8 ≠ 0) : registerWrite off false v s = s.badReg := by
  unfold registerWrite
  have hbad : ((s.regRead (off / 8 * 8)).isNone || off % 8 != 0) = true := by
    obtain hn | ha := hr
    · rw [hn]; rfl
    · rw [Bool.or_eq_true]; exact .inr (bne_iff_ne.2 ha)
  simp only [hb, serves_of_barUp h b, hk, hbad, Bool.false_and, Bool.not_true, Bool.false_eq_true, if_false, if_true]

end Register

/-- A write of both halves replaces the register. -/
theorem over_whole {v : Nat} (cur : Nat) (h : v < 2 ^ 64) : RegW.over ⟨true, true, v⟩ cur = v := by
  unfold RegW.over
  simp only [if_true]
  omega

/-- A write of the low half keeps the high one. -/
theorem over_low (v cur : Nat) : RegW.over ⟨true, false, v % 2 ^ 32⟩ cur = v % 2 ^ 32 + 2 ^ 32 * (cur / 2 ^ 32 % 2 ^ 32) := by
  unfold RegW.over
  simp only [if_true, Bool.false_eq_true, if_false]
  omega

/-- A write of the high half keeps the low one. -/
theorem over_high (v cur : Nat) : RegW.over ⟨false, true, v % 2 ^ 32 * 2 ^ 32⟩ cur = cur % 2 ^ 32 + 2 ^ 32 * (v % 2 ^ 32) := by
  unfold RegW.over
  simp only [if_true, Bool.false_eq_true, if_false]
  omega

/-! ### The error log -/

/-- A byte of a number in little-endian order. -/
theorem leBytes_getD {n i x : Nat} (h : i < n) : (leBytes n x).getD i 0 = BitVec.ofNat 8 (x / 2 ^ (8 * i)) := by
  induction n generalizing i x with
  | zero => omega
  | succ n ih =>
    cases i with
    | zero => simp [leBytes]
    | succ i =>
      rw [leBytes, List.getD_cons_succ, ih (by omega), Nat.div_div_eq_div_mul, show 256 = 2 ^ 8 from rfl, ← Nat.pow_add,
        show 8 + 8 * i = 8 * (i + 1) by omega]

section Log
variable {t : Tel} {now : Nat} {e : Ev} {o : LogRec}

/-- An event that equals the newest record is merged into it. -/
theorem enter_merged (h : t.merges now e = some o) : (t.enter now e).1 =
    { t with ring := mapSet t.ring t.newestPos { o with count := satAdd 32 o.count 1 }, newest := some { o with count := satAdd 32 o.count 1 } } := by
  unfold Tel.enter
  rw [h]

/-- Any other event takes the position at HEAD while the ring has room. -/
theorem enter_room (h : t.merges now e = none) (hr : t.unread < 4096) :
    (t.enter now e).1 = (t.put (t.head % 4096) ⟨now, t.seq, e, 1⟩ true).sink 4096 (t.head % 4096) := by
  unfold Tel.enter
  rw [h]
  simp only [hr, if_true]

/-- In a full ring an event of a class that may be dropped is lost. -/
theorem enter_full_minor (h : t.merges now e = none) (hr : ¬t.unread < 4096) (hc : e.cls.minor = true) :
    (t.enter now e).1 = { t with lost := satAdd 32 t.lost 1 } := by
  unfold Tel.enter
  rw [h]
  simp only [hr, hc, if_true, if_false]

/-- In a full ring an event of any other class takes the place of the oldest record that may be dropped. -/
theorem enter_full_major {p : Nat} (h : t.merges now e = none) (hr : ¬t.unread < 4096) (hc : e.cls.minor = false) (hp : t.oldestMinor = some p) :
    (t.enter now e).1 = ({ t with lost := satAdd 32 t.lost 1 } : Tel).put p ⟨now, t.seq, e, 1⟩ false := by
  unfold Tel.enter
  rw [h]
  simp only [hr, hc, hp, if_false, Bool.false_eq_true]

/-- Where no record may be dropped it is lost itself. -/
theorem enter_full_lost (h : t.merges now e = none) (hr : ¬t.unread < 4096) (hp : t.oldestMinor = none) :
    (t.enter now e).1 = { t with lost := satAdd 32 t.lost 1 } := by
  unfold Tel.enter
  rw [h]
  simp only [hr, hp, if_false, ite_self]

/-- No record takes an event that none equals. -/
theorem merges_none (h : ∀ o, ¬(t.newest = some o ∧ o.ev.cls = e.cls ∧ o.ev.event = e.event ∧ o.ev.loc = e.loc ∧ o.ev.info = e.info ∧
    now ≤ o.time + 1000000)) : t.merges now e = none :=
  Option.eq_none_iff_forall_not_mem.2 fun o ho => h o ((Tel.merges_iff t now e o).1 ho)

/-- A record put at HEAD, whose TIME no record below it has, stays there. -/
theorem put_head_stays {r : LogRec} (h : ∀ o, mapGet t.ring ((t.head % 4096 + 4095) % 4096) = some o → o.time ≠ r.time) :
    (t.put (t.head % 4096) r true).sink 4096 (t.head % 4096) = t.put (t.head % 4096) r true := by
  refine Tel.sink_stays _ _ _ r (mapGet_mapSet_self _ _ _) fun o ho => h o ?_
  rw [← ho]
  exact (mapGet_mapSet_ne _ _ _ _ (by omega)).symm

/-- The classes whose records may be dropped. -/
theorem minor_iff {c : EvClass} : c.minor = true ↔ c ∈ [EvClass.c, .s, .v] := by
  cases c <;> decide

/-- The oldest record that may be dropped, where every record before it may not. -/
theorem oldestMinor_some {i : Nat} (hi : i < 4096) (ho : mapGet t.ring ((t.tail + i) % 4096) = some o) (hc : o.ev.cls ∈ [EvClass.c, .s, .v])
    (hb : ∀ j < i, ∃ o', mapGet t.ring ((t.tail + j) % 4096) = some o' ∧ o'.ev.cls ∉ [EvClass.c, .s, .v]) :
    t.oldestMinor = some ((t.tail + i) % 4096) := by
  unfold Tel.oldestMinor
  rw [List.find?_map]
  refine congrArg (Option.map _) (List.find?_eq_some_iff_getElem.2 ⟨?_, i, by simpa using hi, List.getElem_range _, ?_⟩ : _ = some i)
  · simp only [Function.comp_apply, ho]
    exact minor_iff.2 hc
  · intro j hj
    obtain ⟨o', ho', hc'⟩ := hb j hj
    simp only [List.getElem_range, Function.comp_apply, ho', Bool.not_eq_eq_eq_not, Bool.not_true]
    exact Bool.eq_false_iff.2 fun h => hc' (minor_iff.1 h)

/-- No record may be dropped. -/
theorem oldestMinor_none (h : ∀ i < 4096, ∃ o', mapGet t.ring ((t.tail + i) % 4096) = some o' ∧ o'.ev.cls ∉ [EvClass.c, .s, .v]) :
    t.oldestMinor = none := by
  unfold Tel.oldestMinor
  rw [List.find?_map, List.find?_eq_none.2]
  · rfl
  · intro i hi
    obtain ⟨o', ho', hc'⟩ := h i (List.mem_range.1 hi)
    simp only [Function.comp_apply, ho']
    exact fun h => hc' (minor_iff.1 h)

end Log

/-! ### The entries of the export targets -/

/-- The bytes of an entry, one word of which a write replaces. -/
theorem getD_word {l : List Byte} {w v i : Nat} (hl : l.length = 64) (hw : w < 8) (hi : i < 64) :
    (l.take (8 * w) ++ leBytes 8 v ++ l.drop (8 * w + 8)).getD i 0 =
      if 8 * w ≤ i ∧ i < 8 * w + 8 then BitVec.ofNat 8 (v / 2 ^ (8 * (i - 8 * w))) else l.getD i 0 := by
  have htake : (l.take (8 * w)).length = 8 * w := by rw [List.length_take]; omega
  have hlen : (l.take (8 * w) ++ leBytes 8 v).length = 8 * w + 8 := by rw [List.length_append, htake]; rfl
  simp only [List.getD_eq_getElem?_getD]
  by_cases h1 : i < 8 * w
  · rw [if_neg (by omega), List.append_assoc, List.getElem?_append_left (by omega), List.getElem?_take_of_lt h1]
  by_cases h2 : i < 8 * w + 8
  · rw [if_pos (by omega), List.getElem?_append_left (by omega), List.getElem?_append_right (by omega), htake, ← List.getD_eq_getElem?_getD,
      leBytes_getD (by omega)]
  · rw [if_neg (by omega), List.getElem?_append_right (by omega), hlen, List.getElem?_drop, show 8 * w + 8 + (i - (8 * w + 8)) = i by omega]

/-- A target in use: by telemetry, or by an active stream. -/
theorem targetUsed_iff {s : State} {t : Nat} :
    ((s.tel.xEn && s.tel.xTarget == t) || s.xpt.streams.any fun (_, x) => x.active && x.target == t) = true ↔
      (s.tel.xEn = true ∧ s.tel.xTarget = t) ∨ ∃ n y, (n, y) ∈ s.xpt.streams ∧ y.active = true ∧ y.target = t := by
  simp only [Bool.or_eq_true, Bool.and_eq_true, beq_iff_eq, List.any_eq_true, Prod.exists]

/-! ### What an event does to the log -/

section Event
variable {s : State} {e : Ev} {o : LogRec}

/-- Every event is counted by its class. -/
theorem log_cnt (s : State) (e : Ev) (c : Nat) : mapGetD (s.log e).tel.cnt c 0 =
    if c = e.cls.code then (mapGetD s.tel.cnt c 0 + 1) % 2 ^ 64 else mapGetD s.tel.cnt c 0 := by
  rw [State.log_tel]
  unfold mapGetD mapUpd
  split
  · next h => rw [h, mapGet_mapSet_self]; rfl
  · next h => rw [mapGet_mapSet_ne _ _ _ _ h]

/-- An event that equals the newest record counts in it alone. -/
theorem log_merged (h : s.tel.merges s.pwr.tb e = some o) :
    (s.log e).tel.newest = some { o with count := min (o.count + 1) (2 ^ 32 - 1) } ∧ (s.log e).tel.seq = s.tel.seq ∧
      (s.log e).tel.head = s.tel.head ∧ (s.log e).tel.lost = s.tel.lost := by
  rw [State.log_tel, enter_merged h]
  exact ⟨rfl, rfl, rfl, rfl⟩

/-- Any other event takes the next SEQ, and the position at HEAD, while the ring has room. -/
theorem log_room (h : s.tel.merges s.pwr.tb e = none) (hr : s.tel.unread < 4096) :
    (s.log e).tel.seq = (s.tel.seq + 1) % 2 ^ 32 ∧ (s.log e).tel.head = (s.tel.head + 1) % 2 ^ 32 ∧ (s.log e).tel.lost = s.tel.lost := by
  rw [State.log_tel, enter_room h hr, Tel.sink_frame]
  exact ⟨rfl, rfl, rfl⟩

/-- With a TIME that the record below does not have, the record stands at HEAD and is the newest. -/
theorem log_room_placed (h : s.tel.merges s.pwr.tb e = none) (hr : s.tel.unread < 4096)
    (hb : ∀ o, mapGet s.tel.ring ((s.tel.head % 4096 + 4095) % 4096) = some o → o.time ≠ s.pwr.tb) :
    (s.log e).tel.newest = some ⟨s.pwr.tb, s.tel.seq, e, 1⟩ ∧
      (s.log e).tel.ring = mapSet s.tel.ring (s.tel.head % 4096) ⟨s.pwr.tb, s.tel.seq, e, 1⟩ := by
  rw [State.log_tel, enter_room h hr, put_head_stays hb]
  exact ⟨rfl, rfl⟩

/-- What a full ring cannot take is lost. -/
theorem log_lost (h : (s.tel.enter s.pwr.tb e).1 = { s.tel with lost := satAdd 32 s.tel.lost 1 }) :
    (s.log e).tel.ring = s.tel.ring ∧ (s.log e).tel.seq = s.tel.seq ∧ (s.log e).tel.head = s.tel.head ∧
      (s.log e).tel.lost = min (s.tel.lost + 1) (2 ^ 32 - 1) := by
  rw [State.log_tel, h]
  exact ⟨rfl, rfl, rfl, rfl⟩

/-- In a full ring the record takes the place of another, which is lost. -/
theorem log_replaces {p : Nat}
    (h : (s.tel.enter s.pwr.tb e).1 = ({ s.tel with lost := satAdd 32 s.tel.lost 1 } : Tel).put p ⟨s.pwr.tb, s.tel.seq, e, 1⟩ false) :
    (s.log e).tel.ring = mapSet s.tel.ring p ⟨s.pwr.tb, s.tel.seq, e, 1⟩ ∧ (s.log e).tel.seq = (s.tel.seq + 1) % 2 ^ 32 ∧
      (s.log e).tel.head = s.tel.head ∧ (s.log e).tel.lost = min (s.tel.lost + 1) (2 ^ 32 - 1) := by
  rw [State.log_tel, h]
  exact ⟨rfl, rfl, rfl, rfl⟩

/-- HEAD and LOST after an event of a class that is kept, in a full ring. -/
theorem log_full_major (h : s.tel.merges s.pwr.tb e = none) (hr : ¬s.tel.unread < 4096) (hc : e.cls.minor = false) :
    (s.log e).tel.head = s.tel.head ∧ (s.log e).tel.lost = min (s.tel.lost + 1) (2 ^ 32 - 1) := by
  cases hp : s.tel.oldestMinor with
  | none => exact (log_lost (enter_full_lost h hr hp)).2.2
  | some p => exact (log_replaces (enter_full_major h hr hc hp)).2.2

end Event

/-- The values of TICK_CFG in range. -/
theorem tickCfgOk_iff {v : Nat} : tickCfgOk v = true ↔ 1000 ≤ bits v 0 17 ∧ bits v 0 17 ≤ 100000 ∧ 10 ≤ bits v 17 8 ∧ bits v 17 8 ≤ 250 ∧
    bits v 25 7 ≤ 50 ∧ 1 ≤ bits v 32 7 ∧ bits v 32 7 ≤ 100 := by
  simp only [tickCfgOk, Bool.and_eq_true, decide_eq_true_eq, and_assoc]

section Locks
variable {s : State} {v : Nat}

/-- A write of TICK_CFG. -/
theorem writeTickCfg (hv : v < 2 ^ 64) : s.writeSch 0x08 ⟨true, true, v⟩ = s.regIf (s.sch.stopped && tickCfgOk v) uSch
    { s with sch := { s.sch with period := bits v 0 17, ballast := bits v 17 8, gshare := bits v 25 7, xshare := bits v 32 7 } } :=
  congrArg (fun n => s.regIf (s.sch.stopped && tickCfgOk n) uSch
    { s with sch := { s.sch with period := bits n 0 17, ballast := bits n 17 8, gshare := bits n 25 7, xshare := bits n 32 7 } }) (over_whole _ hv)

/-- A locked MODID is held: another value is refused and logged, and the same one changes nothing. -/
theorem writeModid_locked (hl : s.lnk.lock = true) : s.writeModid v =
    if bits v 0 20 ≠ s.lnk.modId ∨ bit v 20 = false then s.log ⟨.v, uPort, evRegLocked, 0xFFFF, 0xFFFF, 0⟩ else s := by
  have hid : v % 2 ^ 20 = bits v 0 20 := by rw [bits, Nat.pow_zero, Nat.div_one]
  refine (if_pos hl).trans ?_
  rw [hid]
  exact if_congr (by rw [Bool.or_eq_true, bne_iff_ne, Bool.not_eq_true']) rfl rfl

/-- A locked SEC.LOCK is held: other fields are refused and logged. -/
theorem writeLock_locked (hl : s.sec.lock = true) (h : bit v 0 ≠ s.sec.lockProf ∨ bit v 1 ≠ s.sec.lockUpd ∨ bit v 2 = false) :
    s.writeLock v = s.log ⟨.v, uBoot, evRegLocked, 0xFFFF, 0xFFFF, 0⟩ :=
  (if_pos hl).trans (if_pos (by rw [Bool.or_eq_true, Bool.or_eq_true, bne_iff_ne, bne_iff_ne, Bool.not_eq_true', or_assoc]; exact h))

end Locks

/-- Settles O54: register by register, and by what the log does with an event. -/
theorem registerWrites : Obligations.RegisterWrites := by
  unfold Obligations.RegisterWrites
  intro s v hbar b good p l x
  have hv : v.toNat < 2 ^ 64 := v.isLt
  have hg : s.glbUp = true := by unfold State.glbUp; rw [hbar]; rfl
  have hlow : b 0 32 = v.toNat % 2 ^ 32 := by show bits v.toNat 0 32 = _; rw [bits, Nat.pow_zero, Nat.div_one]
  refine ⟨?_, ?_, ?_, ?_, ?_, ?_, ?_, ?_, ?_, ?_, ?_, ?_, ?_, ?_, ?_, ?_, ?_, ?_⟩
  · intro off hoff
    simp only [List.mem_cons, List.not_mem_nil, or_false] at hoff
    obtain rfl | rfl | rfl | rfl | rfl | rfl := hoff <;>
      exact congrArg Host.Outcome.next (registerWrite_whole hbar rfl rfl rfl rfl)
  · intro off hoff
    simp only [List.mem_cons, List.not_mem_nil, or_false] at hoff
    obtain rfl | rfl | rfl | rfl | rfl := hoff
    case inr.inr.inr.inl => exact congrArg Host.Outcome.next (registerWrite_missing hbar rfl rfl (.inr (by decide)))
    all_goals exact congrArg Host.Outcome.next (registerWrite_missing hbar rfl rfl (.inl rfl))
  · intro hst hgood
    refine congrArg Host.Outcome.next ((registerWrite_whole hbar rfl rfl rfl rfl).trans ((writeTickCfg hv).trans ?_))
    exact if_pos (by rw [hst, tickCfgOk_iff.2 hgood]; rfl)
  · intro hbad
    refine congrArg Host.Outcome.next ((registerWrite_whole hbar rfl rfl rfl rfl).trans ((writeTickCfg hv).trans ?_))
    refine if_neg fun h => ?_
    rw [Bool.and_eq_true] at h
    obtain ⟨hst, hok⟩ := h
    exact hbad.elim (fun hs => absurd hst (by rw [hs]; exact nofun)) fun hn => hn (tickCfgOk_iff.1 hok)
  · refine congrArg Host.Outcome.next ((registerWrite_whole hbar rfl rfl rfl rfl).trans ?_)
    exact congrArg (fun n => { s with pgm := { p with arg1 := n } }) (over_whole _ hv)
  · refine congrArg Host.Outcome.next ((registerWrite_low hbar rfl rfl rfl rfl).trans ?_)
    rw [hlow]
    exact congrArg (fun n => { s with pgm := { p with arg1 := n } }) (over_low _ _)
  · refine congrArg Host.Outcome.next ((registerWrite_high hbar rfl rfl rfl rfl).trans ?_)
    rw [hlow]
    exact congrArg (fun n => { s with pgm := { p with arg1 := n } }) (over_high _ _)
  · refine congrArg Host.Outcome.next ((registerWrite_whole hbar rfl rfl rfl rfl).trans ?_)
    rw [← bit_toNat, ← bit_toNat]
    rfl
  · refine congrArg Host.Outcome.next ((registerWrite_whole hbar rfl rfl rfl rfl).trans ?_)
    refine congrArg (fun n => { s with tel := { s.tel with thresh := n } }) ?_
    show v.toNat % 2 ^ 13 = bits v.toNat 0 13
    rw [bits, Nat.pow_zero, Nat.div_one]
  · intro hl hc
    refine congrArg Host.Outcome.next ((registerWrite_whole hbar rfl rfl rfl rfl).trans ((writeModid_locked hl).trans (if_pos ?_)))
    rw [bit_toNat]
    exact hc
  · intro hl hid hb20
    refine congrArg Host.Outcome.next ((registerWrite_whole hbar rfl rfl rfl rfl).trans ((writeModid_locked hl).trans (if_neg ?_)))
    rw [bit_toNat, hb20]
    exact not_or.2 ⟨not_not.2 hid, nofun⟩
  · intro hl
    refine congrArg Host.Outcome.next ((registerWrite_whole hbar rfl rfl rfl rfl).trans ((if_neg (Bool.eq_false_iff.1 hl)).trans ?_))
    simp only [bit_toNat]
    rfl
  · intro hl hc
    refine congrArg Host.Outcome.next ((registerWrite_whole hbar rfl rfl rfl rfl).trans (writeLock_locked hl ?_))
    simp only [bit_toNat]
    exact hc
  · intro t w used
    refine ⟨fun hu => congrArg Host.Outcome.next ((if_pos hbar).trans (if_pos (targetUsed_iff.2 hu))), fun hn hlen => ⟨_,
      congrArg Host.Outcome.next ((if_pos hbar).trans (if_neg (mt targetUsed_iff.1 hn))), fun i hi => getD_word hlen w.isLt hi⟩⟩
  · intro hok
    rw [← bit_toNat] at hok ⊢
    refine congrArg Host.Outcome.next ((if_pos hg).trans (if_neg fun h => ?_))
    simp only [Bool.and_eq_true, Bool.or_eq_true, Bool.not_eq_true', beq_iff_eq] at h
    obtain ⟨hb0, hbad⟩ := h
    obtain hz | ⟨hu, hk⟩ := hok
    · rw [hz] at hb0
      cases hb0
    · exact hbad.elim (fun hf => absurd hu (by rw [hf]; exact nofun)) hk
  · intro hb0 hbad
    rw [← bit_toNat] at hb0
    refine congrArg Host.Outcome.next ((if_pos hg).trans (if_pos ?_))
    simp only [Bool.and_eq_true, Bool.or_eq_true, Bool.not_eq_true', beq_iff_eq]
    exact ⟨hb0, hbad⟩
  · exact fun n => ⟨fun hle => congrArg Host.Outcome.next ((if_pos hg).trans (if_neg (Nat.not_lt.2 hle))),
      fun hlt => congrArg Host.Outcome.next ((if_pos hg).trans (if_pos hlt))⟩
  · intro e t r merges full at_
    have hfree (h : ∀ o, ¬merges o) : s.tel.merges s.pwr.tb e = none := merges_none h
    refine ⟨State.log_frame s e, log_cnt s e, fun o ho => log_merged ((Tel.merges_iff _ _ _ _).2 ho), fun hm hr => ?_, ?_, ?_⟩
    · obtain ⟨hseq, hhead, hlost⟩ := log_room (hfree hm) hr
      refine ⟨hseq, hhead, hlost, fun hb => ?_⟩
      obtain ⟨hnew, hring⟩ := log_room_placed (hfree hm) hr hb
      refine ⟨hnew, ?_, fun i hi => ?_⟩
      · rw [hring, mapGet_mapSet_self]
      · rw [hring, mapGet_mapSet_ne _ _ _ _ hi]
    · intro ⟨hr, hm⟩ hc
      exact log_lost (enter_full_minor (hfree hm) (by omega) (minor_iff.2 hc))
    · intro ⟨hr, hm⟩ hc
      have hfull : ¬s.tel.unread < 4096 := by omega
      have hmajor : e.cls.minor = false := Bool.eq_false_iff.2 fun h => hc (minor_iff.1 h)
      obtain ⟨hhead, hlost⟩ := log_full_major (hfree hm) hfull hmajor
      refine ⟨hhead, hlost, fun i o hi ho hoc hb => ?_, fun hall => ?_⟩
      · obtain ⟨hring, hseq, _, _⟩ := log_replaces (enter_full_major (hfree hm) hfull hmajor (oldestMinor_some hi ho hoc hb))
        exact ⟨by rw [hring, mapGet_mapSet_self], hseq, fun k hk => by rw [hring, mapGet_mapSet_ne _ _ _ _ hk]⟩
      · obtain ⟨hring, hseq, _, _⟩ := log_lost (enter_full_lost (hfree hm) hfull (oldestMinor_none hall))
        exact ⟨hring, hseq⟩

end Sys2Proof.Stated
end

section
/-! SUPPORT. What sending a message over Lerbo leaves as it was (§15.3–§15.5), and the commands of GLB.UNIT_CMD (file 10). -/
namespace Sys2Proof.Stated
open Sys2Proof.Machine

/-! ### Sending over Lerbo -/

/-- Of the state only the links, and what the module sends, may differ. -/
def linkOnly (s t : State) : Prop := t = { s with lnk := t.lnk, out := t.out }

theorem linkOnly_refl (s : State) : linkOnly s s := rfl

theorem linkOnly_trans {s t u : State} (h : linkOnly s t) (h' : linkOnly t u) : linkOnly s u := by
  unfold linkOnly at *
  rw [h']
  dsimp only
  rw [h]

theorem linkOnly_foldl {α : Type} {f : State → α → State} (l : List α) (hf : ∀ s x, linkOnly s (f s x)) (s : State) : linkOnly s (l.foldl f s) := by
  induction l generalizing s with
  | nil => rfl
  | cons x l ih => exact linkOnly_trans (hf s x) (ih _)

theorem fill_linkOnly (s : State) (p : Nat) : linkOnly s (s.fill p) :=
  linkOnly_foldl _ (fun s _ => by
    dsimp only
    split
    · rfl
    · rfl) s

/-- What a port sends changes the links alone. -/
theorem pump_linkOnly (p n : Nat) (s : State) : linkOnly s (State.pump p n s) := by
  induction n generalizing s with
  | zero => rfl
  | succ n ih =>
    unfold State.pump
    dsimp only
    split
    · rfl
    · split
      · rfl
      · split
        · rfl
        · refine linkOnly_trans ?_ (ih _)
          split
          · split
            · refine linkOnly_trans ?_ (fill_linkOnly _ _)
              rfl
            · rfl
          · rfl

theorem enqueue_linkOnly (s : State) (m : LMsg) : linkOnly s (s.enqueue m).2 := by
  unfold State.enqueue
  split
  · rfl
  · split
    · rfl
    · dsimp only
      split
      · refine linkOnly_trans ?_ (pump_linkOnly _ _ _)
        rfl
      · rfl

/-- A message that is neither a signal nor a WRITE changes the links alone, even where it cannot be delivered. -/
theorem lerboSend_linkOnly (s : State) {mtype : Nat} (dst : Nat) (body : List Byte) (h1 : mtype ≠ 0x21) (h2 : mtype ≠ 0x02) :
    linkOnly s (s.lerboSend dst mtype body) := by
  unfold State.lerboSend
  dsimp only
  split
  · exact enqueue_linkOnly _ _
  · refine linkOnly_trans (enqueue_linkOnly s (s.ownMsg dst mtype body)) ?_
    unfold State.undeliverable
    rw [if_neg (show ¬(s.ownMsg dst mtype body).mtype = 0x21 from h1), if_neg (show ¬(s.ownMsg dst mtype body).mtype = 0x02 from h2)]
    rfl

theorem unitReqs_linkOnly (s : State) (ms : List Nat) (tag cmd : Nat) (desc : List Byte) : linkOnly s (s.unitReqs ms tag cmd desc) :=
  linkOnly_foldl _ (fun s m => lerboSend_linkOnly s m _ (by decide) (by decide)) s

/-- What the links do leaves the kites and the bridles. -/
theorem linkOnly.kites {s t : State} (h : linkOnly s t) : t.kites = s.kites := by
  unfold linkOnly at h
  rw [h]

theorem linkOnly.brd {s t : State} (h : linkOnly s t) : t.brd = s.brd := by
  unfold linkOnly at h
  rw [h]

/-! ### Halts of the kites of a unit (R217, R442) -/

/-- A kite of which a halt is asked: one that runs, and of which none is asked yet, stops at the end of the next cycle. -/
def haltAsked (cyc : Nat) (kt : Kite) : Kite :=
  if kt.stopped = false ∧ kt.reqEnd = false then { kt with reqEnd := true, haltAt := cyc + 1 } else kt

theorem haltAsked_idem (cyc : Nat) (kt : Kite) : haltAsked cyc (haltAsked cyc kt) = haltAsked cyc kt := by
  by_cases h : kt.stopped = false ∧ kt.reqEnd = false
  · have hasked : haltAsked cyc kt = { kt with reqEnd := true, haltAt := cyc + 1 } := if_pos h
    rw [hasked]
    exact if_neg fun h => Bool.noConfusion h.2
  · have hkept : haltAsked cyc kt = kt := if_neg h
    rw [hkept, hkept]

section Halts
variable {s : State} {k j : Nat}

theorem haltAsked_of_running (hs : (s.kite k).stopped = false) : haltAsked s.cyc (s.kite k) = askedHalt s.cyc (s.kite k) := by
  unfold haltAsked askedHalt
  cases hr : (s.kite k).reqEnd with
  | true => exact (if_neg fun h => Bool.noConfusion h.2).trans (if_pos rfl).symm
  | false => exact (if_pos ⟨hs, rfl⟩).trans (if_neg nofun).symm

/-- A request to halt stores the kite, and is logged where the kite serves. -/
theorem haltReq_eq (hs : (s.kite k).stopped = false) : Machine.haltReq k s =
    (if s.isServing (s.kite k).unit then s.log (Ev.kite .v evRegIgnored k 0) else s).setKite k (haltAsked s.cyc (s.kite k)) := by
  rw [haltAsked_of_running hs]
  have hrun : (askedHalt s.cyc (s.kite k)).stopped = false := (stopped_of_st (askedHalt_st _ _)).trans hs
  have hquiet : (askedHalt s.cyc (s.kite k)).evs = [] := askedHalt_evs _ _
  have hreq : Machine.haltReq k s = s.putKite k (if s.isServing (askedHalt s.cyc (s.kite k)).unit
      then (askedHalt s.cyc (s.kite k)).event k .v evRegIgnored else askedHalt s.cyc (s.kite k)) := if_neg (Bool.eq_false_iff.1 hs)
  rw [hreq, askedHalt_unit]
  split
  · have hev : ((askedHalt s.cyc (s.kite k)).event k .v evRegIgnored).evs = [Ev.kite .v evRegIgnored k 0] :=
      congrArg (· ++ [Ev.kite .v evRegIgnored k 0]) hquiet
    refine (State.putKite_minor s k ((askedHalt s.cyc (s.kite k)).event k .v evRegIgnored) hrun fun x hx => ?_).trans ?_
    · rw [hev, List.mem_singleton] at hx
      rw [hx]
      exact nofun
    · rw [hev]
      exact congrArg (State.setKite _ _) (withoutEvs hquiet)
  · exact State.putKite_quiet _ _ _ hrun hquiet

/-- A kite that stands takes no notice. -/
theorem haltReq_stopped (hs : (s.kite k).stopped = true) : Machine.haltReq k s = s := if_pos hs

theorem haltReq_kitesAndLog (k : Nat) (s : State) : kitesAndLog s (Machine.haltReq k s) := by
  cases hs : (s.kite k).stopped with
  | true => rw [haltReq_stopped hs]; rfl
  | false =>
    rw [haltReq_eq hs]
    split
    · have h := State.log_frame s (Ev.kite .v evRegIgnored k 0)
      unfold kitesAndLog State.setKite
      unfold logOnly at h
      rw [h]
    · rfl

theorem haltReq_kite (k j : Nat) (s : State) : (Machine.haltReq k s).kite j = if j = k then haltAsked s.cyc (s.kite j) else s.kite j := by
  cases hs : (s.kite k).stopped with
  | true =>
    rw [haltReq_stopped hs]
    split
    · next h => rw [h]; exact (if_neg (by rw [hs]; exact nofun)).symm
    · rfl
  | false =>
    rw [haltReq_eq hs]
    by_cases h : j = k
    · rw [if_pos h, h, State.setKite_kite_self, haltAsked_of_running hs]
      exact withoutEvs (askedHalt_evs _ _)
    · rw [if_neg h, State.setKite_kite_ne _ _ _ _ h]
      split
      · exact logOnly_kite (State.log_frame _ _) j
      · rfl

theorem haltReq_silent (h : s.isServing (s.kite k).unit = false) : (Machine.haltReq k s).tel = s.tel ∧ (Machine.haltReq k s).out = s.out := by
  cases hs : (s.kite k).stopped with
  | true => rw [haltReq_stopped hs]; exact ⟨rfl, rfl⟩
  | false => rw [haltReq_eq hs, h]; exact ⟨rfl, rfl⟩

end Halts

theorem kitesAndLog_trans {s t u : State} (h : kitesAndLog s t) (h' : kitesAndLog t u) : kitesAndLog s u := by
  unfold kitesAndLog at *
  rw [h']
  dsimp only
  rw [h]

/-- Halts asked of several kites. -/
def haltAll (l : List (Nat × Nat)) (s : State) : State := l.foldl (fun s x => Machine.haltReq x.2 s) s

theorem haltAll_kitesAndLog (l : List (Nat × Nat)) (s : State) : kitesAndLog s (haltAll l s) := by
  induction l generalizing s with
  | nil => rfl
  | cons x l ih => exact kitesAndLog_trans (haltReq_kitesAndLog x.2 s) (ih _)

theorem kitesAndLog_cyc {s t : State} (h : kitesAndLog s t) : t.cyc = s.cyc := by
  unfold kitesAndLog at h
  rw [h]

theorem kitesAndLog_isServing {s t : State} (h : kitesAndLog s t) (u : Nat) : t.isServing u = s.isServing u := by
  unfold kitesAndLog at h
  rw [h]
  rfl

/-- Each kite named is asked once, and every other one is as it was. -/
theorem haltAll_kite (l : List (Nat × Nat)) (s : State) (j : Nat) :
    (haltAll l s).kite j = if j ∈ l.map (·.2) then haltAsked s.cyc (s.kite j) else s.kite j := by
  induction l generalizing s with
  | nil => rfl
  | cons x l ih =>
    refine (ih (Machine.haltReq x.2 s)).trans ?_
    rw [haltReq_kite, kitesAndLog_cyc (haltReq_kitesAndLog x.2 s)]
    by_cases hj : j = x.2
    · rw [if_pos hj, haltAsked_idem, ite_self]
      exact (if_pos (List.mem_cons.2 (.inl hj))).symm
    · rw [if_neg hj]
      exact if_congr (by rw [List.map_cons, List.mem_cons, or_iff_right hj]) rfl rfl

/-- Where no kite serves nothing is logged. -/
theorem haltAll_silent (l : List (Nat × Nat)) {s : State} (h : ∀ k, s.isServing (s.kite k).unit = false) :
    (haltAll l s).tel = s.tel ∧ (haltAll l s).out = s.out := by
  induction l generalizing s with
  | nil => exact ⟨rfl, rfl⟩
  | cons x l ih =>
    have hkeep : ∀ k, (Machine.haltReq x.2 s).isServing ((Machine.haltReq x.2 s).kite k).unit = false := fun k => by
      have hunit : ((Machine.haltReq x.2 s).kite k).unit = (s.kite k).unit := by
        rw [haltReq_kite]
        unfold haltAsked
        split
        · split <;> rfl
        · rfl
      rw [hunit, kitesAndLog_isServing (haltReq_kitesAndLog x.2 s)]
      exact h k
    obtain ⟨htel, hout⟩ := haltReq_silent (h x.2)
    obtain ⟨htel', hout'⟩ := ih hkeep
    exact ⟨htel'.trans htel, hout'.trans hout⟩

/-! ### The commands (R206–R209, R217, R446) -/

section Commands
variable {s : State} {t : Train} {u : Nat}

/-- A descriptor out of range is refused. -/
theorem defineCheck_bad {d : List Byte} (h : fieldLe d 0 4 < 0x10000 ∨ 0x11000 ≤ fieldLe d 0 4) : (s.defineCheck d).1 = 1 := by
  have hbad : descBad d = true := by
    unfold descBad
    dsimp only
    obtain h | h := h
    · rw [decide_eq_true h]; rfl
    · rw [decide_eq_true h]; simp only [Bool.or_true, Bool.true_or]
  exact congrArg Prod.fst (if_pos hbad)

/-- A train that passes the checks is the descriptor's: its members, its bridle runs and the placement of its members. -/
theorem defineCheck_ok {d : List Byte} (h : s.defineCheck d = (0, t)) :
    t.members = s.descMembers d ∧ t.bruns = s.descBruns d ∧ s.flatten t.members = some t.runs := by
  unfold State.defineCheck at h
  dsimp only at h
  split at h
  · cases h
  · split at h
    · cases h
    · next rs hrs =>
      split at h
      · cases h
      · split at h
        · cases h
        · split at h
          · cases h
          · split at h
            · cases h
            · split at h
              · cases h
              · cases h
                exact ⟨rfl, rfl, hrs⟩

/-- A command while another is in progress is ignored. -/
theorem unitBusy_some (h : s.brd.op ≠ none) : s.unitBusy = true := Option.isSome_iff_ne_none.2 h

theorem unitBusy_none (h : s.brd.op = none) : ¬s.unitBusy = true := by
  unfold State.unitBusy
  rw [h]
  exact nofun

/-- DEFINE that fails its checks ends with their status. -/
theorem unitDefine_refused {c : Nat} (hop : s.brd.op = none) (hc : (s.defineCheck s.descWindow).1 = c) (h : c ≠ 0) : unitDefine s = unitEnd s c := by
  refine (if_neg (unitBusy_none hop)).trans ?_
  dsimp only
  rw [hc]
  exact if_pos (bne_iff_ne.2 h)

/-- DEFINE of a train of this module alone installs it. -/
theorem unitDefine_here (hop : s.brd.op = none) (hc : s.defineCheck s.descWindow = (0, t)) (hm : s.trainMods t = []) :
    unitDefine s = unitEnd (withTrains s (mapSet s.brd.trains (fieldLe s.descWindow 0 4) t)) 0 := by
  refine (if_neg (unitBusy_none hop)).trans ?_
  dsimp only
  rw [hc, hm]
  rfl

/-- DEFINE of a train that spans modules asks them. -/
theorem unitDefine_asks (hop : s.brd.op = none) (hc : s.defineCheck s.descWindow = (0, t)) (hm : s.trainMods t ≠ []) :
    unitDefine s = (s.unitWait 1 (fieldLe s.descWindow 0 4) (some t) none (s.trainMods t) 0).unitReqs (s.trainMods t) s.brd.tag reqDefine
      (s.trainDesc (fieldLe s.descWindow 0 4) t) := by
  refine (if_neg (unitBusy_none hop)).trans ?_
  dsimp only
  rw [hc]
  exact (if_neg nofun).trans (if_neg (by rw [List.isEmpty_iff]; exact hm))

/-- The state in which a command names its unit. -/
def withUnit (s : State) (u : Nat) : State := { s with brd := { s.brd with cmdUnit := u } }

theorem unitDelete_free (hop : s.brd.op = none) : unitDelete u s =
    if s.deleteStatus u != 0 then (withUnit s u).unitDone (s.deleteStatus u)
    else if (s.others ((mapGet s.brd.trains u).getD ⟨[], [], []⟩).runs).isEmpty then ((withUnit s u).removeTrain u).unitDone 0
    else ((withUnit s u).unitWait 2 u none none (s.others ((mapGet s.brd.trains u).getD ⟨[], [], []⟩).runs) 0).unitReqs
      (s.others ((mapGet s.brd.trains u).getD ⟨[], [], []⟩).runs) s.brd.tag reqDelete
      (s.trainDesc u ((mapGet s.brd.trains u).getD ⟨[], [], []⟩)) :=
  if_neg (unitBusy_none hop)

/-- A train that is idle, and no member of another, may be deleted. -/
theorem deleteStatus_ok (hu : 0x10000 ≤ u) (hu' : u < 0x11000) (ht : mapGet s.brd.trains u = some t) (hrun : s.anyRuns t.runs = false)
    (hserve : s.isServing u = false) (hmem : ∀ n x, (n, x) ∈ s.brd.trains → (0xFFFFF, u) ∉ x.members) : s.deleteStatus u = 0 := by
  have hfree : (s.brd.trains.any fun (_, x) => x.members.any fun m => m.1 == 0xFFFFF && m.2 == u) = false := by
    refine Bool.eq_false_iff.2 fun h => ?_
    obtain ⟨⟨n, x⟩, hx, hany⟩ := List.any_eq_true.1 h
    obtain ⟨⟨a, b⟩, hab, heq⟩ := List.any_eq_true.1 hany
    simp only [Bool.and_eq_true, beq_iff_eq] at heq
    obtain ⟨rfl, rfl⟩ := heq
    exact hmem n x hx hab
  unfold State.deleteStatus
  rw [if_neg (by simp only [Bool.or_eq_true, decide_eq_true_eq]; omega), ht]
  exact if_neg (by rw [hrun, hserve, hfree]; exact nofun)

/-- A unit number in the range of trains that is unknown. -/
theorem deleteStatus_unknown (hu : 0x10000 ≤ u) (hu' : u < 0x11000) (h : s.unitRuns u = none) : s.deleteStatus u = 2 := by
  have hnone : mapGet s.brd.trains u = none := by
    unfold State.unitRuns at h
    rw [if_neg (by omega), if_neg (by omega), if_neg (by omega), if_neg (by omega)] at h
    exact Option.map_eq_none_iff.1 h
  unfold State.deleteStatus
  rw [if_neg (by simp only [Bool.or_eq_true, decide_eq_true_eq]; omega), hnone]

/-- HALT_UNIT of an unknown unit. -/
theorem unitHalt_unknown (hop : s.brd.op = none) (h : s.unitRuns u = none) : unitHalt u s = unitEnd (withUnit s u) 2 := by
  have h' : (withUnit s u).unitRuns u = none := h
  refine (if_neg (unitBusy_none hop)).trans ?_
  dsimp only
  rw [show ({ s with brd := { s.brd with cmdUnit := u } } : State) = withUnit s u from rfl, h']
  rfl

/-- What HALT_UNIT halts: the kites of this module, and the unit counts as launched no longer. -/
theorem unitHalt_free {rs : List Run} (hop : s.brd.op = none) (h : s.unitRuns u = some rs) (hserve : s.isServing u = false) :
    unitHalt u s = (if ((withUnit s u).haltUnitKites u rs).others rs |>.isEmpty then ((withUnit s u).haltUnitKites u rs).unitDone 0
      else (((withUnit s u).haltUnitKites u rs).unitWait 4 u none none (((withUnit s u).haltUnitKites u rs).others rs) 0).unitReqs
        (((withUnit s u).haltUnitKites u rs).others rs) ((withUnit s u).haltUnitKites u rs).brd.tag reqHalt
        (((withUnit s u).haltUnitKites u rs).trainDesc u ((mapGet ((withUnit s u).haltUnitKites u rs).brd.trains u).getD ⟨[], [], []⟩))) := by
  have h' : (withUnit s u).unitRuns u = some rs := h
  refine (if_neg (unitBusy_none hop)).trans ?_
  dsimp only
  rw [show ({ s with brd := { s.brd with cmdUnit := u } } : State) = withUnit s u from rfl, h']
  exact if_neg (Bool.eq_false_iff.1 hserve)

/-- The state that HALT_UNIT leaves on this module. -/
theorem haltUnitKites_eq (rs : List Run) : (withUnit s u).haltUnitKites u rs = { haltAll (s.mine rs) (withUnit s u) with
    brd := { (haltAll (s.mine rs) (withUnit s u)).brd with launches := mapDel (haltAll (s.mine rs) (withUnit s u)).brd.launches u } } := rfl

/-- A failure stays where it comes before LINK in the order of R446. -/
theorem worse_of_mem {c : Nat} (h : c ∈ [1, 2, 3, 4, 6, 7, 9]) : worse c 7 = c := by
  simp only [List.mem_cons, List.not_mem_nil, or_false] at h
  obtain rfl | rfl | rfl | rfl | rfl | rfl | rfl := h <;> rfl

theorem worse_ne_zero (c : Nat) : worse c 7 ≠ 0 := by
  by_cases h : c = 0
  · rw [h]; decide
  · unfold worse
    split
    · decide
    · exact h

/-- A command that has failed ends, and leaves the kites. -/
theorem unitFinish_failed (s : State) {o : UnitOp} (h : o.status ≠ 0) : (s.unitFinish o).brd.status = o.status ∧
    (s.unitFinish o).brd.op = none ∧ (s.unitFinish o).kites = s.kites := by
  unfold State.unitFinish
  split
  · split
    · next hs _ => exact absurd hs h
    · dsimp only
      exact ⟨rfl, rfl, (unitReqs_linkOnly _ _ _ _ _).kites⟩
    · exact ⟨rfl, rfl, rfl⟩
  · split
    · split
      · exact ⟨rfl, rfl, (unitReqs_linkOnly _ _ _ _ _).kites⟩
      · exact ⟨rfl, rfl, rfl⟩
    · split
      · exact ⟨rfl, rfl, rfl⟩
      · exact ⟨rfl, rfl, rfl⟩

/-- A launch or a halt that has failed ends, and nothing else changes. -/
theorem unitFinish_quiet (s : State) {o : UnitOp} (h : o.status ≠ 0) (hk : o.kind = 3 ∨ o.kind = 4) : s.unitFinish o = unitEnd s o.status := by
  unfold State.unitFinish
  rw [if_neg (by omega), if_neg (by omega), if_neg h, ite_self]
  rfl

end Commands

/-- Settles O29: command by command. -/
theorem unitCommands : Obligations.UnitCommands := by
  unfold Obligations.UnitCommands
  intro s
  refine ⟨fun hup hop => ⟨?_, fun u => ⟨?_, ?_⟩⟩, fun hup hop hbad => ?_, fun t hup hop hc hm => ⟨?_, defineCheck_ok hc⟩,
    fun u t hup hop hu hu' ht hrun hserve hmem hoth => ?_, fun t hup hop hc hm => ?_, fun u t hup hop ht hok hoth => ?_,
    fun u rs hup hop hrs hserve hoth => ?_, fun u hup hop hrs => ⟨?_, fun hu hu' => ?_⟩, fun u rs hup hop hrs hserve hoth => ?_,
    fun o hop hw hlate => ?_⟩
  · exact congrArg Host.Outcome.next ((if_pos hup).trans (if_pos (unitBusy_some hop)))
  · exact congrArg Host.Outcome.next ((if_pos hup).trans (if_pos (unitBusy_some hop)))
  · exact congrArg Host.Outcome.next ((if_pos hup).trans (if_pos (unitBusy_some hop)))
  · exact congrArg Host.Outcome.next ((if_pos hup).trans (unitDefine_refused hop (defineCheck_bad hbad) (by decide)))
  · exact congrArg Host.Outcome.next ((if_pos hup).trans (unitDefine_here hop hc hm))
  · refine congrArg Host.Outcome.next ((if_pos hup).trans ((unitDelete_free hop).trans ?_))
    rw [deleteStatus_ok hu hu' ht hrun hserve hmem, ht]
    refine (if_neg nofun).trans (if_pos ?_)
    rw [List.isEmpty_iff]
    exact hoth
  · refine ⟨_, congrArg Host.Outcome.next ((if_pos hup).trans (unitDefine_asks hop hc hm)), ?_, ?_⟩
    · rw [(unitReqs_linkOnly _ _ _ _ _).kites]
      rfl
    · rw [(unitReqs_linkOnly _ _ _ _ _).brd]
      rfl
  · have hsend := (unitDelete_free (u := u.toNat) hop).trans ((if_neg (by rw [hok]; exact nofun)).trans
      (if_neg (by rw [ht, List.isEmpty_iff]; exact hoth)))
    rw [ht] at hsend
    refine ⟨_, congrArg Host.Outcome.next ((if_pos hup).trans hsend), ?_, ?_⟩
    · rw [(unitReqs_linkOnly _ _ _ _ _).kites]
      rfl
    · rw [(unitReqs_linkOnly _ _ _ _ _).brd]
      rfl
  · have hkeep := haltAll_kitesAndLog (s.mine rs) (withUnit s u.toNat)
    unfold kitesAndLog at hkeep
    have hothers : ((withUnit s u.toNat).haltUnitKites u.toNat rs).others rs = s.others rs := by
      rw [haltUnitKites_eq, hkeep]
      rfl
    have hsend := (unitHalt_free hop hrs hserve).trans (if_neg (by rw [hothers, List.isEmpty_iff]; exact hoth))
    refine ⟨_, congrArg Host.Outcome.next ((if_pos hup).trans hsend), ?_⟩
    rw [(unitReqs_linkOnly _ _ _ _ _).brd, hothers, haltUnitKites_eq, hkeep]
    rfl
  · exact congrArg Host.Outcome.next ((if_pos hup).trans (unitHalt_unknown hop hrs))
  · refine congrArg Host.Outcome.next ((if_pos hup).trans ((unitDelete_free hop).trans ?_))
    rw [deleteStatus_unknown hu hu' hrs]
    rfl
  · have hkeep := haltAll_kitesAndLog (s.mine rs) (withUnit s u.toNat)
    unfold kitesAndLog at hkeep
    have hothers : ((withUnit s u.toNat).haltUnitKites u.toNat rs).others rs = s.others rs := by
      rw [haltUnitKites_eq, hkeep]
      rfl
    refine ⟨_, congrArg Host.Outcome.next ((if_pos hup).trans ((unitHalt_free hop hrs hserve).trans
      (if_pos (by rw [hothers, List.isEmpty_iff]; exact hoth)))), ?_, ?_, ?_⟩
    · rw [haltUnitKites_eq, hkeep]
      rfl
    · exact fun h => haltAll_silent (s.mine rs) (s := withUnit s u.toNat) h
    · intro k
      refine (haltAll_kite (s.mine rs) (withUnit s u.toNat) k).trans ?_
      unfold haltAsked
      by_cases hk : k ∈ (s.mine rs).map (·.2)
      · rw [if_pos hk]
        exact if_congr (by rw [and_iff_right hk]; rfl) rfl rfl
      · rw [if_neg hk]
        exact (if_neg fun h => hk h.1).symm
  · have hwait : s.unitLate = true := by
      unfold State.unitLate
      rw [hop]
      simp only [Bool.and_eq_true, Bool.not_eq_true', List.isEmpty_eq_false_iff, decide_eq_true_eq]
      exact ⟨hw, hlate⟩
    have hrun : unitTimeout s = s.unitFinish { o with status := worse o.status 7, waiting := [] } := by
      unfold unitTimeout
      rw [hop]
      exact if_pos hwait
    obtain ⟨hst, hend, hkites⟩ := unitFinish_failed s (o := { o with status := worse o.status 7, waiting := [] }) (worse_ne_zero _)
    refine ⟨worse o.status 7, _, congrArg Host.Outcome.next hrun, hst, hend, hkites, fun h => ?_, worse_of_mem, fun hk => ?_⟩
    · rw [h]; rfl
    · exact unitFinish_quiet s (o := { o with status := worse o.status 7, waiting := [] }) (worse_ne_zero _) hk

end Sys2Proof.Stated
end

section
/-! SUPPORT. The PCIe link (R365), and the crossing to the host while its domains stand (R380, R384). -/
namespace Sys2Proof.Stated
open Sys2Proof.Machine

/-! ### The loss of the link (R335, R365) -/

/-- Of the state only the streams, and which pages are held for export, may differ, and no page more is held. -/
def cutOnly (s t : State) : Prop :=
  t = { s with xpt := t.xpt, pgm := { s.pgm with pins := t.pgm.pins } } ∧ ∀ p ∈ t.pgm.pins, p ∈ s.pgm.pins

theorem cutOnly_trans {s t u : State} (h : cutOnly s t) (h' : cutOnly t u) : cutOnly s u := by
  obtain ⟨ht, hp⟩ := h
  obtain ⟨hu, hp'⟩ := h'
  refine ⟨?_, fun p hm => hp p (hp' p hm)⟩
  rw [hu]
  dsimp only
  rw [ht]

theorem cutStream_cutOnly (s : State) (n : Nat) : cutOnly s (s.cutStream n) := by
  unfold State.cutStream
  dsimp only
  split
  · exact ⟨rfl, fun _ h => h⟩
  · split
    · exact ⟨rfl, fun _ h => List.mem_of_mem_filter h⟩
    · exact ⟨rfl, fun _ h => h⟩

theorem cutStreams_cutOnly (l : List Nat) (s : State) : cutOnly s (l.foldl State.cutStream s) := by
  induction l generalizing s with
  | nil => exact ⟨rfl, fun _ h => h⟩
  | cons n l ih => exact cutOnly_trans (cutStream_cutOnly s n) (ih _)

/-- A map each of whose values is changed by itself. -/
theorem mapGet_map {α β : Type} (f : α → β) (m : Map α) (k : Nat) : mapGet (m.map fun e => (e.1, f e.2)) k = (mapGet m k).map f := by
  induction m with
  | nil => rfl
  | cons e m ih =>
    obtain ⟨j, v⟩ := e
    rw [List.map_cons, mapGet, mapGet]
    split
    · rfl
    · exact ih

/-- A queue after the loss of the link. -/
def queueCut (x : Queue) : Queue := { x with en := false, draining := false, tails := [], held := [], outst := [], irqN := 0, irqAt := none }

/-- A request after the loss of the link at time `t`. -/
def reqCut (t : Nat) (r : Req) : Req :=
  if r.st == ReqSt.free && !r.held then r else { r with mute := true, cancelAt := some (r.cancelAt.getD t) }

/-- What the loss of the link leaves before its streams are cut. -/
def linkLost (s : State) : State :=
  { s with
    hst := { s.hst with linkUp := false, master := false, queues := s.hst.queues.map fun e => (e.1, queueCut e.2), waits := [] }
    sch := { s.sch with reqs := s.sch.reqs.map fun e => (e.1, reqCut s.stamp e.2) } }

theorem pcieLinkDown_eq (s : State) : pcieLinkDown s = ((mapKeys s.xpt.streams).foldl State.cutStream (linkLost s)).drew := rfl

/-! ### D3hot (R380, R384) -/

section Crossing
variable {s : State}

/-- The domains that stand beside those of PCIe. -/
def otherStopped (s : State) : List Nat := s.pwr.stopped.filter fun d => !pcieDomains.contains d

theorem mem_otherStopped {d : Nat} : d ∈ otherStopped s ↔ d ∈ s.pwr.stopped ∧ d ≠ 93 ∧ d ≠ 94 := by
  simp only [otherStopped, pcieDomains, List.mem_filter, List.contains_eq_mem, List.mem_cons, List.not_mem_nil, or_false, Bool.not_eq_true',
    decide_eq_false_iff_not, not_or]

/-- The state in which the module has left D3hot, with nothing waiting. -/
def awake (s : State) : State := { s with hst := { s.hst with d3 := false, waits := [] }, pwr := { s.pwr with stopped := otherStopped s } }

theorem awake_runs (s : State) : (awake s).hostWaits = false := by
  refine Bool.eq_false_iff.2 fun h => ?_
  obtain h | h := hostWaits_iff.1 h
  · exact (mem_otherStopped.1 h).2.1 rfl
  · exact (mem_otherStopped.1 h).2.2 rfl

/-- What waited at the crossing goes on: from state `s`, what `l` holds. -/
def goOn (l : List HostTx) (s : State) : State := l.foldl (fun s x => match x with
  | .write a b => (s.hostPut a b).2
  | .msix v => s.vector v) s

theorem d3hot_leave (s : State) : d3hot false s = goOn s.hst.waits (awake s) := by
  have hruns : State.hostWaits { s with hst := { s.hst with d3 := false }, pwr := { s.pwr with stopped := otherStopped s } } = false := awake_runs s
  show State.crossAgain _ = _
  exact if_neg (Bool.eq_false_iff.1 hruns)

/-- What goes on changes host memory, the vectors pending and what the module sends. -/
theorem goOn_frame (l : List HostTx) (h : s.hostWaits = false) : goOn l s = { s with
    hst := { s.hst with mem := (goOn l s).hst.mem, pendingVec := (goOn l s).hst.pendingVec }, out := (goOn l s).out } :=
  State.waits_frame l s h

/-- A write that the host takes. -/
theorem hostPut_taken {a : Nat} {l : List Byte} (hw : s.hostWaits = false) (h : s.hst.bad a l.length = false) :
    (s.hostPut a l).2 = { s with hst := { s.hst with mem := memWrites s.hst.mem a l }, out := s.out ++ [.hostWrite a l] } := by
  have hup : (!s.hst.linkUp || !s.hst.master) = false := (Bool.or_eq_false_iff.1 h).1
  unfold State.hostPut
  rw [if_neg (by rw [hup]; exact nofun), if_neg (by rw [hw]; exact nofun)]
  dsimp only
  rw [if_neg (by rw [State.emit_hst, h]; exact nofun)]
  rfl

/-- A vector that is not masked goes out, or waits. -/
theorem vector_unmasked_eq {v : Nat} (hm : v ∉ s.hst.masked) (hup : s.hst.linkUp = true) (hma : s.hst.master = true) :
    s.vector v = if s.hostWaits then s.wait (.msix v) else s.emit (.msix v) := by
  unfold State.vector
  rw [if_neg (by rw [List.contains_eq_mem, decide_eq_true_eq]; exact hm), if_pos (by rw [hup, hma]; rfl)]

end Crossing

/-- Settles O45: the loss of the link, the two commands of D3hot, and what waits meanwhile. -/
theorem linkLossAndD3 : Obligations.LinkLossAndD3 := by
  unfold Obligations.LinkLossAndD3
  intro s
  refine ⟨?_, ?_, ?_, fun hup hma hst => ?_⟩
  · obtain ⟨hframe, hpins⟩ := cutStreams_cutOnly (mapKeys s.xpt.streams) (linkLost s)
    generalize ht : (mapKeys s.xpt.streams).foldl State.cutStream (linkLost s) = t at hframe hpins
    have hrun : pcieLinkDown s = t.drew := (pcieLinkDown_eq s).trans (congrArg State.drew ht)
    have hhst : t.hst = (linkLost s).hst := by rw [hframe]
    have hsch : t.sch = (linkLost s).sch := by rw [hframe]
    have hreq (n : Nat) (r : Req) (h : mapGet s.sch.reqs n = some r) : mapGet t.sch.reqs n = some (reqCut s.stamp r) := by
      rw [hsch]
      exact (mapGet_map (reqCut s.stamp) s.sch.reqs n).trans (by rw [h]; rfl)
    refine ⟨_, congrArg Host.Outcome.next hrun, ?_, ?_, ?_, ?_, ?_, ?_, ?_, hpins, ?_, fun n r h hf hh => ?_, fun n r h hf => ?_⟩
    · exact congrArg Hst.linkUp hhst
    · exact congrArg Hst.master hhst
    · exact congrArg Hst.waits hhst
    · intro x hx
      rw [show t.drew.hst = (linkLost s).hst from hhst] at hx
      obtain ⟨e, -, rfl⟩ := List.mem_map.1 hx
      rfl
    · rw [show t.drew.hst = (linkLost s).hst from hhst]
      exact List.map_map
    · exact (congrArg State.kites hframe :)
    · exact (congrArg State.pgm hframe :)
    · exact (congrArg Hst.mem hhst :)
    · exact (hreq n r h).trans (congrArg some (if_pos (by rw [hf, hh]; rfl)))
    · refine (hreq n r h).trans (congrArg some (if_neg fun hc => ?_))
      simp only [Bool.and_eq_true, beq_iff_eq, Bool.not_eq_true'] at hc
      obtain ⟨hc, hc'⟩ := hc
      obtain hf | hf := hf
      · exact hf hc
      · rw [hf] at hc'; cases hc'
  · refine ⟨_, rfl, rfl, fun d => ?_⟩
    show d ∈ otherStopped s ++ [93, 94] ↔ _
    rw [List.mem_append, mem_otherStopped]
    simp only [List.mem_cons, List.not_mem_nil, or_false]
    by_cases h : d = 93 ∨ d = 94
    · exact iff_of_true (.inr h) (.inr h)
    · rw [or_iff_left h, or_iff_left h, ← not_or, and_iff_left h]
  · have hframe := goOn_frame s.hst.waits (awake_runs s)
    refine ⟨_, congrArg Host.Outcome.next (d3hot_leave s), ?_, ?_, ?_, fun h => ?_, fun a l h hok => ?_, fun v h hm hup hma => ?_⟩
    · rw [hframe]; rfl
    · intro d
      rw [hframe]
      exact mem_otherStopped
    · rw [hframe]; rfl
    · rw [h]; exact ⟨rfl, rfl, rfl⟩
    · rw [h]
      have hput := hostPut_taken (s := awake s) (a := a) (l := l) (awake_runs s) hok
      exact ⟨congrArg (·.hst.mem) hput, congrArg State.out hput⟩
    · rw [h]
      have hput := (vector_unmasked_eq (s := awake s) hm hup hma).trans (if_neg (by rw [awake_runs]; exact nofun))
      exact ⟨congrArg (·.hst.mem) hput, congrArg State.out hput⟩
  · have hw : s.hostWaits = true := hostWaits_iff.2 hst
    refine ⟨fun a l => ?_, fun v hm => (vector_unmasked_eq hm hup hma).trans (if_pos hw)⟩
    unfold State.hostPut
    rw [if_neg (by rw [hup, hma]; exact nofun), if_pos hw]

end Sys2Proof.Stated
end

section
/-! SUPPORT. Module reset (R434, R435) and the boot chain (R404–R408). -/
namespace Sys2Proof.Stated
open Sys2Proof.Machine

/-! ### Module reset -/

/-- With no write of flash in progress both devices stand. -/
theorem cutUpdate_idle {x : Sec} (h : x.busy = none) : x.cutUpdate = x := by
  unfold Sec.cutUpdate
  rw [h]

/-- What a module reset leaves of SEC, with no write of flash in progress. -/
theorem moduleReset_sec {s : State} (h : s.sec.busy = none) :
    s.moduleReset.sec = { Sec.reset with primary := s.sec.primary, recovery := s.sec.recovery } := by
  have hcut := cutUpdate_idle h
  show ({ Sec.reset with primary := s.sec.cutUpdate.primary, recovery := s.sec.cutUpdate.recovery } : Sec) = _
  rw [hcut]

/-- A reset module has computed nothing, and keeps its flash. -/
theorem moduleReset_fresh (s : State) : let t := s.moduleReset
    t.kites = [] ∧ t.pgm = {} ∧ t.sch = {} ∧ t.tel = {} ∧ t.brd = {} ∧ t.xpt = {} ∧ t.sec.stage = 0 ∧
      (s.sec.busy = none → t.sec.primary = s.sec.primary ∧ t.sec.recovery = s.sec.recovery) ∧ t.hst.queues = [] := by
  refine ⟨rfl, rfl, rfl, rfl, rfl, rfl, rfl, fun h => ?_, rfl⟩
  rw [moduleReset_sec h]
  exact ⟨rfl, rfl⟩

/-! ### Ports at a start -/

/-- Of the state only the links, and which clocks stand, may differ, and the arithmetic clock does not stop. -/
def trained (s t : State) : Prop :=
  t = { s with lnk := t.lnk, pwr := { s.pwr with stopped := t.pwr.stopped } } ∧ (0 ∈ t.pwr.stopped → 0 ∈ s.pwr.stopped)

theorem trained_trans {s t u : State} (h : trained s t) (h' : trained t u) : trained s u := by
  obtain ⟨ht, h0⟩ := h
  obtain ⟨hu, h0'⟩ := h'
  refine ⟨?_, fun hm => h0 (h0' hm)⟩
  rw [hu]
  dsimp only
  rw [ht]

theorem quadPower_trained (s : State) (q : Nat) : trained s (s.quadPower q) := by
  refine ⟨rfl, fun h => ?_⟩
  unfold State.quadPower at h
  dsimp only at h
  split at h
  · obtain h | h := List.mem_append.1 h
    · exact List.mem_of_mem_filter h
    · simp only [List.mem_cons, List.not_mem_nil, or_false] at h
      omega
  · exact List.mem_of_mem_filter h

theorem train_trained (s : State) (p : Nat) : trained s (s.train p) := by
  unfold State.train
  dsimp only
  split
  · refine trained_trans ?_ (quadPower_trained _ _)
    exact ⟨rfl, id⟩
  · refine trained_trans ?_ (quadPower_trained _ _)
    exact ⟨rfl, id⟩

theorem trainAll_trained (l : List Nat) (s : State) : trained s (l.foldl (fun s k => if (s.port k).en then s.train k else s) s) := by
  induction l generalizing s with
  | nil => exact ⟨rfl, id⟩
  | cons k l ih =>
    refine trained_trans ?_ (ih _)
    dsimp only
    split
    · exact train_trained s k
    · exact ⟨rfl, id⟩

/-! ### The boot chain -/

/-- What the later stages of a start keep, which is also that no clock they startBegun stops. -/
def startKept (s t : State) : Prop :=
  t.sec.set = s.sec.set ∧ t.sec.ident = s.sec.ident ∧ t.sch.stopped = s.sch.stopped ∧ t.kites = s.kites ∧ t.pgm.mem = s.pgm.mem ∧
    0 ∉ t.pwr.stopped

theorem bringUp_kept (s : State) (n : Nat) (p : Profile) (i : Ident) : startKept s (s.bringUp n p i) := by
  unfold State.bringUp
  extract_lets mg step die bad cut _ _ _ _ _ u v
  have hclock : 0 ∉ v.pwr.stopped := by
    have hv : v.pwr = u.pwr := by
      show (if step then u.saveMargin else u).pwr = u.pwr
      split
      · rfl
      · rfl
    rw [hv]
    show 0 ∉ s.pwr.stopped.filter fun d => !servingDomains.contains d
    intro h
    have := (List.mem_filter.1 h).2
    exact absurd this (by decide)
  have hkept : v.sec.set = s.sec.set ∧ v.sec.ident = s.sec.ident ∧ v.sch.stopped = s.sch.stopped ∧ v.kites = s.kites ∧
      v.pgm.mem = s.pgm.mem := by
    show (if step then u.saveMargin else u).sec.set = _ ∧ (if step then u.saveMargin else u).sec.ident = _ ∧
      (if step then u.saveMargin else u).sch.stopped = _ ∧ (if step then u.saveMargin else u).kites = _ ∧
      (if step then u.saveMargin else u).pgm.mem = _
    split
    · exact ⟨rfl, rfl, rfl, rfl, rfl⟩
    · exact ⟨rfl, rfl, rfl, rfl, rfl⟩
  obtain ⟨hset, hident, hstop, hkites, hmem⟩ := hkept
  obtain ⟨hframe, h0⟩ := trainAll_trained (List.range 96) v
  clear_value v
  refine ⟨?_, ?_, ?_, ?_, ?_, fun h => hclock (h0 h)⟩
  · rw [hframe]; exact hset
  · rw [hframe]; exact hident
  · rw [hframe]; exact hstop
  · rw [hframe]; exact hkites
  · rw [hframe]; exact hmem

/-- A start that nothing goes wrong in. -/
def cleanEnv : BootEnv := ⟨true, 0, true, none, none, none⟩

/-- The state a start begins in, with its count of failed starts one higher. -/
def startBegun (s : State) (e : BootEnv) : State :=
  { s with sec := { s.sec with recPin := !e.recoveryN, pins := e.profileSel.toNat }.setFails (min 3 (s.sec.boot.fails + 1)) }

/-- Stage 1's choice of the set of a device. -/
def fromSet (s : State) (dev : Bool) : State :=
  { s with sec := { s.sec with
    set := dev, fwDig := [1, 2, 3].map fun k => (((if dev then s.sec.recovery else s.sec.primary).comp k).map Comp.digest).getD 0 } }

/-- Stage 1, from what each set answers. -/
def firstStage (s : State) (e : BootEnv) : Option Nat → Option Nat → State
  | some _, some k => s.failStart 0 2 k false
  | a, _ => (fromSet s a.isSome).bootSecond e

theorem boot_clean (s : State) : s.boot cleanEnv =
    firstStage (startBegun s cleanEnv) cleanEnv (s.sec.failing false) (s.sec.failing true) := by
  show (match s.sec.failing false, s.sec.failing true with
    | some _, some k => (startBegun s cleanEnv).failStart 0 2 k false
    | a, _ => (fromSet (startBegun s cleanEnv) a.isSome).bootSecond cleanEnv) = _
  rcases s.sec.failing false with _ | a
  · rfl
  · rcases s.sec.failing true with _ | k
    · rfl
    · rfl

/-- Stage 2 of such a start, with an identity record that holds. -/
def identified (s : State) (i : Ident) : State :=
  { s with sec := { (if s.sec.boot.next.1 then
      { s.sec with ident := some i, identOk := true }.setBoot { s.sec.boot with next := (false, 0) }
    else { s.sec with ident := some i, identOk := true }) with prof := some { s.sec with ident := some i, identOk := true }.choose.2.1 } }

theorem bootSecond_clean {s : State} {i : Ident} (h : readRec s.sec.primary.ident s.sec.recovery.ident = some i) :
    ∃ n p b, s.bootSecond cleanEnv = (identified s i).bootLate cleanEnv n p i b := by
  refine ⟨{ s.sec with ident := some i, identOk := true }.choose.1, { s.sec with ident := some i, identOk := true }.choose.2.1,
    { s.sec with ident := some i, identOk := true }.choose.2.2, ?_⟩
  refine (if_neg nofun).trans ?_
  rw [h]
  rfl

/-- The event of a start that takes the built-in profile. -/
def defaultProfile : Ev := ⟨.c, uBoot, evProfileDefault, 0xFFFF, 0xFFFF, 0⟩

/-- READY, with no failed start counted. -/
def readied (s : State) : State := { s with sec := { { s.sec with stage := 3 }.setFails 0 with stage := 4 } }

theorem bootLate_clean (s : State) (n : Nat) (p : Profile) (i : Ident) (b : Bool) :
    s.bootLate cleanEnv n p i b = readied (if b then (s.bringUp n p i).log defaultProfile else s.bringUp n p i) := by
  unfold State.bootLate
  generalize s.bringUp n p i = v
  change (if cleanEnv.slow = some 2 then _ else _) = _
  refine (if_neg nofun).trans ?_
  exact if_neg (c := cleanEnv.slow = some 3) nofun

theorem log_startKept {s t : State} (h : startKept s t) (e : Ev) : startKept s (t.log e) := by
  have hf := State.log_frame t e
  unfold logOnly at hf
  unfold startKept
  rw [hf]
  exact h

/-- A start that comes to its end is READY. -/
theorem bootLate_ready (s : State) (n : Nat) (p : Profile) (i : Ident) (b : Bool) : (s.bootLate cleanEnv n p i b).sec.stage = 4 ∧
    (s.bootLate cleanEnv n p i b).sec.boot.fails = 0 ∧ startKept s (s.bootLate cleanEnv n p i b) := by
  have hkept : startKept s (if b then (s.bringUp n p i).log defaultProfile else s.bringUp n p i) := by
    split
    · exact log_startKept (bringUp_kept s n p i) _
    · exact bringUp_kept s n p i
  rw [bootLate_clean]
  generalize (if b then (s.bringUp n p i).log defaultProfile else s.bringUp n p i) = u at hkept
  exact ⟨rfl, congrArg BootRec.fails (boot_setBoot { u.sec with stage := 3 } { u.sec.boot with fails := 0 }), hkept⟩

/-! ### Which set starts (R405, R410) -/

/-- A set that verifies: each of its three components is there, good, and not below its floor. -/
def verifies (x : Sec) (dev : Bool) : Prop :=
  ∀ k ∈ [1, 2, 3], ∃ c, (if dev then x.recovery else x.primary).comp k = some c ∧ c.good = true ∧ floorOf x.floor k ≤ c.svn

theorem failing_none_iff {x : Sec} {dev : Bool} : x.failing dev = none ↔ verifies x dev := by
  unfold Sec.failing verifies
  rw [List.find?_eq_none]
  refine forall₂_congr fun k _ => ?_
  rcases (if dev then x.recovery else x.primary).comp k with _ | c
  · exact iff_of_false (fun h => h rfl) nofun
  · simp only [Bool.or_eq_true, Bool.not_eq_true', decide_eq_true_eq, not_or, Bool.not_eq_false, Nat.not_lt, Option.some.injEq,
      exists_eq_left']

section Start
variable {s : State} {i : Ident} {dev : Bool}

theorem identified_kept (s : State) (i : Ident) : (identified s i).sec.set = s.sec.set ∧ (identified s i).sec.ident = some i := by
  unfold identified
  split
  · exact ⟨rfl, rfl⟩
  · exact ⟨rfl, rfl⟩

/-- A released module runs its start. -/
theorem moduleReset_runs (hp : s.pins.pwrGood = true) (hr : s.pins.perstN = true) (e : BootEnv) :
    exec (.moduleReset e) s = .next (s.moduleReset.boot e) := by
  have hrel : s.moduleReset.released = true := by
    show (s.pins.pwrGood && s.pins.perstN) = true
    rw [hp, hr]
    rfl
  exact congrArg Host.Outcome.next (if_pos hrel)

theorem failing_moduleReset (hb : s.sec.busy = none) (dev : Bool) : s.moduleReset.sec.failing dev = s.sec.failing dev := by
  rw [moduleReset_sec hb]
  rfl

/-- The start of the set that is chosen ends in READY. -/
theorem start_ready (hb : s.sec.busy = none) (hi : readRec s.sec.primary.ident s.sec.recovery.ident = some i)
    (hset : s.moduleReset.boot cleanEnv = (fromSet (startBegun s.moduleReset cleanEnv) dev).bootSecond cleanEnv) :
    let t := s.moduleReset.boot cleanEnv
    t.sec.stage = 4 ∧ t.sec.set = dev ∧ t.sec.ident = some i ∧ t.sec.boot.fails = 0 ∧ t.sch.stopped = true ∧ t.kites = [] ∧
      t.pgm.mem = [] ∧ t.pwr.stopped.contains 0 = false := by
  have hident : readRec (fromSet (startBegun s.moduleReset cleanEnv) dev).sec.primary.ident
      (fromSet (startBegun s.moduleReset cleanEnv) dev).sec.recovery.ident = some i := by
    show readRec s.moduleReset.sec.primary.ident s.moduleReset.sec.recovery.ident = some i
    rw [moduleReset_sec hb]
    exact hi
  obtain ⟨n, p, b, hrun⟩ := bootSecond_clean hident
  obtain ⟨hstage, hfails, hset', hid, hstop, hkites, hmem, h0⟩ :=
    bootLate_ready (identified (fromSet (startBegun s.moduleReset cleanEnv) dev) i) n p i b
  obtain ⟨hidset, hidid⟩ := identified_kept (fromSet (startBegun s.moduleReset cleanEnv) dev) i
  rw [hset, hrun]
  refine ⟨hstage, hset'.trans hidset, hid.trans hidid, hfails, hstop, hkites, hmem, ?_⟩
  rw [List.contains_eq_mem, decide_eq_false_iff_not]
  exact h0

theorem boot_primary (hb : s.sec.busy = none) (h : verifies s.sec false) :
    s.moduleReset.boot cleanEnv = (fromSet (startBegun s.moduleReset cleanEnv) false).bootSecond cleanEnv := by
  rw [boot_clean, failing_moduleReset hb, failing_none_iff.2 h]
  rfl

theorem boot_recovery (hb : s.sec.busy = none) (h : ¬verifies s.sec false) (h' : verifies s.sec true) :
    s.moduleReset.boot cleanEnv = (fromSet (startBegun s.moduleReset cleanEnv) true).bootSecond cleanEnv := by
  obtain ⟨k, hk⟩ := Option.ne_none_iff_exists'.1 (mt failing_none_iff.1 h)
  rw [boot_clean, failing_moduleReset hb, failing_moduleReset hb, failing_none_iff.2 h', hk]
  rfl

theorem boot_neither (hb : s.sec.busy = none) (h : ¬verifies s.sec false) (h' : ¬verifies s.sec true) :
    ∃ k, s.moduleReset.boot cleanEnv = (startBegun s.moduleReset cleanEnv).failStart 0 2 k false := by
  obtain ⟨j, hj⟩ := Option.ne_none_iff_exists'.1 (mt failing_none_iff.1 h)
  obtain ⟨k, hk⟩ := Option.ne_none_iff_exists'.1 (mt failing_none_iff.1 h')
  refine ⟨k, ?_⟩
  rw [boot_clean, failing_moduleReset hb, failing_moduleReset hb, hj, hk]
  rfl

/-- A start that fails a third time, or whose rule says so, ends in minimal mode. -/
theorem failStart_minimal {stage code detail : Nat} {own : Bool} (h : own = true ∨ s.sec.boot.fails = 3) :
    s.failStart stage code detail own = ({ s with sec := { s.sec with stage := stage } }).enterMinimal code detail :=
  if_pos (by rw [Bool.or_eq_true, decide_eq_true_eq]; exact h)

/-- The failed start that follows two others is the third. -/
theorem setFails_third {x : Sec} (y : Sec) (h : x.boot.fails = 2) : (y.setFails (min 3 (x.boot.fails + 1))).boot.fails = 3 := by
  rw [h]
  exact congrArg BootRec.fails (boot_setBoot y { y.boot with fails := 3 })

end Start

/-- Settles O55: reset by reset, and by what a start meets. -/
theorem resetsAndStart : Obligations.ResetsAndStart := by
  unfold Obligations.ResetsAndStart
  intro s fresh ok env
  have hfresh : fresh s.moduleReset := moduleReset_fresh s
  refine ⟨fun ns h => ?_, fun ns h => congrArg Host.Outcome.next (if_pos h), fun ns => rfl, fun hup => ?_, fun h => ?_, fun h => ?_,
    ⟨_, rfl, hfresh, rfl, rfl⟩, fun i hp hr hb hi => ⟨fun h => ?_, fun h h' => ?_⟩, fun hp hr e he => ?_, fun hp hr hb hf h h' => ?_,
    fun stage hp hr h0 hf => ?_, fun stage h => ?_⟩
  · exact ⟨_, congrArg Host.Outcome.next (if_neg (Nat.not_lt.2 h)), hfresh, rfl⟩
  · exact ⟨_, congrArg Host.Outcome.next (if_pos hup), hfresh, rfl⟩
  · exact ⟨_, congrArg Host.Outcome.next (if_neg (Bool.eq_false_iff.1 h)), hfresh, rfl⟩
  · exact congrArg Host.Outcome.next (if_pos h)
  · exact ⟨_, moduleReset_runs hp hr cleanEnv, start_ready hb hi (boot_primary hb h)⟩
  · obtain ⟨hstage, hset, -, hfails, -⟩ := start_ready hb hi (boot_recovery hb h h')
    exact ⟨_, moduleReset_runs hp hr cleanEnv, hstage, hset, hfails⟩
  · have hrun : s.moduleReset.boot e = ({ s.moduleReset with sec := { s.moduleReset.sec with
        recPin := !e.recoveryN, pins := e.profileSel.toNat } }).failStart 0 1 0 true := if_pos (by rw [he]; rfl)
    refine ⟨_, (moduleReset_runs hp hr e).trans (congrArg Host.Outcome.next (hrun.trans (failStart_minimal (.inl rfl)))), rfl, rfl, ?_⟩
    show (!e.recoveryN) = true
    rw [he]
    rfl
  · obtain ⟨k, hrun⟩ := boot_neither hb h h'
    have hfails : s.moduleReset.sec.boot.fails = 2 := by rw [moduleReset_sec hb]; exact hf
    exact ⟨_, (moduleReset_runs hp hr cleanEnv).trans (congrArg Host.Outcome.next (hrun.trans (failStart_minimal (.inr
      (setFails_third _ hfails))))), rfl, rfl⟩
  · have hrel : ¬(!s.released || 3 < s.sec.stage) = true := by
      unfold State.released
      rw [hp, hr, h0]
      exact nofun
    have hrun : bootTimeout stage.val s =
        ({ s with sec := s.sec.setFails (min 3 (s.sec.boot.fails + 1)) }).failStart stage.val 5 (stage.val + 1) false := by
      unfold bootTimeout
      rw [if_neg hrel]
      exact congrArg (fun u : State => u.slowStart stage.val) (if_pos h0)
    refine ⟨_, congrArg Host.Outcome.next (hrun.trans (failStart_minimal (.inr (setFails_third s.sec hf)))), rfl, rfl, ?_⟩
    exact Nat.mod_eq_of_lt (show stage.val + 1 < 2 ^ 16 by omega)
  · refine congrArg Host.Outcome.next (if_pos ?_)
    simp only [State.released, Bool.or_eq_true, Bool.not_eq_true', Bool.and_eq_false_iff, decide_eq_true_eq, or_assoc]
    exact h

end Sys2Proof.Stated
end

section
/-! SUPPORT. What a completion and a class F error can change (R301, R422), and the sensors, the emergency of a die and the margin plan
(R391–R397). -/
namespace Sys2Proof.Stated
open Sys2Proof.Machine

/-! ### Entries of a completion queue -/

/-- A host interface with the queues, the memory, the pending vectors and what waits of another. -/
def hostTakes (a b : Hst) : Hst := { a with queues := b.queues, mem := b.mem, pendingVec := b.pendingVec, waits := b.waits }

/-- Of the state only what the host interface holds beside its models and variants, and what the module sends, may differ. -/
def hostOnly (s t : State) : Prop := t = { s with hst := hostTakes s.hst t.hst, out := t.out }

theorem hostOnly_refl (s : State) : hostOnly s s := rfl

theorem hostOnly_trans {s t u : State} (h : hostOnly s t) (h' : hostOnly t u) : hostOnly s u := by
  unfold hostOnly at *
  rw [h']
  dsimp only
  rw [h]
  rfl

theorem setQueue_hostOnly (s : State) (q : Nat) (x : Queue) : hostOnly s (s.setQueue q x) := rfl

theorem vector_hostOnly (s : State) (v : Nat) : hostOnly s (s.vector v) := by
  have h := State.vector_frame s v
  unfold hostOnly
  rw [h]
  rfl

theorem hostPut_hostOnly (s : State) (a : Nat) (l : List Byte) : hostOnly s (s.hostPut a l).2 := by
  unfold State.hostPut
  split
  · rfl
  · split
    · rfl
    · dsimp only
      split
      · rfl
      · rfl

theorem queueIrq_hostOnly (s : State) (q : Nat) : hostOnly s (s.queueIrq q) :=
  hostOnly_trans (setQueue_hostOnly s q _) (vector_hostOnly _ _)

theorem cqWrite_hostOnly (s : State) (q : Nat) (l : List Byte) : hostOnly s (s.cqWrite q l) := by
  unfold State.cqWrite
  dsimp only
  split
  · exact hostOnly_trans (hostPut_hostOnly s _ _) (hostOnly_trans (setQueue_hostOnly _ q _) (queueIrq_hostOnly _ q))
  · exact hostOnly_trans (hostPut_hostOnly s _ _) (setQueue_hostOnly _ q _)

theorem postCqe_hostOnly (s : State) (e : Cqe) : hostOnly s (s.postCqe e) := by
  unfold State.postCqe
  extract_lets x y u
  have hu : hostOnly s u := setQueue_hostOnly s e.q y
  split
  · exact hu
  · split
    · exact hostOnly_trans hu (setQueue_hostOnly _ _ _)
    · exact hostOnly_trans hu (cqWrite_hostOnly _ _ _)

/-! ### Completions (R301) -/

/-- Of the state only requests, the host interface, the log and its records, what the module sends, and the count of free values may
differ. -/
def completes (s t : State) : Prop :=
  t = { s with sch := { s.sch with reqs := t.sch.reqs }, hst := hostTakes s.hst t.hst, tel := t.tel, out := t.out, free := t.free }

theorem completes_trans {s t u : State} (h : completes s t) (h' : completes t u) : completes s u := by
  unfold completes at *
  rw [h']
  dsimp only
  rw [h]
  rfl

theorem hostOnly.completes {s t : State} (h : hostOnly s t) : completes s t := by
  unfold hostOnly at h
  unfold Stated.completes
  rw [h]
  rfl

theorem logOnly_completes {s t : State} (h : logOnly s t) : completes s t := by
  unfold logOnly at h
  unfold completes
  rw [h]
  rfl

theorem complete_completes (s : State) (n status : Nat) : completes s (s.complete n status) := by
  unfold State.complete
  dsimp only
  split
  · rfl
  · split
    · rfl
    · exact completes_trans (t := (s.setReq n { s.req n with posted := true, status := status }).drew) rfl
        (completes_trans (postCqe_hostOnly _ _).completes rfl)

theorem completes_foldl {α : Type} {f : State → α → State} (l : List α) (hf : ∀ s x, completes s (f s x)) (s : State) : completes s (l.foldl f s) := by
  induction l generalizing s with
  | nil => rfl
  | cons x l ih => exact completes_trans (hf s x) (ih _)

/-! ### Class F errors (R422) -/

/-- What a class F error answers before minimal mode: its record is logged, and the requests are completed. -/
def fatalPosted (s : State) (e : Ev) : State :=
  (s.logRecord e).2.sch.reqs.foldl (fun s (n, r) => if r.st = .free && !r.held then s else s.complete n 9) (s.logRecord e).2

theorem fatalPosted_completes (s : State) (e : Ev) : completes s (fatalPosted s e) := by
  refine completes_trans (logOnly_completes (State.log_frame s e)) (completes_foldl _ (fun s x => ?_) _)
  obtain ⟨n, r⟩ := x
  dsimp only
  split
  · rfl
  · exact complete_completes s n 9

/-- A class F error ends in minimal mode, with its reason and its detail, and leaves the pins and the kites. -/
theorem fatal_minimal (s : State) (e : Ev) (code : Nat) (detail : Option Nat) :
    (s.fatal e code detail).sec.stage = 7 ∧ (s.fatal e code detail).sec.code = code ∧ (s.fatal e code detail).pins = s.pins ∧
      (s.fatal e code detail).kites = s.kites := by
  have h := fatalPosted_completes s e
  unfold completes at h
  have hpins : (fatalPosted s e).pins = s.pins := by rw [h]
  have hkites : (fatalPosted s e).kites = s.kites := by rw [h]
  exact ⟨rfl, rfl, hpins, hkites⟩

/-! ### The dies -/

section Dies
variable {s : State} {d j : Nat}

theorem die_upDie_self (s : State) (d : Nat) (f : Die → Die) : (s.upDie d f).die d = f (s.die d) := by
  unfold State.die State.upDie mapGetD
  exact congrArg (Option.getD · _) (mapGet_mapSet_self _ _ _)

theorem die_upDie_ne (s : State) {d j : Nat} (f : Die → Die) (h : j ≠ d) : (s.upDie d f).die j = s.die j := by
  unfold State.die State.upDie mapGetD
  exact congrArg (Option.getD · _) (mapGet_mapSet_ne _ _ _ _ h)

/-- Of the state only the dies, and the log with what it raises, may differ. -/
def diesOnly (s t : State) : Prop :=
  t = { s with
    pwr := { s.pwr with dies := t.pwr.dies }, tel := t.tel, out := t.out
    hst := { s.hst with pendingVec := t.hst.pendingVec, waits := t.hst.waits } }

theorem diesOnly_trans {s t u : State} (h : diesOnly s t) (h' : diesOnly t u) : diesOnly s u := by
  unfold diesOnly at *
  rw [h']
  dsimp only
  rw [h]

theorem logOnly_diesOnly {s t : State} (h : logOnly s t) : diesOnly s t := by
  unfold logOnly at h
  unfold diesOnly
  rw [h]

theorem logOnly_die {s t : State} (h : logOnly s t) (d : Nat) : t.die d = s.die d := by
  unfold logOnly at h
  rw [h]
  rfl

theorem upDie_diesOnly (s : State) (d : Nat) (f : Die → Die) : diesOnly s (s.upDie d f) := rfl

/-- The events of a warning. -/
theorem warnLogs_logOnly (e : Ev) (l : List Nat) (s : State) : logOnly s (l.foldl (fun s _ => s.log e) s) := by
  induction l generalizing s with
  | nil => rfl
  | cons n l ih => exact logOnly_trans (State.log_frame s e) (ih _)

/-- A die with the warnings of a sample. -/
def dieWarned (tj mem : Nat) (x : Die) : Die := { x with warnJ := decide (95 ≤ tj), warnM := decide (85 ≤ mem) }

theorem warn_frame (s : State) (d tj mem : Nat) : diesOnly s (s.warn d tj mem) :=
  diesOnly_trans (upDie_diesOnly s d (dieWarned tj mem)) (logOnly_diesOnly (warnLogs_logOnly _ _ _))

theorem warn_die (s : State) (d tj mem : Nat) : (s.warn d tj mem).die d = dieWarned tj mem (s.die d) :=
  (logOnly_die (warnLogs_logOnly _ _ _) d).trans (die_upDie_self s d (dieWarned tj mem))

theorem warn_die_ne {tj mem : Nat} (h : j ≠ d) : (s.warn d tj mem).die j = s.die j :=
  (logOnly_die (warnLogs_logOnly _ _ _) j).trans (die_upDie_ne s (dieWarned tj mem) h)

/-- A die after its emergency is judged at time `now`. -/
def dieJudged (now tj mem : Nat) (x : Die) : Die :=
  if x.emerg = false then
    if 105 ≤ tj ∨ 95 ≤ mem then { x with emerg := true, entries := satAdd 16 x.entries 1, coolAt := none } else x
  else if tj ≤ 100 ∧ mem ≤ 90 then { x with coolAt := some (x.coolAt.getD now), emerg := decide (now < x.coolAt.getD now + 1000000) }
  else { x with coolAt := none }

theorem judge_spec (s : State) (d tj mem : Nat) : diesOnly s (s.judge d tj mem) ∧
    (s.judge d tj mem).die d = dieJudged s.now tj mem (s.die d) ∧ ∀ j, j ≠ d → (s.judge d tj mem).die j = s.die j := by
  unfold State.judge dieJudged
  dsimp only
  cases hem : (s.die d).emerg with
  | false =>
    rw [if_pos (show (!false) = true from rfl), if_pos (show false = false from rfl)]
    by_cases hot : 105 ≤ tj ∨ 95 ≤ mem
    · have hlog := State.log_frame (s.upDie d fun x => { x with emerg := true, entries := satAdd 16 x.entries 1, coolAt := none })
        ⟨.s, uPwr, evThermal 0, d, 0xFFFF, 0⟩
      rw [if_pos (by rw [Bool.or_eq_true, decide_eq_true_eq, decide_eq_true_eq]; exact hot), if_pos hot]
      exact ⟨diesOnly_trans (upDie_diesOnly _ _ _) (logOnly_diesOnly hlog), (logOnly_die hlog d).trans (die_upDie_self _ _ _),
        fun j hj => (logOnly_die hlog j).trans (die_upDie_ne _ _ hj)⟩
    · rw [if_neg (by rw [Bool.or_eq_true, decide_eq_true_eq, decide_eq_true_eq]; exact hot), if_neg hot]
      exact ⟨rfl, rfl, fun _ _ => rfl⟩
  | true =>
    rw [if_neg (show ¬(!true) = true from nofun), if_neg (show ¬true = false from nofun)]
    by_cases hcool : tj ≤ 100 ∧ mem ≤ 90
    · rw [if_pos (by rw [Bool.and_eq_true, decide_eq_true_eq, decide_eq_true_eq]; exact hcool), if_pos hcool]
      exact ⟨rfl, die_upDie_self _ _ _, fun j hj => die_upDie_ne _ _ hj⟩
    · rw [if_neg (by rw [Bool.and_eq_true, decide_eq_true_eq, decide_eq_true_eq]; exact hcool), if_neg hcool]
      exact ⟨rfl, (die_upDie_self _ _ _).trans (by rw [hem]), fun j hj => die_upDie_ne _ _ hj⟩

theorem diesOnly_now {s t : State} (h : diesOnly s t) : t.now = s.now := by
  unfold diesOnly at h
  rw [h]
  rfl

/-- A sample of a die, before it is judged. -/
def dieSampled (x : Sensors) (d : Nat) (y : Die) : Die := { y with
  tj := min (sensorsOf x d).1 255, mem := min (sensorsOf x d).2.1 255, nowPs := if d < 4 then min (sensorsOf x d).2.2 255 else y.nowPs
  hourMin := if d < 4 then some (min (sensorsOf x d).2.2 (y.hourMin.getD (sensorsOf x d).2.2)) else none }

/-- What the judgement of a die does: its sensors stand; one that is not in emergency enters it at a threshold, and is counted; one in
emergency stays there while a sensor is not 5 °C below. -/
theorem dieJudged_spec {now tj mem a b : Nat} {x y : Die} (htj : y.tj = a) (hmem : y.mem = b) (hem : y.emerg = x.emerg)
    (hen : y.entries = x.entries) : (dieJudged now tj mem y).tj = a ∧ (dieJudged now tj mem y).mem = b ∧
      (x.emerg = false → 105 ≤ tj ∨ 95 ≤ mem → (dieJudged now tj mem y).emerg = true ∧
        (dieJudged now tj mem y).entries = min (x.entries + 1) 65535) ∧
      (x.emerg = false → tj < 105 → mem < 95 → (dieJudged now tj mem y).emerg = false) ∧
      (x.emerg = true → 100 < tj ∨ 90 < mem → (dieJudged now tj mem y).emerg = true ∧ (dieJudged now tj mem y).coolAt = none) := by
  rw [← htj, ← hmem, ← hem, ← hen]
  unfold dieJudged
  cases h : y.emerg with
  | false =>
    rw [if_pos rfl]
    refine ⟨by split <;> rfl, by split <;> rfl, fun _ hot => ?_, fun _ hj hm => ?_, nofun⟩
    · rw [if_pos hot]; exact ⟨rfl, rfl⟩
    · rw [if_neg (by omega)]; exact h
  | true =>
    rw [if_neg (show ¬true = false from nofun)]
    refine ⟨by split <;> rfl, by split <;> rfl, nofun, nofun, fun _ hot => ?_⟩
    rw [if_neg (by omega)]
    exact ⟨rfl, rfl⟩

/-- A die after its part of a sample at time `now`. -/
def dieAfter (x : Sensors) (now d : Nat) (y : Die) : Die :=
  if d < 4 then dieJudged now (sensorsOf x d).1 (sensorsOf x d).2.1 (dieWarned (sensorsOf x d).1 (sensorsOf x d).2.1 (dieSampled x d y))
  else dieWarned (sensorsOf x d).1 (sensorsOf x d).2.1 (dieSampled x d y)

theorem sampleDie_spec (x : Sensors) (s : State) (d : Nat) : diesOnly s (State.sampleDie x s d) ∧
    (State.sampleDie x s d).die d = dieAfter x s.now d (s.die d) ∧ ∀ j, j ≠ d → (State.sampleDie x s d).die j = s.die j := by
  have hrun : State.sampleDie x s d = if d < 4
      then ((s.upDie d (dieSampled x d)).warn d (sensorsOf x d).1 (sensorsOf x d).2.1).judge d (sensorsOf x d).1 (sensorsOf x d).2.1
      else (s.upDie d (dieSampled x d)).warn d (sensorsOf x d).1 (sensorsOf x d).2.1 := rfl
  rw [hrun]
  unfold dieAfter
  generalize (sensorsOf x d).1 = tj
  generalize (sensorsOf x d).2.1 = mem
  have hwarn : diesOnly s ((s.upDie d (dieSampled x d)).warn d tj mem) := diesOnly_trans (upDie_diesOnly s d _) (warn_frame _ d tj mem)
  have hself : ((s.upDie d (dieSampled x d)).warn d tj mem).die d = dieWarned tj mem (dieSampled x d (s.die d)) :=
    (warn_die _ d tj mem).trans (congrArg _ (die_upDie_self s d _))
  have hne (j : Nat) (hj : j ≠ d) : ((s.upDie d (dieSampled x d)).warn d tj mem).die j = s.die j :=
    (warn_die_ne hj).trans (die_upDie_ne s _ hj)
  by_cases hd : d < 4
  · rw [if_pos hd, if_pos hd]
    obtain ⟨hjudge, hjself, hjne⟩ := judge_spec ((s.upDie d (dieSampled x d)).warn d tj mem) d tj mem
    refine ⟨diesOnly_trans hwarn hjudge, hjself.trans ?_, fun j hj => (hjne j hj).trans (hne j hj)⟩
    rw [hself, diesOnly_now hwarn]
  · rw [if_neg hd, if_neg hd]
    exact ⟨hwarn, hself, hne⟩

/-- Dies that are changed one after another, each once. -/
theorem foldl_die {f : State → Nat → State} {g : Nat → Nat → Die → Die} (hframe : ∀ s d, diesOnly s (f s d))
    (hself : ∀ s d, (f s d).die d = g s.now d (s.die d)) (hne : ∀ s d j, j ≠ d → (f s d).die j = s.die j) {l : List Nat} (hl : l.Nodup)
    (s : State) (d : Nat) : (l.foldl f s).die d = if d ∈ l then g s.now d (s.die d) else s.die d := by
  induction l generalizing s with
  | nil => rfl
  | cons e l ih =>
    obtain ⟨he, hl⟩ := List.nodup_cons.1 hl
    refine (ih hl (f s e)).trans ?_
    rw [diesOnly_now (hframe s e)]
    by_cases hd : d = e
    · rw [hd, if_neg he, hself, if_pos (List.mem_cons_self ..)]
    · rw [hne s e d hd]
      exact if_congr (by rw [List.mem_cons, or_iff_right hd]) rfl rfl

theorem foldl_diesOnly {f : State → Nat → State} (hframe : ∀ s d, diesOnly s (f s d)) (l : List Nat) (s : State) : diesOnly s (l.foldl f s) := by
  induction l generalizing s with
  | nil => rfl
  | cons e l ih => exact diesOnly_trans (hframe s e) (ih _)

end Dies

/-! ### A sample -/

section Sample
variable {s : State} {x : Sensors}

/-- The state in which the sums of a sample are taken. -/
def sampleBegun (x : Sensors) (s : State) : State := { s with
  pwr := { s.pwr with sumW := s.pwr.sumW + x.power, samples := s.pwr.samples + 1 }
  pins := { s.pins with vin := x.vin % 65536, iin := x.iin % 65536 } }

/-- Every die of a sample. -/
def sampled (x : Sensors) (s : State) : State := (List.range 5).foldl (State.sampleDie x) (sampleBegun x s)

theorem sampled_diesOnly (x : Sensors) (s : State) : diesOnly (sampleBegun x s) (sampled x s) :=
  foldl_diesOnly (fun s d => (sampleDie_spec x s d).1) _ _

theorem sampled_die (x : Sensors) (s : State) {d : Nat} (h : d < 5) : (sampled x s).die d = dieAfter x s.now d (s.die d) := by
  refine (foldl_die (fun s d => (sampleDie_spec x s d).1) (fun s d => (sampleDie_spec x s d).2.1)
    (fun s d j hj => (sampleDie_spec x s d).2.2 j hj) List.nodup_range (sampleBegun x s) d).trans ?_
  rw [if_pos (List.mem_range.2 h)]
  rfl

/-- Within an hour of service nothing else is judged. -/
theorem hourEnd_within (h : s.now < s.pwr.hourAt + 3600000000000) : s.hourEnd = s := if_pos h

/-- No sensor is at its critical threshold. -/
theorem sensorsCritical_none_iff : sensorsCritical x = none ↔ ∀ d, d < 5 → (sensorsOf x d).1 < 115 ∧ (sensorsOf x d).2.1 < 105 := by
  unfold sensorsCritical
  rw [List.findSome?_eq_none_iff]
  refine forall_congr' fun d => ?_
  rw [List.mem_range]
  refine imp_congr_right fun _ => ?_
  dsimp only
  split
  · next h => exact iff_of_false nofun fun hc => Nat.not_lt.2 h hc.1
  · split
    · next h => exact iff_of_false nofun fun hc => Nat.not_lt.2 h hc.2
    · next h h' => exact iff_of_true rfl ⟨Nat.not_le.1 h, Nat.not_le.1 h'⟩

/-- The answer to what a sample finds, where nothing is critical. -/
def slackAnswer (s : State) : Option Nat → State
  | some d => if s.pwr.armed && !s.minimal then s.fatal ⟨.f, uPwr, 0, d, 0xFFFF, 0⟩ 0x09 (some d) else s
  | none => s

/-- A critical sensor pulls THERMTRIP_N low. -/
def tripped (s : State) : State := { s with pins := { s.pins with thermtripN := false } }

/-- It is a class F error, too. -/
def criticalAnswer (s : State) (n d : Nat) : State :=
  if (tripped s).minimal then tripped s else (tripped s).fatal ⟨.f, uPwr, evThermal 1, d, 0xFFFF, 0⟩ 0x08 (some n)

theorem tripped_minimal (s : State) : (tripped s).minimal = s.minimal := rfl

theorem criticalAnswer_minimal {u : State} {n d : Nat} (h : (tripped u).minimal = false) :
    (criticalAnswer u n d).sec.stage = 7 ∧ (criticalAnswer u n d).sec.code = 8 ∧ (criticalAnswer u n d).pins.thermtripN = false := by
  unfold criticalAnswer
  rw [h, if_neg nofun]
  obtain ⟨h7, h8, hpins, -⟩ := fatal_minimal (tripped u) ⟨.f, uPwr, evThermal 1, d, 0xFFFF, 0⟩ 0x08 (some n)
  exact ⟨h7, h8, congrArg Pins.thermtripN hpins⟩

theorem sensorSample_none (hc : sensorsCritical x = none) : sensorSample x s = slackAnswer (sampled x s).hourEnd (sensorsSlack x) := by
  unfold sensorSample slackAnswer sampled
  rw [hc]
  generalize State.fatal = fatal
  generalize State.hourEnd = hourEnd
  generalize sensorsSlack x = o
  cases o with
  | none => rfl
  | some d => rfl

theorem sensorSample_some {n d : Nat} (hc : sensorsCritical x = some (n, d)) : sensorSample x s = criticalAnswer (sampled x s).hourEnd n d := by
  unfold sensorSample criticalAnswer tripped sampled
  rw [hc]
  generalize State.fatal = fatal
  generalize State.hourEnd = hourEnd
  rfl

/-- A sample in which nothing is critical, with no margin step armed, stores every sensor and judges every die. -/
theorem sensorSample_calm (hc : sensorsCritical x = none) (ha : s.pwr.armed = false) (hh : s.now < s.pwr.hourAt + 3600000000000) :
    sensorSample x s = sampled x s := by
  have hd := sampled_diesOnly x s
  have harmed : (sampled x s).pwr.armed = false := by
    unfold diesOnly at hd
    rw [hd]
    exact ha
  have hhour : (sampled x s).hourEnd = sampled x s := by
    refine hourEnd_within ?_
    rw [diesOnly_now hd]
    unfold diesOnly at hd
    rw [hd]
    exact hh
  rw [sensorSample_none hc, hhour]
  unfold slackAnswer
  split
  · rw [harmed]
    rfl
  · rfl

theorem log_sec (s : State) (e : Ev) : (s.log e).sec = s.sec := by
  have h := State.log_frame s e
  unfold logOnly at h
  rw [h]

theorem log_kites (s : State) (e : Ev) : (s.log e).kites = s.kites := by
  have h := State.log_frame s e
  unfold logOnly at h
  rw [h]

/-- A forecast leaves SEC, the kites and the dies. -/
theorem forecast_keeps (s : State) : s.forecast.sec = s.sec ∧ s.forecast.kites = s.kites ∧ ∀ d, s.forecast.die d = s.die d := by
  unfold State.forecast
  dsimp only
  split
  · exact ⟨log_sec _ _, log_kites _ _, fun d => logOnly_die (State.log_frame _ _) d⟩
  · exact ⟨rfl, rfl, fun _ => rfl⟩

theorem hourDie_stage (s : State) (d : Nat) : (s.hourDie d).sec.stage = s.sec.stage := by
  unfold State.hourDie
  split
  · rfl
  · dsimp only
    split
    · rw [log_sec]; rfl
    · rfl

/-- The end of an hour leaves the stage of the start. -/
theorem hourEnd_stage (s : State) : s.hourEnd.sec.stage = s.sec.stage := by
  have hfold (l : List Nat) (u : State) : (l.foldl State.hourDie u).sec.stage = u.sec.stage := by
    induction l generalizing u with
    | nil => rfl
    | cons d l ih => exact (ih _).trans (hourDie_stage u d)
  unfold State.hourEnd
  split
  · rfl
  · dsimp only
    rw [(forecast_keeps _).1]
    exact hfold _ _

/-- A critical sensor puts a module that serves into minimal mode. -/
theorem sensorSample_critical {n d : Nat} (hc : sensorsCritical x = some (n, d)) (hm : s.minimal = false) :
    (sensorSample x s).sec.stage = 7 ∧ (sensorSample x s).sec.code = 8 ∧ (sensorSample x s).pins.thermtripN = false := by
  have hd := sampled_diesOnly x s
  have hstage : (sampled x s).hourEnd.sec.stage = s.sec.stage := by
    rw [hourEnd_stage]
    unfold diesOnly at hd
    rw [hd]
    rfl
  have hrun : (tripped (sampled x s).hourEnd).minimal = false := by
    rw [tripped_minimal, State.minimal, hstage]
    exact hm
  rw [sensorSample_some hc]
  exact criticalAnswer_minimal hrun

end Sample

/-! ### The margin plan -/

section Margin
variable {s : State}

/-- A die with the step of the margin plan it asks for. -/
def dieStepped (x : Die) : Die :=
  if x.wants = true then { x with wants := false, vdie := min 8000 (x.vdie + 25), steps := min 65535 (x.steps + 1) } else x

/-- A step of the plan of one die. -/
def stepDie (s : State) (d : Nat) : State :=
  if (s.die d).wants then s.upDie d fun x => { x with wants := false, vdie := min vmax (x.vdie + vstep), steps := min 0xFFFF (x.steps + 1) } else s

theorem stepDie_spec (s : State) (d : Nat) : diesOnly s (stepDie s d) ∧ (stepDie s d).die d = dieStepped (s.die d) ∧
    ∀ j, j ≠ d → (stepDie s d).die j = s.die j := by
  unfold stepDie dieStepped
  split
  · exact ⟨rfl, die_upDie_self _ _ _, fun j hj => die_upDie_ne _ _ hj⟩
  · exact ⟨rfl, rfl, fun _ _ => rfl⟩

theorem marginStep_due (h : s.planStepDue = true) : marginStep s = ((List.range 4).foldl stepDie s).forecast :=
  if_neg (by rw [h]; exact nofun)

/-- What is written to the margin record is read from it. -/
theorem saveMargin_kept (s : State) : readRec s.saveMargin.sec.primary.margin s.saveMargin.sec.recovery.margin = some s.marginNow :=
  readRec_writeRec s.sec.primary.margin s.sec.recovery.margin s.marginNow

end Margin

/-- Settles O53: samples that are cool and that are not, the steps of the plan, and its records. -/
theorem sensorsAndMargin : Obligations.SensorsAndMargin := by
  unfold Obligations.SensorsAndMargin
  intro s tj mem cool kept
  have hof (x : Sensors) (d : Fin 4) : (sensorsOf x d.val).1 = tj x d ∧ (sensorsOf x d.val).2.1 = mem x d := by
    match d with
    | 0 => exact ⟨rfl, rfl⟩
    | 1 => exact ⟨rfl, rfl⟩
    | 2 => exact ⟨rfl, rfl⟩
    | 3 => exact ⟨rfl, rfl⟩
  have hcool (x : Sensors) : sensorsCritical x = none ↔ cool x := by
    rw [sensorsCritical_none_iff]
    constructor
    · intro h
      refine ⟨fun d => ?_, (h 4 (by decide)).1, (h 4 (by decide)).2⟩
      rw [← (hof x d).1, ← (hof x d).2]
      exact h d.val (by omega)
    · rintro ⟨h, hio, hloft⟩ d hd
      by_cases h4 : d = 4
      · rw [h4]; exact ⟨hio, hloft⟩
      · have := h ⟨d, by omega⟩
        rw [← (hof x _).1, ← (hof x _).2] at this
        exact this
  refine ⟨fun x hc ha hh => ?_, fun x hc hm => ?_, fun h => ?_, fun h => ?_, fun h => ?_, fun h => ?_, fun hup ht ha => ?_, ?_, fun h => ?_⟩
  · have hd := sampled_diesOnly x s
    unfold diesOnly at hd
    refine ⟨_, congrArg Host.Outcome.next (sensorSample_calm ((hcool x).2 hc) ha hh), ?_, ?_, ?_, ?_, ?_, fun d => ?_⟩
    · rw [hd]; rfl
    · rw [hd]; rfl
    · rw [hd]; rfl
    · rw [hd]; rfl
    · rw [hd]; rfl
    · rw [sampled_die x s (show d.val < 5 by omega), dieAfter, if_pos d.isLt, (hof x d).1, (hof x d).2]
      exact dieJudged_spec (y := dieWarned (tj x d) (mem x d) (dieSampled x d.val (s.die d.val)))
        ((congrArg (min · 255) (hof x d).1 :)) ((congrArg (min · 255) (hof x d).2 :)) rfl rfl
  · obtain ⟨⟨n, d⟩, hsome⟩ := Option.ne_none_iff_exists'.1 (mt (hcool x).1 hc)
    exact ⟨_, rfl, sensorSample_critical hsome hm⟩
  · exact congrArg Host.Outcome.next (if_pos (by rw [h]; rfl))
  · obtain ⟨hsec, hkites, hdie⟩ := forecast_keeps ((List.range 4).foldl stepDie s)
    have hd := foldl_diesOnly (fun s d => (stepDie_spec s d).1) (List.range 4) s
    unfold diesOnly at hd
    refine ⟨_, congrArg Host.Outcome.next (marginStep_due h), ?_, ?_, fun d => ?_⟩
    · rw [hkites, hd]
    · rw [hsec, hd]
    · rw [hdie, foldl_die (fun s d => (stepDie_spec s d).1) (g := fun _ _ => dieStepped) (fun s d => (stepDie_spec s d).2.1)
        (fun s d j hj => (stepDie_spec s d).2.2 j hj) List.nodup_range, if_pos (List.mem_range.2 d.isLt)]
      rfl
  · have hdue : s.saveDue = true := decide_eq_true h
    exact ⟨_, congrArg Host.Outcome.next (if_pos hdue), rfl, saveMargin_kept _⟩
  · exact congrArg Host.Outcome.next (if_neg (Bool.eq_false_iff.1 (decide_eq_false (Nat.not_le.2 h))))
  · exact ⟨_, congrArg Host.Outcome.next (if_neg (by rw [hup, ht, ha]; exact nofun)), rfl, saveMargin_kept _⟩
  · exact congrArg Host.Outcome.next (if_pos (by rw [Bool.not_false, Bool.or_true, Bool.true_or, Bool.true_or]))
  · refine congrArg Host.Outcome.next (if_pos ?_)
    obtain h | h := h
    · rw [h, Bool.or_true, Bool.true_or]
    · rw [h, Bool.or_true]

end Sys2Proof.Stated
end

section
/-! SUPPORT. The commands of admission that are no prompts (R268, R269, R300, R372, R373, R414, R444): cancellations, model slots and
variants. -/
namespace Sys2Proof.Stated
open Sys2Proof.Machine

/-! ### Submissions -/

section Submission
variable {s : State} {q : Nat} {e : Sqe}

/-- What an entry that a queue takes becomes: its opcode, with no CID of its own outstanding, and whether admission is full. -/
def taken (s : State) (q : Nat) (opc : BitVec 8) (e : Sqe) : Sub :=
  ⟨q, s.stamp, { e with opc := opc }, false, opc == 1 && decide (4096 ≤ (s.sch.subs.filter fun y => y.e.opc == 1 && !y.full).length)⟩

/-- An entry that a queue takes is decided. -/
theorem submit_taken (h : takes s q e) (opc : BitVec 8) : s.submit q opc e = (submitted s q e).decideSub s.pwr.tb (taken s q opc e) := by
  obtain ⟨hup, hen, hdr, hcid⟩ := h
  have hdup : (s.queue q).outst.contains e.cid.toNat = false := by
    rw [List.contains_eq_mem, decide_eq_false_iff_not]
    exact hcid
  unfold State.submit
  refine (if_neg (by rw [hup, hen, hdr]; exact nofun)).trans ?_
  rw [hdup]
  rfl

/-- An entry without reserved fields and flags passes the checks common to every command. -/
theorem commonCheck_plain (h : plain e) {opc : BitVec 8} (ho : opc ∈ [0x10#8, 0x11, 0x12, 0x13]) (s : State) :
    s.commonCheck { e with opc := opc } false = 0 := by
  obtain ⟨hr, hr2, hf⟩ := h
  simp only [List.mem_cons, List.not_mem_nil, or_false] at ho
  unfold State.commonCheck
  dsimp only
  rw [hr, hr2, hf]
  obtain rfl | rfl | rfl | rfl := ho
  · rfl
  · rfl
  · rfl
  · rfl

/-- A CANCEL whose reserved bits of PTR are zero passes them too. -/
theorem commonCheck_cancel (h : plain e) (h6 : bits e.ptr.toNat 6 10 = 0) (h32 : bits e.ptr.toNat 32 32 = 0) (s : State) :
    s.commonCheck { e with opc := 0x02#8 } false = 0 := by
  obtain ⟨hr, hr2, hf⟩ := h
  unfold State.commonCheck
  dsimp only
  rw [hr, hr2, hf, h6, h32]
  rfl

end Submission

/-! ### Answers -/

/-- An answer changes the host interface, and counts a free value. -/
def answers (s t : State) : Prop := t = { s with hst := hostTakes s.hst t.hst, out := t.out, free := t.free }

theorem answers_of_hostOnly {s t : State} (h : hostOnly s t) : answers s t.drew := by
  unfold hostOnly at h
  unfold answers
  rw [h]
  rfl

theorem answerOk_answers (s : State) (q : Nat) (e : Sqe) : answers s (s.answerOk q e) := answers_of_hostOnly (postCqe_hostOnly s _)

theorem postFor_answers (s : State) (q cid status detail : Nat) : answers s (s.postFor q cid status detail) :=
  answers_of_hostOnly (postCqe_hostOnly s _)

section Answered
variable {s t : State} (h : answers s t)
include h

theorem answers.models : t.hst.models = s.hst.models := by
  unfold Stated.answers at h
  rw [h]
  rfl

theorem answers.variants : t.hst.variants = s.hst.variants := by
  unfold Stated.answers at h
  rw [h]
  rfl

theorem answers.sch : t.sch = s.sch := by
  unfold Stated.answers at h
  rw [h]

theorem answers.kites : t.kites = s.kites := by
  unfold Stated.answers at h
  rw [h]

theorem answers.pgm : t.pgm = s.pgm := by
  unfold Stated.answers at h
  rw [h]

end Answered

/-! ### CANCEL, model slots and variants -/

section Decisions
variable {s : State} {b : Sub}

theorem cancelAt_live {n : Nat} {r : Req} (hc : s.commonCheck b.e b.dup = 0)
    (hs : ∀ x ∈ s.sch.subs, ¬(x.q = bits b.e.ptr.toNat 0 6 ∧ x.e.cid.toNat = bits b.e.ptr.toNat 16 16 ∧ x.dup = false))
    (hr : (s.sch.reqs.find? fun x => x.2.sq == bits b.e.ptr.toNat 0 6 && x.2.cid == bits b.e.ptr.toNat 16 16 && x.2.live && !x.2.posted) = some (n, r)) :
    s.cancelAt b = s.setReq n { r with cancelAt := some (r.cancelAt.getD b.stamp), cancelBy := r.cancelBy ++ [(b.q, b.e.cid.toNat)] } := by
  have hnone : (s.sch.subs.find? fun x => x.q == bits b.e.ptr.toNat 0 6 && x.e.cid.toNat == bits b.e.ptr.toNat 16 16 && !x.dup) = none := by
    rw [List.find?_eq_none]
    intro x hx h
    simp only [Bool.and_eq_true, beq_iff_eq, Bool.not_eq_true', and_assoc] at h
    exact hs x hx h
  unfold State.cancelAt
  refine (if_neg (by rw [hc]; exact nofun)).trans ?_
  dsimp only
  rw [hnone]
  dsimp only
  rw [hr]

theorem loadModelAt_begins (hc : s.commonCheck b.e b.dup = 0) (hm : b.e.model.toNat ≤ 15) (hs : s.model b.e.model.toNat = none)
    (hn : s.modelNamed b.e.model.toNat = false) : s.loadModelAt b = { s with hst := { s.hst with
      models := mapSet s.hst.models b.e.model.toNat { image := b.e.ptr.toNat, bytes := b.e.ntok.toNat, digest := 0, sq := b.q, cid := b.e.cid.toNat, filling := true, usable := false, fin := s.now } } } := by
  unfold State.loadModelAt
  exact (if_neg (by rw [hc]; exact nofun)).trans ((if_neg (Nat.not_lt.2 hm)).trans (if_neg (by rw [hs, hn]; exact nofun)))

theorem unloadModelAt_empties {x : Model} (hc : s.commonCheck b.e b.dup = 0) (hm : b.e.model.toNat ≤ 15) (hs : s.model b.e.model.toNat = some x)
    (hf : x.filling = false) (hn : s.modelNamed b.e.model.toNat = false) : s.unloadModelAt b =
      ({ s with pgm := s.pgm.release1 x.weights, hst := { s.hst with models := mapDel s.hst.models b.e.model.toNat } }).answerOk b.q b.e := by
  unfold State.unloadModelAt
  refine (if_neg (by rw [hc]; exact nofun)).trans ?_
  rw [hs]
  exact (if_neg (by rw [hf, Bool.or_false, decide_eq_true_eq]; omega)).trans (if_neg (by rw [hn]; exact nofun))

theorem installAt_begins {lv logp nl dig : Nat} {fs : List Nat} (hc : s.commonCheck b.e b.dup = 0) (hd : s.dmaFails b.e = false)
    (hv : s.variantDesc b.e = some (lv, logp, nl, dig, fs)) (hn : b.e.variant.toNat ≤ 4095) (hs : mapGet s.hst.variants b.e.variant.toNat = none)
    (hname : s.variantNamed b.e.variant.toNat = false) : s.installAt b = { s with hst := { s.hst with
      variants := mapSet s.hst.variants b.e.variant.toNat ⟨lv, logp, nl, dig, fs, b.q, b.e.cid.toNat, true, false, b.e.model.toNat, s.now, none⟩ } } := by
  unfold State.installAt
  refine (if_neg (by rw [hc]; exact nofun)).trans ((if_neg (by rw [hd]; exact nofun)).trans ?_)
  rw [hv]
  exact (if_neg (Nat.not_lt.2 hn)).trans (if_neg (by rw [hs, hname]; exact nofun))

theorem removeAt_empties {x : Variant} (hc : s.commonCheck b.e b.dup = 0) (hs : mapGet s.hst.variants b.e.variant.toNat = some x)
    (hf : x.filling = false) (hn : s.variantNamed b.e.variant.toNat = false) : s.removeAt b =
      ({ s with pgm := s.pgm.queueDrop false (8192 + b.e.variant.toNat)
                hst := { s.hst with variants := mapDel s.hst.variants b.e.variant.toNat } }).answerOk b.q b.e := by
  unfold State.removeAt
  refine (if_neg (by rw [hc]; exact nofun)).trans ?_
  rw [hs]
  exact (if_neg (by rw [hf]; exact nofun)).trans (if_neg (by rw [hn]; exact nofun))

end Decisions

/-- A command that needs no prompt's bytes reads its auxiliary block alone. -/
theorem dmaFails_aux {s : State} {e : Sqe} {opc : BitVec 8} (ho : opc ≠ 1) (h : e.auxlen.toNat = 0 ∨ s.hst.bad e.aux.toNat e.auxlen.toNat = false) :
    s.dmaFails { e with opc := opc } = false := by
  have hopc : (opc == 1) = false := beq_eq_false_iff_ne.2 ho
  unfold State.dmaFails
  dsimp only
  rw [hopc, Bool.false_and, Bool.false_or]
  obtain h | h := h
  · rw [BitVec.eq_of_toNat_eq (y := 0) h]
    rfl
  · rw [h, Bool.and_false]

/-- Settles O40: command by command. -/
theorem modelAndVariantCommands : Obligations.ModelAndVariantCommands := by
  unfold Obligations.ModelAndVariantCommands
  intro s q e ht hp
  refine ⟨fun n r h6 h32 hs hr => ?_, fun hm hs hn => ?_, fun x hm hs hf hn => ?_, fun lv logp nl dig fs hd hv hn hs hname => ?_,
    fun x hs hf hn => ?_⟩
  · exact congrArg Host.Outcome.next ((submit_taken ht 0x02).trans (cancelAt_live (b := taken s q.val 0x02 e) (commonCheck_cancel hp h6 h32 _) hs hr))
  · exact congrArg Host.Outcome.next ((submit_taken ht 0x10).trans
      (loadModelAt_begins (b := taken s q.val 0x10 e) (commonCheck_plain hp (by decide) _) hm hs hn))
  · have hans := answerOk_answers { submitted s q.val e with
      pgm := s.pgm.release1 x.weights, hst := { (submitted s q.val e).hst with models := mapDel s.hst.models e.model.toNat } } q.val { e with opc := 0x11 }
    refine ⟨_, congrArg Host.Outcome.next ((submit_taken ht 0x11).trans
      (unloadModelAt_empties (b := taken s q.val 0x11 e) (commonCheck_plain hp (by decide) _) hm hs hf hn)), ?_, ?_, ?_, ?_⟩
    · exact hans.models
    · exact hans.sch
    · exact hans.kites
    · exact hans.pgm.trans (release1_eq s.pgm x.weights)
  · exact congrArg Host.Outcome.next ((submit_taken ht 0x12).trans
      (installAt_begins (b := taken s q.val 0x12 e) (commonCheck_plain hp (by decide) _) (dmaFails_aux (by decide) hd) hv hn hs hname))
  · have hans := answerOk_answers { submitted s q.val e with
      pgm := s.pgm.queueDrop false (8192 + e.variant.toNat)
      hst := { (submitted s q.val e).hst with variants := mapDel s.hst.variants e.variant.toNat } } q.val { e with opc := 0x13 }
    exact ⟨_, congrArg Host.Outcome.next ((submit_taken ht 0x13).trans
      (removeAt_empties (b := taken s q.val 0x13 e) (commonCheck_plain hp (by decide) _) hs hf hn)), hans.variants, hans.sch, hans.kites, hans.pgm⟩

end Sys2Proof.Stated
end

section
/-! SUPPORT. The ends of filling: the checks of a model slot (R414, R444) and of a variant (R268, R444). -/
namespace Sys2Proof.Stated
open Sys2Proof.Machine

/-! ### A list without its repeated elements -/

theorem eraseDups_length_le : ∀ (n : Nat) (l : List Nat), l.length ≤ n → l.eraseDups.length ≤ l.length
  | _, [], _ => Nat.le_refl _
  | n + 1, a :: l, h => by
    have hf : (l.filter fun b => !b == a).length ≤ l.length := List.length_filter_le _ _
    have hl : l.length ≤ n := Nat.le_of_succ_le_succ h
    have ih := eraseDups_length_le n (l.filter fun b => !b == a) (hf.trans hl)
    rw [List.eraseDups_cons, List.length_cons, List.length_cons]
    omega

/-- Nothing is erased exactly where no element stands twice. -/
theorem eraseDups_length_iff : ∀ l : List Nat, l.eraseDups.length = l.length ↔ l.Nodup
  | [] => iff_of_true rfl List.nodup_nil
  | a :: l => by
    have hf : (l.filter fun b => !b == a).length ≤ l.length := List.length_filter_le _ _
    have he := eraseDups_length_le _ (l.filter fun b => !b == a) (Nat.le_refl _)
    rw [List.eraseDups_cons, List.length_cons, List.length_cons, List.nodup_cons]
    by_cases ha : a ∈ l
    · have hlt : (l.filter fun b => !b == a).length < l.length := by
        refine List.length_filter_lt_length_iff_exists.2 ⟨a, ha, ?_⟩
        rw [beq_self_eq_true]
        exact nofun
      exact iff_of_false (by omega) fun h => h.1 ha
    · have hall : (l.filter fun b => !b == a) = l := by
        refine List.filter_eq_self.2 fun b hb => ?_
        rw [Bool.not_eq_true', beq_eq_false_iff_ne]
        exact fun h => ha (h ▸ hb)
      rw [hall, and_iff_right ha, Nat.add_right_cancel_iff]
      exact eraseDups_length_iff l

/-! ### Model slots (R414) -/

section Load
variable {s u v : State} {m : Nat} {x y : Model}

/-- A slot that fails is empty again, and its command is answered. -/
def loadFailed (s : State) (m : Nat) (x : Model) : State :=
  ({ s with hst := { s.hst with models := mapDel s.hst.models m } }).postFor x.sq x.cid 3 0x10

/-- A slot that holds its model, whose weight frames are referenced. -/
def loadEnded (s : State) (m : Nat) (x y : Model) (fs : List Nat) : State :=
  ({ s with pgm := s.pgm.later (fs.map .inc), hst := { s.hst with models := mapSet s.hst.models m { y with weights := fs } } }).postFor x.sq x.cid 0 0

/-- The end of the weights' check. -/
def weighed (m : Nat) (x y : Model) : Option (List Nat) × State → State
  | (none, s) => loadFailed s m x
  | (some fs, s) => loadEnded s m x y fs

/-- The end of the image's check. -/
def imaged (s : State) (m : Nat) (x : Model) : Option (Model × List (Nat × Nat × Nat)) → State
  | none => loadFailed s m x
  | some (y, ws) => weighed m x y (s.checkWeights ws)

theorem modelDone_early (hm : s.model m = some x) (h : x.filling = false ∨ s.now < x.fin) : s.modelDone m = s := by
  unfold State.modelDone
  rw [hm]
  refine if_pos ?_
  rw [Bool.or_eq_true, Bool.not_eq_true', decide_eq_true_eq]
  exact h

theorem modelDone_due (hm : s.model m = some x) (hf : x.filling = true) (h : x.fin ≤ s.now) : s.modelDone m =
    imaged (s.readGood x.image x.bytes).2 m x ((s.readGood x.image x.bytes).1.bind fun l => (s.readGood x.image x.bytes).2.parseModel x l) := by
  unfold State.modelDone
  rw [hm]
  refine (if_neg ?_).trans ?_
  · rw [Bool.or_eq_true, Bool.not_eq_true', decide_eq_true_eq, hf]
    exact not_or.2 ⟨nofun, Nat.not_lt.2 h⟩
  · generalize s.readGood x.image x.bytes = r
    obtain ⟨img, u⟩ := r
    dsimp only
    rcases (img.bind fun l => u.parseModel x l) with _ | ⟨y, ws⟩
    · rfl
    · rcases hw : u.checkWeights ws with ⟨_ | fs, v⟩
      · simp only [imaged, hw]
        rfl
      · simp only [imaged, hw]
        rfl

theorem loadFailed_spec (s : State) (m : Nat) (x : Model) : (loadFailed s m x).hst.models = mapDel s.hst.models m ∧ (loadFailed s m x).pgm = s.pgm ∧
    (loadFailed s m x).sch = s.sch :=
  have h := postFor_answers { s with hst := { s.hst with models := mapDel s.hst.models m } } x.sq x.cid 3 0x10
  ⟨h.models, h.pgm, h.sch⟩

theorem loadEnded_spec (s : State) (m : Nat) (x y : Model) (fs : List Nat) :
    (loadEnded s m x y fs).hst.models = mapSet s.hst.models m { y with weights := fs } ∧
      (loadEnded s m x y fs).pgm = { s.pgm with backlog := s.pgm.backlog ++ fs.map fun f => ⟨.inc f, false⟩ } := by
  have h := postFor_answers { s with pgm := s.pgm.later (fs.map .inc), hst := { s.hst with models := mapSet s.hst.models m { y with weights := fs } } }
    x.sq x.cid 0 0
  refine ⟨h.models, h.pgm.trans ?_⟩
  unfold Pgm.later
  rw [List.map_map]
  rfl

end Load

/-! ### Variants (R268) -/

section Install
variable {s : State} {n c : Nat} {x : Variant}

/-- A variant that fails is removed, and its command is answered. -/
def installFailed (s : State) (n : Nat) (x : Variant) (d : Nat) : State :=
  ({ s with hst := { s.hst with variants := mapDel s.hst.variants n } }).postFor x.sq x.cid 3 d

theorem installFailed_spec (s : State) (n : Nat) (x : Variant) (d : Nat) :
    (installFailed s n x d).hst.variants = mapDel s.hst.variants n ∧ (installFailed s n x d).pgm = s.pgm :=
  have h := postFor_answers { s with hst := { s.hst with variants := mapDel s.hst.variants n } } x.sq x.cid 3 d
  ⟨h.variants, h.pgm⟩

/-- The class of a variant's first frame. -/
def firstClass (p : Pgm) (fs : List Nat) : Nat := ((fs.head?.bind fun f => p.frameAt f).map (·.cls)).getD 12

/-- An idle frame of a class. -/
def idleFrame (p : Pgm) (c f : Nat) : Bool := match p.frameAt f with
  | some y => y.st == .alloc && y.refcnt == 1 && y.cls == c
  | none => false

theorem idleFrame_iff {p : Pgm} {f : Nat} : idleFrame p c f = true ↔ ∃ y, p.frameAt f = some y ∧ y.st = .alloc ∧ y.refcnt = 1 ∧ y.cls = c := by
  unfold idleFrame
  cases p.frameAt f with
  | none => exact iff_of_false nofun nofun
  | some y =>
    simp only [Bool.and_eq_true, beq_iff_eq, and_assoc, Option.some.injEq, exists_eq_left']

/-- The geometry of the model that a variant's installation named. -/
def variantGeo (s : State) (x : Variant) : Option (Nat × Nat × Nat) := (s.variantModel x).map fun m => (m.nkv, m.d, m.kvfmt)

/-- A variant that holds: its pages are mapped, write-protected, and it serves from then on. -/
def installEnded (s : State) (n c : Nat) (x : Variant) : State :=
  ({ s with
    pgm := x.frames.zipIdx.foldl (fun p (f, i) => p.queue false
      (.map (8192 + n) (2 ^ 53 + n * 2 ^ 32 + i / ceilDiv x.len (2 ^ x.logp) * 2 ^ 25 + i % ceilDiv x.len (2 ^ x.logp) * 2 ^ c) f c true true)) s.pgm
    hst := { s.hst with variants := mapSet s.hst.variants n { x with
      filling := false, geo := variantGeo s x } } }).postFor x.sq x.cid 0 0

theorem variantDone_early (hv : mapGet s.hst.variants n = some x) (h : x.filling = false ∨ s.now < x.fin) : s.variantDone n = s := by
  unfold State.variantDone
  rw [hv]
  refine if_pos ?_
  rw [Bool.or_eq_true, Bool.or_eq_true, Bool.not_eq_true', decide_eq_true_eq]
  exact .inl h

theorem variantDone_due (hv : mapGet s.hst.variants n = some x) (hf : x.filling = true) (h : x.fin ≤ s.now) (hr : s.roomFor x.frames.length = true) :
    s.variantDone n =
      if !x.frames.all (idleFrame s.pgm (firstClass s.pgm x.frames)) || x.frames.eraseDups.length != x.frames.length then installFailed s n x 0x11
      else if !(s.variantHolds x).1 then installFailed (s.variantHolds x).2 n x 0x12
      else installEnded (s.variantHolds x).2 n (firstClass s.pgm x.frames) x := by
  unfold State.variantDone
  rw [hv]
  refine (if_neg ?_).trans ?_
  · rw [Bool.or_eq_true, Bool.or_eq_true, Bool.not_eq_true', Bool.not_eq_true', decide_eq_true_eq, hf, hr]
    exact not_or.2 ⟨not_or.2 ⟨nofun, Nat.not_lt.2 h⟩, nofun⟩
  · generalize s.variantHolds x = r
    obtain ⟨good, u⟩ := r
    rfl

theorem queue_foldl (es : List (Nat × Nat)) (g : Nat → Nat → EditKind) (p : Pgm) :
    es.foldl (fun p (f, i) => p.queue false (g f i)) p = { p with edits := p.edits ++ es.map fun e => ⟨g e.1 e.2, false⟩ } := by
  induction es generalizing p with
  | nil => rw [List.map_nil, List.append_nil]; rfl
  | cons e es ih =>
    exact (ih _).trans (congrArg (fun l => { p with edits := l }) (List.append_assoc p.edits [⟨g e.1 e.2, false⟩] _))

theorem installEnded_spec (s : State) (n c : Nat) (x : Variant) :
    (installEnded s n c x).hst.variants = mapSet s.hst.variants n { x with
      filling := false, geo := variantGeo s x } ∧
    (installEnded s n c x).pgm = { s.pgm with edits := s.pgm.edits ++ x.frames.zipIdx.map fun f =>
      ⟨.map (8192 + n) (2 ^ 53 + n * 2 ^ 32 + f.2 / ceilDiv x.len (2 ^ x.logp) * 2 ^ 25 + f.2 % ceilDiv x.len (2 ^ x.logp) * 2 ^ c) f.1 c true true, false⟩ } := by
  have h := postFor_answers { s with
    pgm := x.frames.zipIdx.foldl (fun p (f, i) => p.queue false
      (.map (8192 + n) (2 ^ 53 + n * 2 ^ 32 + i / ceilDiv x.len (2 ^ x.logp) * 2 ^ 25 + i % ceilDiv x.len (2 ^ x.logp) * 2 ^ c) f c true true)) s.pgm
    hst := { s.hst with variants := mapSet s.hst.variants n { x with
      filling := false, geo := variantGeo s x } } } x.sq x.cid 0 0
  exact ⟨h.variants, h.pgm.trans (queue_foldl _ (fun f i => .map (8192 + n)
    (2 ^ 53 + n * 2 ^ 32 + i / ceilDiv x.len (2 ^ x.logp) * 2 ^ 25 + i % ceilDiv x.len (2 ^ x.logp) * 2 ^ c) f c true true) _)⟩

/-- A variant whose model is loaded is judged by its rows. -/
theorem variantHolds_rows {m : Model} {l : List Byte} {u : State} (hm : s.model x.model = some m) (hf : m.filling = false)
    (hl : s.variantRows x m = (some l, u)) : s.variantHolds x = (digest l == x.digest, u) := by
  have hv : s.variantModel x = some m := by
    unfold State.variantModel
    rw [hm, Option.filter_some, if_pos (by rw [hf]; rfl)]
  unfold State.variantHolds
  rw [hv]
  dsimp only
  rw [hl]
  rfl

/-- Idle frames of one class, none of them twice, are what the pages of a variant need. -/
theorem frames_pass (hne : x.frames ≠ []) (hnd : x.frames.Nodup)
    (hall : ∀ f ∈ x.frames, ∃ y, s.pgm.frameAt f = some y ∧ y.st = .alloc ∧ y.refcnt = 1 ∧ y.cls = c) : firstClass s.pgm x.frames = c ∧
      ¬(!x.frames.all (idleFrame s.pgm (firstClass s.pgm x.frames)) || x.frames.eraseDups.length != x.frames.length) = true := by
  have hfirst : firstClass s.pgm x.frames = c := by
    obtain ⟨f, fs, hfs⟩ := List.exists_cons_of_ne_nil hne
    obtain ⟨y, hy, -, -, hc⟩ := hall f (by rw [hfs]; exact List.mem_cons_self ..)
    unfold firstClass
    rw [hfs, List.head?_cons, Option.bind_some, hy]
    exact hc
  refine ⟨hfirst, ?_⟩
  rw [hfirst, Bool.or_eq_true, Bool.not_eq_true', bne_iff_ne, List.all_eq_false]
  rintro (⟨f, hf, hno⟩ | hlen)
  · exact hno (idleFrame_iff.2 (hall f hf))
  · exact hlen ((eraseDups_length_iff _).2 hnd)

/-- A frame that is not idle, or not of the class of another, or that stands twice, fails them. -/
theorem frames_fail (h : (∃ f ∈ x.frames, ∀ y, s.pgm.frameAt f = some y → y.st ≠ .alloc ∨ y.refcnt ≠ 1 ∨
      ∃ g ∈ x.frames, ∀ z, s.pgm.frameAt g = some z → z.cls ≠ y.cls) ∨ ¬x.frames.Nodup) :
    (!x.frames.all (idleFrame s.pgm (firstClass s.pgm x.frames)) || x.frames.eraseDups.length != x.frames.length) = true := by
  rw [Bool.or_eq_true, Bool.not_eq_true', bne_iff_ne]
  refine or_iff_not_imp_left.2 fun hall hlen => ?_
  rw [Bool.not_eq_false, List.all_eq_true] at hall
  obtain ⟨f, hf, hbad⟩ | hnd := h
  · obtain ⟨y, hy, hst, href, hcls⟩ := idleFrame_iff.1 (hall f hf)
    obtain hst' | href' | ⟨g, hg, hg'⟩ := hbad y hy
    · exact hst' hst
    · exact href' href
    · obtain ⟨z, hz, -, -, hzc⟩ := idleFrame_iff.1 (hall g hg)
      exact hg' z hz (hzc.trans hcls.symm)
  · exact hnd ((eraseDups_length_iff _).1 hlen)

end Install

/-- Settles O41: by the check at which a filling slot or variant fails, or that it passes all. -/
theorem fillingEnds : Obligations.FillingEnds := by
  unfold Obligations.FillingEnds
  intro s
  refine ⟨fun m x hm h => congrArg Host.Outcome.next (modelDone_early hm h), fun m x hm hf hn hout => ?_,
    fun m x img u hm hf hn hr hp => ?_, fun m x img u v y ws hm hf hn hr hp hw => ?_, fun m x img u v y ws fs hm hf hn hr hp hw => ?_,
    fun n x hv hf hn hroom hbad => ?_, fun n x m c l u hv hf hn hroom hne hnd hall hm hmf hl => ?_,
    fun n x hv h => congrArg Host.Outcome.next (variantDone_early hv h)⟩
  · have hread : s.readGood x.image x.bytes = (none, s) := if_pos hout
    refine ⟨_, congrArg Host.Outcome.next (modelDone_due hm hf hn), ?_⟩
    rw [hread]
    exact loadFailed_spec s m.val x
  · refine ⟨_, congrArg Host.Outcome.next (modelDone_due hm hf hn), ?_⟩
    have hnone : (img.bind fun l => u.parseModel x l) = none := by
      cases img with
      | none => rfl
      | some l => exact hp l rfl
    rw [hr]
    dsimp only
    rw [hnone]
    exact loadFailed_spec u m.val x
  · refine ⟨_, congrArg Host.Outcome.next (modelDone_due hm hf hn), ?_⟩
    rw [hr]
    dsimp only
    rw [Option.bind_some, hp]
    simp only [imaged, hw]
    exact loadFailed_spec v m.val x
  · refine ⟨_, congrArg Host.Outcome.next (modelDone_due hm hf hn), ?_⟩
    rw [hr]
    dsimp only
    rw [Option.bind_some, hp]
    simp only [imaged, hw]
    exact loadEnded_spec v m.val x y fs
  · exact ⟨_, congrArg Host.Outcome.next ((variantDone_due hv hf hn hroom).trans (if_pos (frames_fail hbad))), installFailed_spec s n.toNat x 0x11⟩
  · obtain ⟨hfirst, hpass⟩ := frames_pass hne hnd hall
    have hdone := (variantDone_due hv hf hn hroom).trans (if_neg hpass)
    rw [variantHolds_rows hm hmf hl, hfirst] at hdone
    refine ⟨fun hd => ?_, fun hd => ?_⟩
    · exact ⟨_, congrArg Host.Outcome.next (hdone.trans (if_pos (by rw [beq_eq_false_iff_ne.2 hd]; rfl))), installFailed_spec u n.toNat x 0x12⟩
    · exact ⟨_, congrArg Host.Outcome.next (hdone.trans (if_neg (by rw [hd, beq_self_eq_true]; exact nofun))), installEnded_spec u n.toNat c x⟩

end Sys2Proof.Stated
end

section
/-! SUPPORT. The decisions of admission: prompts accepted and refused (R292–R297), and the rounds that take the submissions (R282). -/
namespace Sys2Proof.Stated
open Sys2Proof.Machine

/-! ### Prompts (R292, R297) -/

section Prompt
variable {s t : State} {q : Nat} {e : Sqe}

theorem hostOnly.sch (h : hostOnly s t) : t.sch = s.sch := by
  unfold Stated.hostOnly at h
  rw [h]

theorem hostOnly.kites (h : hostOnly s t) : t.kites = s.kites := by
  unfold Stated.hostOnly at h
  rw [h]

/-- An answer to a command changes the host interface, and counts a free value. -/
theorem answerCmd_answers (s : State) (q : Nat) (e : Sqe) (status detail hint : Nat) : answers s (s.answerCmd q e status detail hint) := by
  unfold State.answerCmd
  extract_lets o u
  have hu : answers s u := answers_of_hostOnly (postCqe_hostOnly s _)
  split
  · unfold answers at hu ⊢
    rw [hu]
    rfl
  · exact hu

/-- What a refusal leaves: it is counted, and no request, plan or submission changes. -/
def refused (s t : State) : Prop :=
  t.kites = s.kites ∧ t.sch.nRef = (s.sch.nRef + 1) % 2 ^ 32 ∧ t.sch.nAcc = s.sch.nAcc ∧ t.sch.reqs = s.sch.reqs ∧ t.sch.plan = s.sch.plan ∧
    t.sch.subs = s.sch.subs

theorem refuse_refused (s : State) (q : Nat) (e : Sqe) (status detail hint : Nat) : refused s (s.refuse q e status detail hint) := by
  unfold State.refuse
  extract_lets c u
  have h := answerCmd_answers (u.upWin u.stamp fun w => { w with refused := min 0xFFFF (w.refused + 1) }) q e status detail hint
  unfold refused
  rw [h.kites, h.sch]
  exact ⟨rfl, rfl, rfl, rfl, rfl, rfl⟩

/-- The request that a slot takes, with its commit tick. -/
def committed (s : State) (slot : Nat) (r : Req) (m : Model) (chs : List (Nat × Nat × Nat)) : Req :=
  { r with commit := commitOf chs, xstream := nextGen (mapGetD s.sch.gens slot 0) slot * 8192 + slot, reserve := m.needs r }

/-- What an acceptance leaves: the request stands in its slot, and is counted. -/
theorem accept_spec (s : State) (slot : Nat) (r : Req) (m : Model) (keys : List Nat) (chs : List (Nat × Nat × Nat)) (a : Nat) :
    (s.accept slot r m keys chs a).kites = s.kites ∧ (s.accept slot r m keys chs a).sch.nAcc = (s.sch.nAcc + 1) % 2 ^ 32 ∧
      (s.accept slot r m keys chs a).sch.nRef = s.sch.nRef ∧
      (s.accept slot r m keys chs a).sch.reqs = mapSet s.sch.reqs slot (committed s slot r m chs) ∧
      (s.accept slot r m keys chs a).sch.subs = s.sch.subs := by
  unfold State.accept
  extract_lets
  rw [(postCqe_hostOnly _ _).kites, (postCqe_hostOnly _ _).sch]
  exact ⟨rfl, rfl, rfl, rfl, rfl⟩

/-- A slot that is free holds no request. -/
theorem freeSlot_none {n : Nat} (h : s.freeSlot = some n) : mapGet s.sch.reqs n = none := by
  have := List.find?_some h
  rw [Bool.and_eq_true, Option.isNone_iff_eq_none] at this
  exact this.1

/-- The outcome of a prompt: accepted into a free slot, or refused. -/
def decided (s t : State) (q : Nat) (e : Sqe) : Prop :=
  (t.kites = s.kites ∧ t.sch.nAcc = (s.sch.nAcc + 1) % 2 ^ 32 ∧ t.sch.nRef = s.sch.nRef ∧ t.sch.subs = s.sch.subs ∧
    ∃ n r, mapGet s.sch.reqs n = none ∧ t.sch.reqs = mapSet s.sch.reqs n r ∧ r.held = true ∧ r.cid = e.cid.toNat ∧ r.sq = q ∧
      r.deadline = e.deadline.toNat) ∨ refused s t

/-- The prompt of a submission, as it is placed. -/
structure Placing where
  tokens : List Nat
  fp : Nat × Map (List Nat) × List Nat
  req : Req

/-- What a round weighs for a prompt under a model. -/
def placing (s : State) (b : Sub) (m : Model) : Placing :=
  let tokens := s.tokensOf b.e
  let len := s.varLen b.e + tokens.length
  let fp := s.findPrefix b.e m tokens (if sqeFlag b.e 1 then len - (s.parentsOf b.e).length else len - 1)
  ⟨tokens, fp, s.newReq b.q b.stamp b.e m fp tokens⟩

/-- Whether memory, or a slot, is short for a prompt. -/
def shortOf (s : State) (m : Model) (r : Req) : Bool :=
  decide (s.pgm.free false < m.needs r + (s.sch.reqs.map (·.2.reserve)).foldl (· + ·) 0) || !s.roomFor (r.refs.length * m.nl) || s.freeSlot.isNone

/-- The decision of a prompt that its checks pass, from where it would be placed. -/
def placed (s : State) (a : Nat) (b : Sub) (m : Model) (x : Placing) (chs : Option (List (Nat × Nat × Nat))) (lim : Bool) : State :=
  let horizon := s.tickOf s.pwr.tb + 511
  if shortOf s m x.req || s.misses chs x.req.deadline horizon then
    let hint := ((chs.map commitOf).filter fun c => decide (c ≤ horizon)).getD 0
    if s.idlePlan.misses (s.idlePlan.place x.req [] (s.earliest a) horizon (a + 500000) none).1 x.req.deadline horizon then
      s.refuse b.q b.e 2 0x16 hint
    else if shortOf s m x.req || lim then s.refuse b.q b.e 1 0x15 0
    else s.refuse b.q b.e 1 0x16 hint
  else
    match s.freeSlot with
    | none => s.refuse b.q b.e 1 0x15 0
    | some n => s.accept n x.req m x.fp.2.2 (chs.getD []) (a + 500000)

/-- A prompt that its checks pass is placed. -/
theorem prefillAt_passes {a : Nat} {b : Sub} {m : Model} (hc : s.prefillCheck b.e b.dup = 0) (hrun : s.sch.run = true) (hf : b.full = false)
    (hm : s.model b.e.model.toNat = some m) : s.prefillAt a b = placed s a b m (placing s b m)
      (s.place (placing s b m).req s.sch.plan (s.earliest a) (s.tickOf s.pwr.tb + 511) (a + 500000) none).1
      (s.place (placing s b m).req s.sch.plan (s.earliest a) (s.tickOf s.pwr.tb + 511) (a + 500000) none).2 := by
  unfold State.prefillAt placed
  generalize 500000 = window
  generalize 511 = span
  refine (if_neg (by rw [hc]; exact nofun)).trans ((if_neg (by rw [hrun]; exact nofun)).trans ((if_neg (by rw [hf]; exact nofun)).trans ?_))
  dsimp only
  rw [hm]
  unfold placing shortOf
  generalize State.place = place
  generalize State.refuse = refuse
  generalize State.accept = accept
  generalize State.misses = misses
  generalize State.findPrefix = findPrefix
  generalize State.newReq = newReq
  generalize State.idlePlan = idlePlan
  generalize State.roomFor = roomFor
  generalize State.tickOf = tickOf
  generalize State.freeSlot = freeSlot
  rfl

/-- The other prompts are refused. -/
theorem prefillAt_refuses {a : Nat} {b : Sub} (h : ¬(s.prefillCheck b.e b.dup = 0 ∧ s.sch.run = true ∧ b.full = false ∧
    ∃ m, s.model b.e.model.toNat = some m)) : refused s (s.prefillAt a b) := by
  unfold State.prefillAt
  dsimp only
  split
  · exact refuse_refused ..
  · next hc =>
    split
    · exact refuse_refused ..
    · next hrun =>
      split
      · exact refuse_refused ..
      · next hf =>
        split
        · exact refuse_refused ..
        · next m hm =>
          refine absurd ⟨?_, ?_, ?_, m, hm⟩ h
          · rw [bne_iff_ne, not_not] at hc; exact hc
          · rw [Bool.not_eq_true', Bool.not_eq_false] at hrun; exact hrun
          · exact Bool.eq_false_iff.2 hf

theorem placed_decided (s : State) (a : Nat) (b : Sub) (m : Model) (chs : Option (List (Nat × Nat × Nat))) (lim : Bool) :
    decided s (placed s a b m (placing s b m) chs lim) b.q b.e := by
  unfold placed
  dsimp only
  split
  · split
    · exact .inr (refuse_refused ..)
    · split
      · exact .inr (refuse_refused ..)
      · exact .inr (refuse_refused ..)
  · split
    · exact .inr (refuse_refused ..)
    · next n hn =>
      obtain ⟨hkites, hacc, href, hreqs, hsubs⟩ := accept_spec s n (placing s b m).req m (placing s b m).fp.2.2 (chs.getD []) (a + 500000)
      exact .inl ⟨hkites, hacc, href, hsubs, n, _, freeSlot_none hn, hreqs, rfl, rfl, rfl, rfl⟩

/-- Every prompt is accepted or refused. -/
theorem prefillAt_decided (s : State) (a : Nat) (b : Sub) : decided s (s.prefillAt a b) b.q b.e := by
  by_cases h : s.prefillCheck b.e b.dup = 0 ∧ s.sch.run = true ∧ b.full = false ∧ ∃ m, s.model b.e.model.toNat = some m
  · obtain ⟨hc, hrun, hf, m, hm⟩ := h
    rw [prefillAt_passes hc hrun hf hm]
    exact placed_decided ..
  · exact .inr (prefillAt_refuses h)

/-- A prompt that finds memory, and can be placed so that it meets its deadline, is accepted. -/
theorem placed_accepts {a : Nat} {b : Sub} {m : Model} {x : Placing} {chs : List (Nat × Nat × Nat)} {lim : Bool} {n : Nat}
    (hneeds : m.needs x.req + (s.sch.reqs.map (·.2.reserve)).foldl (· + ·) 0 ≤ s.pgm.free false)
    (hroom : s.roomFor (x.req.refs.length * m.nl) = true) (hslot : s.freeSlot = some n) (hh : commitOf chs ≤ s.tickOf s.pwr.tb + 511)
    (hd : s.tickStart (commitOf chs + 1) - 1 ≤ x.req.deadline) :
    placed s a b m x (some chs) lim = s.accept n x.req m x.fp.2.2 chs (a + 500000) := by
  have hshort : shortOf s m x.req = false := by
    unfold shortOf
    rw [decide_eq_false (Nat.not_lt.2 hneeds), hroom, hslot]
    rfl
  have hmeets : s.misses (some chs) x.req.deadline (s.tickOf s.pwr.tb + 511) = false := by
    unfold State.misses
    dsimp only
    rw [decide_eq_false (Nat.not_lt.2 hh), decide_eq_false (Nat.not_lt.2 hd)]
    rfl
  unfold placed
  dsimp only
  rw [if_neg (by rw [hshort, hmeets]; exact nofun), hslot]
  rfl

end Prompt

/-! ### Rounds (R282) -/

section Round
variable {s : State}

theorem mem_sortIns {α : Type} (le : α → α → Bool) {x y : α} {l : List α} : x ∈ sortIns le y l ↔ x = y ∨ x ∈ l := by
  induction l with
  | nil => rw [sortIns, List.mem_singleton, or_iff_left List.not_mem_nil]
  | cons z l ih =>
    unfold sortIns
    split
    · rw [List.mem_cons]
    · rw [List.mem_cons, ih, List.mem_cons]
      exact or_left_comm

/-- Sorting keeps the elements. -/
theorem mem_sortBy {α : Type} (le : α → α → Bool) {x : α} {l : List α} : x ∈ sortBy le l ↔ x ∈ l := by
  induction l with
  | nil => exact Iff.rfl
  | cons y l ih => exact (mem_sortIns le).trans (by rw [List.mem_cons]; exact or_congr_right ih)

/-- A cancellation may take a submission out, and brings none. -/
theorem cancelAt_subs (s : State) (b : Machine.Sub) : (s.cancelAt b).sch.subs.Sublist s.sch.subs := by
  unfold State.cancelAt
  dsimp only
  split
  · rw [(answerCmd_answers ..).sch]
  · split
    · rw [(answerOk_answers ..).sch, (answerCmd_answers ..).sch]
      exact List.filter_sublist
    · split
      · exact List.Sublist.refl _
      · split
        · rw [(answerCmd_answers ..).sch]
        · rw [(answerCmd_answers ..).sch]

theorem loadModelAt_sch (s : State) (b : Machine.Sub) : (s.loadModelAt b).sch = s.sch := by
  unfold State.loadModelAt
  dsimp only
  split
  · exact (answerCmd_answers ..).sch
  · split
    · exact (answerCmd_answers ..).sch
    · split
      · exact (answerCmd_answers ..).sch
      · rfl

theorem unloadModelAt_sch (s : State) (b : Machine.Sub) : (s.unloadModelAt b).sch = s.sch := by
  unfold State.unloadModelAt
  dsimp only
  split
  · exact (answerCmd_answers ..).sch
  · split
    · exact (answerCmd_answers ..).sch
    · split
      · exact (answerCmd_answers ..).sch
      · split
        · exact (answerCmd_answers ..).sch
        · exact (answerOk_answers _ b.q b.e).sch

theorem installAt_sch (s : State) (b : Machine.Sub) : (s.installAt b).sch = s.sch := by
  unfold State.installAt
  dsimp only
  split
  · exact (answerCmd_answers ..).sch
  · split
    · exact (answerCmd_answers ..).sch
    · split
      · exact (answerCmd_answers ..).sch
      · split
        · exact (answerCmd_answers ..).sch
        · split
          · exact (answerCmd_answers ..).sch
          · rfl

theorem removeAt_sch (s : State) (b : Machine.Sub) : (s.removeAt b).sch = s.sch := by
  unfold State.removeAt
  dsimp only
  split
  · exact (answerCmd_answers ..).sch
  · split
    · exact (answerCmd_answers ..).sch
    · split
      · exact (answerCmd_answers ..).sch
      · split
        · exact (answerCmd_answers ..).sch
        · exact (answerOk_answers _ b.q b.e).sch

theorem decided_subs {t : State} {q : Nat} {e : Sqe} (h : decided s t q e) : t.sch.subs = s.sch.subs := by
  obtain ⟨-, -, -, h, -⟩ | ⟨-, -, -, -, -, h⟩ := h
  · exact h
  · exact h

/-- The decision of a submission brings no other. -/
theorem decideSub_subs (s : State) (a : Nat) (b : Machine.Sub) : (s.decideSub a b).sch.subs.Sublist s.sch.subs := by
  unfold State.decideSub
  split
  · rw [decided_subs (prefillAt_decided s a b)]
  · exact cancelAt_subs s b
  · rw [loadModelAt_sch]
  · rw [unloadModelAt_sch]
  · rw [installAt_sch]
  · rw [removeAt_sch]
  · rw [(answerCmd_answers ..).sch]

/-- A round that has fuel for every submission leaves those alone whose doorbell came at its start or after. -/
theorem decideRound_subs (a n : Nat) (s : State) (hn : s.sch.subs.length ≤ n) :
    ∀ b ∈ (State.decideRound a n s).sch.subs, b ∈ s.sch.subs ∧ a ≤ b.stamp := by
  induction n generalizing s with
  | zero =>
    have hnil : s.sch.subs = [] := List.length_eq_zero_iff.1 (Nat.le_zero.1 hn)
    intro b hb
    unfold State.decideRound at hb
    rw [hnil] at hb
    exact absurd hb List.not_mem_nil
  | succ n ih =>
    intro b hb
    unfold State.decideRound at hb
    split at hb
    · next h =>
      refine ⟨hb, Nat.not_lt.1 fun hlt => ?_⟩
      exact List.find?_eq_none.1 h b ((mem_sortBy _).2 hb) (decide_eq_true hlt)
    · next c h =>
      have hc : c ∈ s.sch.subs := (mem_sortBy _).1 (List.mem_of_find?_eq_some h)
      have hsub := decideSub_subs { s with sch := { s.sch with subs := s.sch.subs.erase c } } a c
      have hlen : (s.sch.subs.erase c).length = s.sch.subs.length - 1 := List.length_erase_of_mem hc
      have hpos : 0 < s.sch.subs.length := List.length_pos_of_mem hc
      obtain ⟨hmem, hst⟩ := ih _ (hsub.length_le.trans (by show (s.sch.subs.erase c).length ≤ n; omega)) b hb
      exact ⟨List.mem_of_mem_erase (hsub.subset hmem), hst⟩

end Round

theorem decideSub_prefill (s : State) (a : Nat) {b : Machine.Sub} (h : b.e.opc = 1) : s.decideSub a b = s.prefillAt a b := by
  unfold State.decideSub
  rw [h]
  rfl

/-- The state in which a queue has taken an entry, and the entry, whether or not its CID is outstanding. -/
def entryTaken (s : State) (q : Nat) (e : Sqe) : State :=
  (s.setQueue q { s.queue q with
    outst := if (s.queue q).outst.contains e.cid.toNat then (s.queue q).outst else (s.queue q).outst ++ [e.cid.toNat] }).drew

def entryOf (s : State) (q : Nat) (opc : BitVec 8) (e : Sqe) : Machine.Sub :=
  ⟨q, s.stamp, { e with opc := opc }, (s.queue q).outst.contains e.cid.toNat,
    opc == 1 && decide (4096 ≤ (s.sch.subs.filter fun y => y.e.opc == 1 && !y.full).length)⟩

theorem submit_open {s : State} {q : Nat} {e : Sqe} (hup : s.barUp = true) (hen : (s.queue q).en = true) (hdr : (s.queue q).draining = false)
    (opc : BitVec 8) : s.submit q opc e = (entryTaken s q e).decideSub s.pwr.tb (entryOf s q opc e) :=
  if_neg (by rw [hup, hen, hdr]; exact nofun)

/-- A placing that is known decides. -/
theorem placed_at {s : State} {a : Nat} {b : Machine.Sub} {m : Model} {x : Placing} {p : Option (List (Nat × Nat × Nat)) × Bool}
    {o : Option (List (Nat × Nat × Nat))} {lim : Bool} (h : p = (o, lim)) : placed s a b m x p.1 p.2 = placed s a b m x o lim := by
  rw [h]

/-- Settles O39: the prompts by their checks and by where they can be placed; the rounds by their submissions. -/
theorem admission : Obligations.Admission := by
  unfold Obligations.Admission
  intro s
  refine ⟨fun q e hup hen hdr => ?_, ?_,
    fun r hr => ?_, fun r hr => congrArg Host.Outcome.next (if_pos (by rw [hr]; rfl))⟩
  · have hdec := prefillAt_decided (entryTaken s q.val e) s.pwr.tb (entryOf s q.val 0x01 e)
    refine ⟨_, congrArg Host.Outcome.next ((submit_open hup hen hdr 0x01).trans (decideSub_prefill _ _ rfl)), ?_⟩
    obtain ⟨hk, hacc, href, -, hreq⟩ | ⟨hk, href, hacc, hreqs, hplan, -⟩ := hdec
    · exact ⟨hk, .inl ⟨hacc, href, hreq⟩⟩
    · exact ⟨hk, .inr ⟨href, hacc, hreqs, hplan⟩⟩
  · intro q e m chs lim n ht ho x tokens len fp r cur hc hrun hfull hm hneeds hroom hplace hh hd hslot
    have hb : taken s q.val 0x01 e = ⟨q.val, s.stamp, e, false, false⟩ := by
      have he : { e with opc := (0x01 : BitVec 8) } = e := by rw [← ho]
      unfold taken
      rw [he, decide_eq_false (Nat.not_le.2 hfull), Bool.and_false]
    have hsubmit : s.submit q.val 0x01 e = x.prefillAt s.pwr.tb ⟨q.val, s.stamp, e, false, false⟩ :=
      (submit_taken ht 0x01).trans ((congrArg (x.decideSub s.pwr.tb) hb).trans (decideSub_prefill x s.pwr.tb ho))
    have hpass := hsubmit.trans (prefillAt_passes (s := x) (a := s.pwr.tb) (b := ⟨q.val, s.stamp, e, false, false⟩) hc hrun rfl hm)
    have hacc := hpass.trans ((placed_at hplace).trans (placed_accepts (s := x) (b := ⟨q.val, s.stamp, e, false, false⟩)
      (x := placing x ⟨q.val, s.stamp, e, false, false⟩ m) (lim := lim) hneeds hroom hslot hh hd))
    obtain ⟨-, hn, -, hreqs, -⟩ := accept_spec x n r m fp.2.2 chs (s.pwr.tb + 500000)
    exact ⟨_, _, congrArg Host.Outcome.next hacc, hreqs, rfl, rfl, rfl, rfl, hn⟩
  · refine ⟨_, congrArg Host.Outcome.next (if_neg (by rw [hr]; exact nofun)), rfl, ?_⟩
    exact decideRound_subs _ _ s (Nat.le_refl _)

end Sys2Proof.Stated
end

section
/-! SUPPORT. The ticks of the step scheduler (R280, R285, R294, R304, R159): RUN, the start of a tick, and the step go. -/
namespace Sys2Proof.Stated
open Sys2Proof.Machine

/-! ### What reading memory and marking rows final leave -/

/-- Of the state only device memory, the export engine, the links' queues, the log and what goes to the host may differ. -/
def exportSide (s t : State) : Prop :=
  t = { s with pgm := t.pgm, xpt := t.xpt, lnk := t.lnk, tel := t.tel, out := t.out, free := t.free, hst := hostTakes s.hst t.hst }

theorem exportSide_refl (s : State) : exportSide s s := rfl

theorem exportSide_trans {s t u : State} (h : exportSide s t) (h' : exportSide t u) : exportSide s u := by
  unfold exportSide at *
  rw [h']
  simp only []
  rw [h]
  rfl

theorem exportSide_foldl {α : Type} {f : State → α → State} (l : List α) (hf : ∀ s x, exportSide s (f s x)) (s : State) :
    exportSide s (l.foldl f s) := by
  induction l generalizing s with
  | nil => rfl
  | cons x l ih => exact exportSide_trans (hf s x) (ih _)

theorem logOnly.exportSide {s t : State} (h : logOnly s t) : exportSide s t := by
  unfold logOnly at h
  unfold Stated.exportSide
  rw [h]
  rfl

theorem linkOnly.exportSide {s t : State} (h : linkOnly s t) : exportSide s t := by
  unfold linkOnly at h
  unfold Stated.exportSide
  rw [h]
  rfl

theorem hostOnly.exportSide {s t : State} (h : hostOnly s t) : exportSide s t := by
  unfold hostOnly at h
  unfold Stated.exportSide
  rw [h]
  rfl

theorem log_exportSide (s : State) (e : Ev) : exportSide s (s.log e) := logOnly.exportSide (State.log_frame s e)

section Fields
variable {s t : State} (h : exportSide s t)
include h

theorem exportSide.sch : t.sch = s.sch := by
  unfold Stated.exportSide at h
  rw [h]

theorem exportSide.kites : t.kites = s.kites := by
  unfold Stated.exportSide at h
  rw [h]

theorem exportSide.brd : t.brd = s.brd := by
  unfold Stated.exportSide at h
  rw [h]

theorem exportSide.pwr : t.pwr = s.pwr := by
  unfold Stated.exportSide at h
  rw [h]

theorem exportSide.cyc : t.cyc = s.cyc := by
  unfold Stated.exportSide at h
  rw [h]

end Fields

/-- The counters of epochs, copies on write and compactions stand. -/
def tallies (p q : Pgm) : Prop := q.epoch = p.epoch ∧ q.cow = p.cow ∧ q.compact = p.compact

theorem tallies_refl (p : Pgm) : tallies p p := ⟨rfl, rfl, rfl⟩

theorem tallies_trans {p q r : Pgm} (h : tallies p q) (h' : tallies q r) : tallies p r :=
  ⟨h'.1.trans h.1, h'.2.1.trans h.2.1, h'.2.2.trans h.2.2⟩

theorem tallies_foldl {α : Type} {f : Pgm → α → Pgm} (l : List α) (hf : ∀ p x, tallies p (f p x)) (p : Pgm) : tallies p (l.foldl f p) := by
  induction l generalizing p with
  | nil => exact tallies_refl p
  | cons x l ih => exact tallies_trans (hf p x) (ih _)

theorem retireFrame_tallies (p : Pgm) (a : Nat) : tallies p (p.retireFrame a) := by
  unfold Pgm.retireFrame
  split
  · exact tallies_refl p
  · exact tallies_refl p

theorem poison_tallies (p : Pgm) (bs : List Nat) : tallies p (p.poison bs) := by
  refine tallies_foldl bs (fun p b => ?_) p
  split
  · exact tallies_refl p
  · exact retireFrame_tallies { p with poisoned := p.poisoned ++ [b] } (b * 64)

theorem countEcc_tallies (p : Pgm) (a : Nat) (unc : Bool) : tallies p (p.countEcc a unc) := by
  unfold Pgm.countEcc
  split
  · exact tallies_refl p
  · exact tallies_refl p

theorem corrected_tallies (p : Pgm) (a : Nat) : tallies p (p.corrected a) := by
  unfold Pgm.corrected
  split
  · exact tallies_refl p
  · exact tallies_refl p

theorem deviceEcc_exportSide (s : State) (b : Nat) : exportSide s (s.deviceEcc b) := by
  unfold State.deviceEcc
  simp only []
  split
  · exact exportSide_trans (t := { s with pgm := _ }) rfl (log_exportSide _ _)
  · split
    · exact exportSide_trans (t := { s with pgm := _ }) rfl (log_exportSide _ _)
    · rfl

/-- A block that is not of the page frame table ends no start of the module: its error is the reader's alone (Table 11.8). -/
theorem checkBlock_exportSide {s : State} {b : Nat} (h : memPlace (b * 64) ≠ 3) : exportSide s (s.checkBlock b).2 := by
  unfold State.checkBlock
  simp only []
  split
  · exact log_exportSide _ _
  · split
    · exact exportSide_trans (t := { s with pgm := _ }) rfl (log_exportSide _ _)
    · split
      · exact exportSide_trans (t := { s with pgm := _ }) rfl (log_exportSide _ _)
      · rfl

theorem touchBlock_exportSide {s : State} {b : Nat} (h : memPlace (b * 64) ≠ 3) : exportSide s (s.touchBlock b).2 :=
  exportSide_trans (deviceEcc_exportSide s b) (checkBlock_exportSide h)

theorem blocksRead_exportSide (l : List Nat) (h : ∀ b ∈ l, memPlace (b * 64) ≠ 3) (x : List Nat × State) :
    exportSide x.2 (l.foldl (fun (acc : List Nat × State) b =>
      let (x, s) := acc.2.touchBlock b
      (if x then acc.1 ++ [b] else acc.1, s)) x).2 := by
  induction l generalizing x with
  | nil => rfl
  | cons b l ih =>
    exact exportSide_trans (touchBlock_exportSide (h b (List.mem_cons_self ..))) (ih (fun c hc => h c (List.mem_cons_of_mem _ hc)) _)

theorem mem_blocksOf {a n b : Nat} (h : b ∈ blocksOf a n) : 0 < n ∧ a / 64 ≤ b ∧ b ≤ (a + n - 1) / 64 := by
  unfold blocksOf at h
  split at h
  · cases h
  · next hn =>
    obtain ⟨i, hi, rfl⟩ := List.mem_map.1 h
    have := List.mem_range.1 hi
    omega

/-- Reading HBM changes nothing but what its errors leave behind (Table 11.8). -/
theorem readMem_hbm {s : State} {a n : Nat} (h : a + n ≤ hbmEnd) : exportSide s (s.readMem a n).2.2 := by
  refine blocksRead_exportSide _ (fun b hb => ?_) _
  obtain ⟨hn, -, hhi⟩ := mem_blocksOf hb
  have hlt : b * 64 < loftBase := by
    unfold hbmEnd at h
    unfold loftBase
    omega
  rw [memPlace, isLoft_hbm hlt]
  exact nofun

/-- Of device memory only pins and what the TLBs hold differ. -/
def pinsOnly (p q : Pgm) : Prop := q = { p with pins := q.pins, tlb := q.tlb }

/-- What marking positions final leaves (R241, R316): pins, TLBs and streams; and, where a page table block cannot be read, its error. -/
def marks (s t : State) : Prop := exportSide s t ∧ tallies s.pgm t.pgm ∧ ((∀ b, s.pgm.unreadable b = false) → pinsOnly s.pgm t.pgm)

theorem marks_refl (s : State) : marks s s := ⟨rfl, tallies_refl _, fun _ => rfl⟩

theorem marks_of_pins {s t : State} (h : exportSide s t) (hp : pinsOnly s.pgm t.pgm) : marks s t := by
  refine ⟨h, ?_, fun _ => hp⟩
  unfold pinsOnly at hp
  rw [hp]
  exact tallies_refl _

theorem marks_trans {s t u : State} (h : marks s t) (h' : marks t u) : marks s u := by
  refine ⟨exportSide_trans h.1 h'.1, tallies_trans h.2.1 h'.2.1, fun hu => ?_⟩
  have h1 := h.2.2 hu
  have h2 := h'.2.2 fun b => by
    unfold pinsOnly at h1
    rw [h1]
    exact hu b
  unfold pinsOnly at *
  rw [h2]
  simp only []
  rw [h1]

theorem marks_foldl {α : Type} {f : State → α → State} (l : List α) (hf : ∀ s x, marks s (f s x)) (s : State) : marks s (l.foldl f s) := by
  induction l generalizing s with
  | nil => exact marks_refl s
  | cons x l ih => exact marks_trans (hf s x) (ih _)

theorem walk_readable {p : Pgm} {va : Nat} {o : Option Leaf} {e : Ev} (h : ∀ b, p.unreadable b = false) : p.walk va ≠ (o, some e) := by
  unfold Pgm.walk
  split
  · exact nofun
  · split
    · exact nofun
    · split
      · next hf => exact absurd (List.find?_some hf) (by rw [h]; exact nofun)
      · exact nofun

theorem badTable_marks (s : State) (e : Ev) : exportSide s (s.badTable e) ∧ tallies s.pgm (s.badTable e).pgm := by
  unfold State.badTable
  dsimp only
  refine ⟨exportSide_trans (t := { s with pgm := _ }) rfl (log_exportSide _ _), ?_⟩
  rw [log_pgm]
  dsimp only
  split
  · exact tallies_trans (countEcc_tallies { s.pgm with broken := s.pgm.broken.filter fun x => x != e.info / 64 } e.info true) (poison_tallies _ _)
  · exact tallies_refl _

theorem walkBy_marks (s : State) (who va : Nat) : marks s (s.walkBy who va).2 := by
  unfold State.walkBy
  split
  · exact marks_refl s
  · simp only []
    split
    · exact marks_refl s
    · split
      · exact marks_of_pins rfl rfl
      · next hw => exact ⟨(badTable_marks s _).1, (badTable_marks s _).2, fun h => absurd hw (walk_readable h)⟩
      · exact marks_refl s

theorem markOn_marks (s : State) (n : Nat) (x : Stream) (layer sg : Nat) (ps : List Nat) : marks s (s.markOn n x layer sg ps).1 := by
  unfold State.markOn
  dsimp only
  generalize (ps.map (· / 2 ^ x.logp)).eraseDups = pages
  generalize 2 ^ x.logp = psize
  have key : ∀ (l : List Nat) (acc : State × Stream), marks acc.1 (l.foldl (fun (acc : State × Stream) pg =>
      match rowVa n layer 0 0 (pg * psize) psize acc.2.nkv acc.2.rb with
      | none => acc
      | some va => match (acc.1.walkBy 256 va).1 with
        | some l =>
          if mapGet acc.2.frames (layer * 65536 + pg) = some l.frame then ((acc.1.walkBy 256 va).2, acc.2)
          else
            ({ (acc.1.walkBy 256 va).2 with pgm := { (acc.1.walkBy 256 va).2.pgm with
                pins := (acc.1.walkBy 256 va).2.pgm.pins ++ [⟨l.frame, (acc.1.walkBy 256 va).2.pgm.epoch, acc.2.handle⟩] } },
              { acc.2 with frames := mapSet acc.2.frames (layer * 65536 + pg) l.frame })
        | none => ((acc.1.walkBy 256 va).2, acc.2)) acc).1 := by
    intro l
    induction l with
    | nil => exact fun acc => marks_refl _
    | cons pg l ih =>
      intro acc
      refine marks_trans ?_ (ih _)
      dsimp only
      split
      · exact marks_refl _
      · have hw := walkBy_marks acc.1 256 ‹_›
        split
        · split
          · exact hw
          · exact marks_trans hw (marks_of_pins rfl rfl)
        · exact hw
  exact key pages (s, x)

theorem markFinal_marks (s : State) (n layer sg : Nat) (ps : List Nat) : marks s (s.markFinal n layer sg ps) := by
  unfold State.markFinal
  split
  · exact marks_trans (markOn_marks s n _ layer sg ps) (marks_of_pins rfl rfl)
  · exact marks_trans (markOn_marks s n _ layer sg ps) (marks_of_pins rfl rfl)

theorem shipMatched_marks (s : State) (c : Nat × Nat × Nat) : marks s (s.shipMatched c) := by
  unfold State.shipMatched
  dsimp only
  split
  · exact marks_refl s
  · split
    · exact marks_refl s
    · exact marks_foldl _ (fun _ _ => marks_foldl _ (fun _ _ => markFinal_marks ..) _) _

/-! ### The start of a tick (R285, R294, R304) -/

section Tick
variable {s t : State} {j : Nat}

theorem schedCtl_linkOnly (s : State) (kind tick : Nat) (rest : List Byte) : linkOnly s (s.schedCtl kind tick rest) :=
  linkOnly_foldl _ (fun s m => lerboSend_linkOnly s m _ (by decide) (by decide)) s

/-- Of the state only the power record, the log, what goes to the host and the duty of the tick that ends may differ. -/
def tickEnded (s t : State) : Prop :=
  t = { s with pwr := t.pwr, tel := t.tel, out := t.out, hst := hostTakes s.hst t.hst, sch := { s.sch with duty0 := t.sch.duty0 } }

theorem tickEnded_endPower (s : State) (j : Nat) : tickEnded s ((s.endDuty j).endPower j) := by
  have hd : tickEnded s (s.endDuty j) := by
    unfold State.endDuty
    dsimp only
    split
    · rfl
    · rfl
  have hp : ∀ u : State, tickEnded u (u.endPower j) := by
    intro u
    unfold State.endPower
    dsimp only
    split
    · rfl
    · split
      · have hl := State.log_frame u ⟨.c, uPwr, evPowerHigh, 0xFFFF, 0xFFFF, 0⟩
        unfold logOnly at hl
        unfold tickEnded State.upTick
        rw [hl]
        rfl
      · rfl
  have h := hp (s.endDuty j)
  unfold tickEnded at *
  rw [h, hd]
  rfl

/-- The state in which the start of tick j decides: the tick before it is over. -/
def tickOver (j : Nat) (s : State) : State := (s.endDuty j).endPower j

/-- Tick j is taken from the plan. -/
def tickTaken (j : Nat) (u : State) : State := { u with sch := { u.sch with nextTick := j + 1, plan := mapDel u.sch.plan j } }

/-- The step of a tick, where its train is launched. -/
def tickRuns (j : Nat) (p : TickPlan) (sw : Bool) (v : State) : State :=
  if !v.trainUp then v.loseTick j
  else { v with sch := { v.sch with
    cur := some ⟨j, v.tickStart j + (if sw then 400040 else 40), none, p.l, p.model, p.chunks, none, false⟩ } }

section Over
variable (h : tickEnded s t)
include h

theorem tickEnded.tickLost (j : Nat) : t.tickLost j = s.tickLost j := by
  unfold tickEnded at h
  rw [h]
  rfl

theorem tickEnded.isSwitch (m : Nat) : t.isSwitch t.sch.plan j m = s.isSwitch s.sch.plan j m := by
  unfold tickEnded at h
  rw [h]
  rfl

theorem tickEnded.plan : t.sch.plan = s.sch.plan := by
  unfold tickEnded at h
  rw [h]

theorem tickEnded.trainUp : t.trainUp = s.trainUp := by
  unfold tickEnded at h
  rw [h]
  rfl

theorem tickEnded.kept : t.sch = { s.sch with duty0 := t.sch.duty0 } ∧ t.kites = s.kites ∧ t.pgm = s.pgm := by
  unfold tickEnded at h
  refine ⟨congrArg State.sch h, (congrArg State.kites h :), (congrArg State.pgm h :)⟩

end Over

theorem tickOver_ended (j : Nat) (s : State) : tickEnded s (tickOver j s) := tickEnded_endPower s j

theorem tickStart_idle (h : s.tickDue j = false) : Machine.tickStart j s = s := if_pos (by rw [h]; rfl)

theorem tickStart_stops (hdue : s.tickDue j = true) (hstop : s.comesToStop j = true) :
    Machine.tickStart j s = ({ s with sch := { s.sch with stopped := true, plan := [] } }).schedCtl 3 j [] :=
  (if_neg (by rw [hdue]; exact nofun)).trans (if_pos hstop)

theorem tickStart_lost (hdue : s.tickDue j = true) (hstop : s.comesToStop j = false) (hlost : s.tickLost j = true) :
    Machine.tickStart j s = (tickTaken j (tickOver j s)).loseTick j :=
  (if_neg (by rw [hdue]; exact nofun)).trans ((if_neg (by rw [hstop]; exact nofun)).trans
    (if_pos (((tickOver_ended j s).tickLost j).trans hlost)))

theorem tickStart_runs {p : TickPlan} (hdue : s.tickDue j = true) (hstop : s.comesToStop j = false) (hlost : s.tickLost j = false)
    (hp : mapGet s.sch.plan j = some p) (hc : p.chunks ≠ []) : Machine.tickStart j s = tickRuns j p (s.isSwitch s.sch.plan j p.model)
      (if s.isSwitch s.sch.plan j p.model = true then (tickTaken j (tickOver j s)).switchTo p.model else tickTaken j (tickOver j s)) := by
  have hover := tickOver_ended j s
  have hp' : mapGet (tickOver j s).sch.plan j = some p := (congrArg (mapGet · j) hover.plan).trans hp
  have hsw : (tickOver j s).isSwitch (tickOver j s).sch.plan j p.model = s.isSwitch s.sch.plan j p.model := hover.isSwitch p.model
  have he : p.chunks.isEmpty = false := Bool.eq_false_iff.2 fun he => hc (List.isEmpty_iff.1 he)
  unfold Machine.tickStart
  rw [if_neg (by rw [hdue]; exact nofun), if_neg (by rw [hstop]; exact nofun)]
  unfold tickTaken
  unfold tickOver at *
  generalize (s.endDuty j).endPower j = u at *
  simp only [hp', Option.any_some, hsw, he, hover.tickLost, hlost]
  rfl

/-! ### A model switch (R294, R215) -/

/-- What starting the kites of a launch leaves: they, and the bridles' waits, are new; memory may show its errors. -/
def reloads (s t : State) : Prop :=
  t = { s with kites := t.kites, brd := t.brd, pgm := t.pgm, xpt := t.xpt, lnk := t.lnk, tel := t.tel, out := t.out, free := t.free, hst := hostTakes s.hst t.hst }

theorem reloads_trans {s t u : State} (h : reloads s t) (h' : reloads t u) : reloads s u := by
  unfold reloads at *
  rw [h']
  simp only []
  rw [h]
  rfl

theorem reloads_foldl {α : Type} {f : State → α → State} (l : List α) (hf : ∀ s x, reloads s (f s x)) (s : State) : reloads s (l.foldl f s) := by
  induction l generalizing s with
  | nil => rfl
  | cons x l ih => exact reloads_trans (hf s x) (ih _)

theorem exportSide.reloads {s t : State} (h : exportSide s t) : reloads s t := by
  unfold exportSide at h
  unfold Stated.reloads
  rw [h]
  rfl

theorem reloads.sch {s t : State} (h : reloads s t) : t.sch = s.sch := by
  unfold Stated.reloads at h
  rw [h]

/-- A kite of a launch is started (R214, R215). -/
def startKite (l : LDesc) (n nb : Nat) (s : State) (x : Nat × Nat) : State :=
  (s.dropWaits x.2).setKite x.2 (goKite l n nb x.1 (s.kite x.2))

/-- A kite of a launch takes its program (R104, R177). -/
def loadKite (img : List Byte) (l : LDesc) (s : State) (x : Nat × Nat) : State := s.setKite x.2 (loadImage img l (s.kite x.2))

theorem startKite_reloads (l : LDesc) (n nb : Nat) (s : State) (x : Nat × Nat) : reloads s (startKite l n nb s x) := rfl

theorem loadKite_reloads (img : List Byte) (l : LDesc) (s : State) (x : Nat × Nat) : reloads s (loadKite img l s x) := rfl

theorem go_spec (s : State) (l : LDesc) : ∃ u rs, reloads s u ∧ s.go l = u.noteLaunch l rs := by
  have key : ∀ (ks : List (Nat × Nat)) (n nb : Nat) (bs : List BRun), reloads s
      (if l.zb then (ks.foldl (startKite l n nb) s).zeroBridles bs else ks.foldl (startKite l n nb) s) := by
    intro ks n nb bs
    have hv := reloads_foldl ks (startKite_reloads l n nb) s
    split
    · exact reloads_trans hv rfl
    · exact hv
  exact ⟨_, _, key (s.mine ((s.unitRuns l.unit).getD [])) (runsN ((s.unitRuns l.unit).getD [])) (brunsN (s.unitBruns l.unit)) (s.unitBruns l.unit), rfl⟩

/-- Loading a train's kites and starting them, and the note of its launch, which follows. -/
theorem reload_spec {s : State} {l : LDesc} (h : l.image + l.imageLen ≤ hbmEnd) : ∃ u rs, reloads s u ∧ s.reload l = u.noteLaunch l rs := by
  have hread := readMem_hbm (s := s) h
  unfold State.reload
  generalize s.readMem l.image l.imageLen = x at hread
  obtain ⟨img, bad, v⟩ := x
  have hload := reloads_foldl (v.mine ((v.unitRuns l.unit).getD [])) (loadKite_reloads img l) v
  obtain ⟨u, rs, hu, heq⟩ := go_spec ((v.mine ((v.unitRuns l.unit).getD [])).foldl (loadKite img l) v) l
  exact ⟨u, rs, reloads_trans hread.reloads (reloads_trans hload hu), heq⟩

theorem noteLaunch_train {u : State} {l : LDesc} {rs : List Run} (hf : u.sch.following = false) (hl : l.unit = u.sch.serve) :
    (u.noteLaunch l rs).trainUp = true ∧
    (u.noteLaunch l rs).sch = { u.sch with swModel := none, relaunch := none, mayReload := false, trainDig := some l.digest } := by
  have hunit : ∀ b x, x.following = false → x.serve = u.sch.serve → ({ u with brd := b, sch := x } : State).trainUnit = u.sch.serve := by
    intro b x hx hs
    unfold State.trainUnit
    rw [if_neg (by rw [hx]; exact nofun)]
    exact hs
  unfold State.noteLaunch
  dsimp only
  rw [if_pos (by rw [hl]; exact (hunit _ _ hf rfl).symm)]
  refine ⟨?_, rfl⟩
  unfold State.trainUp
  rw [hunit _ { u.sch with swModel := none, relaunch := none, mayReload := false, trainDig := some l.digest } hf rfl, hl, mapGet_mapSet_self]
  rfl

theorem switchTo_train {s : State} {m : Nat} {x : Model} (hm : s.model m = some x)
    (himg : x.image + x.prog + 32 * x.nbun + 512 * x.nch ≤ hbmEnd) (hf : s.sch.following = false) :
    (s.switchTo m).trainUp = true ∧ (s.switchTo m).sch = { s.sch with
      swModel := some m, relaunch := none, mayReload := false, trainDig := some x.progDigest } := by
  have hunit : (s.modelLaunch x).unit = s.sch.serve := if_neg (by rw [hf]; exact nofun)
  obtain ⟨u, rs, hu, heq⟩ := reload_spec (s := s) (l := s.modelLaunch x) (by
    change x.image + x.prog + (32 * x.nbun + 512 * x.nch) ≤ hbmEnd
    omega)
  have hsch := hu.sch
  have hn := noteLaunch_train (u := u) (rs := rs) (l := s.modelLaunch x) (by rw [hsch]; exact hf) (by rw [hsch]; exact hunit)
  unfold State.switchTo
  rw [hm]
  dsimp only
  rw [heq]
  generalize u.noteLaunch (s.modelLaunch x) rs = v at hn
  refine ⟨?_, ?_⟩
  · have hv : ({ v with sch := { v.sch with swModel := some m } } : State).trainUp = v.trainUp := rfl
    exact hv.trans hn.1
  · rw [hn.2, hsch]
    rfl

end Tick

/-! ### The step go (R159) -/

theorem goFrom_not_tickwait (cyc : Nat) (kt : Kite) : (goFrom cyc kt).st ≠ .tickwait := by
  unfold goFrom
  split
  · exact nofun
  · assumption

theorem kite_noEvents {kt : Kite} (h : kt.evs = []) : { kt with evs := [] } = kt := by rw [← h]

theorem foldl_goFrom (l : List Nat) (s : State) (k : Nat) :
    (l.foldl (fun s k => s.setKite k (goFrom s.cyc (s.kite k))) s).kite k = if k ∈ l then goFrom s.cyc (s.kite k) else s.kite k := by
  induction l generalizing s with
  | nil => rfl
  | cons x l ih =>
    refine (ih _).trans ?_
    have hself : (goFrom s.cyc (s.kite x)).evs = [] := by
      unfold goFrom
      split
      · rfl
      · rfl
    have hidem : goFrom s.cyc (goFrom s.cyc (s.kite x)) = goFrom s.cyc (s.kite x) := by
      rw [goFrom]
      split
      · next h => exact absurd h (goFrom_not_tickwait _ _)
      · rfl
    by_cases hk : k = x
    · rw [hk, State.setKite_kite_self, kite_noEvents hself, State.setKite_cyc, hidem, ite_self]
      exact (if_pos (List.mem_cons_self ..)).symm
    · rw [State.setKite_kite_ne _ _ _ _ hk]
      exact if_congr (by rw [List.mem_cons, or_iff_right hk]) rfl rfl

/-- The step in progress gets its go, and the kites that wait at TICKWAIT are released. -/
def goneStep (s : State) (c : StepRun) : State :=
  s.serveKites.foldl (fun s k => s.setKite k (goFrom s.cyc (s.kite k))) { s with sch := { s.sch with cur := some { c with go := some s.cyc } } }

theorem setKites_rest (f : State → Nat → Kite) (l : List Nat) (s : State) : restKept s (l.foldl (fun s k => s.setKite k (f s k)) s) := by
  induction l generalizing s with
  | nil => rfl
  | cons x l ih =>
    have h := ih (s.setKite x (f s x))
    unfold restKept at *
    rw [List.foldl_cons, h]
    rfl

theorem goneStep_rest (s : State) (c : StepRun) :
    restKept { s with sch := { s.sch with cur := some { c with go := some s.cyc } } } (goneStep s c) :=
  setKites_rest (fun s k => goFrom s.cyc (s.kite k)) _ _

theorem goneStep_kite (s : State) (c : StepRun) (k : Nat) : (goneStep s c).kite k = if k ∈ s.serveKites ∧ (s.kite k).st = .tickwait then
    { s.kite k with st := .issuing, goCycle := s.cyc, goLag := (s.kite k).lag, stepDone := false, stepTh := false } else s.kite k := by
  refine (foldl_goFrom s.serveKites _ k).trans ?_
  change (if k ∈ s.serveKites then goFrom s.cyc (s.kite k) else s.kite k) = _
  unfold goFrom
  by_cases hk : k ∈ s.serveKites
  · rw [if_pos hk]
    exact if_congr (by rw [and_iff_right hk]) rfl rfl
  · rw [if_neg hk, if_neg fun h => hk h.1]

theorem stepGo_due {s : State} {c : StepRun} (hcur : s.sch.cur = some c) (hgo : c.go = none) (hat : c.goAt ≤ s.pwr.tb)
    (hcopies : s.copiesOwed c.tick = false) (hlt : s.ltBad c.tick = false) : Machine.stepGo s = c.chunks.foldl State.shipMatched (goneStep s c) := by
  have hdue : s.goDue = true := by
    unfold State.goDue
    rw [hcur]
    simp [hgo, hat, hcopies]
  unfold Machine.stepGo
  rw [hcur]
  dsimp only
  rw [if_neg (by rw [hdue]; exact nofun), if_neg (by rw [hlt]; exact nofun)]
  rfl

/-! ### RUN (R280) -/

/-- A multiple of the period, the first one not before an instant. -/
theorem ceilDiv_mul_bounds {a p : Nat} (hp : 0 < p) : a ≤ ceilDiv a p * p ∧ ceilDiv a p * p < a + p := by
  have h := Nat.div_add_mod (a + p - 1) p
  have hlt := Nat.mod_lt (a + p - 1) hp
  unfold ceilDiv
  rw [Nat.mul_comm] at h
  omega

/-- The scheduler as RUN starts it. -/
def runBegun (s : State) : State := { s with
  tel := { s.tel with wins := [] }
  sch := { s.sch with
    run := true, stopped := false, t0 := ceilDiv (s.pwr.tb + 1000000) s.periodNs * s.periodNs, t0Set := true, plan := [], lastFreeze := none
    cur := none, bnd := 0, bndTb := 0, lostFrom := none, notBefore := 0, nextTick := 0, reports := [], bgPlan := [], bgNow := [], bgDone := []
    duty0 := s.entries } }

theorem runWrite_starts {s : State} (hb : s.barUp = true) (hs : s.sch.stopped = true) : ∃ b, Machine.runWrite true s = (runBegun s).schedCtl 1 0 b :=
  ⟨_, (if_neg (by rw [hb]; exact nofun)).trans (if_pos (by rw [hs]; rfl))⟩

theorem linkOnly.kept {s t : State} (h : linkOnly s t) : t.sch = s.sch ∧ t.kites = s.kites ∧ t.pgm = s.pgm := by
  unfold linkOnly at h
  exact ⟨(congrArg State.sch h :), (congrArg State.kites h :), (congrArg State.pgm h :)⟩

theorem runWrite_spec {s : State} (hb : s.barUp = true) (hs : s.sch.stopped = true) :
    (Machine.runWrite true s).sch = (runBegun s).sch ∧ (Machine.runWrite true s).kites = s.kites ∧ (Machine.runWrite true s).pgm = s.pgm := by
  obtain ⟨b, hb⟩ := runWrite_starts hb hs
  rw [hb]
  exact (schedCtl_linkOnly (runBegun s) 1 0 b).kept

/-! ### The obligation -/

theorem tickRuns_down {j : Nat} {p : TickPlan} {sw : Bool} {v : State} (h : v.trainUp = false) : tickRuns j p sw v = v.loseTick j :=
  if_pos (by rw [h]; rfl)

theorem tickRuns_up {j : Nat} {p : TickPlan} {sw : Bool} {v : State} (h : v.trainUp = true) : tickRuns j p sw v = { v with sch := { v.sch with
    cur := some ⟨j, v.tickStart j + (if sw then 400040 else 40), none, p.l, p.model, p.chunks, none, false⟩ } } :=
  if_neg (by rw [h]; exact nofun)

/-- What a tick that is lost leaves. -/
theorem loseTick_spec (j : Nat) (s : State) : let t := (tickTaken j (tickOver j s)).loseTick j
    t.sch.nextTick = j + 1 ∧ t.sch.nLost = min (s.sch.nLost + 1) 65535 ∧ t.sch.cur = s.sch.cur ∧ t.kites = s.kites ∧ t.pgm = s.pgm := by
  obtain ⟨hsch, hkites, hpgm⟩ := (tickOver_ended j s).kept
  have hlost : (tickOver j s).sch.nLost = s.sch.nLost := by rw [hsch]
  have hcur : (tickOver j s).sch.cur = s.sch.cur := by rw [hsch]
  generalize tickOver j s = u at *
  rw [← hlost]
  exact ⟨rfl, rfl, hcur, hkites, hpgm⟩

/-- Settles O37: RUN by the state it leaves; a tick start by cases on what it finds, where a model switch launches the train; and the go as
one pass over the serving train, after which only rows are marked final. -/
theorem ticksStartAndGo : Obligations.TicksStartAndGo := by
  unfold Obligations.TicksStartAndGo
  refine ⟨fun s run => ⟨fun hb => ?_, fun hb h => ?_, fun hb hs hp => ?_⟩, fun s hf => ?_⟩
  · exact congrArg Host.Outcome.next (if_pos (by rw [hb]; rfl))
  · exact congrArg Host.Outcome.next ((if_neg (by rw [hb]; exact nofun)).trans (if_neg (by
      rcases h with h | h
      · rw [h]; exact nofun
      · rw [h, Bool.and_false]; exact nofun)))
  · obtain ⟨hsch, hkites, hpgm⟩ := runWrite_spec hb hs
    obtain ⟨hlo, hhi⟩ := ceilDiv_mul_bounds (a := s.pwr.tb + 1000000) (p := s.sch.period * 1000) (by omega)
    refine ⟨_, rfl, ?_⟩
    rw [hsch, hkites, hpgm]
    exact ⟨rfl, rfl, rfl, Nat.mul_mod_left _ _, hlo, hhi, rfl, rfl, rfl, rfl, rfl, rfl, rfl, rfl⟩
  · have hexec : ∀ j, exec (.tickStart j) s = .next (Machine.tickStart j s) := fun j =>
      congrArg Host.Outcome.next (if_neg (by rw [hf]; exact nofun))
    refine ⟨fun j hdue => ?_, fun j hdue hstop => ?_, fun j hdue hstop hlost => ?_, fun j p hdue hstop hlost hp hc hup hsw => ?_,
      fun j p hdue hstop hlost hp hc hup hsw => ?_, fun j p m hdue hstop hlost hp hc hm himg hsw => ?_, fun c hcur hgo hat hcopies hlt => ?_⟩
    · rw [hexec, tickStart_idle hdue]
    · rw [hexec, tickStart_stops hdue hstop]
      exact ⟨_, rfl, (schedCtl_linkOnly _ 3 j []).kept.1⟩
    · rw [hexec, tickStart_lost hdue hstop hlost]
      exact ⟨_, rfl, loseTick_spec j s⟩
    · rw [hexec, tickStart_runs hdue hstop hlost hp hc, if_neg (by rw [hsw]; exact nofun),
        tickRuns_down (v := tickTaken j (tickOver j s)) ((tickOver_ended j s).trainUp.trans hup)]
      exact ⟨_, rfl, loseTick_spec j s⟩
    · rw [hexec, tickStart_runs hdue hstop hlost hp hc, if_neg (by rw [hsw]; exact nofun),
        tickRuns_up (v := tickTaken j (tickOver j s)) ((tickOver_ended j s).trainUp.trans hup), hsw]
      obtain ⟨hsch, hkites, hpgm⟩ := (tickOver_ended j s).kept
      have htick : (tickOver j s).tickStart j = s.tickStart j := by
        unfold State.tickStart
        rw [hsch]
      refine ⟨_, rfl, rfl, ?_, hkites, hpgm⟩
      rw [← htick]
      rfl
    · have hover := tickOver_ended j s
      obtain ⟨hsch, -, -⟩ := hover.kept
      have hm' : (tickTaken j (tickOver j s)).model p.model = some m := by
        unfold tickEnded at hover
        rw [hover]
        exact hm
      have hf' : (tickTaken j (tickOver j s)).sch.following = false := by
        change (tickOver j s).sch.following = false
        rw [hsch]
        exact hf
      obtain ⟨hup, hsch'⟩ := switchTo_train hm' himg hf'
      have htick : ((tickTaken j (tickOver j s)).switchTo p.model).tickStart j = s.tickStart j := by
        unfold State.tickStart
        rw [hsch']
        change (tickOver j s).sch.t0 + j * ((tickOver j s).sch.period * 1000) = _
        rw [hsch]
      rw [hexec, tickStart_runs hdue hstop hlost hp hc, if_pos hsw, tickRuns_up hup, hsw]
      refine ⟨_, rfl, ?_, ?_⟩
      · change ((tickTaken j (tickOver j s)).switchTo p.model).sch.nextTick = _
        rw [hsch']
        rfl
      · rw [← htick]
        rfl
    · have hm := marks_foldl c.chunks shipMatched_marks (goneStep s c)
      have hr := goneStep_rest s c
      have hs : exec .stepGo s = .next (c.chunks.foldl State.shipMatched (goneStep s c)) :=
        congrArg Host.Outcome.next (stepGo_due hcur hgo hat hcopies hlt)
      generalize c.chunks.foldl State.shipMatched (goneStep s c) = t at hm hs
      have hpgm : (goneStep s c).pgm = s.pgm := by
        unfold restKept at hr
        rw [hr]
      refine ⟨t, hs, ?_, ?_, fun hu => ?_, fun k => ?_⟩
      · rw [hm.1.sch]
        unfold restKept at hr
        rw [hr]
      · rw [hm.1.brd]
        unfold restKept at hr
        rw [hr]
      · have := hm.2.2 (by rw [hpgm]; exact hu)
        rw [hpgm] at this
        exact this
      · have hk : t.kite k = (goneStep s c).kite k := by
          unfold State.kite
          rw [hm.1.kites]
        exact hk.trans (goneStep_kite s c k)

end Sys2Proof.Stated
end

section
/-! SUPPORT. The freeze of a plan (R286), the cut of a step (R305), the deadline of an export (R299), and the page copy path (R267, R277). -/
namespace Sys2Proof.Stated
open Sys2Proof.Machine

/-! ### What the page manager's edits leave of the counters -/

theorem upFrame_tallies (p : Pgm) (a : Nat) (f : Frame4 → Frame4) : tallies p (p.upFrame a f) := by
  unfold Pgm.upFrame
  split
  · exact tallies_refl p
  · exact tallies_refl p

theorem incFrame_tallies (p : Pgm) (a : Nat) : tallies p (p.incFrame a) := by
  have h := upFrame_tallies p a fun f => { f with refcnt := f.refcnt + 1 }
  unfold Pgm.incFrame
  dsimp only
  split
  · exact h
  · exact h

theorem decFrame_tallies (p : Pgm) (a : Nat) : tallies p (p.decFrame a) := upFrame_tallies p a _

theorem addTabs_tallies (p : Pgm) (sp : Space) (keys : List Nat) : tallies p (p.addTabs sp keys).2 := by
  have key : ∀ (l : List Nat) (acc : Space × Pgm), tallies acc.2 (l.foldl (fun (acc : Space × Pgm) k =>
      if (mapGet acc.1.tabs k).isSome then acc
      else match acc.2.takeTable with
        | some (a, p) => ({ acc.1 with tabs := mapSet acc.1.tabs k a }, p)
        | none => acc) acc).2 := by
    intro l
    induction l with
    | nil => exact fun acc => tallies_refl _
    | cons k l ih =>
      intro acc
      refine tallies_trans ?_ (ih _)
      dsimp only
      split
      · exact tallies_refl _
      · split
        · next ht =>
          unfold Pgm.takeTable at ht
          split at ht
          · cases ht
          · cases ht
            exact tallies_refl _
        · exact tallies_refl _
  exact key keys (sp, p)

theorem install_tallies (p : Pgm) (n : Nat) (l : Leaf) : tallies p (p.install n l) := by
  unfold Pgm.install
  cases hs : mapGet p.spaces n with
  | some sp => exact addTabs_tallies p sp _
  | none =>
    cases ht : p.takeTable with
    | none => exact tallies_refl p
    | some x =>
      obtain ⟨a, q⟩ := x
      have hq : tallies p q := by
        unfold Pgm.takeTable at ht
        split at ht
        · cases ht
        · cases ht
          exact tallies_refl _
      exact tallies_trans hq (addTabs_tallies q _ _)

theorem applyEdit_tallies (acc : Pgm × Counts) (e : Edit) : tallies acc.1 (Pgm.applyEdit acc e).1 := by
  obtain ⟨p, c⟩ := acc
  obtain ⟨kind, host⟩ := e
  unfold Pgm.applyEdit
  dsimp only
  cases kind with
  | map n va fr size wp adopt =>
    dsimp only
    split
    · exact tallies_trans (q := p.protectFrame fr) (tallies_refl _) (install_tallies _ _ _)
    · exact install_tallies _ _ _
  | unmap n va =>
    dsimp only
    split
    · exact tallies_refl p
    · split
      · exact tallies_refl p
      · exact tallies_refl p
  | inc fr => exact tallies_refl p
  | dec fr => exact tallies_refl p
  | drop n held =>
    dsimp only
    split
    · exact tallies_refl p
    · exact tallies_refl p
  | remap n va old new_ =>
    dsimp only
    split
    · exact tallies_refl p
    · exact tallies_refl p

theorem applyEdits_tallies (l : List Edit) (acc : Pgm × Counts) : tallies acc.1 (l.foldl Pgm.applyEdit acc).1 := by
  induction l generalizing acc with
  | nil => exact tallies_refl _
  | cons e l ih => exact tallies_trans (applyEdit_tallies acc e) (ih _)

theorem lateEdits_tallies (p : Pgm) (slots : List Nat) : tallies p (p.lateEdits slots) := by
  unfold Pgm.lateEdits
  refine tallies_trans ?_ (tallies_foldl _ decFrame_tallies _)
  refine tallies_trans ?_ (tallies_foldl _ incFrame_tallies _)
  refine tallies_trans ?_ (applyEdits_tallies _ _)
  exact tallies_refl p

theorem write_tallies (p : Pgm) (a : Nat) (l : List Byte) : tallies p (p.write a l) := by
  unfold Pgm.write
  split
  · exact tallies_refl p
  · exact tallies_refl p

theorem undefine_tallies (p : Pgm) (a n : Nat) : tallies p (p.undefine a n) := by
  unfold Pgm.undefine
  split
  · exact tallies_refl p
  · exact tallies_refl p

theorem queue_tallies (p : Pgm) (host : Bool) (k : EditKind) : tallies p (p.queue host k) := tallies_refl p

theorem alloc_tallies {p q : Pgm} {loft : Bool} {c a : Nat} (h : p.alloc loft c = some (a, q)) : tallies p q := by
  unfold Pgm.alloc at h
  obtain ⟨b, -, hb⟩ := Option.map_eq_some_iff.1 h
  cases hb
  exact tallies_refl p

/-! ### What reading and writing memory leave -/

/-- Of the state only memory, streams, links, requests, the log and what goes to the host may differ, and what a class F error ends
(R422); the counters of the page manager stand. -/
def memSide (s t : State) : Prop := tallies s.pgm t.pgm ∧
  t = { s with
    pgm := t.pgm, xpt := t.xpt, lnk := t.lnk, tel := t.tel, out := t.out, free := t.free, sec := t.sec, pwr := t.pwr
    hst := hostTakes s.hst t.hst, sch := { s.sch with reqs := t.sch.reqs } }

theorem memSide_refl (s : State) : memSide s s := ⟨tallies_refl _, rfl⟩

theorem memSide_trans {s t u : State} (h : memSide s t) (h' : memSide t u) : memSide s u := by
  refine ⟨tallies_trans h.1 h'.1, ?_⟩
  have h1 := h.2
  have h2 := h'.2
  rw [h2]
  dsimp only
  rw [h1]
  rfl

theorem memSide_foldl {α : Type} {f : State → α → State} (l : List α) (hf : ∀ s x, memSide s (f s x)) (s : State) : memSide s (l.foldl f s) := by
  induction l generalizing s with
  | nil => exact memSide_refl s
  | cons x l ih => exact memSide_trans (hf s x) (ih _)

theorem exportSide.memSide {s t : State} (h : exportSide s t) (hp : tallies s.pgm t.pgm) : memSide s t := by
  refine ⟨hp, ?_⟩
  unfold exportSide at h
  rw [h]
  rfl

theorem marks.memSide {s t : State} (h : marks s t) : memSide s t := h.1.memSide h.2.1

theorem completes.memSide {s t : State} (h : completes s t) : memSide s t := by
  unfold completes at h
  refine ⟨?_, ?_⟩
  · rw [h]
    exact tallies_refl _
  · rw [h]
    rfl

theorem log_memSide (s : State) (e : Ev) : memSide s (s.log e) := (logOnly_completes (State.log_frame s e)).memSide

theorem pgm_memSide {s : State} {p : Pgm} (h : tallies s.pgm p) : memSide s { s with pgm := p } := ⟨h, rfl⟩

theorem setReq_memSide (s : State) (n : Nat) (r : Req) : memSide s (s.setReq n r) := ⟨tallies_refl _, rfl⟩

theorem faultSlot_memSide (s : State) (n status : Nat) : memSide s (s.faultSlot n status) := by
  unfold State.faultSlot
  dsimp only
  split
  · exact memSide_refl s
  · exact setReq_memSide s n _

theorem fatal_memSide (s : State) (e : Ev) (code : Nat) (detail : Option Nat) : memSide s (s.fatal e code detail) := by
  refine memSide_trans (fatalPosted_completes s e).memSide ?_
  unfold State.fatal fatalPosted
  exact ⟨tallies_refl _, rfl⟩

theorem deviceEcc_memSide (s : State) (b : Nat) : memSide s (s.deviceEcc b) := by
  refine (deviceEcc_exportSide s b).memSide ?_
  unfold State.deviceEcc
  dsimp only
  split
  · rw [log_pgm]
    exact tallies_refl _
  · split
    · rw [log_pgm]
      exact tallies_trans (q := { s.pgm with onDie := _ }) (tallies_refl _) (countEcc_tallies _ _ _)
    · exact tallies_refl _

theorem checkBlock_memSide (s : State) (b : Nat) : memSide s (s.checkBlock b).2 := by
  unfold State.checkBlock
  dsimp only
  split
  · exact log_memSide _ _
  · split
    · have hp : tallies s.pgm ((({ s.pgm with broken := s.pgm.broken.filter fun x => x != b }).countEcc (b * 64) true).poison [b]) := by
        refine tallies_trans ?_ (poison_tallies _ _)
        exact countEcc_tallies { s.pgm with broken := _ } _ _
      split
      · exact memSide_trans (pgm_memSide hp) (fatal_memSide _ _ _ _)
      · exact memSide_trans (pgm_memSide hp) (log_memSide _ _)
    · split
      · refine memSide_trans (pgm_memSide ?_) (log_memSide _ _)
        exact tallies_trans (countEcc_tallies _ _ _) (tallies_trans (corrected_tallies _ _) (tallies_refl _))
      · exact memSide_refl s

theorem blocksRead_memSide (l : List Nat) (x : List Nat × State) : memSide x.2 (l.foldl (fun (acc : List Nat × State) b =>
    let (x, s) := acc.2.touchBlock b
    (if x then acc.1 ++ [b] else acc.1, s)) x).2 := by
  induction l generalizing x with
  | nil => exact memSide_refl _
  | cons b l ih => exact memSide_trans (memSide_trans (deviceEcc_memSide x.2 b) (checkBlock_memSide _ b)) (ih _)

theorem readMem_memSide (s : State) (a n : Nat) : memSide s (s.readMem a n).2.2 := blocksRead_memSide _ _

/-! ### The page copy path (R267, R277, R278) -/

section Copies
variable {s : State} {c : Machine.Copy} {r : Req} {m : Model}

theorem copyRows_memSide (s : State) (m : Model) (psize rows old new_ : Nat) : memSide s (s.copyRows m psize rows old new_) := by
  refine memSide_foldl _ (fun s sg => ?_) s
  exact memSide_trans (readMem_memSide s _ _) (pgm_memSide (tallies_trans (write_tallies _ _ _) (poison_tallies _ _)))

theorem cowDone_spec : (s.cowDone c r m).sch.copies = s.sch.copies ∧ (s.cowDone c r m).kites = s.kites ∧
    (s.cowDone c r m).pgm.cow = (s.pgm.cow + 1) % 2 ^ 32 := by
  have hend : ∀ u : State, memSide s u → let p := { u.pgm with cow := wrapAdd 32 u.pgm.cow 1 }
      let t : State := { u with pgm := if c.tick ≤ u.sch.bnd then p.lateEdits [c.slot] else p }
      t.sch.copies = s.sch.copies ∧ t.kites = s.kites ∧ t.pgm.cow = (s.pgm.cow + 1) % 2 ^ 32 := by
    intro u hu
    obtain ⟨⟨-, hcow, -⟩, hu⟩ := hu
    refine ⟨by rw [hu], by rw [hu], ?_⟩
    rw [← hcow]
    dsimp only
    split
    · exact (lateEdits_tallies _ _).2.1
    · rfl
  unfold State.cowDone
  dsimp only
  refine hend _ (memSide_foldl _ (fun s x => ?_) s)
  obtain ⟨old, l⟩ := x
  dsimp only
  split
  · exact memSide_refl s
  · split
    · exact faultSlot_memSide _ _ _
    · next a p ha =>
      refine memSide_trans (pgm_memSide (tallies_trans (alloc_tallies ha) (undefine_tallies p a (2 ^ m.frameClass r.logp)))) ?_
      refine memSide_trans (copyRows_memSide _ _ _ _ _ _) (memSide_trans (pgm_memSide (tallies_refl _)) (setReq_memSide _ _ _))

theorem eachSection_memSide {f : State → Nat → Nat → State} (hf : ∀ s l sg, memSide s (f s l sg)) (m : Model) (s : State) :
    memSide s (m.eachSection f s) :=
  memSide_foldl _ (fun s l => memSide_foldl _ (fun s sg => hf s l sg) s) s

theorem compactRow_memSide (s : State) (n frm dest : Nat) (r : Req) (m : Model) : memSide s (s.compactRow n frm dest r m) := by
  refine eachSection_memSide (fun s l sg => ?_) m s
  split
  · exact memSide_trans (readMem_memSide s _ _) (pgm_memSide (tallies_trans (write_tallies _ _ _) (poison_tallies _ _)))
  · exact memSide_refl s

theorem dropRow_memSide (s : State) (n pos : Nat) (r : Req) (m : Model) : memSide s (s.dropRow n pos r m) := by
  refine eachSection_memSide (fun s l sg => ?_) m s
  split
  · exact pgm_memSide (undefine_tallies _ _ _)
  · exact memSide_refl s

theorem upStream_memSide (s : State) (n : Nat) (f : Stream → Stream) : memSide s (s.upStream n f) := by
  unfold State.upStream
  split
  · exact ⟨tallies_refl _, rfl⟩
  · exact ⟨tallies_refl _, rfl⟩

/-- The rows of a compaction in place: the accepted ones moved, the rest dropped. -/
def rowsCompacted (s : State) (c : Machine.Copy) (r : Req) (m : Model) : State :=
  (List.range (r.length - (r.treeBase + c.path.length))).foldl (fun s i => s.dropRow c.slot (r.treeBase + c.path.length + i) r m)
    (c.path.zipIdx.foldl (fun s (n, k) => if n = k then s else s.compactRow c.slot (r.treeBase + n) (r.treeBase + k) r m) s)

theorem rowsCompacted_memSide : memSide s (rowsCompacted s c r m) := by
  refine memSide_trans (memSide_foldl _ (fun s x => ?_) s) (memSide_foldl _ (fun s i => dropRow_memSide s _ _ r m) _)
  obtain ⟨n, k⟩ := x
  dsimp only
  split
  · exact memSide_refl s
  · exact compactRow_memSide s _ _ _ r m

/-- The pages that hold rejected rows alone are to be unmapped. -/
def pagesGone (p : Pgm) (c : Machine.Copy) (r : Req) (m : Model) : Pgm :=
  ((List.range (ceilDiv r.length (2 ^ r.logp))).filter fun pg => decide (r.treeBase + c.path.length ≤ pg * 2 ^ r.logp)).foldl
    (fun p pg => (List.range m.nl).foldl (fun p l => p.queue false (.unmap c.slot (pageVa c.slot l pg (m.frameBytes r.logp)))) p) p

theorem pagesGone_tallies (p : Pgm) (c : Machine.Copy) (r : Req) (m : Model) : tallies p (pagesGone p c r m) :=
  tallies_foldl _ (fun p _ => tallies_foldl _ (fun p _ => queue_tallies p false _) p) p

theorem compactDone_spec : (s.compactDone c r m).sch.copies = s.sch.copies ∧ (s.compactDone c r m).kites = s.kites ∧
    (s.compactDone c r m).pgm.compact = (s.pgm.compact + 1) % 2 ^ 16 := by
  have hend : ∀ (u v : State) (p : Pgm), memSide s u → tallies u.pgm p →
      memSide { u with pgm := { p with compact := wrapAdd 16 p.compact 1 } } v →
      v.sch.copies = s.sch.copies ∧ v.kites = s.kites ∧ v.pgm.compact = (s.pgm.compact + 1) % 2 ^ 16 := by
    intro u v p hu hp hv
    obtain ⟨⟨-, -, hcu⟩, hu⟩ := hu
    obtain ⟨⟨-, -, hcv⟩, hv⟩ := hv
    refine ⟨by rw [hv, hu], by rw [hv, hu], ?_⟩
    rw [hcv]
    change (p.compact + 1) % 2 ^ 16 = _
    rw [hp.2.2, hcu]
  unfold State.compactDone
  dsimp only
  refine hend (rowsCompacted s c r m) _ (pagesGone (rowsCompacted s c r m).pgm c r m) rowsCompacted_memSide (pagesGone_tallies _ c r m) ?_
  · refine memSide_trans ?_ (memSide_foldl _ (fun s l => memSide_foldl _ (fun s sg => (markFinal_marks s _ _ _ _).memSide) s) _)
    exact memSide_trans (setReq_memSide _ _ _) (upStream_memSide _ _ _)

variable {rest : List Machine.Copy}

theorem pageCopyDone_early (hc : s.sch.copies = c :: rest) (h : s.copyDue = false) : Machine.pageCopyDone s = s := by
  unfold Machine.pageCopyDone
  rw [hc]
  exact if_pos (by rw [h]; rfl)

theorem copyDue_of_fin (hc : s.sch.copies = c :: rest) (h : c.fin ≤ s.pwr.tb) : s.copyDue = true := by
  unfold State.copyDue
  rw [hc]
  exact decide_eq_true h

theorem pageCopyDone_gone (hc : s.sch.copies = c :: rest) (h : c.fin ≤ s.pwr.tb)
    (hno : s.model (s.req c.slot).model = none ∨ (s.req c.slot).live = false) :
    Machine.pageCopyDone s = { s with sch := { s.sch with copies := rest } } := by
  unfold Machine.pageCopyDone
  rw [hc]
  dsimp only
  rw [if_neg (by rw [copyDue_of_fin hc h]; exact nofun)]
  change (match s.model (s.req c.slot).model with
    | none => _
    | some m => _) = _
  rcases hno with hno | hno
  · rw [hno]
  · rw [hno]
    split
    · rfl
    · rfl

theorem pageCopyDone_done (hc : s.sch.copies = c :: rest) (h : c.fin ≤ s.pwr.tb) (hm : s.model (s.req c.slot).model = some m)
    (hlive : (s.req c.slot).live = true) : Machine.pageCopyDone s =
    if c.comp then ({ s with sch := { s.sch with copies := rest } } : State).compactDone c (s.req c.slot) m
    else ({ s with sch := { s.sch with copies := rest } } : State).cowDone c (s.req c.slot) m := by
  unfold Machine.pageCopyDone
  rw [hc]
  dsimp only
  rw [if_neg (by rw [copyDue_of_fin hc h]; exact nofun)]
  have hm' : ({ s with sch := { s.sch with copies := rest } } : State).model (s.req c.slot).model = some m := hm
  rw [hm']
  dsimp only
  rw [hlive]
  rfl

end Copies

/-! ### The cut of a step (R305) -/

section Cut
variable {s : State} {c : StepRun} {j : Nat}

/-- A kite of the serving train at the cut of a step: it is asked to halt unless it has reached STEPEND. -/
def cutKite (g : Option Nat) (cyc : Nat) (kt : Kite) : Kite := if g.any kt.ended then kt else haltAsked cyc kt

theorem haltAsked_ended (cyc : Nat) (kt : Kite) (g : Nat) : (haltAsked cyc kt).ended g = kt.ended g := by
  unfold haltAsked
  split
  · rfl
  · rfl

theorem cutKite_idem (g : Option Nat) (cyc : Nat) (kt : Kite) : cutKite g cyc (cutKite g cyc kt) = cutKite g cyc kt := by
  have hany : g.any (haltAsked cyc kt).ended = g.any kt.ended := by
    cases g with
    | none => rfl
    | some n => exact haltAsked_ended cyc kt n
  by_cases h : g.any kt.ended = true
  · have hk : cutKite g cyc kt = kt := if_pos h
    rw [hk, hk]
  · have hk : cutKite g cyc kt = haltAsked cyc kt := if_neg h
    rw [hk, cutKite, hany, if_neg h, haltAsked_idem]

/-- The kites of a list are cut. -/
def cutKites (g : Option Nat) (l : List Nat) (s : State) : State :=
  l.foldl (fun s k => if g.any (s.kite k).ended then s else Machine.haltReq k s) s

theorem cutKites_kitesAndLog (g : Option Nat) (l : List Nat) (s : State) : kitesAndLog s (cutKites g l s) := by
  induction l generalizing s with
  | nil => rfl
  | cons k l ih =>
    refine kitesAndLog_trans ?_ (ih _)
    dsimp only
    split
    · rfl
    · exact haltReq_kitesAndLog k s

theorem cutKites_kite (g : Option Nat) (l : List Nat) (s : State) (k : Nat) :
    (cutKites g l s).kite k = if k ∈ l then cutKite g s.cyc (s.kite k) else s.kite k := by
  induction l generalizing s with
  | nil => rfl
  | cons x l ih =>
    have hhead : (if g.any (s.kite x).ended then s else Machine.haltReq x s).kite k = if k = x then cutKite g s.cyc (s.kite k) else s.kite k := by
      by_cases hx : k = x
      · rw [if_pos hx, hx, cutKite]
        split
        · rfl
        · rw [haltReq_kite, if_pos rfl]
      · rw [if_neg hx]
        split
        · rfl
        · rw [haltReq_kite, if_neg hx]
    have hcyc : (if g.any (s.kite x).ended then s else Machine.haltReq x s).cyc = s.cyc := by
      split
      · rfl
      · exact kitesAndLog_cyc (haltReq_kitesAndLog x s)
    refine (ih _).trans ?_
    rw [hhead, hcyc]
    by_cases hx : k = x
    · rw [if_pos hx, cutKite_idem, ite_self]
      exact (if_pos (List.mem_cons.2 (.inl hx))).symm
    · rw [if_neg hx]
      exact if_congr (by rw [List.mem_cons, or_iff_right hx]) rfl rfl

theorem ended_iff {kt : Kite} {g : Option Nat} : g.any kt.ended = true ↔ kt.stepDone = true ∧ g = some kt.goCycle := by
  cases g with
  | none => simp
  | some n => rw [Option.any_some, Kite.ended, Bool.and_eq_true, beq_iff_eq, Option.some_inj, eq_comm (a := kt.goCycle)]

theorem cutKite_eq (g : Option Nat) (cyc : Nat) (kt : Kite) : cutKite g cyc kt =
    if kt.stopped = false ∧ kt.reqEnd = false ∧ ¬(kt.stepDone = true ∧ g = some kt.goCycle) then { kt with reqEnd := true, haltAt := cyc + 1 } else kt := by
  unfold cutKite
  by_cases h : g.any kt.ended = true
  · rw [if_pos h, if_neg fun hn => hn.2.2 (ended_iff.1 h)]
  · rw [if_neg h]
    exact if_congr (by rw [ended_iff] at h; simp [h]) rfl rfl

/-- The step that is cut ends, and its train is launched no longer. -/
def stepEnded (j g : Nat) (c : StepRun) (l : Option LDesc) (u : State) : State := { u with
  sch := { u.sch with
    cur := some { c with ended := some u.pwr.tb, cut := true }, nCut := satAdd 16 u.sch.nCut 1, planned := c.l % 2 ^ 32
    used := (u.cyc - g - c.l) % 2 ^ 32, relaunch := l, lostFrom := some j }
  brd := { u.brd with launches := mapDel u.brd.launches u.trainUnit } }

/-- Of the state only requests and the log's windows may differ. -/
def reqsOnly (s t : State) : Prop := t = { s with tel := t.tel, sch := { s.sch with reqs := t.sch.reqs } }

theorem reqsOnly_trans {s t u : State} (h : reqsOnly s t) (h' : reqsOnly t u) : reqsOnly s u := by
  unfold reqsOnly at *
  rw [h']
  dsimp only
  rw [h]

theorem reqsOnly_foldl {α : Type} {f : State → α → State} (l : List α) (hf : ∀ s x, reqsOnly s (f s x)) (s : State) : reqsOnly s (l.foldl f s) := by
  induction l generalizing s with
  | nil => rfl
  | cons x l ih => exact reqsOnly_trans (hf s x) (ih _)

theorem stepCut_late (h : s.cutDue j = false) : Machine.stepCut j s = s := by
  unfold Machine.stepCut
  cases s.sch.cur with
  | none => rfl
  | some c => exact if_pos (by rw [h]; rfl)

theorem stepCut_due (hcur : s.sch.cur = some c) (hdue : s.cutDue j = true) (hf : s.sch.following = false) (hm : s.members = []) :
    ∃ g l, reqsOnly (stepEnded j g c l (cutKites c.go s.serveKites s)) (Machine.stepCut j s) := by
  have hcut := cutKites_kitesAndLog c.go s.serveKites s
  have hlate : s.haltLate c.go = cutKites c.go s.serveKites s := rfl
  unfold Machine.stepCut
  rw [hcur]
  dsimp only
  rw [if_neg (by rw [hdue]; exact nofun), hlate]
  generalize cutKites c.go s.serveKites s = u at hcut
  unfold kitesAndLog at hcut
  have hf' : u.sch.following = false := by rw [hcut]; exact hf
  have hm' : u.members = [] := by rw [hcut]; exact hm
  have hmem : ∀ l, (stepEnded j (c.go.getD s.cyc) c l u).members = u.members := by
    intro l
    have hf'' : (stepEnded j (c.go.getD s.cyc) c l u).sch.following = false := hf'
    unfold State.members State.serveRuns State.trainUnit
    rw [if_neg (by rw [hf'']; exact nofun), if_neg (by rw [hf']; exact nofun)]
    rfl
  rw [if_neg (by rw [hf']; exact nofun)]
  refine ⟨c.go.getD s.cyc, u.relaunchDesc, ?_⟩
  rw [hm', if_pos (by
    change (stepEnded j (c.go.getD s.cyc) c u.relaunchDesc u).members.isEmpty = true
    rw [hmem, hm']
    rfl)]
  refine reqsOnly_trans (t := (stepEnded j (c.go.getD s.cyc) c u.relaunchDesc u).upTick j _) rfl (reqsOnly_foldl _ (fun v ch => ?_) _)
  split
  · rfl
  · rfl

/-- What the cut of a step leaves: its end and its count, and the halts of the kites that are late. -/
theorem stepCut_spec (hcur : s.sch.cur = some c) (hdue : s.cutDue j = true) (hf : s.sch.following = false) (hm : s.members = []) :
    let t := Machine.stepCut j s
    t.sch.cur = some { c with ended := some s.pwr.tb, cut := true } ∧ t.sch.nCut = min (s.sch.nCut + 1) 65535 ∧
      t.brd = { s.brd with launches := mapDel s.brd.launches s.trainUnit } ∧
      ∀ k, t.kite k = if k ∈ s.serveKites then cutKite c.go s.cyc (s.kite k) else s.kite k := by
  obtain ⟨g, l, h⟩ := stepCut_due hcur hdue hf hm
  have hcut := cutKites_kitesAndLog c.go s.serveKites s
  have hkite := cutKites_kite c.go s.serveKites s
  generalize Machine.stepCut j s = t at h
  generalize cutKites c.go s.serveKites s = u at h hcut hkite
  have htb : u.pwr = s.pwr := by unfold kitesAndLog at hcut; rw [hcut]
  have hsch : u.sch = s.sch := by unfold kitesAndLog at hcut; rw [hcut]
  have hbrd : u.brd = s.brd := by unfold kitesAndLog at hcut; rw [hcut]
  have hunit : u.trainUnit = s.trainUnit := by unfold kitesAndLog at hcut; rw [hcut]; rfl
  have hcurt : t.sch.cur = some { c with ended := some u.pwr.tb, cut := true } := by rw [h]; rfl
  have hnt : t.sch.nCut = min (u.sch.nCut + 1) 65535 := by rw [h]; rfl
  have hbt : t.brd = { u.brd with launches := mapDel u.brd.launches u.trainUnit } := by rw [h]; rfl
  have hkt : t.kites = u.kites := by rw [h]; rfl
  dsimp only
  rw [hcurt, hnt, hbt, htb, hsch, hbrd, hunit]
  refine ⟨rfl, rfl, rfl, fun k => ?_⟩
  have hk : t.kite k = u.kite k := by
    unfold State.kite
    rw [hkt]
  exact hk.trans (hkite k)

end Cut

/-! ### The deadline of an export (R299) -/

section Deadline
variable {s : State} {n : Nat}

theorem sign_exportSide (s : State) (l : List Byte) : exportSide s (s.sign l).2 := rfl

/-- An abort manifest digests no page: it reads no memory. -/
theorem abortManifest_exportSide (s : State) (x : Stream) (e : List Byte) (status : Nat) : exportSide s (s.buildManifest x e true status).2.2 := by
  unfold State.buildManifest
  simp only [↓reduceIte, List.foldl_nil]
  split
  · have h := sign_exportSide s (x.manifestHead e true status ++ [])
    generalize s.sign (x.manifestHead e true status ++ []) = y at h ⊢
    exact h
  · rfl

theorem stopStream_exportSide (s : State) (n : Nat) (st : XSt) (status : Nat) : exportSide s (s.stopStream n st status) := by
  unfold State.stopStream
  dsimp only
  split
  · rfl
  · have hm := abortManifest_exportSide s (s.stream n) (s.target (s.stream n).target) (((s.req n).fault).getD status)
    generalize s.buildManifest (s.stream n) (s.target (s.stream n).target) true (((s.req n).fault).getD status) = x at hm
    obtain ⟨l, bad, u⟩ := x
    refine exportSide_trans hm ?_
    dsimp only
    split
    · split
      · rfl
      · rfl
    · split
      · rfl
      · rfl

theorem req_live_ne_free {r : Req} (h : r.live = true) : ¬((r.st = .free && !r.held) = true) := by
  intro hn
  simp only [Bool.and_eq_true, decide_eq_true_iff, Bool.not_eq_true'] at hn
  unfold Req.live at h
  rw [hn.1, hn.2] at h
  exact absurd h (by decide)

theorem exportDeadline_due (hlive : (s.req n).live = true) (hposted : (s.req n).posted = false)
    (hat : s.tickStart ((s.req n).commit + 1) ≤ s.pwr.tb) (hfault : (s.req n).fault = none) :
    Machine.exportDeadline n s = (s.stopStream n .aborted 8).setReq n { s.req n with fault := some 8 } := by
  have hreq : (s.stopStream n .aborted 8).req n = s.req n := by
    unfold State.req
    rw [(stopStream_exportSide s n .aborted 8).sch]
  unfold Machine.exportDeadline State.faultSlot
  dsimp only
  rw [hreq, hlive, hposted, hfault, if_neg (by simp [hat]), if_neg (by simpa using req_live_ne_free hlive)]

end Deadline

/-! ### The freeze of a plan (R286, R254, R298) -/

section Freeze
variable {s : State} {j : Nat}

/-- Of the state only the plan and the background slots may differ. -/
def plansOnly (s t : State) : Prop :=
  t = { s with sch := { s.sch with plan := t.sch.plan, bgDone := t.sch.bgDone, bgPlan := t.sch.bgPlan, nBg := t.sch.nBg } }

theorem plansOnly_trans {s t u : State} (h : plansOnly s t) (h' : plansOnly t u) : plansOnly s u := by
  unfold plansOnly at *
  rw [h']
  dsimp only
  rw [h]

theorem plansOnly_foldl {α : Type} {f : State → α → State} (l : List α) (hf : ∀ s x, plansOnly s (f s x)) (s : State) : plansOnly s (l.foldl f s) := by
  induction l generalizing s with
  | nil => rfl
  | cons x l ih => exact plansOnly_trans (hf s x) (ih _)

theorem plansOnly_ite {α : Type} {s : State} {b : Prop} [Decidable b] {x y : α × State} (hx : plansOnly s x.2) (hy : plansOnly s y.2) :
    plansOnly s (if b then x else y).2 := by
  split
  · exact hx
  · exact hy

theorem plansOnly_ite1 {s x y : State} {b : Prop} [Decidable b] (hx : plansOnly s x) (hy : plansOnly s y) : plansOnly s (if b then x else y) := by
  split
  · exact hx
  · exact hy

theorem promoteOne_plansOnly (s : State) (j slot : Nat) : plansOnly s (s.promoteOne j slot).2 := by
  unfold State.promoteOne
  dsimp only
  split
  · rfl
  · refine plansOnly_ite rfl ?_
    split
    · rfl
    · rfl

theorem promoteAll_plansOnly (j slot f : Nat) (s : State) : plansOnly s (State.promoteAll j slot f s) := by
  induction f generalizing s with
  | zero => rfl
  | succ f ih =>
    have h := promoteOne_plansOnly s j slot
    unfold State.promoteAll
    dsimp only
    split
    · exact plansOnly_trans h (ih _)
    · exact h

theorem promote_plansOnly (s : State) (j : Nat) : plansOnly s (s.promote j) := by
  have hall : ∀ (l : List Nat) (s : State), plansOnly s (l.foldl (fun s n => State.promoteAll j n (s.sch.plan.length + 1) s) s) :=
    fun l s => plansOnly_foldl l (fun s n => promoteAll_plansOnly j n _ s) s
  unfold State.promote
  exact plansOnly_ite1 (hall _ s) rfl

/-- Of the state only device memory, requests and the page copy path may differ. -/
def preparesOnly (s t : State) : Prop := t = { s with pgm := t.pgm, sch := { s.sch with reqs := t.sch.reqs, copies := t.sch.copies } }

theorem preparesOnly_trans {s t u : State} (h : preparesOnly s t) (h' : preparesOnly t u) : preparesOnly s u := by
  unfold preparesOnly at *
  rw [h']
  dsimp only
  rw [h]

theorem preparesOnly_foldl {α : Type} {f : State → α → State} (l : List α) (hf : ∀ s x, preparesOnly s (f s x)) (s : State) :
    preparesOnly s (l.foldl f s) := by
  induction l generalizing s with
  | nil => rfl
  | cons x l ih => exact preparesOnly_trans (hf s x) (ih _)

theorem needPage_preparesOnly (s : State) (n va cls : Nat) : preparesOnly s (s.needPage n va cls) := by
  unfold State.needPage
  split
  · rfl
  · split
    · unfold State.faultSlot
      dsimp only
      split
      · rfl
      · rfl
    · rfl

theorem needCopy_preparesOnly (s : State) (n pg pos j : Nat) (r : Req) (m : Model) : preparesOnly s (s.needCopy n pg pos j r m) := by
  unfold State.needCopy
  dsimp only
  split
  · rfl
  · rfl

theorem needPages_preparesOnly (s : State) (j : Nat) (c : Nat × Nat × Nat) : preparesOnly s (s.needPages j c) := by
  unfold State.needPages
  dsimp only
  split
  · rfl
  · split
    · rfl
    · have hpages : ∀ (l : List Nat) (f : Nat) (cls : Nat) (r : Req) (m : Model) (s : State), preparesOnly s (l.foldl (fun s pg =>
          ((List.range m.nl).foldl (fun s l => s.needPage c.1 (pageVa c.1 l pg f) cls) s).needCopy c.1 pg c.2.1 j r m) s) :=
        fun l f cls r m s => preparesOnly_foldl l (fun s pg =>
          preparesOnly_trans (preparesOnly_foldl _ (fun s l => needPage_preparesOnly s _ _ _) s) (needCopy_preparesOnly _ _ _ _ _ _ _)) s
      split
      · exact preparesOnly_trans (hpages _ _ _ _ _ s) (preparesOnly_foldl _ (fun s l => needPage_preparesOnly s _ _ _) _)
      · exact hpages _ _ _ _ _ s

theorem plansOnly_slots (s : State) (d : Map Nat) (p : Map (List Nat)) (n : Nat) :
    plansOnly s { s with sch := { s.sch with bgDone := d, bgPlan := p, nBg := n } } := rfl

theorem planSlots_plansOnly (s : State) (j : Nat) : plansOnly s (s.planSlots j) := by
  obtain ⟨f, hf⟩ : ∃ f, f = State.planSlots := ⟨_, rfl⟩
  obtain ⟨behind, hb⟩ : ∃ b, b = State.scrubBehind := ⟨_, rfl⟩
  rw [← hf]
  delta State.planSlots at hf
  rw [← hb] at hf
  clear hb
  subst hf
  exact plansOnly_slots s _ _ _

/-- The freeze of tick j is noted. -/
def frozenAt (j : Nat) (u : State) : State := { u with sch := { u.sch with lastFreeze := some j } }

theorem frozenAt_plansOnly {s u : State} (j : Nat) (h : plansOnly s u) : plansOnly (frozenAt j s) (frozenAt j u) := by
  unfold plansOnly at *
  unfold frozenAt
  rw [h]

/-- The pages of a plan are there for its step. -/
def pagesReady (j : Nat) (tp : TickPlan) (u : State) : State :=
  let v := tp.chunks.foldl (fun s c => s.needPages j c) u
  if j ≤ v.sch.bnd then { v with pgm := v.pgm.lateEdits (tp.chunks.map (·.1)) } else v

theorem pagesReady_preparesOnly (j : Nat) (tp : TickPlan) (u : State) : preparesOnly u (pagesReady j tp u) := by
  have h := preparesOnly_foldl tp.chunks (fun s c => needPages_preparesOnly s j c) u
  unfold pagesReady
  dsimp only
  split
  · exact preparesOnly_trans h rfl
  · exact h

/-- The plan of a tick, frozen at the cost of its contents. -/
def frozenPlan (tp : TickPlan) (v : State) : TickPlan := { tp with frozen := true, l := v.costOf tp.model (v.contsOf tp.chunks) }

/-- The plan of tick j stands frozen. -/
def planStands (j : Nat) (tp : TickPlan) (v : State) : State := { v with sch := { v.sch with plan := mapSet v.sch.plan j (frozenPlan tp v) } }

theorem physWrite_writable {a : Nat} {l : List Byte} (h : writable a = true) : s.physWrite a l = { s with pgm := s.pgm.write a l } := if_pos h

theorem sendDesc_linkOnly (s : State) (j : Nat) (d : List Byte) : linkOnly s (s.sendDesc j d) := by
  refine linkOnly_foldl _ (fun s m => linkOnly_foldl _ (fun s x => ?_) s) s
  obtain ⟨c, i⟩ := x
  exact lerboSend_linkOnly s m _ (by decide) (by decide)

/-- The descriptor of a step with work is written, and sent. -/
def descSent (j : Nat) (tp : TickPlan) (w : State) (fz : TickPlan) : State :=
  if tp.chunks.isEmpty then w else (w.physWrite (w.descAt j) (w.stepDescOf j fz)).sendDesc j (w.stepDescOf j fz)

/-- The rest of the freeze, once the plan stands: nothing without a plan, and with one its pages, its cost and its descriptor. -/
def planned (j : Nat) (u : State) : State :=
  match mapGet u.sch.plan j with
  | none => u
  | some tp => descSent j tp (planStands j tp (pagesReady j tp u)) (frozenPlan tp (pagesReady j tp u))

theorem planFreeze_due (h : s.freezeDue j = true) : ∃ u, plansOnly s u ∧ Machine.planFreeze j s = planned j (frozenAt j u) := by
  have hp := plansOnly_trans (planSlots_plansOnly s j) (promote_plansOnly (s.planSlots j) j)
  obtain ⟨f, hf⟩ : ∃ f, f = State.planSlots := ⟨_, rfl⟩
  unfold Machine.planFreeze
  rw [← hf] at hp ⊢
  clear hf
  rw [if_neg (by rw [h]; exact nofun)]
  generalize (f s j).promote j = u at hp ⊢
  refine ⟨u, hp, ?_⟩
  unfold planned frozenAt
  dsimp only
  generalize mapGet u.sch.plan j = o
  cases o with
  | none => rfl
  | some tp =>
    unfold descSent planStands frozenPlan pagesReady
    dsimp only

theorem planFreeze_idle (h : s.freezeDue j = false) : Machine.planFreeze j s = s := if_pos (by rw [h]; rfl)

theorem planned_spec {u : State} (hu : plansOnly s u) (hw : writable (s.descAt j) = true) : let t := planned j (frozenAt j u)
    t.sch.lastFreeze = some j ∧ t.kites = s.kites ∧
      ∀ p, mapGet t.sch.plan j = some p → p.frozen = true ∧ p.l = t.costOf p.model (t.contsOf p.chunks) := by
  have hpro := frozenAt_plansOnly j hu
  cases hp : mapGet (frozenAt j u).sch.plan j with
  | none =>
    have ht : planned j (frozenAt j u) = frozenAt j u := by
      unfold planned
      rw [hp]
    rw [ht]
    have hk : (frozenAt j u).kites = s.kites := by
      rw [hpro]
      rfl
    refine ⟨rfl, hk, fun p hp' => ?_⟩
    rw [hp] at hp'
    cases hp'
  | some tp =>
    have ht : planned j (frozenAt j u) = descSent j tp (planStands j tp (pagesReady j tp (frozenAt j u))) (frozenPlan tp (pagesReady j tp (frozenAt j u))) := by
      unfold planned
      rw [hp]
    have hready := pagesReady_preparesOnly j tp (frozenAt j u)
    rw [ht]
    generalize frozenAt j u = v at hpro hready
    generalize pagesReady j tp v = w at hready
    have hlast : w.sch.lastFreeze = some j := by
      rw [hready, hpro]
      rfl
    have hkites : w.kites = s.kites := by
      rw [hready, hpro]
      rfl
    have hbase : w.sch.stepBase = s.sch.stepBase := by
      rw [hready, hpro]
      rfl
    have hend : ∀ t : State, (∃ p, linkOnly { planStands j tp w with pgm := p } t) → t.sch.lastFreeze = some j ∧ t.kites = s.kites ∧
        ∀ p, mapGet t.sch.plan j = some p → p.frozen = true ∧ p.l = t.costOf p.model (t.contsOf p.chunks) := by
      rintro t ⟨q, ht⟩
      obtain ⟨hsch, hk, -⟩ := ht.kept
      have hhst : t.hst = w.hst := by
        unfold linkOnly at ht
        rw [ht]
        rfl
      refine ⟨(congrArg Sch.lastFreeze hsch).trans hlast, hk.trans hkites, fun p hp => ?_⟩
      rw [hsch] at hp
      cases (mapGet_mapSet_self w.sch.plan j (frozenPlan tp w)).symm.trans hp
      have hcost : ∀ x, t.costOf tp.model x = w.costOf tp.model x := by
        intro x
        unfold State.costOf State.model
        rw [hhst]
      have hconts : t.contsOf tp.chunks = w.contsOf tp.chunks := by
        unfold State.contsOf State.req
        rw [hsch]
        rfl
      refine ⟨rfl, ?_⟩
      change w.costOf tp.model (w.contsOf tp.chunks) = t.costOf tp.model (t.contsOf tp.chunks)
      rw [hcost, hconts]
    have hat : (planStands j tp w).descAt j = s.descAt j := by
      unfold State.descAt
      change w.sch.stepBase + _ = _
      rw [hbase]
    refine hend _ ?_
    unfold descSent
    split
    · exact ⟨(planStands j tp w).pgm, rfl⟩
    · rw [physWrite_writable (by rw [hat]; exact hw)]
      exact ⟨_, sendDesc_linkOnly _ j _⟩

theorem planFreeze_spec (h : s.freezeDue j = true) (hw : writable (s.descAt j) = true) : ∃ t, exec (.planFreeze j) s = .next t ∧
    t.sch.lastFreeze = some j ∧ t.kites = s.kites ∧
      ∀ p, mapGet t.sch.plan j = some p → p.frozen = true ∧ p.l = t.costOf p.model (t.contsOf p.chunks) := by
  obtain ⟨u, hu, heq⟩ := planFreeze_due h
  exact ⟨_, congrArg Host.Outcome.next heq, planned_spec hu hw⟩

end Freeze
/-! ### The obligation -/

/-- Settles O38: the freeze by what it leaves of the plan, where only requests and pages change beside it; the cut kite by kite; an export's
deadline by the stream it stops; and the page copies by their counters, which no edit of the page manager touches. -/
theorem freezeCutAndCopies : Obligations.FreezeCutAndCopies := by
  unfold Obligations.FreezeCutAndCopies
  refine ⟨fun s => ⟨fun j h => ?_, fun j h hw => ?_, fun j c hcur hdue hf hm => ?_, fun j h => ?_, fun n hlive hposted hat hfault => ?_, fun n h => ?_⟩,
    fun s c rest hc => ⟨fun h => ?_, fun h hno => ?_, fun m h hm hlive => ?_⟩⟩
  · exact congrArg Host.Outcome.next (planFreeze_idle h)
  · exact planFreeze_spec h hw
  · obtain ⟨h1, h2, h3, h4⟩ := stepCut_spec hcur hdue hf hm
    refine ⟨_, rfl, h1, h2, h3, fun k => (h4 k).trans ?_⟩
    by_cases hk : k ∈ s.serveKites
    · rw [if_pos hk, cutKite_eq]
      exact if_congr (by rw [and_iff_right hk]) rfl rfl
    · rw [if_neg hk, if_neg fun h => hk h.1]
  · exact congrArg Host.Outcome.next (stepCut_late h)
  · have hst := stopStream_exportSide s n.val .aborted 8
    refine ⟨_, congrArg Host.Outcome.next (exportDeadline_due hlive hposted hat hfault), ?_, hst.kites, fun i hi => ?_⟩
    · unfold State.req State.setReq mapGetD
      rw [mapGet_mapSet_self]
      rfl
    · unfold State.req State.setReq mapGetD
      rw [mapGet_mapSet_ne _ _ _ _ hi, hst.sch]
  · refine congrArg Host.Outcome.next (if_pos ?_)
    rcases h with h | h | h
    · rw [h]; rfl
    · rw [h, Bool.or_true]; rfl
    · rw [decide_eq_true h, Bool.or_true]
  · have hn : s.copyDue = false := by
      unfold State.copyDue
      rw [hc]
      exact decide_eq_false (Nat.not_le.2 h)
    exact congrArg Host.Outcome.next (pageCopyDone_early hc hn)
  · exact congrArg Host.Outcome.next (pageCopyDone_gone hc h hno)
  · have hd := pageCopyDone_done hc h hm hlive
    cases hcomp : c.comp with
    | false =>
      obtain ⟨h1, h2, h3⟩ := cowDone_spec (s := { s with sch := { s.sch with copies := rest } }) (c := c) (r := s.req c.slot) (m := m)
      refine ⟨_, congrArg Host.Outcome.next (hd.trans (if_neg (by rw [hcomp]; exact nofun))), h1, h2, fun _ => h3, nofun⟩
    | true =>
      obtain ⟨h1, h2, h3⟩ := compactDone_spec (s := { s with sch := { s.sch with copies := rest } }) (c := c) (r := s.req c.slot) (m := m)
      exact ⟨_, congrArg Host.Outcome.next (hd.trans (if_pos hcomp)), h1, h2, nofun, fun _ => h3⟩

end Sys2Proof.Stated
end

section
/-! SUPPORT. What a stream sends (R316, R322–R324, R326, R329, R336): a message as it leaves, the pages, and the fragments of a manifest. -/
namespace Sys2Proof.Stated
open Sys2Proof.Machine

/-! ### What the module has sent stays sent -/

/-- What left the module before stays before what leaves it later. -/
def outGrows (s t : State) : Prop := ∃ l, t.out = s.out ++ l

theorem outGrows_refl (s : State) : outGrows s s := ⟨[], (List.append_nil _).symm⟩

theorem outGrows_same {s t : State} (h : t.out = s.out) : outGrows s t := ⟨[], h.trans (List.append_nil _).symm⟩

theorem outGrows_trans {s t u : State} (h : outGrows s t) (h' : outGrows t u) : outGrows s u := by
  obtain ⟨a, ha⟩ := h
  obtain ⟨b, hb⟩ := h'
  exact ⟨a ++ b, by rw [hb, ha, List.append_assoc]⟩

theorem vector_outGrows (s : State) (v : Nat) : outGrows s (s.vector v) := by
  unfold State.vector
  split
  · exact outGrows_same rfl
  · split
    · split
      · exact outGrows_same rfl
      · exact ⟨_, rfl⟩
    · exact outGrows_refl s

theorem hostPut_outGrows (s : State) (a : Nat) (l : List Byte) : outGrows s (s.hostPut a l).2 := by
  unfold State.hostPut
  split
  · exact outGrows_refl s
  · split
    · exact outGrows_same rfl
    · dsimp only
      split
      · exact ⟨_, rfl⟩
      · exact ⟨_, rfl⟩

theorem cqWrite_outGrows (s : State) (q : Nat) (l : List Byte) : outGrows s (s.cqWrite q l) := by
  unfold State.cqWrite
  dsimp only
  have h := hostPut_outGrows s ((s.queue q).cqBase + 32 * (s.queue q).cqTail) (setPhase l (s.queue q).phase)
  split
  · exact outGrows_trans h (vector_outGrows (State.setQueue (State.setQueue _ q _) q _) _)
  · exact h

theorem postCqe_outGrows (s : State) (e : Cqe) : outGrows s (s.postCqe e) := by
  unfold State.postCqe
  extract_lets x y u
  have hu : outGrows s u := outGrows_same rfl
  split
  · exact hu
  · split
    · exact outGrows_trans hu (outGrows_same rfl)
    · exact outGrows_trans hu (cqWrite_outGrows _ _ _)

theorem complete_outGrows (s : State) (n status : Nat) : outGrows s (s.complete n status) := by
  unfold State.complete
  dsimp only
  split
  · exact outGrows_refl s
  · split
    · exact outGrows_same rfl
    · refine outGrows_trans (outGrows_same (t := (s.setReq n { s.req n with posted := true, status := status }).drew) rfl) ?_
      exact outGrows_trans (postCqe_outGrows _ _) (outGrows_same rfl)

/-! ### A message leaves -/

section Leaves
variable {u v : State} {n seq : Nat} {x : Stream} {e msg data : List Byte} {m : XMsg}

@[simp] theorem stream_setStream_self (s : State) (n : Nat) (x : Stream) : (s.setStream n x).stream n = x := by
  unfold State.stream State.setStream mapGetD
  rw [mapGet_mapSet_self]
  rfl

theorem stream_of_xpt {s t : State} (h : t.xpt = s.xpt) (n : Nat) : t.stream n = s.stream n := by
  unfold State.stream
  rw [h]

/-- The host interface after a write to host memory: it waits while the PCIe domains stand. -/
def hostAfter (h : Hst) (standing : Bool) (a : Nat) (l : List Byte) : Hst :=
  if !h.linkUp || !h.master then h
  else if standing then { h with waits := h.waits ++ [.write a l] }
  else if h.bad a l.length then h else { h with mem := memWrites h.mem a l }

theorem hostPut_hst (s : State) (a : Nat) (l : List Byte) : (s.hostPut a l).2.hst = hostAfter s.hst s.hostWaits a l := by
  unfold State.hostPut hostAfter
  split
  · rfl
  · split
    · rfl
    · dsimp only
      split
      · next hb => exact (if_pos hb).symm
      · next hb => exact (if_neg hb).symm

theorem hostPut_xpt (s : State) (y : Xpt) (a : Nat) (l : List Byte) : (({ s with xpt := y } : State).hostPut a l).2.hst = (s.hostPut a l).2.hst :=
  (hostPut_hst _ a l).trans (hostPut_hst s a l).symm

theorem transmit_host (h : tKind e = 4) : v.transmit n e x m msg data = (v.hostPut (x.hostAddr e m) data).2 := by
  unfold State.transmit
  split
  · rfl
  · next h3 => omega
  · next h4 _ => exact absurd h h4

/-- A stream after its link is busy with a message. -/
def busyStream (v : State) (x : Stream) (bytes : Nat) : Stream :=
  { x with freeAt := max x.freeAt (v.now * 1000) + ceilDiv (bytes * 8000000) (max 1 x.rate) }

theorem transmit_lerbo (h : tKind e = 3) : v.transmit n e x m msg data =
    (v.setStream n (busyStream v x msg.length)).lerboSend (tDst e) 0x31 (leBytes 2 (fieldLe e 0x14 2) ++ leBytes 2 0 ++ msg) := by
  unfold State.transmit
  split
  · next h4 => omega
  · rfl
  · next _ h3 => exact absurd h h3

theorem transmit_frame (h4 : tKind e ≠ 4) (h3 : tKind e ≠ 3) : v.transmit n e x m msg data =
    (v.setStream n (busyStream v x (wireBytes e msg.length))).sendFrame e msg := by
  unfold State.transmit
  split
  · next h => exact absurd h h4
  · next h => exact absurd h h3
  · rfl

/-- A message leaves as it does from a state that has the same but for its streams. -/
theorem transmit_leaves {y : Stream} (hv : v = { u with xpt := v.xpt }) (hy : x.hostAddr e m = y.hostAddr e m) :
    leaves u (v.transmit n e x m msg data) y e m msg data := by
  have hport : v.port (tPort e) = u.port (tPort e) := by rw [hv]; rfl
  have hout : v.out = u.out := by rw [hv]
  have hfree : v.free = u.free := by rw [hv]
  refine ⟨fun h => ?_, fun h => ?_, fun h => ?_⟩
  · rw [transmit_frame (by omega) (by omega), ← hport, ← hout, ← hfree]
    rfl
  · exact ⟨v.setStream n (busyStream v x msg.length), (congrArg State.lnk hv :), hout, (congrArg State.sec hv :), by rw [transmit_lerbo h]⟩
  · rw [transmit_host h, hy, hv]
    exact hostPut_xpt u v.xpt _ data

theorem sendFrame_frame (s : State) (e msg : List Byte) : exportSide s (s.sendFrame e msg) ∧ (s.sendFrame e msg).xpt = s.xpt ∧ outGrows s (s.sendFrame e msg) :=
  ⟨rfl, rfl, ⟨_, rfl⟩⟩

theorem transmit_exportSide (v : State) (n : Nat) (e : List Byte) (x : Stream) (m : XMsg) (msg data : List Byte) :
    exportSide v (v.transmit n e x m msg data) := by
  by_cases h4 : tKind e = 4
  · rw [transmit_host h4]
    exact (hostPut_hostOnly v _ _).exportSide
  · by_cases h3 : tKind e = 3
    · rw [transmit_lerbo h3]
      exact exportSide_trans (t := v.setStream n (busyStream v x msg.length)) rfl (lerboSend_linkOnly _ _ _ (by decide) (by decide)).exportSide
    · rw [transmit_frame h4 h3]
      exact exportSide_trans (t := v.setStream n (busyStream v x (wireBytes e msg.length))) rfl (sendFrame_frame _ e msg).1

/-- Of the export engine, sending moves on the time at which the stream may send again, and nothing else. -/
theorem transmit_xpt (hx : v.stream n = x) : (∃ f, (v.transmit n e x m msg data).stream n = { x with freeAt := f }) ∧
    ∃ y, (v.transmit n e x m msg data).xpt = { v.xpt with streams := y } := by
  by_cases h4 : tKind e = 4
  · have hxpt : (v.transmit n e x m msg data).xpt = v.xpt := by
      rw [transmit_host h4, hostPut_hostOnly v]
    exact ⟨⟨x.freeAt, (stream_of_xpt hxpt n).trans hx⟩, v.xpt.streams, hxpt⟩
  · by_cases h3 : tKind e = 3
    · have hxpt : (v.transmit n e x m msg data).xpt = (v.setStream n (busyStream v x msg.length)).xpt := by
        rw [transmit_lerbo h3]
        have := lerboSend_linkOnly (v.setStream n (busyStream v x msg.length)) (tDst e) (leBytes 2 (fieldLe e 0x14 2) ++ leBytes 2 0 ++ msg)
          (show 0x31 ≠ 0x21 by decide) (by decide)
        unfold linkOnly at this
        rw [this]
      exact ⟨⟨_, (stream_of_xpt hxpt n).trans (stream_setStream_self ..)⟩, _, hxpt⟩
    · have hxpt : (v.transmit n e x m msg data).xpt = (v.setStream n (busyStream v x (wireBytes e msg.length))).xpt := by
        rw [transmit_frame h4 h3]
        exact (sendFrame_frame _ e msg).2.1
      exact ⟨⟨_, (stream_of_xpt hxpt n).trans (stream_setStream_self ..)⟩, _, hxpt⟩

end Leaves

/-! ### Sending a message of a stream -/

section Sending
variable {s u : State} {n seq : Nat} {m : XMsg} {retx : Bool} {data : List Byte}

/-- A message as a stream records it when it leaves: a posted write to host memory needs no acknowledgement. -/
def sentMsg (now : Nat) (e : List Byte) (m : XMsg) : XMsg :=
  { m with sent := now, again := false, noSpace := false, acked := m.acked || decide (tKind e = 4) }

/-- A stream that has sent a message. -/
def sentStream (now : Nat) (e : List Byte) (x : Stream) (seq : Nat) (m : XMsg) : Stream :=
  { x with msgs := mapSet x.msgs seq (sentMsg now e m), next := max x.next (seq + 1), ackedSeq := if tKind e = 4 then max x.next (seq + 1) else x.ackedSeq }

/-- The state from which a message leaves: its stream has recorded it, and a retransmission is counted. -/
def sendingFrom (u : State) (n seq : Nat) (x : Stream) (e : List Byte) (m : XMsg) (retx : Bool) : State :=
  let v := u.setStream n (sentStream u.now e x seq m)
  if retx then { v with xpt := { v.xpt with retx := wrapAdd 32 v.xpt.retx 1 } } else v

/-- The state that a message leaves behind, before what the last fragment of a manifest brings. -/
def messageSent (u : State) (n seq : Nat) (x : Stream) (m : XMsg) (retx : Bool) (e data : List Byte) : State :=
  (sendingFrom u n seq x e m retx).transmit n e (sentStream u.now e x seq m) m (x.message e seq m retx u.pwr.tb data) data

theorem sendingFrom_frame (x : Stream) (e : List Byte) : sendingFrom u n seq x e m retx = { u with xpt := (sendingFrom u n seq x e m retx).xpt } := by
  unfold sendingFrom
  dsimp only
  split
  · rfl
  · rfl

theorem sendingFrom_stream (x : Stream) (e : List Byte) : (sendingFrom u n seq x e m retx).stream n = sentStream u.now e x seq m := by
  unfold sendingFrom
  dsimp only
  split
  · exact (stream_of_xpt rfl n).trans (stream_setStream_self u n _)
  · exact stream_setStream_self ..

/-- A message whose data is whole leaves its stream; with the last fragment of a manifest the stream is sealed, or its abort has ended. -/
theorem sendMsg_whole {x : Stream} {e : List Byte} (hx : s.stream n = x) (he : s.target x.target = e)
    (hdata : (if m.manifest then ((x.bytes.drop m.off).take m.len, [], s) else s.imageBytes x e m.layer m.page m.off m.len) = (data, [], u)) :
    s.sendMsg n seq m retx = if m.manifest && m.last && !retx then
        (if x.abort.isSome then (if tKind e = 4 then (messageSent u n seq x m retx e data).endAbort n else messageSent u n seq x m retx e data)
          else (messageSent u n seq x m retx e data).seal n (tKind e == 4))
      else messageSent u n seq x m retx e data := by
  subst hx he
  unfold State.sendMsg
  dsimp only
  rw [hdata]
  dsimp only
  unfold messageSent sendingFrom
  generalize s.target (s.stream n).target = e
  have hstream : (if tKind e = 4 then
      { { s.stream n with
          msgs := if tKind e = 4 then (s.stream n).msgs else mapSet (s.stream n).msgs seq { m with sent := u.now, again := false, noSpace := false }
          next := max (s.stream n).next (seq + 1) } with
        msgs := mapSet (if tKind e = 4 then (s.stream n).msgs else mapSet (s.stream n).msgs seq { m with sent := u.now, again := false, noSpace := false })
          seq { m with sent := u.now, again := false, noSpace := false, acked := true }
        ackedSeq := max (s.stream n).next (seq + 1) }
      else { s.stream n with
        msgs := if tKind e = 4 then (s.stream n).msgs else mapSet (s.stream n).msgs seq { m with sent := u.now, again := false, noSpace := false }
        next := max (s.stream n).next (seq + 1) }) = sentStream u.now e (s.stream n) seq m := by
    unfold sentStream sentMsg
    by_cases h4 : tKind e = 4
    · simp only [if_pos h4, decide_eq_true h4, Bool.or_true]
    · simp only [if_neg h4, decide_eq_false h4, Bool.or_false]
  rw [hstream]
  have hmsg : (sentStream u.now e (s.stream n) seq m).message e seq m retx u.pwr.tb data = (s.stream n).message e seq m retx u.pwr.tb data := rfl
  cases retx with
  | true => rfl
  | false => rfl

/-- What a message that has left leaves behind. -/
theorem messageSent_spec (u : State) (n seq : Nat) (x : Stream) (m : XMsg) (retx : Bool) (e data : List Byte) : let t := messageSent u n seq x m retx e data
    exportSide u t ∧ leaves u t x e m (x.message e seq m retx u.pwr.tb data) data ∧ (∃ f, t.stream n = { sentStream u.now e x seq m with freeAt := f }) ∧
      t.xpt.retx = if retx then (u.xpt.retx + 1) % 2 ^ 32 else u.xpt.retx := by
  have hframe := sendingFrom_frame (u := u) (n := n) (seq := seq) (m := m) (retx := retx) x e
  obtain ⟨hstream, y, hxpt⟩ := transmit_xpt (v := sendingFrom u n seq x e m retx) (m := m) (e := e) (msg := x.message e seq m retx u.pwr.tb data) (data := data)
    (sendingFrom_stream x e)
  refine ⟨exportSide_trans ?_ (transmit_exportSide ..), transmit_leaves hframe rfl, hstream, ?_⟩
  · unfold exportSide
    rw [hframe]
    rfl
  · refine (congrArg Xpt.retx hxpt).trans ?_
    unfold sendingFrom
    cases retx with
    | true => rfl
    | false => rfl

/-- Of the state only requests, the host interface, the log and what the module sends may differ: the streams stand. -/
theorem completes.xpt {s t : State} (h : completes s t) : t.xpt = s.xpt := by
  unfold completes at h
  rw [h]

theorem faultSlot_kept (s : State) (n status : Nat) : (s.faultSlot n status).xpt = s.xpt ∧ outGrows s (s.faultSlot n status) := by
  unfold State.faultSlot
  dsimp only
  split
  · exact ⟨rfl, outGrows_refl s⟩
  · exact ⟨rfl, outGrows_same rfl⟩

theorem seal_spec (s : State) (n : Nat) (host : Bool) : (s.seal n host).stream n = { s.stream n with st := if host then .closed else .sealed, sealedAt := s.now } ∧
    outGrows s (s.seal n host) := by
  unfold State.seal
  extract_lets x u v
  have hv : v.stream n = { s.stream n with st := if host then .closed else .sealed, sealedAt := s.now } ∧ outGrows s v := by
    have hu : u.stream n = { s.stream n with st := if host then .closed else .sealed, sealedAt := s.now } := stream_setStream_self ..
    cases host with
    | true => exact ⟨(stream_of_xpt rfl n).trans hu, outGrows_same rfl⟩
    | false => exact ⟨hu, outGrows_same rfl⟩
  split
  · exact ⟨(stream_of_xpt (complete_completes v n 0).xpt n).trans hv.1, outGrows_trans hv.2 (complete_outGrows v n 0)⟩
  · exact ⟨(stream_of_xpt (faultSlot_kept v n 8).1 n).trans hv.1, outGrows_trans hv.2 (faultSlot_kept v n 8).2⟩

end Sending

/-! ### The obligation -/

section Ready
variable {s u : State} {n : Nat}

/-- A PAGE_DATA sent for the first time. -/
def freshPage (layer pg off len : Nat) : XMsg :=
  { manifest := false, layer := layer, page := pg, off := off, len := len, last := false, sent := 0, acked := false, again := false, naks := 0,
    noSpace := false, fast := false }

/-- A fragment of a manifest sent for the first time. -/
def freshFragment (off len : Nat) (last : Bool) : XMsg :=
  { manifest := true, layer := 0, page := 0, off := off, len := len, last := last, sent := 0, acked := false, again := false, naks := 0,
    noSpace := false, fast := false }

theorem pageData_first {layer pg off len : Nat} (hr : s.dataReady n = true) (hres : (s.stream n).resend false = none)
    (hnext : (s.stream n).nextData (s.target (s.stream n).target) = some (layer, pg, off, len)) :
    Machine.pageData n s = s.sendMsg n (s.stream n).next (freshPage layer pg off len) false := by
  unfold Machine.pageData
  rw [if_neg (by rw [hr]; exact nofun)]
  dsimp only
  rw [hres]
  dsimp only
  rw [hnext]
  rfl

theorem pageData_again {q : Nat} {m : XMsg} (hr : s.dataReady n = true) (hres : (s.stream n).resend false = some (q, m)) :
    Machine.pageData n s = s.sendMsg n q m true := by
  unfold Machine.pageData
  rw [if_neg (by rw [hr]; exact nofun)]
  dsimp only
  rw [hres]

/-- Bytes of the next fragment. -/
def fragmentLen (x : Stream) (e : List Byte) : Nat := min (tMaxpay e) (x.bytes.length - x.manOff)

theorem manifest_next (hr : s.manReady n = true) (hres : (s.stream n).resend true = none) (hb : (s.stream n).bytes ≠ []) :
    let x := s.stream n
    let e := s.target x.target
    Machine.manifest n s = s.sendMsg n x.next (freshFragment x.manOff (fragmentLen x e) (decide (x.bytes.length ≤ x.manOff + fragmentLen x e))) false := by
  have he : ((s.stream n).st = .opened && (s.stream n).bytes.isEmpty) = false := by
    rw [Bool.eq_false_iff.2 fun h => hb (List.isEmpty_iff.1 h), Bool.and_false]
  unfold Machine.manifest
  rw [if_neg (by rw [hr]; exact nofun)]
  dsimp only
  rw [hres, he]
  rfl

/-- The state that the next fragment of a manifest leaves behind, before what the last one brings. -/
def fragmentSent (s : State) (n : Nat) : State :=
  let x := s.stream n
  let e := s.target x.target
  messageSent s n x.next x (freshFragment x.manOff (fragmentLen x e) (decide (x.bytes.length ≤ x.manOff + fragmentLen x e))) false e
    ((x.bytes.drop x.manOff).take (fragmentLen x e))

theorem manifest_sends (hr : s.manReady n = true) (hres : (s.stream n).resend true = none) (hb : (s.stream n).bytes ≠ []) (hab : (s.stream n).abort = none) :
    let x := s.stream n
    let e := s.target x.target
    Machine.manifest n s = if x.bytes.length ≤ x.manOff + fragmentLen x e then (fragmentSent s n).seal n (tKind e == 4) else fragmentSent s n := by
  have hsend := (manifest_next hr hres hb).trans (sendMsg_whole (u := s)
    (data := ((s.stream n).bytes.drop (s.stream n).manOff).take (fragmentLen (s.stream n) (s.target (s.stream n).target))) rfl rfl rfl)
  rw [hab] at hsend
  refine hsend.trans (if_congr ?_ rfl rfl)
  change ((true && decide ((s.stream n).bytes.length ≤ (s.stream n).manOff + fragmentLen (s.stream n) (s.target (s.stream n).target))) && true) = true ↔ _
  rw [Bool.true_and, Bool.and_true]
  exact decide_eq_true_iff

end Ready

/-- Settles O46: a message leaves as its target's kind says, and its stream records it; the last fragment of a manifest seals the stream, which
keeps what was sent. -/
theorem streamsSend : Obligations.StreamsSend := by
  unfold Obligations.StreamsSend
  intro s n x e
  refine ⟨fun h => ?_, fun h => ?_, fun layer pg off len l u hr hk1 hk4 hres hnext himg => ?_, fun q m l u hr hk1 hk4 hres hm himg => ?_,
    fun hr hk1 hk4 hres hb hst hab => ?_⟩
  · exact congrArg Host.Outcome.next (if_pos (by rw [h]; rfl))
  · exact congrArg Host.Outcome.next (if_pos (by rw [h]; rfl))
  · obtain ⟨hside, hleaves, ⟨f, hstream⟩, -⟩ := messageSent_spec u n.val x.next x (freshPage layer pg off len) false e l
    have hsend := (pageData_first hr hres hnext).trans (sendMsg_whole (u := u) (data := l) rfl rfl himg)
    refine ⟨_, sentMsg u.now e (freshPage layer pg off len), congrArg Host.Outcome.next hsend, ?_, ?_, rfl, rfl, rfl, rfl, rfl, ?_, ?_, hside.kites, hleaves⟩
    · exact (congrArg Stream.next hstream).trans (Nat.max_eq_right (Nat.le_succ _))
    · exact (congrArg (fun y : Stream => mapGet y.msgs x.next) hstream).trans (mapGet_mapSet_self ..)
    · exact Bool.false_or _
    · exact (congrArg Machine.Stream.st hstream :)
  · obtain ⟨hside, hleaves, -, hretx⟩ := messageSent_spec u n.val q x m true e l
    have hsend := (pageData_again hr hres).trans (sendMsg_whole (u := u) (data := l) rfl rfl ((if_neg (by rw [hm]; exact nofun)).trans himg))
    rw [Bool.not_true, Bool.and_false] at hsend
    exact ⟨_, congrArg Host.Outcome.next hsend, hleaves, hretx⟩
  · intro len
    have hsend := manifest_sends hr hres hb hab
    obtain ⟨hside, hleaves, ⟨f, hstream⟩, -⟩ := messageSent_spec s n.val x.next x (freshFragment x.manOff len (decide (x.bytes.length ≤ x.manOff + len))) false e
      ((x.bytes.drop x.manOff).take len)
    change exportSide s (fragmentSent s n.val) at hside
    change leaves s (fragmentSent s n.val) _ _ _ _ _ at hleaves
    change (fragmentSent s n.val).stream n.val = _ at hstream
    generalize fragmentSent s n.val = t at hsend hleaves hstream hside
    have hnext : (t.stream n.val).next = x.next + 1 :=
      (congrArg Machine.Stream.next hstream :).trans (Nat.max_eq_right (Nat.le_succ _))
    have hmsg : mapGet (t.stream n.val).msgs x.next = some (sentMsg s.now e (freshFragment x.manOff len (decide (x.bytes.length ≤ x.manOff + len)))) :=
      (congrArg (fun y : Machine.Stream => mapGet y.msgs x.next) hstream :).trans (mapGet_mapSet_self ..)
    have hout : tKind e = 1 ∨ tKind e = 2 → .frame (tPort e) (etherFrame e (s.port (tPort e)).mac s.free
        (x.message e x.next (freshFragment x.manOff len (decide (x.bytes.length ≤ x.manOff + len))) false s.pwr.tb ((x.bytes.drop x.manOff).take len))) ∈ t.out := by
      intro hk
      rw [hleaves.1 hk]
      exact List.mem_append_right _ (List.mem_singleton_self _)
    have hstT : (t.stream n.val).st = .opened := (congrArg Machine.Stream.st hstream :).trans hst
    by_cases hlast : x.bytes.length ≤ x.manOff + len
    · obtain ⟨hseal, hgrow⟩ := seal_spec t n.val (tKind e == 4)
      have hsend' : Machine.manifest n.val s = t.seal n.val (tKind e == 4) := hsend.trans (if_pos hlast)
      refine ⟨_, _, congrArg Host.Outcome.next hsend', (congrArg Machine.Stream.next hseal :).trans hnext,
        (congrArg (fun y : Machine.Stream => mapGet y.msgs x.next) hseal :).trans hmsg, rfl, rfl, rfl, rfl, fun hk => ?_, fun h => absurd hlast (Nat.not_le.2 h), fun _ => ⟨?_, ?_⟩⟩
      · obtain ⟨l, hl⟩ := hgrow
        rw [hl]
        exact List.mem_append_left _ (hout hk)
      · refine (congrArg Machine.Stream.st hseal :).trans ?_
        exact if_congr beq_iff_eq rfl rfl
      · refine (congrArg Machine.Stream.sealedAt hseal :).trans ?_
        unfold State.now State.nsAt
        rw [hside.cyc, hside.pwr]
    · have hsend' : Machine.manifest n.val s = t := hsend.trans (if_neg hlast)
      exact ⟨_, _, congrArg Host.Outcome.next hsend', hnext, hmsg, rfl, rfl, rfl, rfl, hout, fun _ => hstT, fun h => absurd h hlast⟩

end Sys2Proof.Stated
end

section
/-! SUPPORT. What a receiver answers (R331–R333, Table 14.5) and the timers of a stream (R329, R330, R332). -/
namespace Sys2Proof.Stated
open Sys2Proof.Machine

/-! ### Acknowledgements (R331) -/

theorem mapGet_mapKeyed {α β : Type} (f : Nat → α → β) (m : Map α) (k : Nat) : mapGet (m.map fun e => (e.1, f e.1 e.2)) k = (mapGet m k).map (f k) := by
  induction m with
  | nil => rfl
  | cons e m ih =>
    obtain ⟨j, v⟩ := e
    rw [List.map_cons, mapGet, mapGet]
    split
    · next h => rw [h]; rfl
    · exact ih

section Ack
variable {s : State} {rx : YRx} {msg : List Byte} {n : Nat}

/-- A message once every SEQ below `q` is acknowledged. -/
def ackedBelow (q k : Nat) (m : XMsg) : XMsg := { m with acked := m.acked || decide (k < q) }

/-- The stream after an ACK without ECE and without marks above its SEQ. -/
def ackedStream (e : List Byte) (q : Nat) (x : Machine.Stream) : Machine.Stream :=
  { x with
    msgs := x.msgs.map fun y => (y.1, ackedBelow q y.1 y.2), ackedSeq := max x.ackedSeq q
    rto := if x.ackedSeq < q then tRto e else x.rto, expiries := if x.ackedSeq < q then 0 else x.expiries }

theorem gapDue_zero (msgs : Map XMsg) (k : Nat) : gapDue msgs 0 k = false := by
  unfold gapDue
  split
  · exact decide_eq_false (by omega)
  · rfl

theorem noMarks (h : fieldBe msg 0x18 8 = 0) (q : Nat) : ((List.range 64).filter fun i => bit (fieldBe msg 0x18 8) i).map (fun i => q + 1 + i) = [] := by
  rw [h]
  rfl

theorem ackBelow_map (msgs : Map XMsg) (q : Nat) : (msgs.map fun (k, m) => (k, { m with acked := m.acked || decide (k < q) || ([] : List Nat).contains k })) =
    msgs.map fun y => (y.1, ackedBelow q y.1 y.2) := by
  refine List.map_congr_left fun y _ => ?_
  obtain ⟨k, m⟩ := y
  dsimp only
  rw [List.contains_nil, Bool.or_false]
  rfl

/-- Without marks there is no gap. -/
theorem noGaps (msgs all : Map XMsg) : (msgs.map fun (k, m) => if !m.acked && !m.fast && gapDue all 0 k then (k, { m with again := true, fast := true }) else (k, m)) =
    msgs := by
  refine (List.map_congr_left fun y _ => ?_).trans (List.map_id msgs)
  obtain ⟨k, m⟩ := y
  dsimp only
  exact if_neg (by rw [gapDue_zero, Bool.and_false]; exact nofun)

/-- The stream as an ACK writes it down, with its ECE flag clear. -/
theorem ackedStream_eq (e : List Byte) (q now : Nat) (x : Machine.Stream) (half : Bool) (hh : half = false) : { x with
      msgs := x.msgs.map fun y => (y.1, ackedBelow q y.1 y.2), ackedSeq := max x.ackedSeq q
      rto := if decide (x.ackedSeq < q) then tRto e else x.rto, expiries := if decide (x.ackedSeq < q) then 0 else x.expiries
      lastEce := if false then now else x.lastEce, rateAt := if false then now else x.rateAt
      rate := if half then max (min x.rate 1000) (x.rate / 2) else x.rate, lastHalf := if half then now else x.lastHalf } = ackedStream e q x := by
  subst hh
  unfold ackedStream
  simp only [decide_eq_true_iff]
  rfl

theorem ack_plain (hs : s.msgStream rx 3 msg = .inl n) (hq : fieldBe msg 0xC 4 ≤ (s.stream n).next) (hbm : fieldBe msg 0x18 8 = 0)
    (hlim : (s.stream n).limit ≤ fieldBe msg 0x20 4) (hf : fieldBe msg 4 2 = 0) : Machine.ack rx msg s =
    (s.setStream n ((ackedStream (s.target (s.stream n).target) (fieldBe msg 0xC 4) (s.stream n)).credit (fieldBe msg 0x20 4))).ackEnd n := by
  have hlow : decide (fieldBe msg 0x20 4 < (s.stream n).limit) = false := decide_eq_false (Nat.not_lt.2 hlim)
  have hclear : bit 0 1 = false := rfl
  unfold Machine.ack
  rw [hs]
  dsimp only
  rw [noMarks hbm, hf, hclear, if_neg (by rw [List.any_nil, Bool.or_false, decide_eq_true_iff]; omega), List.foldl_nil, ackBelow_map, noGaps]
  refine (if_neg (Bool.eq_false_iff.1 hlow)).trans ?_
  exact congrArg (fun y => (s.setStream n (Stream.credit y (fieldBe msg 0x20 4))).ackEnd n) (ackedStream_eq _ _ _ _ _ (Bool.false_and _))

theorem credit_limit {x : Machine.Stream} {lim : Nat} (h : x.limit ≤ lim) : (x.credit lim).limit = lim := by
  unfold Stream.credit
  split
  · rfl
  · omega

/-- Raising the limit changes what a message refused for want of space waits for, and nothing else of the messages. -/
theorem credit_msgs (x : Machine.Stream) (lim : Nat) : ∃ f : XMsg → XMsg, (∀ m, (f m).acked = m.acked) ∧
    x.credit lim = { x with limit := (x.credit lim).limit, msgs := x.msgs.map fun e => (e.1, f e.2) } := by
  unfold Stream.credit
  split
  · exact ⟨fun m => if m.noSpace then { m with again := true, noSpace := false } else m, fun m => by dsimp only; split <;> rfl, rfl⟩
  · exact ⟨id, fun _ => rfl, by rw [show (x.msgs.map fun e => (e.1, id e.2)) = x.msgs from List.map_id _]⟩

theorem ackEnd_frame (s : State) (n : Nat) : (∃ st ended, (s.ackEnd n).stream n = { s.stream n with st := st, ended := ended }) ∧ (s.ackEnd n).kites = s.kites := by
  unfold State.ackEnd
  dsimp only
  split
  · exact ⟨⟨_, _, rfl⟩, rfl⟩
  · split
    · exact ⟨⟨_, _, (stream_of_xpt rfl n).trans (stream_setStream_self ..)⟩, rfl⟩
    · split
      · exact ⟨⟨_, _, (stream_of_xpt rfl n).trans (stream_setStream_self ..)⟩, rfl⟩
      · exact ⟨⟨_, _, rfl⟩, rfl⟩

theorem ackEnd_closes (hst : (s.stream n).st = .sealed) (ho : (s.stream n).oldest = none) : ((s.ackEnd n).stream n).st = .closed := by
  unfold State.ackEnd
  dsimp only
  rw [ho, if_neg nofun, if_pos hst]
  exact congrArg Machine.Stream.st ((stream_of_xpt rfl n).trans (stream_setStream_self ..))

theorem oldest_none {x : Machine.Stream} (h : ∀ k m, (k, m) ∈ x.msgs → m.acked = true) : x.oldest = none := by
  unfold Stream.oldest
  refine List.find?_eq_none.2 fun y hy => ?_
  obtain ⟨k, m⟩ := y
  dsimp only
  rw [h k m hy]
  exact nofun

end Ack

/-! ### The end of a stream that fails (R330) -/

section Fails
variable {s : State} {n : Nat}

theorem failStream_sealed (h : (s.stream n).st = .sealed) : (s.failStream n).stream n = { s.stream n with st := .lost } ∧
    (s.failStream n).xpt.lost = min (s.xpt.lost + 1) 65535 ∧ ∀ p ∈ (s.failStream n).pgm.pins, p.stream ≠ (s.stream n).handle := by
  unfold State.failStream
  dsimp only
  rw [h]
  dsimp only
  refine ⟨(stream_of_xpt rfl n).trans (stream_setStream_self s n _), rfl, fun p hp => ?_⟩
  have hpins := congrArg Pgm.pins (log_pgm (s := (s.setStream n { s.stream n with st := .lost }).unpin (s.stream n).handle)
    ⟨.v, uXpt, evExportLost, 0xFFFF, n, (s.stream n).handle⟩)
  have hp' := hpins ▸ hp
  have := (List.mem_filter.1 hp').2
  exact bne_iff_ne.1 this

/-- An abort manifest is built from the stream alone. -/
theorem abortManifest_xpt (s : State) (x : Machine.Stream) (e : List Byte) (status : Nat) : (s.buildManifest x e true status).2.2.xpt = s.xpt := by
  unfold State.buildManifest
  simp only [↓reduceIte, List.foldl_nil]
  split
  · have h : (s.sign (x.manifestHead e true status ++ [])).2.xpt = s.xpt := rfl
    generalize s.sign (x.manifestHead e true status ++ []) = y at h ⊢
    exact h
  · rfl

theorem stopStream_failed (h : (s.stream n).st = .opened) (status : Nat) : ((s.stopStream n .failed status).stream n).st = .failed ∧
    (s.stopStream n .failed status).xpt.failed = min (s.xpt.failed + 1) 65535 := by
  unfold State.stopStream
  dsimp only
  rw [h, if_neg nofun]
  have hm := abortManifest_xpt s (s.stream n) (s.target (s.stream n).target) (((s.req n).fault).getD status)
  generalize s.buildManifest (s.stream n) (s.target (s.stream n).target) true (((s.req n).fault).getD status) = x at hm
  obtain ⟨l, bad, u⟩ := x
  dsimp only at hm ⊢
  rw [← hm, if_pos rfl]
  split
  · exact ⟨congrArg Machine.Stream.st ((stream_of_xpt rfl n).trans (stream_setStream_self ..)) |>.trans
      (congrArg Machine.Stream.st ((stream_of_xpt rfl n).trans (stream_setStream_self u n _))), rfl⟩
  · exact ⟨congrArg Machine.Stream.st ((stream_of_xpt rfl n).trans (stream_setStream_self u n _)), rfl⟩

theorem failStream_opened (h : (s.stream n).st = .opened) : s.failStream n = (s.stopStream n .failed 8).faultSlot n 8 := by
  unfold State.failStream
  dsimp only
  rw [h]

end Fails

/-! ### Timers (R329, R330, R332) -/

section Timers
variable {s : State} {n q : Nat} {m : XMsg}

/-- The stream whose retransmission timer has expired: the timeout doubles. -/
def expiredStream (e : List Byte) (x : Machine.Stream) : Machine.Stream := { x with expiries := x.expiries + 1, rto := min (x.rto * 2) (128 * tRto e) }

theorem canSend_expired (e : List Byte) (x : Machine.Stream) (paced : Bool) : (s.setStream n (expiredStream e x)).canSend x e paced = s.canSend x e paced ∧
    s.canSend (expiredStream e x) e paced = s.canSend x e paced := ⟨rfl, rfl⟩

theorem retransmit_idle (h : s.rtoDue n = false) : Machine.retransmit n s = s := if_pos (by rw [h]; rfl)

theorem oldest_of_rtoDue (h : s.rtoDue n = true) : ∃ q m, (s.stream n).oldest = some (q, m) := by
  cases ho : (s.stream n).oldest with
  | some y => exact ⟨y.1, y.2, rfl⟩
  | none =>
    unfold State.rtoDue at h
    dsimp only at h
    rw [ho, Bool.and_false] at h
    exact absurd h nofun

theorem retransmit_eighth (h : s.rtoDue n = true) (hx : (s.stream n).expiries = 7) (hst : (s.stream n).st = .opened) :
    Machine.retransmit n s = s.failStream n := by
  obtain ⟨q, m, ho⟩ := oldest_of_rtoDue h
  unfold Machine.retransmit
  rw [if_neg (by rw [h]; exact nofun)]
  dsimp only
  rw [ho, hx, hst]
  rfl

theorem retransmit_earlier (h : s.rtoDue n = true) (hx : (s.stream n).expiries < 7) (ho : (s.stream n).oldest = some (q, m)) :
    let e := s.target (s.stream n).target
    let t := s.setStream n (expiredStream e (s.stream n))
    Machine.retransmit n s = if s.canSend (s.stream n) e false then t.sendMsg n q m true
      else t.setStream n { t.stream n with msgs := mapSet (s.stream n).msgs q { m with sent := t.now, again := true } } := by
  unfold Machine.retransmit
  rw [if_neg (by rw [h]; exact nofun)]
  dsimp only
  rw [ho]
  dsimp only
  rw [if_neg (by omega)]
  rfl

end Timers

/-! ### NAK and CREDIT (R324, Table 14.5) -/

section Answers
variable {s : State} {rx : YRx} {msg : List Byte} {n : Nat} {m : XMsg}

/-- A NAK of a message that still waits for its answer acts by its code. -/
theorem nak_waiting (hs : s.msgStream rx 4 msg = .inl n) (hq : fieldBe msg 0xC 4 < (s.stream n).next) (hbase : (s.stream n).base ≤ fieldBe msg 0xC 4)
    (hm : mapGet (s.stream n).msgs (fieldBe msg 0xC 4) = some m) (ha : m.acked = false) (h0 : 1 ≤ fieldBe msg 0x18 1) (h6 : fieldBe msg 0x18 1 ≤ 6) :
    Machine.nak rx msg s = match fieldBe msg 0x18 1 with
      | 1 => if 1 ≤ m.naks then s.failStream n
             else s.setStream n { s.stream n with msgs := mapSet (s.stream n).msgs (fieldBe msg 0xC 4) { m with naks := m.naks + 1, again := true } }
      | 3 => s.setStream n { s.stream n with msgs := mapSet (s.stream n).msgs (fieldBe msg 0xC 4) { m with noSpace := true } }
      | 4 => s.setStream n { s.stream n with msgs := (s.stream n).msgs.map fun (k, y) =>
               (k, if !y.manifest && !m.manifest && y.layer = m.layer && y.page = m.page then { y with again := true, acked := false } else y) }
      | _ => s.failStream n := by
  unfold Machine.nak
  rw [hs]
  dsimp only
  rw [if_neg (by rw [Bool.or_eq_true, decide_eq_true_iff, decide_eq_true_iff]; omega), if_neg (Nat.not_le.2 hq), hm]
  dsimp only
  rewrite [ha, if_neg nofun, if_neg (Nat.not_lt.2 hbase)]
  rfl

theorem credit_plain (hs : s.msgStream rx 5 msg = .inl n) (hlim : (s.stream n).limit ≤ fieldBe msg 0xC 4)
    (hno : ∀ k m, (k, m) ∈ (s.stream n).msgs → m.noSpace = false) :
    Machine.credit rx msg s = s.setStream n { s.stream n with limit := fieldBe msg 0xC 4 } := by
  have hc : (s.stream n).credit (fieldBe msg 0xC 4) = { s.stream n with limit := fieldBe msg 0xC 4 } := by
    unfold Stream.credit
    split
    · have hmap : ((s.stream n).msgs.map fun (q, m) => (q, if m.noSpace then { m with again := true, noSpace := false } else m)) = (s.stream n).msgs := by
        refine (List.map_congr_left fun y hy => ?_).trans (List.map_id _)
        obtain ⟨k, m⟩ := y
        dsimp only
        rw [if_neg (by rw [hno k m hy]; exact nofun)]
        rfl
      rw [hmap]
    · rw [show fieldBe msg 0xC 4 = (s.stream n).limit by omega]
  unfold Machine.credit
  rw [hs]
  dsimp only
  rw [if_neg (Nat.not_lt.2 hlim), hc]

end Answers

/-- Settles O47: the ACK by the stream it leaves, the NAK by its code, and the timers by the stream that fails, or that sends its oldest message
again. -/
theorem receiversAndTimers : Obligations.ReceiversAndTimers := by
  unfold Obligations.ReceiversAndTimers
  refine fun s => ⟨fun rx msg n hs => ?_, fun rx msg n m hs hq hbase hm ha => ?_, fun rx msg n hs hlim hno => ?_, fun n => ?_⟩
  · intro x q hq hbm hlim hf
    obtain ⟨f, hfa, hcred⟩ := credit_msgs (ackedStream (s.target x.target) q x) (fieldBe msg 0x20 4)
    have hcl : ((ackedStream (s.target x.target) q x).credit (fieldBe msg 0x20 4)).limit = fieldBe msg 0x20 4 := credit_limit hlim
    have hack := ack_plain hs hq hbm hlim hf
    change Machine.ack rx msg s = (s.setStream n ((ackedStream (s.target x.target) q x).credit (fieldBe msg 0x20 4))).ackEnd n at hack
    generalize (ackedStream (s.target x.target) q x).credit (fieldBe msg 0x20 4) = y at hcred hcl hack
    have hself := stream_setStream_self s n y
    obtain ⟨⟨st, ended, hstream⟩, hk⟩ := ackEnd_frame (s.setStream n y) n
    have hclose := ackEnd_closes (s := s.setStream n y) (n := n)
    rw [hself] at hstream hclose
    have hmsgs : ∀ k, mapGet y.msgs k = (mapGet x.msgs k).map fun m => f (ackedBelow q k m) := by
      intro k
      rw [hcred]
      refine (mapGet_map f _ k).trans ?_
      refine (congrArg (Option.map f) (mapGet_mapKeyed (ackedBelow q) x.msgs k)).trans ?_
      rw [Option.map_map]
      rfl
    refine ⟨_, congrArg Host.Outcome.next hack, ?_, ?_, fun k m hk' hlt => ?_, fun hst hab hall => ?_, hk⟩
    · rw [hstream, hcred]
      rfl
    · rw [hstream]
      exact hcl
    · refine ⟨f (ackedBelow q k m), ?_, (hfa _).trans ?_⟩
      · rw [hstream]
        exact (hmsgs k).trans (by rw [hk']; rfl)
      · exact Bool.or_eq_true_iff.2 (.inr (decide_eq_true hlt))
    · refine hclose (by rw [hcred]; exact hst) (oldest_none fun k m hkm => ?_)
      rw [hcred] at hkm
      obtain ⟨e, he, heq⟩ := List.mem_map.1 hkm
      obtain ⟨e', he', rfl⟩ := List.mem_map.1 he
      cases heq
      refine (hfa _).trans (Bool.or_eq_true_iff.2 ?_)
      rcases hall e'.1 e'.2 he' with h | h
      · exact .inl h
      · exact .inr (decide_eq_true h)
  · intro put
    refine ⟨fun hc h0 => ?_, fun hc => ?_, fun hc hst => ?_⟩
    · have h := nak_waiting hs hq hbase hm ha (by omega) (by omega)
      rw [hc] at h
      dsimp only at h
      rw [h0] at h
      exact congrArg Host.Outcome.next h
    · have h := nak_waiting hs hq hbase hm ha (by omega) (by omega)
      rw [hc] at h
      exact congrArg Host.Outcome.next h
    · have hfail : Machine.nak rx msg s = s.failStream n := by
        rcases hc with hc | ⟨hc, hn⟩
        · rw [List.mem_cons, List.mem_cons, List.mem_singleton] at hc
          have h := nak_waiting hs hq hbase hm ha (by omega) (by omega)
          rcases hc with hc | hc | hc
          · rw [hc] at h
            exact h
          · rw [hc] at h
            exact h
          · rw [hc] at h
            exact h
        · have h := nak_waiting hs hq hbase hm ha (by omega) (by omega)
          rw [hc] at h
          exact h.trans (if_pos hn)
      obtain ⟨h1, h2, -⟩ := failStream_sealed hst
      exact ⟨_, congrArg Host.Outcome.next hfail, (congrArg Machine.Stream.st h1 :), h2⟩
  · exact congrArg Host.Outcome.next (credit_plain hs hlim hno)
  · intro x
    refine ⟨fun h => ?_, fun h => ?_, fun h => ?_, fun h hx hst hfault hreq => ?_, fun q m h hx ho hsend => ?_, fun q m l u h hx ho hm => ?_, fun hst hat => ?_,
      fun h => ?_⟩
    · exact congrArg Host.Outcome.next (if_neg (by rw [h]; exact nofun))
    · exact congrArg Host.Outcome.next (if_pos (by rw [h]; rfl))
    · exact congrArg Host.Outcome.next (retransmit_idle h)
    · obtain ⟨h1, h2⟩ := stopStream_failed hst 8
      have hreq' : (s.stopStream n.val .failed 8).req n.val = s.req n.val := by
        unfold State.req
        rw [(stopStream_exportSide s n.val .failed 8).sch]
      have hslot : (s.stopStream n.val .failed 8).faultSlot n.val 8 = (s.stopStream n.val .failed 8).setReq n.val { s.req n.val with fault := some 8 } := by
        unfold State.faultSlot
        dsimp only
        rw [hreq', hfault, hreq]
        exact if_neg nofun
      refine ⟨_, congrArg Host.Outcome.next ((retransmit_eighth h hx hst).trans ((failStream_opened hst).trans hslot)), h1, ?_, h2⟩
      unfold State.req State.setReq mapGetD
      rw [mapGet_mapSet_self]
      rfl
    · refine ⟨_, congrArg Host.Outcome.next ((retransmit_earlier h hx ho).trans (if_neg (by rw [hsend]; exact nofun))), ?_, ?_⟩
      · rw [stream_setStream_self, stream_setStream_self]
        rfl
      · rw [stream_setStream_self, stream_setStream_self]
        rfl
    · intro e y hsend himg
      obtain ⟨-, hleaves, ⟨f, hstream⟩, hretx⟩ := messageSent_spec u n.val q y m true e l
      have hs := sendMsg_whole (s := s.setStream n.val y) (n := n.val) (seq := q) (m := m) (retx := true) (u := u) (data := l) (e := e)
        (stream_setStream_self s n.val y) rfl ((if_neg (by rw [hm]; exact nofun)).trans himg)
      rw [Bool.not_true, Bool.and_false] at hs
      refine ⟨_, congrArg Host.Outcome.next ((retransmit_earlier h hx ho).trans ((if_pos hsend).trans hs)), hleaves, ?_, hretx⟩
      exact (congrArg Machine.Stream.expiries hstream :)
    · have hdue : Machine.sealedTimeout n.val s = s.failStream n.val := if_pos (by
        rw [hst, decide_eq_true hat]
        rfl)
      obtain ⟨h1, h2, h3⟩ := failStream_sealed hst
      exact ⟨_, congrArg Host.Outcome.next hdue, (congrArg Machine.Stream.st h1 :), h2, h3⟩
    · refine congrArg Host.Outcome.next (if_neg ?_)
      rcases h with h | h
      · rw [decide_eq_false h]
        exact nofun
      · rw [decide_eq_false (Nat.not_le.2 h), Bool.and_false]
        exact nofun

end Sys2Proof.Stated
end

section
/-! SUPPORT. What the transport of messages leaves (§15.3–§15.6): its ports, and what a message that arrives finds. -/
namespace Sys2Proof.Stated
open Sys2Proof.Machine

/-! ### Traffic at the ports -/

/-- A port that differs only in its traffic: sequence numbers, buffers, credit, and the time of the last progress. -/
def flows (x y : Port) : Prop :=
  y = { x with
    rxSeq := y.rxSeq, rxUnits := y.rxUnits, rxOwed := y.rxOwed, held := y.held, freed := y.freed, replayAt := y.replayAt, replayN := y.replayN
    buf := y.buf, credit := y.credit, txq := y.txq, txSeq := y.txSeq, txUnits := y.txUnits, aackAt := y.aackAt, aackSent := y.aackSent }

theorem flows_trans {x y z : Port} (h : flows x y) (h' : flows y z) : flows x z := by
  unfold flows at *
  rw [h']
  dsimp only
  rw [h]

/-- Of the state only the traffic of the ports, the rotation of routes, the messages to the module itself and what it sends differ. -/
def moves (s t : State) : Prop := transport s t ∧ ∀ p, flows (s.port p) (t.port p)

theorem transport_refl (s : State) : transport s s := rfl

theorem transport_trans {s t u : State} (h : transport s t) (h' : transport t u) : transport s u := by
  unfold transport at *
  rw [h']
  dsimp only
  rw [h]

theorem moves_refl (s : State) : moves s s := ⟨rfl, fun _ => rfl⟩

theorem moves_trans {s t u : State} (h : moves s t) (h' : moves t u) : moves s u :=
  ⟨transport_trans h.1 h'.1, fun p => flows_trans (h.2 p) (h'.2 p)⟩

theorem moves_foldl {α : Type} {f : State → α → State} (l : List α) (hf : ∀ s x, moves s (f s x)) (s : State) : moves s (l.foldl f s) := by
  induction l generalizing s with
  | nil => exact moves_refl s
  | cons x l ih => exact moves_trans (hf s x) (ih _)

section Ports
variable {s : State} {p q : Nat} {x : Port}

@[simp] theorem port_setPort_self (s : State) (p : Nat) (x : Port) : (s.setPort p x).port p = x := by
  unfold State.port State.setPort mapGetD
  rw [mapGet_mapSet_self]
  rfl

theorem port_setPort_ne (x : Port) (h : q ≠ p) : (s.setPort p x).port q = s.port q := by
  unfold State.port State.setPort mapGetD
  rw [mapGet_mapSet_ne _ _ _ _ h]

theorem setPort_transport (s : State) (p : Nat) (x : Port) : transport s (s.setPort p x) := rfl

theorem setPort_moves (h : flows (s.port p) x) : moves s (s.setPort p x) := by
  refine ⟨rfl, fun q => ?_⟩
  by_cases hq : q = p
  · rw [hq, port_setPort_self]
    exact h
  · rw [port_setPort_ne x hq]
    rfl

theorem emit_moves (s : State) (o : Output) : moves s (s.emit o) := ⟨rfl, fun _ => rfl⟩

theorem free1_moves (s : State) (p vc n : Nat) : moves s (s.free1 p vc n) := setPort_moves rfl

theorem told_flows (x : Port) : flows x x.told := rfl

theorem sendFlit_moves (s : State) (p kind vc : Nat) (last : Bool) (dst : Nat) (payload : List Byte) (msg : Option LMsg) :
    moves s (s.sendFlit p kind vc last dst payload msg) := by
  refine moves_trans (setPort_moves ?_) (emit_moves _ _)
  rfl

theorem fill_moves (s : State) (p : Nat) : moves s (s.fill p) := by
  refine moves_foldl _ (fun s _ => ?_) s
  dsimp only
  split
  · exact moves_trans (setPort_moves (told_flows _)) (emit_moves _ _)
  · exact moves_refl s

theorem pump_moves (p n : Nat) (s : State) : moves s (State.pump p n s) := by
  induction n generalizing s with
  | zero => exact moves_refl s
  | succ n ih =>
    unfold State.pump
    dsimp only
    split
    · exact moves_refl s
    · split
      · exact moves_refl s
      · split
        · exact moves_refl s
        · refine moves_trans ?_ (ih _)
          have hsend : ∀ (x : Port) (kind vc dst : Nat) (last : Bool) (payload : List Byte) (msg : Option LMsg), flows (s.port p) x →
              moves s ((s.setPort p x).sendFlit p kind vc last dst payload msg) :=
            fun x kind vc dst last payload msg hx => moves_trans (setPort_moves hx) (sendFlit_moves _ _ _ _ _ _ _ _)
          have hflows : ∀ c q, flows (s.port p) { s.port p with credit := c, txq := q } := fun _ _ => rfl
          split
          · split
            · refine moves_trans ?_ (fill_moves _ _)
              refine moves_trans ?_ (free1_moves _ _ _ _)
              exact hsend _ _ _ _ _ _ _ (hflows _ _)
            · refine moves_trans ?_ (free1_moves _ _ _ _)
              exact hsend _ _ _ _ _ _ _ (hflows _ _)
          · exact hsend _ _ _ _ _ _ _ (hflows _ _)

theorem takeAack_moves (s : State) (p aack : Nat) : moves s (s.takeAack p aack) := by
  unfold State.takeAack
  dsimp only
  split
  · exact moves_refl s
  · split
    · exact moves_refl s
    · exact setPort_moves rfl

theorem takeCredit_moves (s : State) (p vc n : Nat) : moves s (s.takeCredit p vc n) := setPort_moves rfl

theorem enqueue_moves (s : State) (m : LMsg) : moves s (s.enqueue m).2 := by
  unfold State.enqueue
  split
  · exact ⟨rfl, fun _ => rfl⟩
  · split
    · exact moves_refl s
    · dsimp only
      have hrot : ∀ r, moves s { s with lnk := { s.lnk with rot := r } } := fun r => ⟨rfl, fun _ => rfl⟩
      split
      · refine moves_trans (hrot (mapSet s.lnk.rot m.dst ((mapGetD s.lnk.rot m.dst 0 + 1) % 12))) (moves_trans (setPort_moves ?_) (pump_moves _ _ _))
        rfl
      · exact hrot _

end Ports

/-! ### A message arrives (R342, R345, R347, R350) -/

section Arrives
variable {s t : State} {r : LRx} {p : Nat}

/-- Codewords are counted, and are not so many that the port is retrained. -/
theorem fecIn_counts (s : State) (p corr unc : Nat) (h : unc = 0 ∨ (s.port p).mode = 0 ∧ (s.port p).uncAt.length + unc ≤ 781) :
    ∃ at_, s.fecIn p corr unc = s.setPort p { s.port p with
      fecCorr := satAdd 24 (s.port p).fecCorr corr, fecUnc := satAdd 16 (s.port p).fecUnc unc, uncAt := at_ } := by
  refine ⟨if unc = 0 then (s.port p).uncAt else (List.replicate unc s.now ++ (s.port p).uncAt).filter fun t => decide (s.now < t + 1000000), if_neg ?_⟩
  rcases h with h | ⟨hmode, hlen⟩
  · rw [h]
    exact nofun
  · rw [Bool.and_eq_true, decide_eq_true_iff, hmode]
    rintro ⟨hne, hlt⟩
    rw [if_neg (bne_iff_ne.1 hne)] at hlt
    have hle := List.length_filter_le (fun t => decide (s.now < t + 1000000)) (List.replicate unc s.now ++ (s.port p).uncAt)
    rw [List.length_append, List.length_replicate] at hle
    have hlim : codewordLimit 0 = 781 := rfl
    omega

/-- The state once the flits of a message are taken in sequence, and what they acknowledge and credit has let go. -/
def flitsTaken (s : State) (r : LRx) : State :=
  State.pump r.port.val 1024 ((r.cred.zipIdx).foldl (fun s c => s.takeCredit r.port.val c.2 c.1)
    ((s.setPort r.port.val { s.port r.port.val with
      rxSeq := ((s.port r.port.val).rxSeq + r.flits) % 4096, rxUnits := wrapAdd 48 (s.port r.port.val).rxUnits r.flits
      rxOwed := (s.port r.port.val).rxOwed.set r.vc.toNat 0
      held := (s.port r.port.val).held.set r.vc.toNat ((s.port r.port.val).held.getD r.vc.toNat 0 + r.flits), replayAt := none, replayN := 0 }).takeAack
      r.port.val r.aack.toNat))

theorem flitsTaken_moves (s : State) (r : LRx) : moves s (flitsTaken s r) := by
  refine moves_trans (setPort_moves ?_) (moves_trans (takeAack_moves _ _ _) (moves_trans (moves_foldl _ (fun s c => takeCredit_moves s _ _ _) _) (pump_moves _ _ _)))
  rfl

theorem comes_mono {vc len len' : Nat} (h : comes s r vc len) (hle : len' ≤ len) : comes s r vc len' := by
  obtain ⟨hst, hmode, hflit, hlen, hvc, hheld, h9, hunc⟩ := h
  exact ⟨hst, hmode, hflit, hlen, hvc, hheld, hle.trans h9, hunc⟩

/-- A message without a breach is for this module or goes on. -/
theorem lerboRx_comes {vc mtype : Nat} {body : List Byte} (h : comes s r vc body.length) (hm : mtypeVc mtype = some vc) : ∃ owed,
    s.lerboRx r mtype body = if r.dst.toNat = s.lnk.modId then (true, (((flitsTaken s r).free1 r.port.val r.vc.toNat owed).fecIn r.port.val r.corr r.unc).fill r.port.val)
      else (false, (((flitsTaken s r).forward r.port.val r.dst.toNat mtype r.ttl.toNat r.src.toNat body).fecIn r.port.val r.corr r.unc).fill r.port.val) := by
  obtain ⟨hst, hmode, hflit, hlen, hvc, hheld, h9, hunc⟩ := h
  have hmod : (flitsTaken s r).lnk.modId = s.lnk.modId := by rw [(flitsTaken_moves s r).1]
  refine ⟨(s.port r.port.val).rxOwed.getD r.vc.toNat 0 + r.flits, ?_⟩
  unfold State.lerboRx
  dsimp only
  rw [if_neg (by rw [hst, hmode]; exact nofun), if_neg (by rw [hflit]; exact nofun), if_neg (by rw [hvc, decide_eq_true_iff]; omega),
    if_neg (by rw [hlen, hvc, hm, decide_eq_false (by omega)]; simp)]
  unfold flitsTaken at hmod ⊢
  split
  · next hd => rw [if_pos (hd.trans hmod)]
  · next hd => rw [if_neg fun h => hd (h.trans hmod.symm)]

/-- A port that stands as it did but for its traffic and its counts of codewords. -/
def keepsPeer (x y : Port) : Prop := y.st = x.st ∧ y.mode = x.mode ∧ y.violAt = x.violAt ∧ y.violLast = x.violLast

theorem flows.keepsPeer {x y : Port} (h : flows x y) : keepsPeer x y := by
  unfold flows at h
  exact ⟨(congrArg Port.st h :), (congrArg Port.mode h :), (congrArg Port.violAt h :), (congrArg Port.violLast h :)⟩

theorem keepsPeer_trans {x y z : Port} (h : keepsPeer x y) (h' : keepsPeer y z) : keepsPeer x z :=
  ⟨h'.1.trans h.1, h'.2.1.trans h.2.1, h'.2.2.1.trans h.2.2.1, h'.2.2.2.trans h.2.2.2⟩

/-- What codewords that retrain nothing leave. -/
theorem fecIn_keeps {u : State} {p corr unc : Nat} (h : unc = 0 ∨ (u.port p).mode = 0 ∧ (u.port p).uncAt.length + unc ≤ 781) :
    transport u (u.fecIn p corr unc) ∧ ∀ q, keepsPeer (u.port q) ((u.fecIn p corr unc).port q) := by
  obtain ⟨at_, hfec⟩ := fecIn_counts u p corr unc h
  rw [hfec]
  refine ⟨rfl, fun q => ?_⟩
  by_cases hq : q = p
  · rw [hq, port_setPort_self]
    exact ⟨rfl, rfl, rfl, rfl⟩
  · rw [port_setPort_ne _ hq]
    exact ⟨rfl, rfl, rfl, rfl⟩

theorem fec_room {u : State} {vc len : Nat} (h : comes s r vc len) (hu : moves s u) :
    r.unc = 0 ∨ (u.port r.port.val).mode = 0 ∧ (u.port r.port.val).uncAt.length + r.unc ≤ 781 := by
  obtain ⟨-, hmode, -, -, -, -, -, hunc⟩ := h
  have hf := hu.2 r.port.val
  unfold flows at hf
  rw [hf]
  exact hunc.imp_right fun h => ⟨hmode, h⟩

/-- A message for this module is delivered, and of the rest only the transport is different. -/
theorem lerboRx_arrives {vc mtype : Nat} {body : List Byte} (h : arrives s r vc body.length) (hm : mtypeVc mtype = some vc) : ∃ x,
    s.lerboRx r mtype body = (true, x) ∧ transport s x ∧ ∀ q, keepsPeer (s.port q) (x.port q) := by
  obtain ⟨hc, hd⟩ := h
  obtain ⟨owed, heq⟩ := lerboRx_comes hc hm
  have hmv : moves s ((flitsTaken s r).free1 r.port.val r.vc.toNat owed) := moves_trans (flitsTaken_moves s r) (free1_moves _ _ _ _)
  obtain ⟨hft, hfp⟩ := fecIn_keeps (corr := r.corr) (fec_room hc hmv)
  have hfill := fill_moves (((flitsTaken s r).free1 r.port.val r.vc.toNat owed).fecIn r.port.val r.corr r.unc) r.port.val
  exact ⟨_, heq.trans (if_pos hd), transport_trans hmv.1 (transport_trans hft hfill.1),
    fun q => keepsPeer_trans (hmv.2 q).keepsPeer (keepsPeer_trans (hfp q) (hfill.2 q).keepsPeer)⟩

end Arrives

/-! ### Violations of a peer (R360) -/

/-- A peer's violation is logged and counted; fewer than 256 within 1 s do nothing else. -/
theorem violate_few {s : State} {p row : Nat} (h : (s.port p).violAt.length < 255) : ∃ n at_, s.violate p row =
    (s.log ⟨.v, uPort, evPartner 1 row, p, 0xFFFF, 0⟩).setPort p { s.port p with violN := n, violLast := row, violAt := at_ } := by
  have hport : (s.log ⟨.v, uPort, evPartner 1 row, p, 0xFFFF, 0⟩).port p = s.port p := by
    have hl := State.log_frame s ⟨.v, uPort, evPartner 1 row, p, 0xFFFF, 0⟩
    unfold logOnly at hl
    rw [hl]
    rfl
  unfold State.violate State.violCount
  generalize s.log ⟨.v, uPort, evPartner 1 row, p, 0xFFFF, 0⟩ = u at hport
  rw [hport]
  refine ⟨_, _, if_neg ?_⟩
  rw [Bool.and_eq_true, decide_eq_true_iff]
  rintro ⟨hlen, -⟩
  have hle := List.length_filter_le (fun t => decide (u.now < t + 1000000000)) (u.now :: (s.port p).violAt)
  rw [List.length_cons] at hle
  omega

theorem violate_kept {s : State} {p row : Nat} (h : (s.port p).violAt.length < 255) :
    (s.violate p row).sch = s.sch ∧ (s.violate p row).pgm = s.pgm ∧ ((s.violate p row).port p).violLast = row := by
  obtain ⟨n, at_, heq⟩ := violate_few (row := row) h
  rw [heq]
  exact ⟨log_sch _, log_pgm _, by rw [port_setPort_self]⟩

end Sys2Proof.Stated
end

section
/-! SUPPORT. The scheduler's messages of a train that spans modules (R311–R314, Table 15.6 row 10). -/
namespace Sys2Proof.Stated
open Sys2Proof.Machine

section Messages
variable {s : State} {r : LRx} {tick : Nat}

/-- What the transport leaves stands for the scheduler: its tables, its clock, the units and the module's own number. -/
theorem transport.kept {s x : State} (h : transport s x) : x.sch = s.sch ∧ x.pwr = s.pwr ∧ x.brd = s.brd ∧ x.lnk.modId = s.lnk.modId ∧ x.pgm = s.pgm ∧ x.kites = s.kites := by
  unfold transport at h
  rw [h]
  exact ⟨rfl, rfl, rfl, rfl, rfl, rfl⟩

theorem transport.rowTen {x : State} (h : transport s x) (ok : Bool) (tick : Nat) : x.rowTen ok tick = s.rowTen ok tick := by
  unfold transport at h
  rw [h]
  rfl

theorem transport.fromLead {x : State} (h : transport s x) (r : LRx) : x.fromLead r = s.fromLead r := by
  unfold transport at h
  rw [h]
  rfl

theorem fromLead_iff : s.fromLead r = true ↔ s.sch.leadId = r.src.toNat := beq_iff_eq

/-- A message of the lead for the present or the next tick is none of row 10. -/
theorem rowTen_timely (h : if s.pwr.tb < s.sch.t0 then tick = 0 else tick = s.tickOf s.pwr.tb ∨ tick = s.tickOf s.pwr.tb + 1) :
    s.rowTen true tick = false := by
  unfold State.rowTen
  dsimp only
  split at h
  · next hlt => rw [if_pos hlt, h]; rfl
  · next hlt =>
    rw [if_neg hlt]
    rcases h with h | h
    · rw [h, beq_self_eq_true]; rfl
    · rw [h, beq_self_eq_true, Bool.or_true]; rfl

theorem rowTen_stranger (tick : Nat) : s.rowTen false tick = true := rfl

theorem leBytes_len (n v : Nat) : (leBytes n v).length = n := by
  induction n generalizing v with
  | zero => rfl
  | succ n ih => exact congrArg Nat.succ (ih _)

/-- What a scheduler message finds behind the transport. -/
def delivered (s : State) (r : LRx) (mtype : Nat) (body : List Byte) (x : State) : Prop :=
  s.lerboRx r mtype body = (true, x) ∧ transport s x ∧ (x.port r.port.val).violAt = (s.port r.port.val).violAt

theorem delivered_of_arrives {vc mtype len : Nat} {body : List Byte} (h : arrives s r vc len) (hl : body.length ≤ len) (hm : mtypeVc mtype = some vc) :
    ∃ x, delivered s r mtype body x := by
  obtain ⟨x, h1, h2, h3⟩ := lerboRx_arrives (body := body) ⟨comes_mono h.1 hl, h.2⟩ hm
  exact ⟨x, h1, h2, (h3 _).2.2.1⟩

section Bodies
variable {x : State} {t0 cfg off last holds : Nat} {data : List Byte}

/-- The bodies of the messages (Table 15.4). -/
def startBody (tick t0 cfg : Nat) : List Byte := leBytes 1 1 ++ leBytes 7 0 ++ leBytes 8 tick ++ leBytes 8 t0 ++ leBytes 8 cfg
def boundBody (tick : Nat) : List Byte := leBytes 1 2 ++ leBytes 7 0 ++ leBytes 8 tick
def stopBody (tick : Nat) : List Byte := leBytes 1 3 ++ leBytes 7 0 ++ leBytes 8 tick
def descBody (tick off : Nat) (data : List Byte) : List Byte := leBytes 8 tick ++ leBytes 4 off ++ leBytes 4 data.length ++ data
def reportBody (tick last holds : Nat) : List Byte := leBytes 8 tick ++ leBytes 4 last ++ leBytes 4 holds

theorem startBody_len : (startBody tick t0 cfg).length = 32 := by
  unfold startBody
  simp only [List.length_append, leBytes_len]

theorem boundBody_len : (boundBody tick).length = 16 := by
  unfold boundBody
  simp only [List.length_append, leBytes_len]

theorem stopBody_len : (stopBody tick).length = 16 := by
  unfold stopBody
  simp only [List.length_append, leBytes_len]

theorem descBody_len : (descBody tick off data).length = 16 + data.length := by
  unfold descBody
  simp only [List.length_append, leBytes_len]

theorem reportBody_len : (reportBody tick last holds).length = 16 := by
  unfold reportBody
  simp only [List.length_append, leBytes_len]

theorem memberStart_of (h : delivered s r 0x04 (startBody tick t0 cfg) x) : Machine.memberStart r tick t0 cfg 0 s =
    if !x.fromLead r then x.violate r.port.val 10
    else if !x.sch.follow || bits cfg 0 17 = 0 then x
    else { x with sch := { x.sch with
      following := true, t0 := t0, t0Set := true, period := bits cfg 0 17, ballast := bits cfg 17 8, gshare := bits cfg 25 7
      xshare := bits cfg 32 7, nextTick := tick, boundOk := [], descGot := [], cur := none } } := by
  have h1 := h.1
  unfold startBody at h1
  unfold Machine.memberStart
  rw [h1]
  exact (if_neg Bool.false_ne_true).trans (if_neg Bool.false_ne_true)

theorem memberBoundary_of (h : delivered s r 0x04 (boundBody tick) x) : Machine.memberBoundary r tick 0 s =
    if x.sch.following then
      (if x.rowTen (x.fromLead r) tick then x.violate r.port.val 10 else { x with sch := { x.sch with boundOk := x.sch.boundOk ++ [tick] } })
    else if x.fromLead r then x
    else x.violate r.port.val 10 := by
  have h1 := h.1
  unfold boundBody at h1
  unfold Machine.memberBoundary
  rw [h1]
  exact (if_neg Bool.false_ne_true).trans (if_neg Bool.false_ne_true)

theorem memberStop_of (h : delivered s r 0x04 (stopBody tick) x) : Machine.memberStop r tick 0 s =
    if x.sch.following then
      (if x.rowTen (x.fromLead r) tick then x.violate r.port.val 10 else { x with sch := { x.sch with following := false } })
    else if x.fromLead r then x
    else x.violate r.port.val 10 := by
  have h1 := h.1
  unfold stopBody at h1
  unfold Machine.memberStop
  rw [h1]
  exact (if_neg Bool.false_ne_true).trans (if_neg Bool.false_ne_true)

theorem memberDesc_of (h : delivered s r 0x03 (descBody tick off data) x) (hne : data ≠ []) (hlen : data.length ≤ 8192) (hoff : off + data.length ≤ 65536) :
    Machine.memberDesc r tick off data s =
    if x.sch.following then
      (if x.rowTen (x.fromLead r) tick then x.violate r.port.val 10
       else { x.physWrite (x.descAt tick + off) data with
         sch := { (x.physWrite (x.descAt tick + off) data).sch with descGot := mapUpd (x.physWrite (x.descAt tick + off) data).sch.descGot tick 0 (· + data.length) } })
    else if x.fromLead r then x
    else x.violate r.port.val 10 := by
  have h1 := h.1
  unfold descBody at h1
  unfold Machine.memberDesc
  rw [h1]
  refine (if_neg nofun).trans ((if_neg ?_).trans rfl)
  rw [Bool.eq_false_iff.2 fun he => hne (List.isEmpty_iff.1 he), decide_eq_false (by omega), decide_eq_false (by omega)]
  exact nofun

theorem leadReport_of (h : delivered s r 0x13 (reportBody tick last holds) x) : Machine.leadReport r tick last holds s =
    if x.sch.stopped || x.rowTen (x.members.contains r.src.toNat) tick then x.violate r.port.val 10
    else if (x.reportOf r.src.toNat tick).isNone then
      { x with sch := { x.sch with reports := x.sch.reports ++ [⟨r.src.toNat, tick, last, holds⟩] } }
    else x := by
  have h1 := h.1
  unfold reportBody at h1
  unfold Machine.leadReport
  rw [h1]
  exact if_neg Bool.false_ne_true

/-- A message from any other module is a violation, and changes no schedule. -/
theorem stranger_kept {mtype : Nat} {body : List Byte} (h : delivered s r mtype body x) (hv : (s.port r.port.val).violAt.length < 255) :
    (x.violate r.port.val 10).sch = s.sch ∧ (x.violate r.port.val 10).pgm = s.pgm ∧ ((x.violate r.port.val 10).port r.port.val).violLast = 10 := by
  obtain ⟨-, ht, hviol⟩ := h
  obtain ⟨hsch, -, -, -, hpgm, -⟩ := ht.kept
  obtain ⟨h1, h2, h3⟩ := violate_kept (s := x) (p := r.port.val) (row := 10) (by rw [hviol]; exact hv)
  exact ⟨h1.trans hsch, h2.trans hpgm, h3⟩

end Bodies

end Messages

/-- The state with descriptor bytes of a tick written at an address. -/
def described (x : State) (a tick : Nat) (data : List Byte) : State :=
  { x with pgm := x.pgm.write a data, sch := { x.sch with descGot := mapUpd x.sch.descGot tick 0 (· + data.length) } }

/-- Settles O49: each message is delivered by the transport, and acts by who sent it and for which tick. -/
theorem schedulerMessages : Obligations.SchedulerMessages := by
  unfold Obligations.SchedulerMessages
  intro s r lead timely
  have hrow : ∀ {x : State} {tick : Nat}, transport s x → lead → timely tick → x.rowTen (x.fromLead r) tick = false := by
    intro x tick hx hl ht
    rw [hx.fromLead, fromLead_iff.2 hl, hx.rowTen]
    exact rowTen_timely ht
  have hstranger : ∀ {x : State}, transport s x → ¬lead → x.fromLead r = false := by
    intro x hx hl
    rw [hx.fromLead]
    exact Bool.eq_false_iff.2 fun h => hl (fromLead_iff.1 h)
  refine ⟨fun tick t0 cfg ha hl hf hp => ?_, fun tick ha hf hl ht => ⟨?_, ?_⟩, fun tick off data ha hf hl ht hne hlen hoff hwf hw => ?_,
    fun tick last holds ha hst hmem ht hno => ?_, fun tick t0 cfg off data ha hl hv hne hlen hoff c hc => ?_⟩
  · obtain ⟨x, hx⟩ := delivered_of_arrives (mtype := 0x04) (body := startBody tick.toNat t0.toNat cfg.toNat) ha startBody_len.le rfl
    obtain ⟨hsch, -⟩ := hx.2.1.kept
    refine ⟨x, hx.2.1, congrArg Host.Outcome.next ((memberStart_of hx).trans ?_)⟩
    rw [hx.2.1.fromLead, fromLead_iff.2 hl, hsch, hf, decide_eq_false hp]
    exact (if_neg Bool.false_ne_true).trans (if_neg Bool.false_ne_true)
  · obtain ⟨x, hx⟩ := delivered_of_arrives (mtype := 0x04) (body := boundBody tick.toNat) ha boundBody_len.le rfl
    obtain ⟨hsch, -⟩ := hx.2.1.kept
    refine ⟨x, hx.2.1, congrArg Host.Outcome.next ((memberBoundary_of hx).trans ?_)⟩
    rw [hrow hx.2.1 hl ht, hsch, hf]
    exact (if_pos rfl).trans (if_neg Bool.false_ne_true)
  · obtain ⟨x, hx⟩ := delivered_of_arrives (mtype := 0x04) (body := stopBody tick.toNat) ha stopBody_len.le rfl
    obtain ⟨hsch, -⟩ := hx.2.1.kept
    refine ⟨x, hx.2.1, congrArg Host.Outcome.next ((memberStop_of hx).trans ?_)⟩
    rw [hrow hx.2.1 hl ht, hsch, hf]
    exact (if_pos rfl).trans (if_neg Bool.false_ne_true)
  · obtain ⟨x, hx⟩ := delivered_of_arrives (mtype := 0x03) (body := descBody tick.toNat off.toNat data) ha descBody_len.le rfl
    obtain ⟨hsch, -, -, -, hpgm, hkites⟩ := hx.2.1.kept
    have hat : x.descAt tick.toNat = s.descAt tick.toNat := by
      unfold State.descAt
      rw [hsch]
    have hmem : (s.pgm.write (s.descAt tick.toNat + off.toNat) data).mem = memWrites s.pgm.mem (s.descAt tick.toNat + off.toNat) data := write_mem hne
    refine ⟨described x (s.descAt tick.toNat + off.toNat) tick.toNat data, congrArg Host.Outcome.next ((memberDesc_of hx hne hlen hoff).trans ?_), ?_⟩
    · rw [hrow hx.2.1 hl ht, congrArg Sch.following hsch, hf, hat, physWrite_writable hw]
      exact (if_pos rfl).trans (if_neg Bool.false_ne_true)
    · unfold described
      refine ⟨?_, hkites, fun i hi => ?_, fun a ha => ?_⟩
      · dsimp only
        rw [hsch]
      · dsimp only
        rw [hpgm, hmem, memRead_memWrites hwf, if_pos (by omega), Nat.add_sub_cancel_left]
      · dsimp only
        rw [hpgm, hmem, memRead_memWrites hwf, if_neg (by omega)]
  · obtain ⟨x, hx⟩ := delivered_of_arrives (mtype := 0x13) (body := reportBody tick.toNat last.toNat holds.toNat) ha reportBody_len.le rfl
    obtain ⟨hsch, -⟩ := hx.2.1.kept
    have hmembers : x.members = s.members := by
      have h := hx.2.1
      unfold transport at h
      rw [h]
      rfl
    have hnone : (x.reportOf r.src.toNat tick.toNat).isNone = true := by
      unfold State.reportOf
      rw [hsch, Option.isNone_iff_eq_none, List.find?_eq_none]
      intro y hy
      rw [Bool.and_eq_true, beq_iff_eq, beq_iff_eq]
      exact hno y hy
    refine ⟨x, hx.2.1, congrArg Host.Outcome.next ((leadReport_of hx).trans ?_)⟩
    rw [hmembers, List.contains_iff_mem.2 hmem, hx.2.1.rowTen, rowTen_timely ht, hsch, hst, hnone]
    exact (if_neg Bool.false_ne_true).trans (if_pos rfl)
  · simp only [List.mem_cons, List.not_mem_nil, or_false] at hc
    rcases hc with rfl | rfl | rfl | rfl
    · obtain ⟨x, hx⟩ := delivered_of_arrives (mtype := 0x04) (body := startBody tick.toNat t0.toNat cfg.toNat) ha (startBody_len.le.trans (Nat.le_add_right _ _)) rfl
      refine ⟨_, congrArg Host.Outcome.next ((memberStart_of hx).trans ?_), stranger_kept hx hv⟩
      rw [hstranger hx.2.1 hl]
      exact if_pos rfl
    · obtain ⟨x, hx⟩ := delivered_of_arrives (mtype := 0x04) (body := boundBody tick.toNat) ha (boundBody_len.le.trans (by omega)) rfl
      refine ⟨_, congrArg Host.Outcome.next ((memberBoundary_of hx).trans ?_), stranger_kept hx hv⟩
      rw [hstranger hx.2.1 hl, rowTen_stranger, if_pos rfl, if_neg Bool.false_ne_true, ite_self]
    · obtain ⟨x, hx⟩ := delivered_of_arrives (mtype := 0x04) (body := stopBody tick.toNat) ha (stopBody_len.le.trans (by omega)) rfl
      refine ⟨_, congrArg Host.Outcome.next ((memberStop_of hx).trans ?_), stranger_kept hx hv⟩
      rw [hstranger hx.2.1 hl, rowTen_stranger, if_pos rfl, if_neg Bool.false_ne_true, ite_self]
    · obtain ⟨x, hx⟩ := delivered_of_arrives (mtype := 0x03) (body := descBody tick.toNat off.toNat data) ha (descBody_len.le.trans (by omega)) rfl
      refine ⟨_, congrArg Host.Outcome.next ((memberDesc_of hx hne hlen hoff).trans ?_), stranger_kept hx hv⟩
      rw [hstranger hx.2.1 hl, rowTen_stranger, if_pos rfl, if_neg Bool.false_ne_true, ite_self]

end Sys2Proof.Stated
end

section
/-! SUPPORT. The traffic of a port: flits, credit, replay and Ethernet frames (R343, R345–R348, R357, R358). -/
namespace Sys2Proof.Stated
open Sys2Proof.Machine

theorem set_getD_self (l : List Nat) (i : Nat) : l.set i (l.getD i 0) = l := by
  induction l generalizing i with
  | nil => rfl
  | cons a l ih =>
    cases i with
    | zero => rfl
    | succ i => exact congrArg (a :: ·) (ih i)

@[simp] theorem setPort_setPort (s : State) (p : Nat) (x y : Port) : (s.setPort p x).setPort p y = s.setPort p y := by
  unfold State.setPort
  rw [mapSet_mapSet]

section Flits
variable {s : State} {p : Nat}

theorem pump_empty {n : Nat} (h : (s.port p).txq = []) : State.pump p n s = s := by
  have hpick : (s.port p).pick = none := by
    unfold Port.pick
    rw [h, List.findSome?_eq_none_iff]
    intro vc _
    exact ite_self _
  cases n with
  | zero => rfl
  | succ n =>
    unfold State.pump
    dsimp only
    rw [hpick]
    exact ite_self _

/-! ### What a port tells its peer (R345, R347) -/

/-- One IDLE flit, where the peer has something to be told. -/
def fillOnce (p : Nat) (s : State) : State :=
  let x := s.port p
  if x.st = 2 && x.mode = 0 && (x.aackSent != x.rxSeq || x.returns.2 != 0) then
    (s.setPort p x.told).emit (.flit p (flitBytes 0 0 false 0 x.rxSeq x.returns.1 x.returns.2 0 []))
  else s

theorem fill_eq (s : State) (p : Nat) : s.fill p = fillOnce p (fillOnce p (fillOnce p (fillOnce p s))) := by
  have h : s.fill p = (List.range 4).foldl (fun s _ => fillOnce p s) s := rfl
  rw [h, show List.range 4 = [0, 1, 2, 3] from rfl]
  simp only [List.foldl_cons, List.foldl_nil]

theorem told_noCredit {x : Port} (h : x.returns = (0, 0)) : x.told = { x with aackSent := x.rxSeq } := by
  unfold Port.told
  rw [h]
  dsimp only
  rw [Nat.sub_zero, Nat.sub_zero, set_getD_self, set_getD_self]

theorem fillOnce_told (h : (s.port p).aackSent = (s.port p).rxSeq) (hr : (s.port p).returns = (0, 0)) : fillOnce p s = s := by
  unfold fillOnce
  dsimp only
  rw [h, hr, bne_self_eq_false]
  exact if_neg (by rw [Bool.and_eq_true]; exact fun h => nomatch h.2)

theorem fillOnce_tells (hst : (s.port p).st = 2) (hmode : (s.port p).mode = 0) (h : (s.port p).aackSent ≠ (s.port p).rxSeq)
    (hr : (s.port p).returns = (0, 0)) :
    fillOnce p s = (s.setPort p { s.port p with aackSent := (s.port p).rxSeq }).emit (.flit p (idleFlit (s.port p).rxSeq)) := by
  unfold fillOnce
  dsimp only
  rw [told_noCredit hr, hst, hmode, hr, bne_iff_ne.2 h]
  rfl

theorem fill_told (h : (s.port p).aackSent = (s.port p).rxSeq) (hr : (s.port p).returns = (0, 0)) : s.fill p = s := by
  rw [fill_eq, fillOnce_told h hr, fillOnce_told h hr, fillOnce_told h hr, fillOnce_told h hr]

theorem fill_tells (hst : (s.port p).st = 2) (hmode : (s.port p).mode = 0) (h : (s.port p).aackSent ≠ (s.port p).rxSeq)
    (hr : (s.port p).returns = (0, 0)) :
    s.fill p = (s.setPort p { s.port p with aackSent := (s.port p).rxSeq }).emit (.flit p (idleFlit (s.port p).rxSeq)) := by
  have hport : ((s.setPort p { s.port p with aackSent := (s.port p).rxSeq }).emit (.flit p (idleFlit (s.port p).rxSeq))).port p =
      { s.port p with aackSent := (s.port p).rxSeq } := port_setPort_self _ _ _
  have hidle := fillOnce_told (s := (s.setPort p { s.port p with aackSent := (s.port p).rxSeq }).emit (.flit p (idleFlit (s.port p).rxSeq))) (p := p)
    (by rw [hport]) (by rw [hport]; exact hr)
  rw [fill_eq, fillOnce_tells hst hmode h hr, hidle, hidle, hidle]

/-! ### A flit arrives (R343, R345, R348) -/

theorem fecIn_none (s : State) (p corr : Nat) : s.fecIn p corr 0 = s.setPort p (coded (s.port p) corr 0) := by
  unfold State.fecIn
  exact if_neg nofun

/-- What an acknowledgement of nothing new leaves of the flit's AACK and credit. -/
theorem linkIn_credit {aack vc n : Nat} (h : s.takeAack p aack = s) :
    s.linkIn p aack vc n = s.setPort p { s.port p with credit := (s.port p).credit.set vc ((s.port p).credit.getD vc 0 + n) } := by
  unfold State.linkIn
  rw [h]
  rfl

theorem takeAack_empty {aack : Nat} (h : (s.port p).buf = []) : s.takeAack p aack = s := by
  unfold State.takeAack
  dsimp only
  rw [h]

theorem takeAack_oldest {b : TxFlit} (h : (s.port p).buf.head? = some b) : s.takeAack p b.fseq = s := by
  obtain ⟨l, hl⟩ : ∃ l, (s.port p).buf = b :: l := by
    cases hb : (s.port p).buf with
    | nil => rw [hb] at h; exact nomatch h
    | cons a l => rw [hb] at h; exact ⟨l, by rw [Option.some.inj h]⟩
  have hn : (b.fseq + 4096 - b.fseq) % 4096 = 0 := by rw [Nat.add_sub_cancel_left]
  unfold State.takeAack
  dsimp only
  rw [hl]
  dsimp only
  rw [hn]
  rfl

/-- A damaged flit is counted, and discarded. -/
theorem flit_damaged {f : FlitF} (hst : (s.port p).st = 2) (hmode : (s.port p).mode = 0) (h : f.uncorr = true ∨ fGood f.bytes = false) (hunc : f.unc = 0) :
    Machine.flit p f s = { s.setPort p (coded (s.port p) f.corr 0) with tel := { s.tel with cnt := mapUpd s.tel.cnt 0 0 fun c => (c + 1) % 2 ^ 64 } } := by
  unfold Machine.flit
  dsimp only
  rw [hst, hmode, hunc, fecIn_none]
  refine (if_neg nofun).trans (if_pos ?_)
  rw [Bool.or_eq_true]
  exact h.imp_right fun h => by rw [h]; rfl

/-- What a flit that is not damaged brings, by its KIND. -/
theorem flit_sound {f : FlitF} (hst : (s.port p).st = 2) (hmode : (s.port p).mode = 0) (h : sound f) : Machine.flit p f s =
    let u := s.setPort p (coded (s.port p) f.corr 0)
    let l := f.bytes
    let v := u.linkIn p (fAack l) (fCredVc l) (fCred l)
    if fKind l = 0 then (State.pump p 1024 (if fBad l then v.violate p 1 else v)).fill p
    else if fKind l = 3 && !fBad l then u.ctrlFlit p l
    else if fFseq l != (s.port p).rxSeq then u.outOfOrder p
    else (State.pump p 1024 (if fKind l = 1 || fKind l = 2 then (v.seqIn p).flitIn p l else (v.seqIn p).violate p 1)).fill p := by
  obtain ⟨huncorr, hunc, hgood⟩ := h
  have hup : ((s.setPort p (coded (s.port p) f.corr 0)).port p).st = 2 := by
    rw [port_setPort_self]
    exact hst
  unfold Machine.flit
  dsimp only
  rw [hunc, fecIn_none, if_neg (by rw [hst, hmode]; exact nofun), if_neg (by rw [huncorr, hgood]; exact nofun), if_neg (by rw [hup]; exact nofun)]

theorem quiet_coded {x : Port} {corr : Nat} (h : quiet x) : quiet (coded x corr 0) := h

/-- An IDLE flit returns credit. -/
theorem flit_idle {f : FlitF} (hq : quiet (s.port p)) (hf : sound f) (hkind : fKind f.bytes = 0) (hbad : fBad f.bytes = false) :
    Machine.flit p f s = s.setPort p { coded (s.port p) f.corr 0 with
      credit := (s.port p).credit.set (fCredVc f.bytes) ((s.port p).credit.getD (fCredVc f.bytes) 0 + fCred f.bytes) } := by
  obtain ⟨hst, hmode, htxq, hbuf, haack, hret⟩ := hq
  rw [flit_sound hst hmode hf]
  dsimp only
  rw [if_pos hkind, hbad, linkIn_credit (takeAack_empty (by rw [port_setPort_self]; exact hbuf)), setPort_setPort, port_setPort_self,
    if_neg Bool.false_ne_true, pump_empty (by rw [port_setPort_self]; exact htxq), fill_told (by rw [port_setPort_self]; exact haack) (by rw [port_setPort_self]; exact hret)]
  rfl

/-! ### A flit out of sequence (R348) -/

/-- The port that has sent a REPLAY of the FSEQ it expects. -/
def replayed (x : Port) (now : Nat) : Port :=
  { x.told with
    replayAt := some now, replayN := x.replayN + 1, replays := satAdd 16 x.replays 1
    buf := x.buf ++ [⟨x.txSeq, none, flitBytes 3 0 false x.txSeq x.rxSeq x.returns.1 x.returns.2 0 (leBytes 1 2 ++ leBytes 2 x.rxSeq)⟩]
    txSeq := (x.txSeq + 1) % 4096, txUnits := wrapAdd 48 x.txUnits 1, aackAt := if x.buf.isEmpty then now else x.aackAt }

theorem sendReplay_few (hbuf : (s.port p).buf.length < 1024) (hn : (s.port p).replayN < 7) : s.sendReplay p =
    (s.setPort p (replayed (s.port p) s.now)).emit (.flit p (flitBytes 3 0 false (s.port p).txSeq (s.port p).rxSeq (s.port p).returns.1 (s.port p).returns.2 0
      (leBytes 1 2 ++ leBytes 2 (s.port p).rxSeq))) := by
  unfold State.sendReplay
  dsimp only
  rw [if_neg (by omega), if_neg (by omega)]
  unfold State.sendFlit
  dsimp only
  rw [port_setPort_self, setPort_setPort]
  rfl

/-- What one REPLAY leaves. -/
theorem sendReplay_spec {y : Port} (hy : s.port p = y) (hbuf : y.buf.length < 1024) (hn : y.replayN < 7) :
    let b := flitBytes 3 0 false y.txSeq y.rxSeq y.returns.1 y.returns.2 0 (leBytes 1 2 ++ leBytes 2 y.rxSeq)
    let t := s.sendReplay p
    t.out = s.out ++ [.flit p b] ∧ (t.port p).buf = y.buf ++ [⟨y.txSeq, none, b⟩] ∧ (t.port p).replayAt = some s.now ∧
      (t.port p).replayN = y.replayN + 1 ∧ (t.port p).replays = min (y.replays + 1) 65535 ∧ (t.port p).st = y.st ∧ (t.port p).rxSeq = y.rxSeq := by
  subst hy
  dsimp only
  rw [sendReplay_few hbuf hn]
  have hport : ∀ o, ((s.setPort p (replayed (s.port p) s.now)).emit o).port p = replayed (s.port p) s.now := fun _ => port_setPort_self _ _ _
  rw [hport]
  exact ⟨rfl, rfl, rfl, rfl, rfl, rfl, rfl⟩

theorem outOfOrder_first (h : (s.port p).replayAt = none) : s.outOfOrder p = s.sendReplay p := by
  unfold State.outOfOrder
  rw [h]
  rfl

theorem fFseq_lt (l : List Byte) : fFseq l < 4096 := Nat.mod_lt _ (by decide)

theorem hello_strange {f : HelloF} (hst : (s.port p).st = 2) (hmode : (s.port p).mode = 0) (h : f.ctrl.fseq.toNat ≠ (s.port p).rxSeq) :
    Machine.hello p f s = s.outOfOrder p := by
  unfold Machine.hello
  dsimp only
  rw [hmode, hst]
  exact (if_neg nofun).trans ((if_pos rfl).trans (if_pos (bne_iff_ne.2 h)))

theorem replay_strange {f : ReplayF} (hst : (s.port p).st = 2) (hmode : (s.port p).mode = 0) (h : f.ctrl.fseq.toNat ≠ (s.port p).rxSeq) :
    Machine.replay p f s = s.outOfOrder p := by
  unfold Machine.replay
  dsimp only
  rw [hmode, hst]
  exact (if_neg nofun).trans (if_pos (bne_iff_ne.2 h))

theorem ctrlFlit_strange {l : List Byte} (hst : (s.port p).st = 2) (hmode : (s.port p).mode = 0) (h : fFseq l ≠ (s.port p).rxSeq) :
    s.ctrlFlit p l = s.outOfOrder p := by
  have hq : (BitVec.ofNat 12 (fFseq l)).toNat ≠ (s.port p).rxSeq := by
    rw [BitVec.toNat_ofNat, Nat.mod_eq_of_lt (fFseq_lt l)]
    exact h
  unfold State.ctrlFlit
  dsimp only
  split
  · exact hello_strange hst hmode hq
  · exact replay_strange hst hmode hq
  · exact if_pos (bne_iff_ne.2 h)

theorem flit_strange {f : FlitF} (hst : (s.port p).st = 2) (hmode : (s.port p).mode = 0) (hf : sound f) (hkind : fKind f.bytes ≠ 0)
    (h : fFseq f.bytes ≠ (s.port p).rxSeq) : Machine.flit p f s = (s.setPort p (coded (s.port p) f.corr 0)).outOfOrder p := by
  rw [flit_sound hst hmode hf]
  dsimp only
  rw [if_neg hkind]
  split
  · exact ctrlFlit_strange (by rw [port_setPort_self]; exact hst) (by rw [port_setPort_self]; exact hmode) (by rw [port_setPort_self]; exact h)
  · exact if_pos (bne_iff_ne.2 h)

end Flits

end Sys2Proof.Stated
end

section
/-! SUPPORT. Flits in sequence, REPLAY, Ethernet frames and flow control at a port (R345, R348, R357, R358). -/
namespace Sys2Proof.Stated
open Sys2Proof.Machine

section Sequence
variable {s : State} {p : Nat}

theorem returns_congr {x y : Port} (h : x.freed = y.freed) : x.returns = y.returns := by
  unfold Port.returns
  rw [h]

/-- A port that has taken the sequenced flit it expected, with what that brings of credit. -/
def inTurn (x : Port) (vc n : Nat) : Port :=
  { x with
    credit := x.credit.set vc (x.credit.getD vc 0 + n), rxSeq := (x.rxSeq + 1) % 4096, rxUnits := wrapAdd 48 x.rxUnits 1, replayAt := none, replayN := 0 }

theorem linkIn_seqIn {aack vc n : Nat} (h : s.takeAack p aack = s) : (s.linkIn p aack vc n).seqIn p = s.setPort p (inTurn (s.port p) vc n) := by
  unfold State.seqIn
  rw [linkIn_credit h, port_setPort_self, setPort_setPort]
  rfl

theorem seq_ne (n : Nat) : n ≠ (n + 1) % 4096 := by omega

/-- The first flit of a message takes a place of its buffer. -/
theorem flitIn_first {l : List Byte} (hkind : fKind l = 1) (hbad : fBad l = false) (howed : (s.port p).rxOwed.getD (fVc l) 0 = 0)
    (hheld : (s.port p).held.getD (fVc l) 0 < chanBuf (fVc l)) : s.flitIn p l = s.setPort p { s.port p with
      rxOwed := (s.port p).rxOwed.set (fVc l) 1, held := (s.port p).held.set (fVc l) ((s.port p).held.getD (fVc l) 0 + 1) } := by
  unfold State.flitIn
  dsimp only
  rw [hkind, hbad, howed, decide_eq_false (by omega)]
  refine (if_neg Bool.false_ne_true).trans ((if_neg Bool.false_ne_true).trans ((if_neg (by decide)).trans ?_))
  have hfreed : (s.port p).freed.set (fVc l) ((s.port p).freed.getD (fVc l) 0 + (0 + 1 - 1)) = (s.port p).freed := set_getD_self _ _
  exact congrArg (fun fr => s.setPort p { s.port p with
    rxOwed := (s.port p).rxOwed.set (fVc l) 1, held := (s.port p).held.set (fVc l) ((s.port p).held.getD (fVc l) 0 + 1), freed := fr }) hfreed

/-- The port that has taken a first flit, and has told its peer so. -/
def firstTaken (x : Port) (f : FlitF) : Port :=
  { inTurn (coded x f.corr 0) (fCredVc f.bytes) (fCred f.bytes) with
    rxOwed := x.rxOwed.set (fVc f.bytes) 1, held := x.held.set (fVc f.bytes) (x.held.getD (fVc f.bytes) 0 + 1), aackSent := (x.rxSeq + 1) % 4096 }

theorem flit_first {f : FlitF} (hq : quiet (s.port p)) (hf : sound f) (hkind : fKind f.bytes = 1) (hbad : fBad f.bytes = false)
    (hseq : fFseq f.bytes = (s.port p).rxSeq) (howed : (s.port p).rxOwed.getD (fVc f.bytes) 0 = 0)
    (hheld : (s.port p).held.getD (fVc f.bytes) 0 < chanBuf (fVc f.bytes)) :
    Machine.flit p f s = (s.setPort p (firstTaken (s.port p) f)).emit (.flit p (idleFlit (((s.port p).rxSeq + 1) % 4096))) := by
  obtain ⟨hst, hmode, htxq, hbuf, haack, hret⟩ := hq
  have hlink := linkIn_seqIn (s := s.setPort p (coded (s.port p) f.corr 0)) (p := p) (vc := fCredVc f.bytes) (n := fCred f.bytes)
    (takeAack_empty (aack := fAack f.bytes) (by rw [port_setPort_self]; exact hbuf))
  rw [port_setPort_self, setPort_setPort] at hlink
  have hflit := flitIn_first (s := s.setPort p (inTurn (coded (s.port p) f.corr 0) (fCredVc f.bytes) (fCred f.bytes))) (p := p) hkind hbad
    (by rw [port_setPort_self]; exact howed) (by rw [port_setPort_self]; exact hheld)
  rw [port_setPort_self, setPort_setPort] at hflit
  rw [flit_sound hst hmode hf]
  dsimp only
  rw [hlink, hflit, if_neg (by rw [hkind]; decide), if_neg (by rw [hkind]; exact Bool.false_ne_true), if_neg (by rw [hseq, bne_self_eq_false]; exact Bool.false_ne_true),
    if_pos (by rw [hkind]; rfl), pump_empty (by rw [port_setPort_self]; exact htxq)]
  refine (fill_tells (by rw [port_setPort_self]; exact hst) (by rw [port_setPort_self]; exact hmode) ?_ ?_).trans ?_
  · rw [port_setPort_self]
    exact fun h => seq_ne _ (haack.symm.trans h)
  · rw [port_setPort_self]
    exact (returns_congr rfl).trans hret
  · rw [port_setPort_self, setPort_setPort]
    rfl

/-- Resent flits go out as they were sent, and nothing else is different. -/
theorem resendFrom_out (s : State) (p i : Nat) :
    s.resendFrom p i = { s with out := s.out ++ ((s.port p).buf.drop i).map fun b => .flit p b.bytes } := by
  unfold State.resendFrom
  generalize (s.port p).buf.drop i = l
  induction l generalizing s with
  | nil => rw [List.foldl_nil, List.map_nil, List.append_nil]
  | cons b l ih =>
    rw [List.foldl_cons, ih, List.map_cons, List.append_cons]
    rfl

/-- A REPLAY in its turn has the flits from its FSEQ on sent again. -/
theorem replay_inTurn {h : ReplayF} {i : Nat} {b : TxFlit} (hst : (s.port p).st = 2) (hmode : (s.port p).mode = 0) (htxq : (s.port p).txq = [])
    (haack : (s.port p).aackSent = (s.port p).rxSeq) (hret : (s.port p).returns = (0, 0)) (hseq : h.ctrl.fseq.toNat = (s.port p).rxSeq)
    (hhead : (s.port p).buf.head? = some b) (hack : h.ctrl.aack.toNat = b.fseq)
    (hfind : ((s.port p).buf.findIdx? fun b => b.fseq == h.fseq.toNat) = some i) :
    Machine.replay p h s = ({ s.setPort p { inTurn (s.port p) h.ctrl.credVc.toNat h.ctrl.cred.toNat with aackSent := ((s.port p).rxSeq + 1) % 4096 } with
      out := s.out ++ ((s.port p).buf.drop i).map fun b => .flit p b.bytes } : State).emit (.flit p (idleFlit (((s.port p).rxSeq + 1) % 4096))) := by
  have hlink := linkIn_seqIn (s := s) (p := p) (aack := h.ctrl.aack.toNat) (vc := h.ctrl.credVc.toNat) (n := h.ctrl.cred.toNat)
    (by rw [hack]; exact takeAack_oldest hhead)
  have hbuf : (inTurn (s.port p) h.ctrl.credVc.toNat h.ctrl.cred.toNat).buf = (s.port p).buf := rfl
  have hport : ∀ (x : Port) (o : List Output), ({ s.setPort p x with out := o } : State).port p = x := fun _ _ => port_setPort_self _ _ _
  unfold Machine.replay
  dsimp only
  rw [if_neg (by rw [hst, hmode]; exact Bool.false_ne_true), if_neg (by rw [hseq, bne_self_eq_false]; exact Bool.false_ne_true), hlink, port_setPort_self,
    hbuf, hfind]
  dsimp only
  rw [resendFrom_out, port_setPort_self, hbuf, pump_empty (by rw [hport]; exact htxq)]
  refine (fill_tells (by rw [hport]; exact hst) (by rw [hport]; exact hmode) ?_ ?_).trans ?_
  · rw [hport]
    exact fun h => seq_ne _ (haack.symm.trans h)
  · rw [hport]
    exact (returns_congr rfl).trans hret
  · rw [hport]
    have hset : ∀ (x y : Port) (o : List Output), ({ s.setPort p x with out := o } : State).setPort p y = { (s.setPort p x).setPort p y with out := o } := fun _ _ _ => rfl
    rw [hset, setPort_setPort]
    rfl

end Sequence

/-! ### Ethernet (R343, R357, R358) -/

section Frames
variable {s : State} {p : Fin 96} {f : FrameF} {l : List Byte}

/-- What a frame without uncorrectable codewords finds. -/
theorem frame_coded (hst : (s.port p.val).st = 2) (hmode : (s.port p.val).mode ≠ 0) (hunc : f.unc = 0) : Machine.ethernetFrame p f l s =
    let u := s.setPort p.val (coded (s.port p.val) f.corr 0)
    let tagged := fieldBe l 12 2 == 0x8100
    let ts := s.portTargets p.val
    let dst := fieldBe l 0 6
    let tagOk := !tagged || ts.any fun e => bit (tFlags e) 2 && tTag e % 4096 == fieldBe l 14 2 % 4096
    if !f.fcs then u.setPort p.val { coded (s.port p.val) f.corr 0 with fecUnc := satAdd 16 (coded (s.port p.val) f.corr 0).fecUnc 1 }
    else if l.length < 14 || s.frameMax p.val < l.length + 4 || !(dst == (s.port p.val).mac || ptpMacs.contains dst) || !tagOk then u.dropFrame p.val
    else
      match aboveOf (fieldBe l (if tagged then 16 else 12) 2) (l.drop (if tagged then 18 else 14)) with
      | .ptp => u.takeFrame p.val
      | .yaphor src dp msg => if ts.any fun e => fieldLe e 0x0C 2 == dp then (u.takeFrame p.val).fromReceiver ⟨p, false, .ofNat 128 src⟩ msg else u.dropFrame p.val
      | .other => u.dropFrame p.val := by
  have hc : (if (s.port p.val).st = 2 && (s.port p.val).mode != 0 then s.fecIn p.val f.corr f.unc else s) = s.setPort p.val (coded (s.port p.val) f.corr 0) := by
    rw [if_pos (by rw [hst]; exact bne_iff_ne.2 hmode), hunc, fecIn_none]
  unfold Machine.ethernetFrame
  dsimp only
  rw [hc, port_setPort_self]
  refine (if_neg ?_).trans rfl
  have hup : (coded (s.port p.val) f.corr 0).st = 2 := hst
  have hm : (coded (s.port p.val) f.corr 0).mode ≠ 0 := hmode
  rw [hup, decide_eq_false hm]
  exact nofun

theorem frame_damaged (hst : (s.port p.val).st = 2) (hmode : (s.port p.val).mode ≠ 0) (hunc : f.unc = 0) (hfcs : f.fcs = false) :
    Machine.ethernetFrame p f l s = s.setPort p.val (coded (s.port p.val) f.corr 1) := by
  have hsat : satAdd 16 (min ((s.port p.val).fecUnc + 0) 65535) 1 = min ((s.port p.val).fecUnc + 1) 65535 := by
    unfold satAdd
    omega
  rw [frame_coded hst hmode hunc]
  dsimp only
  rw [hfcs, setPort_setPort]
  refine (if_pos rfl).trans ?_
  exact congrArg (fun n => s.setPort p.val { coded (s.port p.val) f.corr 0 with fecUnc := n }) hsat

theorem dropFrame_eq (x : Port) : (s.setPort p.val x).dropFrame p.val = s.setPort p.val { x with dropped := min (x.dropped + 1) 65535 } := by
  unfold State.dropFrame
  rw [port_setPort_self, setPort_setPort]
  rfl

theorem takeFrame_eq (x : Port) : (s.setPort p.val x).takeFrame p.val = s.setPort p.val { x with rxUnits := (x.rxUnits + 1) % 2 ^ 48 } := by
  unfold State.takeFrame
  rw [port_setPort_self, setPort_setPort]
  rfl

theorem frameMax_bounds (s : State) (p : Nat) : 1518 ≤ s.frameMax p ∧ s.frameMax p ≤ 9216 := by
  unfold State.frameMax
  split <;> decide

/-- A frame of a length that no message has is dropped. -/
theorem frame_sizeless (hst : (s.port p.val).st = 2) (hmode : (s.port p.val).mode ≠ 0) (hunc : f.unc = 0) (hfcs : f.fcs = true)
    (hl : l.length < 14 ∨ 9212 < l.length) :
    Machine.ethernetFrame p f l s = s.setPort p.val { coded (s.port p.val) f.corr 0 with dropped := min ((s.port p.val).dropped + 1) 65535 } := by
  have hlen : (decide (l.length < 14) || decide (s.frameMax p.val < l.length + 4)) = true := by
    have hmax := (frameMax_bounds s p.val).2
    rw [Bool.or_eq_true, decide_eq_true_iff, decide_eq_true_iff]
    omega
  rw [frame_coded hst hmode hunc]
  dsimp only
  rw [hfcs, hlen, dropFrame_eq]
  exact (if_neg Bool.false_ne_true).trans (if_pos rfl)

/-- A message to a port of an export target is taken. -/
theorem frame_message {src dp : Nat} {msg e : List Byte} (hst : (s.port p.val).st = 2) (hmode : (s.port p.val).mode ≠ 0) (hunc : f.unc = 0) (hfcs : f.fcs = true)
    (h14 : 14 ≤ l.length) (hmax : l.length + 4 ≤ 1518) (hmac : fieldBe l 0 6 = (s.port p.val).mac) (htag : fieldBe l 12 2 ≠ 0x8100)
    (habove : aboveOf (fieldBe l 12 2) (l.drop 14) = .yaphor src dp msg) (he : e ∈ s.portTargets p.val) (hdp : fieldLe e 0x0C 2 = dp) :
    Machine.ethernetFrame p f l s =
      (s.setPort p.val { coded (s.port p.val) f.corr 0 with rxUnits := ((s.port p.val).rxUnits + 1) % 2 ^ 48 }).fromReceiver ⟨p, false, .ofNat 128 src⟩ msg := by
  have hlen : (decide (l.length < 14) || decide (s.frameMax p.val < l.length + 4)) = false := by
    have hm := (frameMax_bounds s p.val).1
    rw [decide_eq_false (by omega), decide_eq_false (by omega)]
    rfl
  have hany : ((s.portTargets p.val).any fun e => fieldLe e 0x0C 2 == dp) = true := List.any_eq_true.2 ⟨e, he, beq_iff_eq.2 hdp⟩
  rw [frame_coded hst hmode hunc]
  dsimp only
  rw [hfcs, hlen, hmac, beq_self_eq_true, beq_eq_false_iff_ne.2 htag]
  refine (if_neg Bool.false_ne_true).trans ((if_neg Bool.false_ne_true).trans ?_)
  rw [if_neg Bool.false_ne_true, if_neg Bool.false_ne_true, habove]
  dsimp only
  rw [if_pos hany, takeFrame_eq]
  rfl

/-! ### Flow control (R358) -/

/-- Entries put in one after another under rising keys, where a condition holds. -/
theorem mapGet_foldl_range {α : Type} (c : Nat → Bool) (v : Nat → α) (n : Nat) (m : Map α) (i : Nat) :
    mapGet ((List.range n).foldl (fun m i => if c i then mapSet m i (v i) else m) m) i = if i < n ∧ c i = true then some (v i) else mapGet m i := by
  induction n with
  | zero => rw [if_neg (by omega)]; rfl
  | succ n ih =>
    rw [List.range_succ, List.foldl_concat]
    by_cases hi : i = n
    · subst hi
      by_cases hc : c i = true
      · rw [if_pos hc, mapGet_mapSet_self, if_pos ⟨Nat.lt_succ_self _, hc⟩]
      · rw [if_neg hc, ih, if_neg (by omega), if_neg fun h => hc h.2]
    · have hstep : mapGet (if c n = true then mapSet ((List.range n).foldl (fun m i => if c i then mapSet m i (v i) else m) m) n (v n)
          else (List.range n).foldl (fun m i => if c i then mapSet m i (v i) else m) m) i =
          mapGet ((List.range n).foldl (fun m i => if c i then mapSet m i (v i) else m) m) i := by
        split
        · exact mapGet_mapSet_ne _ _ _ _ hi
        · rfl
      rw [hstep, ih]
      exact if_congr (and_congr_left' (by omega)) rfl rfl

end Frames

/-- Settles O51: by the kind of what arrives; what a port has to tell its peer goes out on one IDLE flit. -/
theorem linkTraffic : Obligations.LinkTraffic := by
  unfold Obligations.LinkTraffic
  intro s p x
  refine ⟨fun f hst hmode h hunc => ?_, fun f hq hf hkind hbad => ?_, fun f hq hf hkind hbad hseq howed hheld => ?_, fun c hc hst hbuf hn => ?_, fun h => ?_,
    fun h i b hst hmode htxq haack hret hseq hhead hack hfind => ?_, fun f l hst hmode hunc hfcs => ?_, fun f l hst hmode hunc hfcs hl => ?_,
    fun f l src dp msg e hst hmode hunc hfcs h14 hmax hmac htag habove he hdp hack => ?_, fun en quanta hst hmode => ?_⟩
  · exact congrArg Host.Outcome.next (flit_damaged hst hmode h hunc)
  · exact congrArg Host.Outcome.next (flit_idle hq hf hkind hbad)
  · refine ⟨_, congrArg Host.Outcome.next (flit_first hq hf hkind hbad hseq howed hheld), ?_⟩
    have hport : ∀ o, ((s.setPort p.val (firstTaken x f)).emit o).port p.val = firstTaken x f := fun _ => port_setPort_self _ _ _
    dsimp only
    rw [hport]
    exact ⟨rfl, rfl, rfl, rfl, rfl, hq.1, rfl, rfl, rfl, rfl⟩
  · have hport : ∀ corr, (s.setPort p.val (coded x corr 0)).port p.val = coded x corr 0 := fun _ => port_setPort_self _ _ _
    have hsent : ∃ u, exec c s = .next (u.sendReplay p.val) ∧ (u = s ∨ ∃ corr, u = s.setPort p.val (coded x corr 0)) := by
      rcases hc with ⟨f, rfl, hmode, hf, hkind, hseq, hno⟩ | ⟨h, rfl, hmode, hseq, hno⟩ | ⟨h, rfl, hmode, hseq, hno⟩ | ⟨rfl, hdue⟩
      · exact ⟨_, congrArg Host.Outcome.next ((flit_strange hst hmode hf hkind hseq).trans (outOfOrder_first (by rw [hport]; exact hno))), .inr ⟨_, rfl⟩⟩
      · exact ⟨_, congrArg Host.Outcome.next ((replay_strange hst hmode hseq).trans (outOfOrder_first hno)), .inl rfl⟩
      · exact ⟨_, congrArg Host.Outcome.next ((hello_strange hst hmode hseq).trans (outOfOrder_first hno)), .inl rfl⟩
      · exact ⟨_, congrArg Host.Outcome.next (if_pos hdue), .inl rfl⟩
    obtain ⟨u, hu, rfl | ⟨corr, rfl⟩⟩ := hsent
    · obtain ⟨h1, h2, h3, h4, h5, h6, h7⟩ := sendReplay_spec (s := u) (p := p.val) rfl hbuf hn
      exact ⟨_, hu, h1, h2, h3, h4, h5, h6.trans hst, h7⟩
    · obtain ⟨h1, h2, h3, h4, h5, h6, h7⟩ := sendReplay_spec (hport corr) hbuf hn
      exact ⟨_, hu, h1, h2, h3, h4, h5, h6.trans hst, h7⟩
  · exact congrArg Host.Outcome.next (if_neg (by rw [h]; exact Bool.false_ne_true))
  · refine ⟨_, congrArg Host.Outcome.next (replay_inTurn hst hmode htxq haack hret hseq hhead hack hfind), ?_⟩
    have hport : ∀ (y : Port) (l : List Output) o, (({ s.setPort p.val y with out := l } : State).emit o).port p.val = y := fun _ _ _ => port_setPort_self _ _ _
    rw [hport]
    exact ⟨rfl, rfl, rfl⟩
  · exact congrArg Host.Outcome.next (frame_damaged hst hmode hunc hfcs)
  · exact congrArg Host.Outcome.next (frame_sizeless hst hmode hunc hfcs hl)
  · refine congrArg Host.Outcome.next ((frame_message hst hmode hunc hfcs h14 hmax hmac htag habove he hdp).trans ?_)
    unfold State.fromReceiver
    rewrite [hack]
    rfl
  · refine ⟨_, congrArg Host.Outcome.next ((if_neg ?_).trans rfl), fun i => ?_⟩
    · rw [show (s.port p.val).st = 2 from hst, decide_eq_false hmode]
      exact nofun
    · rw [mapGet_foldl_range, bit_toNat]
      rfl


end Sys2Proof.Stated
end

section
/-! SUPPORT. The states of a port: training, UP, retraining, DOWN and quarantine (R339–R342, R361). -/
namespace Sys2Proof.Stated
open Sys2Proof.Machine

section Stops
variable {s t u : State} {p q : Nat}

/-! ### A port stops (R342, R361) -/

/-- Port `p` stands as it is, and the others differ only in their traffic. -/
def besides (p : Nat) (s t : State) : Prop := t.port p = s.port p ∧ ∀ q, flows (s.port q) (t.port q)

theorem besides_refl (p : Nat) (s : State) : besides p s s := ⟨rfl, fun _ => rfl⟩

theorem besides_trans (h : besides p s t) (h' : besides p t u) : besides p s u := ⟨h'.1.trans h.1, fun q => flows_trans (h.2 q) (h'.2 q)⟩

theorem besides_foldl {α : Type} {f : State → α → State} (hf : ∀ s x, besides p s (f s x)) (l : List α) (s : State) : besides p s (l.foldl f s) := by
  induction l generalizing s with
  | nil => exact besides_refl p s
  | cons x l ih => exact besides_trans (hf s x) (ih _)

theorem besides_of_ports (h : t.lnk.ports = s.lnk.ports) : besides p s t := by
  have hport : ∀ q, t.port q = s.port q := fun q => by
    unfold State.port
    rw [h]
  exact ⟨hport p, fun q => by rw [hport q]; rfl⟩

theorem endRemote_ports (s : State) (tag status : Nat) : (s.endRemote tag status).lnk.ports = s.lnk.ports := by
  unfold State.endRemote
  split <;> rfl

theorem faultStep_lnk (s : State) (n : Nat) : (s.faultStep n).lnk = s.lnk := by
  have h := (State.faultStep_frame s n).1
  unfold eventFrame at h
  rw [h]

theorem log_lnk (s : State) (e : Ev) : (s.log e).lnk = s.lnk := by
  have h := State.log_frame s e
  unfold logOnly at h
  rw [h]

/-- A message that is lost changes no port. -/
theorem undeliverable_ports (s : State) (m : LMsg) : (s.undeliverable m).lnk.ports = s.lnk.ports := by
  unfold State.undeliverable
  split
  · rw [faultStep_lnk]
    exact congrArg Lnk.ports (log_lnk s _)
  · split
    · exact endRemote_ports _ _ _
    · rfl

theorem free1_besides (s : State) (vc n : Nat) (h : q ≠ p) : besides p s (s.free1 q vc n) := ⟨port_setPort_ne _ h.symm, (free1_moves s q vc n).2⟩

/-- A port that has stopped. -/
def halted (x : Port) (st now : Nat) : Port :=
  { x with
    st := st, since := now, buf := [], txq := [], equal := false, hello := false, replayAt := none, replayN := 0, rxOwed := [0, 0, 0, 0]
    held := [0, 0, 0, 0], freed := [0, 0, 0, 0], helloSeq := none, quar := if st = 5 then satAdd 16 x.quar 1 else x.quar }

/-- A port that stops holds nothing to send, and the others keep their states. -/
theorem portStops_besides (s : State) (p st : Nat) : besides p (s.setPort p (halted (s.port p) st s.now)) (s.portStops p st) := by
  unfold State.portStops
  dsimp only
  refine besides_trans ?_ (besides_foldl (fun s m => ?_) _ _)
  · refine besides_trans (besides_foldl (fun s m => ?_) (s.port p).txq _) (besides_of_ports rfl)
    split
    · split
      · exact besides_refl p s
      · next hq => exact free1_besides s _ _ hq
    · exact besides_refl p s
  · split
    · exact besides_of_ports (undeliverable_ports s m)
    · exact besides_refl p s

theorem portStops_self (s : State) (p st : Nat) : (s.portStops p st).port p = halted (s.port p) st s.now :=
  (portStops_besides s p st).1.trans (port_setPort_self _ _ _)

/-- What a port that stops leaves of another's state. -/
theorem portStops_ne (s : State) (st : Nat) (h : q ≠ p) : ((s.portStops p st).port q).st = (s.port q).st ∧ ((s.portStops p st).port q).en = (s.port q).en := by
  have hf := (portStops_besides s p st).2 q
  rw [port_setPort_ne _ h] at hf
  unfold flows at hf
  exact ⟨(congrArg Port.st hf :), (congrArg Port.en hf :)⟩

/-! ### Retraining (R342, R361) -/

theorem retrain_few (hst : (s.port p).st = 2) (h : (s.port p).retrainAt.length < 15) : ∃ n at_, s.retrain p = s.setPort p { s.port p with
    st := 3, since := s.now, equal := false, hello := false, peer0 := (s.port p).peer, retrains := n, retrainAt := at_ } := by
  have hle := List.length_filter_le (fun t => decide (s.now < t + 60000000000)) (s.now :: (s.port p).retrainAt)
  rw [List.length_cons] at hle
  refine ⟨satAdd 8 (s.port p).retrains 1, (s.now :: (s.port p).retrainAt).filter fun t => decide (s.now < t + 60000000000), ?_⟩
  unfold State.retrain
  dsimp only
  exact (if_neg (by rw [hst]; exact nofun)).trans (if_neg (by omega))

/-- The sixteenth retraining within 60 s quarantines the port. -/
theorem retrain_many (hst : (s.port p).st = 2) (hlen : (s.port p).retrainAt.length = 15) (h : ∀ t ∈ (s.port p).retrainAt, s.now < t + 60000000000) :
    ((s.retrain p).port p).st = 5 := by
  have hall : ((s.now :: (s.port p).retrainAt).filter fun t => decide (s.now < t + 60000000000)) = s.now :: (s.port p).retrainAt := by
    rw [List.filter_eq_self]
    intro t ht
    rw [decide_eq_true_iff]
    rcases List.mem_cons.1 ht with rfl | ht
    · omega
    · exact h t ht
  unfold State.retrain
  dsimp only
  rw [hall, if_neg (by rw [hst]; exact nofun), if_pos (by rw [List.length_cons]; omega), portStops_self]
  rfl

theorem retrain_st (hst : (s.port p).st = 2) (h : (s.port p).retrainAt.length < 15) : ((s.retrain p).port p).st = 3 := by
  obtain ⟨n, at_, heq⟩ := retrain_few hst h
  rw [heq, port_setPort_self]

theorem retrain_down (hst : (s.port p).st ≠ 2) : s.retrain p = s := if_pos (bne_iff_ne.2 hst)

/-- More codewords uncorrectable within 1 ms than the limit retrain the port. -/
theorem fecIn_retrains {corr unc : Nat} (hst : (s.port p).st = 2) (h : codewordLimit (s.port p).mode < unc) (hlen : (s.port p).retrainAt.length < 15) :
    ((s.fecIn p corr unc).port p).st = 3 := by
  have hne : unc ≠ 0 := by omega
  have hmany : unc ≤ ((List.replicate unc s.now ++ (s.port p).uncAt).filter fun t => decide (s.now < t + 1000000)).length := by
    rw [List.filter_append, List.length_append]
    refine Nat.le_trans ?_ (Nat.le_add_right _ _)
    rw [List.filter_eq_self.2 fun t ht => by rw [List.eq_of_mem_replicate ht, decide_eq_true_iff]; omega, List.length_replicate]
  unfold State.fecIn
  dsimp only
  rw [if_neg hne, if_pos (by rw [Bool.and_eq_true, decide_eq_true_iff]; exact ⟨bne_iff_ne.2 hne, by omega⟩)]
  exact retrain_st (by rw [port_setPort_self]; exact hst) (by rw [port_setPort_self]; exact hlen)

end Stops

/-! ### Bring-up (R339–R342) -/

section BringUp
variable {s : State} {p : Nat}

theorem moves.st {t : State} (h : moves s t) (p : Nat) : (t.port p).st = (s.port p).st := (h.2 p).keepsPeer.1

theorem resendFrom_moves (s : State) (p i : Nat) : moves s (s.resendFrom p i) := moves_foldl _ (fun s _ => emit_moves s _) s

theorem portUp_st (s : State) (p : Nat) : ((s.portUp p).port p).st = 2 := by
  have hset : ((s.setPort p { s.port p with st := 2, since := s.now, aackAt := s.now }).port p).st = 2 := by rw [port_setPort_self]
  unfold State.portUp
  dsimp only
  split
  · exact hset
  · rw [(moves_trans (pump_moves _ _ _) (fill_moves _ _)).st]
    split
    · rw [(resendFrom_moves _ _ _).st]
      exact hset
    · exact hset

theorem helloDone_waits (h : (s.port p).equal = false ∨ (s.port p).hello = false) : s.helloDone p = s := by
  refine if_pos ?_
  rcases h with h | h
  · rw [h]
    rfl
  · rw [h, Bool.and_false]
    rfl

theorem helloDone_up (he : (s.port p).equal = true) (hh : (s.port p).hello = true) (h : (s.port p).st ≠ 3 ∨ (s.port p).peer = (s.port p).peer0) :
    ((s.helloDone p).port p).st = 2 := by
  unfold State.helloDone
  dsimp only
  rw [he, hh, if_neg nofun, if_neg, portUp_st]
  rw [Bool.and_eq_true, decide_eq_true_iff, bne_iff_ne]
  rintro ⟨h1, h2⟩
  exact h.elim (· h1) (h2 ·)

theorem helloDone_stranger (he : (s.port p).equal = true) (hh : (s.port p).hello = true) (h3 : (s.port p).st = 3) (h : (s.port p).peer ≠ (s.port p).peer0) :
    ((s.helloDone p).port p).st = 4 := by
  unfold State.helloDone
  dsimp only
  rw [he, hh, if_neg nofun, if_pos (by rw [h3]; exact bne_iff_ne.2 h), portStops_self]
  rfl

/-- A port that trains. -/
theorem train_spec (hen : (s.port p).en = true) (h : (s.port p).mode ≠ 0 ∨ s.lnk.modId ≠ 0xFFFFF) :
    ((s.train p).port p).st = 1 ∧ ((s.train p).port p).mode = (s.port p).mode ∧ ((s.train p).port p).en = true := by
  have hquad : ∀ (u : State) (q : Nat), (u.quadPower q).port p = u.port p := fun _ _ => rfl
  unfold State.train
  dsimp only
  rw [hen, if_neg, hquad, port_setPort_self]
  · exact ⟨rfl, rfl, rfl⟩
  · rw [Bool.not_true, Bool.false_or, Bool.and_eq_true, decide_eq_true_iff, decide_eq_true_iff]
    exact fun hc => h.elim (· hc.1) (· hc.2)

theorem equalisationDone_other {lock : Bool} (h1 : (s.port p).st ≠ 1) (h3 : (s.port p).st ≠ 3) : Machine.equalisationDone p lock s = s :=
  if_pos (by rw [bne_iff_ne.2 h1, bne_iff_ne.2 h3]; rfl)

theorem training_iff {x : Port} : (x.st != 1 && x.st != 3) = true ↔ ¬(x.st = 1 ∨ x.st = 3) := by
  rw [Bool.and_eq_true, bne_iff_ne, bne_iff_ne, not_or]

theorem equalisationDone_ethernet {lock : Bool} (h : (s.port p).st = 1 ∨ (s.port p).st = 3) (hmode : (s.port p).mode ≠ 0) :
    Machine.equalisationDone p lock s = if lock then s.portUp p else s :=
  (if_neg fun hc => training_iff.1 hc h).trans (if_neg hmode)

theorem equalisationDone_lerbo {lock : Bool} (h : (s.port p).st = 1 ∨ (s.port p).st = 3) (hmode : (s.port p).mode = 0) :
    Machine.equalisationDone p lock s = ((s.setPort p { s.port p with equal := true }).sendFlit p 3 0 false 0 s.helloBytes none).helloDone p :=
  (if_neg fun hc => training_iff.1 hc h).trans (if_pos hmode)

theorem helloBytes_eq (s : State) :
    s.helloBytes = leBytes 1 1 ++ leBytes 3 s.lnk.modId ++ leBytes 2 256 ++ leBytes 2 256 ++ leBytes 2 64 ++ leBytes 2 1024 := by
  unfold State.helloBytes
  rw [show List.range 4 = [0, 1, 2, 3] from rfl]
  simp only [List.flatMap_cons, List.flatMap_nil, List.append_nil, List.append_assoc]
  rfl

/-! ### HELLO (R341, R342) -/

theorem takeAack_port (s : State) (p n : Nat) : ∃ b a, (s.takeAack p n).port p = { s.port p with buf := b, aackAt := a } := by
  unfold State.takeAack
  dsimp only
  split
  · exact ⟨(s.port p).buf, (s.port p).aackAt, rfl⟩
  · split
    · exact ⟨(s.port p).buf, (s.port p).aackAt, rfl⟩
    · exact ⟨_, _, port_setPort_self _ _ _⟩

theorem hello_training {f : HelloF} (hst : (s.port p).st = 1) (hmode : (s.port p).mode = 0) : Machine.hello p f s =
    ((s.setPort p { s.port p with
      hello := true, peer := f.id.toNat, credit := [f.buf0.toNat, f.buf1.toNat, f.buf2.toNat, f.buf3.toNat]
      rxSeq := (f.ctrl.fseq.toNat + 1) % 4096 }).takeAack p f.ctrl.aack.toNat).helloDone p := by
  unfold Machine.hello
  dsimp only
  rw [if_neg (by rw [hmode]; exact nofun), if_neg (by rw [hst]; decide), if_pos hst]

theorem hello_retraining {f : HelloF} (hst : (s.port p).st = 3) (hmode : (s.port p).mode = 0) : ∃ n q, Machine.hello p f s =
    ((s.setPort p { s.port p with hello := true, peer := f.id.toNat, rxSeq := n, helloSeq := q }).takeAack p f.ctrl.aack.toNat).helloDone p := by
  refine ⟨if f.ctrl.fseq.toNat = (s.port p).rxSeq then (f.ctrl.fseq.toNat + 1) % 4096 else (s.port p).rxSeq,
    if f.ctrl.fseq.toNat = (s.port p).rxSeq then none else some f.ctrl.fseq.toNat, ?_⟩
  unfold Machine.hello
  dsimp only
  rw [if_neg (by rw [hmode]; exact nofun), if_neg (by rw [hst]; decide), if_neg (by rw [hst]; decide), if_pos hst]

theorem seqIn_moves (s : State) (p : Nat) : moves s (s.seqIn p) := by
  refine setPort_moves ?_
  rfl

/-- A HELLO while UP, in its turn and not heard before, is a violation, and retrains the port. -/
theorem hello_up {f : HelloF} (hst : (s.port p).st = 2) (hmode : (s.port p).mode = 0) (hseq : f.ctrl.fseq.toNat = (s.port p).rxSeq)
    (hnone : (s.port p).helloSeq = none) (hviol : (s.port p).violAt.length < 255) (hret : (s.port p).retrainAt.length < 15) :
    ((Machine.hello p f s).port p).st = 3 ∧ ((Machine.hello p f s).port p).violLast = 8 := by
  obtain ⟨u, hu⟩ : ∃ u, u = (s.linkIn p f.ctrl.aack.toNat f.ctrl.credVc.toNat f.ctrl.cred.toNat).seqIn p := ⟨_, rfl⟩
  have hflow : flows (s.port p) (u.port p) := by
    rw [hu]
    exact (moves_trans (moves_trans (takeAack_moves _ _ _) (takeCredit_moves _ _ _ _)) (seqIn_moves _ _)).2 p
  have heq : Machine.hello p f s = (u.violate p 8).retrain p := by
    unfold Machine.hello
    dsimp only
    rw [if_neg (by rw [hmode]; exact nofun), if_pos hst, if_neg (by rw [hseq, bne_self_eq_false]; exact Bool.false_ne_true), ← hu,
      if_neg (by rw [hnone]; exact nofun)]
  unfold flows at hflow
  obtain ⟨n, at_, hviolate⟩ := violate_few (s := u) (p := p) (row := 8) (by rw [hflow]; exact hviol)
  have hport : (u.violate p 8).port p = { u.port p with violN := n, violLast := 8, violAt := at_ } := by
    rw [hviolate, port_setPort_self]
  obtain ⟨m, at', hretrain⟩ := retrain_few (s := u.violate p 8) (p := p) (by rw [hport, hflow]; exact hst) (by rw [hport, hflow]; exact hret)
  rw [heq, hretrain, port_setPort_self, hport]
  exact ⟨rfl, rfl⟩

end BringUp

/-! ### The PLL of a quad (R340, R361) -/

section Quad
variable {s : State} {p j : Nat}

/-- A port of a quad that loses lock. -/
def lockLost (s : State) (j : Nat) : State := if (s.port j).en && (s.port j).st != 4 && (s.port j).st != 5 then s.portStops j 4 else s

theorem lockLost_ne (h : p ≠ j) : ((lockLost s j).port p).st = (s.port p).st ∧ ((lockLost s j).port p).en = (s.port p).en := by
  unfold lockLost
  split
  · exact portStops_ne s 4 h
  · exact ⟨rfl, rfl⟩

theorem lockLost_down (hen : (s.port p).en = true) (h5 : (s.port p).st ≠ 5) :
    ((lockLost s p).port p).st = 4 ∧ ((lockLost s p).port p).en = true := by
  unfold lockLost
  split
  · rw [portStops_self]
    exact ⟨rfl, hen⟩
  · next hc =>
    rw [hen, Bool.true_and, Bool.and_eq_true, bne_iff_ne, bne_iff_ne] at hc
    exact ⟨by_contra fun h4 => hc ⟨h4, h5⟩, hen⟩

theorem lockLost_off (h : (s.port p).en = false ∨ (s.port p).st = 5) : lockLost s p = s := by
  refine if_neg ?_
  rcases h with h | h
  · rw [h]
    exact nofun
  · rw [h, Bool.and_eq_true]
    exact fun hc => nomatch hc.2

theorem quad_down (l : List Nat) (s : State) (hen : (s.port p).en = true) (h5 : (s.port p).st ≠ 5) :
    ((l.foldl lockLost s).port p).st = if p ∈ l then 4 else (s.port p).st := by
  induction l generalizing s with
  | nil => rfl
  | cons j l ih =>
    rw [List.foldl_cons]
    by_cases hj : p = j
    · subst hj
      obtain ⟨hst, hen'⟩ := lockLost_down hen h5
      rw [ih _ hen' (by rw [hst]; decide), hst, ite_self, if_pos List.mem_cons_self]
    · obtain ⟨hst, hen'⟩ := lockLost_ne (s := s) hj
      rw [ih _ (hen'.trans hen) (by rw [hst]; exact h5), hst]
      exact if_congr (by rw [List.mem_cons, or_iff_right hj]) rfl rfl

theorem quad_off (l : List Nat) (s : State) (h : (s.port p).en = false ∨ (s.port p).st = 5) : ((l.foldl lockLost s).port p).st = (s.port p).st := by
  induction l generalizing s with
  | nil => rfl
  | cons j l ih =>
    rw [List.foldl_cons]
    by_cases hj : p = j
    · subst hj
      rw [lockLost_off h, ih s h]
    · obtain ⟨hst, hen⟩ := lockLost_ne (s := s) hj
      rw [ih _ (by rw [hst, hen]; exact h), hst]

theorem pllLockLoss_eq (q : Nat) (s : State) : Machine.pllLockLoss q s = ((List.range 4).map fun i => 4 * q + i).foldl lockLost s := by
  rw [List.foldl_map]
  rfl

end Quad


/-! ### Timers and configuration (R339, R341, R342) -/

section Timers
variable {s : State} {p : Nat}

theorem portFor_iff {st ns : Nat} : s.portFor p st ns = true ↔ (s.port p).st = st ∧ (s.port p).since + ns ≤ s.now := by
  unfold State.portFor
  dsimp only
  rw [Bool.and_eq_true, beq_iff_eq, decide_eq_true_iff]

theorem portFor_not {st ns : Nat} (h : (s.port p).st ≠ st ∨ s.now < (s.port p).since + ns) : ¬s.portFor p st ns = true := by
  rw [portFor_iff]
  rintro ⟨h1, h2⟩
  exact h.elim (· h1) fun h => absurd h2 (by omega)

theorem portStops_st (s : State) (p st : Nat) : ((s.portStops p st).port p).st = st := by
  rw [portStops_self]
  rfl

theorem aackDue_up (h : s.aackDue p = true) : (s.port p).st = 2 := by
  unfold State.aackDue at h
  dsimp only at h
  rw [Bool.and_eq_true, Bool.and_eq_true, Bool.and_eq_true, beq_iff_eq] at h
  exact h.1.1.1

/-- EN and MODE written to a DISABLED port begin its training. -/
theorem pcfgWrite_starts {v : Nat} (hbar : s.barUp = true) (hst : (s.port p).st = 0) (h : bits v 0 2 ≠ 0 ∨ s.lnk.modId ≠ 0xFFFFF) (hen : bit v 2 = true)
    (hun : bit v 3 = false) : ((Machine.pcfgWrite p v s).port p).st = 1 ∧ ((Machine.pcfgWrite p v s).port p).mode = bits v 0 2 ∧
      ((Machine.pcfgWrite p v s).port p).en = true := by
  have hset : (s.setPort p { s.port p with mode := bits v 0 2, en := true }).port p = { s.port p with mode := bits v 0 2, en := true } := port_setPort_self _ _ _
  have heq : Machine.pcfgWrite p v s = (s.setPort p { s.port p with mode := bits v 0 2, en := true }).train p := by
    unfold Machine.pcfgWrite
    dsimp only
    rw [hbar, hst, hen, hun]
    rfl
  have ht := train_spec (s := s.setPort p { s.port p with mode := bits v 0 2, en := true }) (p := p) (by rw [hset]) (by rw [hset]; exact h)
  rw [hset] at ht
  rw [heq]
  exact ht

/-- EN = 0 stops an UP port, whatever MODE is written. -/
theorem pcfgWrite_stops {v : Nat} (hbar : s.barUp = true) (hst : (s.port p).st = 2) (hen : bit v 2 = false) (hun : bit v 3 = false) :
    ((Machine.pcfgWrite p v s).port p).st = 0 ∧ ((Machine.pcfgWrite p v s).port p).mode = (s.port p).mode ∧ ((Machine.pcfgWrite p v s).port p).buf = [] := by
  obtain ⟨u, hu⟩ : ∃ u, Machine.pcfgWrite p v s = (State.setPort u p { s.port p with mode := (s.port p).mode, en := false }).portStops p 0 := by
    refine ⟨if (s.port p).st != 0 && bits v 0 2 != (s.port p).mode then s.ignoredReg uPort p else s, ?_⟩
    unfold Machine.pcfgWrite
    dsimp only
    have hne : ¬(s.port p).st = 0 := by rw [hst]; decide
    rw [hbar, hen, hun, if_neg hne, if_neg hne]
    exact (if_neg Bool.false_ne_true).trans ((if_neg Bool.false_ne_true).trans (if_pos (by rw [hst]; rfl)))
  rw [hu, portStops_self, port_setPort_self]
  exact ⟨rfl, rfl, rfl⟩

end Timers

section Frames
variable {s t : State} {p : Nat}

/-- A HELLO that has been sent leaves what its port waits for. -/
theorem sentHello_kept {x : Port} (h : moves (s.setPort p { x with equal := true }) t) :
    (t.port p).equal = true ∧ (t.port p).hello = x.hello ∧ (t.port p).st = x.st := by
  have hf := h.2 p
  rw [port_setPort_self] at hf
  unfold flows at hf
  exact ⟨(congrArg Port.equal hf :), (congrArg Port.hello hf :), (congrArg Port.st hf :)⟩

/-- What a sequenced flit that is sent leaves. -/
theorem sendFlit_spec {kind vc dst : Nat} {last : Bool} {payload : List Byte} {msg : Option LMsg} {y : Port} (hy : s.port p = y) :
    let b := flitBytes kind vc last y.txSeq y.rxSeq y.returns.1 y.returns.2 dst payload
    let t := s.sendFlit p kind vc last dst payload msg
    t.out = s.out ++ [.flit p b] ∧ (t.port p).buf = y.buf ++ [⟨y.txSeq, msg, b⟩] ∧ (t.port p).txSeq = (y.txSeq + 1) % 4096 := by
  subst hy
  have hport : ∀ (x : Port) (o : Output), ((s.setPort p x).emit o).port p = x := fun _ _ => port_setPort_self _ _ _
  unfold State.sendFlit
  dsimp only
  rw [hport]
  exact ⟨rfl, rfl, rfl⟩

theorem flit_retrained {f : FlitF} (hst : (s.port p).st = 2) (hmode : (s.port p).mode = 0) (h : ((s.fecIn p f.corr f.unc).port p).st = 3) :
    ((Machine.flit p f s).port p).st = 3 := by
  unfold Machine.flit
  dsimp only
  rw [if_neg (by rw [hst, hmode]; exact nofun)]
  split
  · exact h
  · rw [if_pos (by rw [h]; rfl)]
    exact h

theorem frame_retrained {q : Fin 96} {f : FrameF} {l : List Byte} (hst : (s.port q.val).st = 2) (hmode : (s.port q.val).mode ≠ 0)
    (h : ((s.fecIn q.val f.corr f.unc).port q.val).st = 3) : ((Machine.ethernetFrame q f l s).port q.val).st = 3 := by
  have hc : (if (s.port q.val).st = 2 && (s.port q.val).mode != 0 then s.fecIn q.val f.corr f.unc else s) = s.fecIn q.val f.corr f.unc :=
    if_pos (by rw [hst]; exact bne_iff_ne.2 hmode)
  unfold Machine.ethernetFrame
  dsimp only
  rw [hc, if_pos (by rw [h]; rfl), h]

theorem frame_down {q : Fin 96} {f : FrameF} {l : List Byte} (hst : (s.port q.val).st ≠ 2) : Machine.ethernetFrame q f l s = s := by
  have hc : (if (s.port q.val).st = 2 && (s.port q.val).mode != 0 then s.fecIn q.val f.corr f.unc else s) = s :=
    if_neg (by rw [decide_eq_false hst]; exact nofun)
  unfold Machine.ethernetFrame
  dsimp only
  rw [hc, if_pos (by rw [bne_iff_ne.2 hst]; rfl)]

end Frames

/-- Settles O50: a port that stops or trains keeps the others as they are, and what its messages leave behind changes no port. -/
theorem linkStates : Obligations.LinkStates := by
  unfold Obligations.LinkStates
  intro s p x at_
  have hat : ∀ {c : Instr} {t : State} {n : Nat}, exec c s = .next t → (t.port p.val).st = n → at_ c n := fun hc hn => ⟨_, hc, hn⟩
  refine ⟨fun h1 h3 lock => ?_, fun hst hmode => ⟨?_, ?_⟩, fun hst hmode hhello lock => ?_, fun hst hmode hhello lock => ?_, fun f hst hmode hequal => ?_,
    fun f hst hmode hequal => ?_, fun f hst hmode hequal => ⟨fun hid => ?_, fun hid => ?_⟩, fun f hst hmode hseq hnone hviol hret => ?_,
    fun hst f g l => ⟨?_, ?_⟩, fun f hst hmode hunc hret => ?_, fun f l hst hmode hunc hret => ?_, fun hst hret => ?_, fun hst hlen hall => ?_, fun hst => ?_,
    fun hdue hret => ?_, fun hdue => ?_, fun hst hdue => ?_, fun h => ?_, fun hst hdue => ?_, fun h => ?_, fun hst hdue hen hmode => ?_, fun h => ?_,
    fun q i hp => ⟨fun hen h5 => ?_, fun h => ?_⟩, fun v hbar hst hmode hen hun => ?_, fun v hbar hst hen hun => ?_, fun hbar hst hen hmode => ?_, fun h5 => ?_⟩
  · exact congrArg Host.Outcome.next (equalisationDone_other h1 h3)
  · exact hat rfl (by rw [equalisationDone_ethernet hst hmode]; exact portUp_st s p.val)
  · exact congrArg Host.Outcome.next (equalisationDone_ethernet hst hmode)
  · have hm := sendFlit_moves (s.setPort p.val { x with equal := true }) p.val 3 0 false 0 s.helloBytes none
    obtain ⟨hequal, hhello', hst'⟩ := sentHello_kept hm
    exact hat (congrArg Host.Outcome.next (equalisationDone_lerbo (.inl hst) hmode))
      (helloDone_up hequal (hhello'.trans hhello) (.inl (by rw [hst', show (s.port p.val).st = 1 from hst]; decide)))
  · have hm := sendFlit_moves (s.setPort p.val { x with equal := true }) p.val 3 0 false 0 s.helloBytes none
    obtain ⟨hequal, hhello', hst'⟩ := sentHello_kept hm
    refine ⟨_, congrArg Host.Outcome.next ((equalisationDone_lerbo hst hmode).trans (helloDone_waits (.inr (hhello'.trans hhello)))), ?_⟩
    have hsent := sendFlit_spec (s := s.setPort p.val { x with equal := true }) (p := p.val) (kind := 3) (vc := 0) (last := false) (dst := 0) (payload := s.helloBytes)
      (msg := none) (port_setPort_self _ _ _)
    obtain ⟨hout, hbuf, hseq⟩ := hsent
    rw [← helloBytes_eq]
    exact ⟨hout, hbuf, hseq, hst', hequal⟩
  · obtain ⟨b, a, hport⟩ := takeAack_port (s.setPort p.val { x with
      hello := true, peer := f.id.toNat, credit := [f.buf0.toNat, f.buf1.toNat, f.buf2.toNat, f.buf3.toNat]
      rxSeq := (f.ctrl.fseq.toNat + 1) % 4096 }) p.val f.ctrl.aack.toNat
    rw [port_setPort_self] at hport
    refine ⟨_, congrArg Host.Outcome.next ((hello_training hst hmode).trans (helloDone_waits (.inl ((congrArg Port.equal hport).trans hequal)))), ?_⟩
    rw [hport]
    exact ⟨hst, rfl, rfl, rfl, rfl⟩
  · obtain ⟨b, a, hport⟩ := takeAack_port (s.setPort p.val { x with
      hello := true, peer := f.id.toNat, credit := [f.buf0.toNat, f.buf1.toNat, f.buf2.toNat, f.buf3.toNat]
      rxSeq := (f.ctrl.fseq.toNat + 1) % 4096 }) p.val f.ctrl.aack.toNat
    rw [port_setPort_self] at hport
    refine hat (congrArg Host.Outcome.next (hello_training hst hmode)) (helloDone_up ?_ ?_ (.inl ?_))
    · rw [hport]; exact hequal
    · rw [hport]
    · rw [hport]; exact fun h => absurd (hst.symm.trans h) (by decide)
  · obtain ⟨n, q, heqn⟩ := hello_retraining (f := f) hst hmode
    obtain ⟨b, a, hport⟩ := takeAack_port (s.setPort p.val { x with hello := true, peer := f.id.toNat, rxSeq := n, helloSeq := q }) p.val f.ctrl.aack.toNat
    rw [port_setPort_self] at hport
    refine hat (congrArg Host.Outcome.next heqn) (helloDone_up ?_ ?_ (.inr ?_))
    · rw [hport]; exact hequal
    · rw [hport]
    · rw [hport]; exact hid
  · obtain ⟨n, q, heqn⟩ := hello_retraining (f := f) hst hmode
    obtain ⟨b, a, hport⟩ := takeAack_port (s.setPort p.val { x with hello := true, peer := f.id.toNat, rxSeq := n, helloSeq := q }) p.val f.ctrl.aack.toNat
    rw [port_setPort_self] at hport
    refine hat (congrArg Host.Outcome.next heqn) (helloDone_stranger ?_ ?_ ?_ ?_)
    · rw [hport]; exact hequal
    · rw [hport]
    · rw [hport]; exact hst
    · rw [hport]; exact hid
  · exact ⟨_, rfl, hello_up hst hmode hseq hnone hviol hret⟩
  · exact congrArg Host.Outcome.next (if_pos (by rw [bne_iff_ne.2 hst]; rfl))
  · exact congrArg Host.Outcome.next (frame_down hst)
  · exact hat rfl (flit_retrained hst hmode (fecIn_retrains hst hunc hret))
  · exact hat rfl (frame_retrained hst hmode (fecIn_retrains hst hunc hret))
  · exact hat rfl (retrain_st (by rw [port_setPort_self]; exact hst) (by rw [port_setPort_self]; exact hret))
  · exact hat rfl (retrain_many (by rw [port_setPort_self]; exact hst) (by rw [port_setPort_self]; exact hlen) (by rw [port_setPort_self]; exact hall))
  · exact congrArg Host.Outcome.next (retrain_down (by rw [port_setPort_self]; exact hst))
  · exact hat (congrArg Host.Outcome.next (if_pos hdue)) (retrain_st (aackDue_up hdue) hret)
  · exact congrArg Host.Outcome.next (if_neg (by rw [hdue]; exact nofun))
  · exact hat (congrArg Host.Outcome.next (if_pos (portFor_iff.2 ⟨hst, hdue⟩))) (portStops_st _ _ _)
  · exact congrArg Host.Outcome.next (if_neg (portFor_not h))
  · exact hat (congrArg Host.Outcome.next (if_pos (portFor_iff.2 ⟨hst, hdue⟩))) (portStops_st _ _ _)
  · exact congrArg Host.Outcome.next (if_neg (portFor_not h))
  · exact hat (congrArg Host.Outcome.next (if_pos (portFor_iff.2 ⟨hst, hdue⟩))) (train_spec hen hmode).1
  · exact congrArg Host.Outcome.next (if_neg (portFor_not h))
  · refine hat (congrArg Host.Outcome.next (pllLockLoss_eq q.val s)) ?_
    rw [quad_down _ s hen h5, if_pos (List.mem_map.2 ⟨i.val, List.mem_range.2 i.isLt, hp.symm⟩)]
  · refine hat (congrArg Host.Outcome.next (pllLockLoss_eq q.val s)) (quad_off _ s h)
  · exact ⟨_, rfl, pcfgWrite_starts hbar hst hmode hen hun⟩
  · exact ⟨_, rfl, pcfgWrite_stops hbar hst hen hun⟩
  · exact hat (congrArg Host.Outcome.next (if_pos (by rw [hbar]; exact beq_iff_eq.2 hst))) (train_spec hen hmode).1
  · refine congrArg Host.Outcome.next (if_neg ?_)
    rw [Bool.and_eq_true, beq_iff_eq]
    exact fun h => h5 h.2

end Sys2Proof.Stated
end

section
/-! SUPPORT. Signals, unit requests and answers, and the rows of remote sends, as they arrive over Lerbo (R208, R214, R217, R223, R351). -/
namespace Sys2Proof.Stated
open Sys2Proof.Machine

section Sent
variable {s x y : State}

/-- A message whose loss nobody hears of here moves the transport only. -/
theorem lerboSend_transport (s : State) {dst mtype : Nat} {body : List Byte} (h1 : mtype ≠ 0x21) (h2 : mtype ≠ 0x02) : transport s (s.lerboSend dst mtype body) := by
  have hq := (enqueue_moves s (s.ownMsg dst mtype body)).1
  unfold State.lerboSend
  dsimp only
  split
  · exact hq
  · have hlost : (s.enqueue (s.ownMsg dst mtype body)).2.undeliverable (s.ownMsg dst mtype body) = (s.enqueue (s.ownMsg dst mtype body)).2 :=
      (if_neg h1).trans (if_neg h2)
    rw [hlost]
    exact hq

theorem transport_foldl {α : Type} {f : State → α → State} (hf : ∀ s x, transport s (f s x)) (l : List α) (s : State) : transport s (l.foldl f s) := by
  induction l generalizing s with
  | nil => exact transport_refl s
  | cons a l ih => exact transport_trans (hf s a) (ih _)

theorem unitReqs_transport (s : State) (ms : List Nat) (tag cmd : Nat) (desc : List Byte) : transport s (s.unitReqs ms tag cmd desc) :=
  transport_foldl (fun s _ => lerboSend_transport s (by decide) (by decide)) ms s

/-- What is sent after the bridles' part has changed leaves that part as it was made. -/
theorem transport_brd {B : Brd} (hx : transport s x) (h : transport { x with brd := B } y) : transport s { y with brd := s.brd } ∧ y = { { y with brd := s.brd } with brd := B } := by
  unfold transport at *
  rw [h]
  dsimp only
  rw [hx]
  exact ⟨rfl, rfl⟩

end Sent

section Handlers
variable {s x : State} {r : LRx}

/-! ### SIGNAL (R223) -/

theorem signalRx_of {b amt : Nat} (h : delivered s r 0x21 (leBytes 4 b ++ leBytes 4 amt) x) (hb : b < 65536) {u : Nat} {tr : Train}
    (hu : x.bridleTrain b = some u) (ht : mapGet x.brd.trains u = some tr) (hm : ∃ y ∈ tr.runs, y.modId = x.normMod r.src.toNat) :
    Machine.signalRx r b amt s = { x with brd := { x.brd with arrivals := x.brd.arrivals ++ [⟨b, x.fabBy x.cyc, amt, false⟩] } } := by
  have hany : (tr.runs.any fun y => y.modId == x.normMod r.src.toNat) = true := by
    obtain ⟨y, hy, heq⟩ := hm
    exact List.any_eq_true.2 ⟨y, hy, beq_iff_eq.2 heq⟩
  unfold Machine.signalRx
  rw [h.1]
  dsimp only
  rw [if_neg (by exact Bool.false_ne_true), if_neg (by omega), hu, Option.bind_some, ht]
  exact if_pos hany

/-! ### UNIT_REQ and UNIT_RSP (R350) -/

/-- A request that is acted on is answered. -/
theorem unitReq_acts {tag cmd c : Nat} {d : List Byte} {y : State} (h : delivered s r 0x01 (leBytes 8 tag ++ leBytes 1 cmd ++ leBytes 7 0 ++ d) x)
    (h0 : cmd ≠ 0) (h5 : cmd ≤ 5) (hact : x.unitAct r.src.toNat tag cmd d = (c, y)) (hc : c ≠ 2) : transport y (Machine.unitReq r tag cmd 0 d s) := by
  have heq : Machine.unitReq r tag cmd 0 d s = y.lerboSend r.src.toNat 0x11 (leBytes 8 tag ++ leBytes 1 c ++ leBytes 7 0) := by
    unfold Machine.unitReq
    rw [h.1]
    dsimp only
    rw [hact]
    dsimp only
    rw [if_neg hc, if_neg (by exact Bool.false_ne_true), if_neg]
    rw [bne_self_eq_false, Bool.false_or, decide_eq_false h0, decide_eq_false (by omega)]
    exact nofun
  rw [heq]
  exact lerboSend_transport _ (by decide) (by decide)

theorem unitAct_define {src tag : Nat} {d : List Byte} {tr : Train} (h : x.defineCheck d = (0, tr)) : x.unitAct src tag 1 d =
    (0, if x.mine tr.runs = [] then x else { x with brd := { x.brd with
      trains := mapSet x.brd.trains (fieldLe d 0 4) tr, defs := mapSet x.brd.defs (fieldLe d 0 4) (src, tag) } }) := by
  unfold State.unitAct
  dsimp only
  rw [if_pos (show (1 : Nat) = reqDefine from rfl), h]
  dsimp only
  cases x.mine tr.runs with
  | nil => exact congrArg (Prod.mk 0) ((if_neg nofun).trans (if_pos rfl).symm)
  | cons a l => exact congrArg (Prod.mk 0) ((if_pos rfl).trans (if_neg nofun).symm)

theorem unitAct_go {src tag : Nat} {d : List Byte} {l : LDesc} (h : mapGet x.brd.prepared src = some l) :
    x.unitAct src tag 3 d = (0, { x.go l with brd := { (x.go l).brd with prepared := mapDel (x.go l).brd.prepared src } }) := by
  unfold State.unitAct
  dsimp only
  rw [if_neg (show ¬(3 : Nat) = reqDefine from nofun), if_neg (show ¬(3 : Nat) = reqPrepare from nofun), if_pos (show (3 : Nat) = reqGo from rfl), h]

theorem unitAct_unprepared {src tag : Nat} {d : List Byte} (h : mapGet x.brd.prepared src = none) : x.unitAct src tag 3 d = (4, x) := by
  unfold State.unitAct
  dsimp only
  rw [if_neg (show ¬(3 : Nat) = reqDefine from nofun), if_neg (show ¬(3 : Nat) = reqPrepare from nofun), if_pos (show (3 : Nat) = reqGo from rfl), h]

theorem unitAct_halt {src tag : Nat} {d : List Byte} {rs : List Run} (hd : descBad d = false) (hu : x.unitRuns (fieldLe d 0 4) = some rs)
    (hs : x.isServing (fieldLe d 0 4) = false) : x.unitAct src tag 4 d = (0, x.haltUnitKites (fieldLe d 0 4) rs) := by
  unfold State.unitAct
  dsimp only
  rw [if_neg (show ¬(4 : Nat) = reqDefine from nofun), if_neg (show ¬(4 : Nat) = reqPrepare from nofun), if_neg (show ¬(4 : Nat) = reqGo from nofun),
    hd, if_neg Bool.false_ne_true, if_pos (show (4 : Nat) = reqHalt from rfl), hu, hs]
  exact if_neg Bool.false_ne_true

theorem unitAct_delete {src tag : Nat} {d : List Byte} (hd : descBad d = false)
    (h : x.deleteStatus (fieldLe d 0 4) = 0 ∨ mapGet x.brd.defs (fieldLe d 0 4) = some (src, tag)) :
    x.unitAct src tag 5 d = (0, x.removeTrain (fieldLe d 0 4)) := by
  unfold State.unitAct
  dsimp only
  rw [if_neg (show ¬(5 : Nat) = reqDefine from nofun), if_neg (show ¬(5 : Nat) = reqPrepare from nofun), if_neg (show ¬(5 : Nat) = reqGo from nofun),
    hd, if_neg Bool.false_ne_true, if_neg (show ¬(5 : Nat) = reqHalt from nofun)]
  split
  · rfl
  · next hn => rw [h.resolve_right hn, if_pos rfl]

theorem unitRsp_of {tag status : Nat} (h : delivered s r 0x11 (leBytes 8 tag ++ leBytes 1 status ++ leBytes 7 0) x) (h9 : status ≤ 9) :
    Machine.unitRsp r tag status 0 s =
      match mapGet x.brd.undone tag, x.brd.op with
      | some u, _ => if status = 0 then x.unitReqs [r.src.toNat] tag reqDelete (x.trainDesc u ⟨[(r.src.toNat, 0)], [], []⟩) else x
      | none, none => x
      | none, some o =>
        if o.tag != tag || !o.waiting.contains r.src.toNat then x
        else if (o.waiting.filter fun x => x != r.src.toNat).isEmpty then
          x.unitFinish { o with status := worse o.status status, waiting := o.waiting.filter fun x => x != r.src.toNat }
        else { x with brd := { x.brd with op := some { o with status := worse o.status status, waiting := o.waiting.filter fun x => x != r.src.toNat } } } := by
  unfold Machine.unitRsp
  rw [h.1]
  dsimp only
  refine (if_neg (by exact Bool.false_ne_true)).trans ((if_neg ?_).trans rfl)
  rw [bne_self_eq_false, Bool.false_or, decide_eq_true_iff]
  omega

/-- An answer that nothing waits for. -/
theorem unitRsp_stale {tag status : Nat} (h : delivered s r 0x11 (leBytes 8 tag ++ leBytes 1 status ++ leBytes 7 0) x) (h9 : status ≤ 9)
    (hu : (∃ u, mapGet x.brd.undone tag = some u) ∨ mapGet x.brd.undone tag = none ∧ x.brd.op = none) : transport s (Machine.unitRsp r tag status 0 s) := by
  rw [unitRsp_of h h9]
  refine transport_trans h.2.1 ?_
  rcases hu with ⟨u, hu⟩ | ⟨hu, hop⟩
  · rw [hu]
    dsimp only
    split
    · exact unitReqs_transport _ _ _ _ _
    · exact transport_refl x
  · rw [hu, hop]
    exact transport_refl x

/-- An answer to the command in progress. -/
theorem unitRsp_answers {tag status : Nat} {o : UnitOp} (h : delivered s r 0x11 (leBytes 8 tag ++ leBytes 1 status ++ leBytes 7 0) x) (h9 : status ≤ 9)
    (hu : mapGet x.brd.undone tag = none) (hop : x.brd.op = some o) (ht : o.tag = tag) (hw : r.src.toNat ∈ o.waiting) :
    Machine.unitRsp r tag status 0 s =
      if (o.waiting.filter fun x => x != r.src.toNat).isEmpty then
        x.unitFinish { o with status := worse o.status status, waiting := o.waiting.filter fun x => x != r.src.toNat }
      else { x with brd := { x.brd with op := some { o with status := worse o.status status, waiting := o.waiting.filter fun x => x != r.src.toNat } } } := by
  rw [unitRsp_of h h9, hu, hop]
  dsimp only
  exact if_neg (by rw [ht, bne_self_eq_false, List.contains_iff_mem.2 hw]; exact nofun)

theorem unitFinish_halt {o : UnitOp} (h : o.kind = 4) : x.unitFinish o = { x with brd := { x.brd with status := o.status, op := none } } := by
  unfold State.unitFinish
  rw [h]
  rfl

theorem unitFinish_prepared {o : UnitOp} (h : o.kind = 3) (h0 : o.status = 0) :
    x.unitFinish o = { x with brd := { x.brd with op := some { o with waiting := [] } } } := by
  unfold State.unitFinish
  rw [h, h0]
  rfl

/-! ### WRITE and WRITE_DONE (R351) -/

/-- The body of a WRITE (Table 15.4). -/
def writeBody (f : LWrite) (rows : List Byte) : List Byte :=
  leBytes 8 f.tag.toNat ++ leBytes 2 f.kite.toNat ++ leBytes 2 f.dest.toNat ++ leBytes 2 f.first.toNat
    ++ leBytes 2 f.rows.toNat ++ leBytes 2 f.total.toNat ++ leBytes 4 f.bridle.toNat ++ leBytes 2 f.rsv.toNat ++ rows

theorem writeBody_len (f : LWrite) (rows : List Byte) : (writeBody f rows).length = 24 + rows.length := by
  unfold writeBody
  simp only [List.length_append, leBytes_len]

/-- The rows of a WRITE as they enter the inbound path. -/
def inbounds (src : Nat) (f : LWrite) (d : Nat) (reel : Option Nat) (rows : List Byte) : List Inbound :=
  (List.range f.rows.toNat).map fun i =>
    ⟨wrapRow (d + f.first.toNat + i), reel, leNat (sliceBytes rows (512 * i) 512), 0, none,
      some (src, f.tag.toNat, if f.bridle.toNat < 65536 then some f.bridle.toNat else none), 0⟩

/-- What a WRITE without a fault of its fields finds. -/
theorem writeRows_of {f : LWrite} {rows : List Byte} (h : delivered s r 0x02 (writeBody f rows) x) (hrsv : f.rsv = 0) (h1 : 1 ≤ f.rows.toNat)
    (h16 : f.rows.toNat ≤ 16) (htot : f.total ≠ 0) (hlen : rows.length = 512 * f.rows.toNat) (hk : x.kiteOn f.kite.toNat = true)
    (hd : if 0x8000 ≤ f.dest.toNat then f.dest.toNat % 0x8000 < 32 else f.dest.toNat % 0x8000 < 16384) :
    Machine.writeRows r f rows s =
      if 0x8000 ≤ f.dest.toNat && !((x.kite f.kite.toNat).reel (f.dest.toNat % 0x8000)).en then
        x.lerboSend r.src.toNat 0x12 (leBytes 8 f.tag.toNat ++ leBytes 1 3 ++ leBytes 7 0)
      else
        let reel := if 0x8000 ≤ f.dest.toNat then some (f.dest.toNat % 0x8000) else none
        let y := if x.lnk.recvs.any fun y => y.src == r.src.toNat && y.tag == f.tag.toNat then x
          else { x with lnk := { x.lnk with recvs := x.lnk.recvs ++ [⟨r.src.toNat, f.tag.toNat, f.total.toNat, 0, f.kite.toNat, reel⟩] } }
        y.setKite f.kite.toNat { y.kite f.kite.toNat with
          inb := (y.kite f.kite.toNat).inb ++ inbounds r.src.toNat f (f.dest.toNat % 0x8000) reel rows } := by
  have htot' : f.total.toNat ≠ 0 := fun h0 => htot (BitVec.eq_of_toNat_eq h0)
  have hdest : ¬(if 0x8000 ≤ f.dest.toNat then decide (32 ≤ f.dest.toNat % 0x8000) else decide (16384 ≤ f.dest.toNat % 0x8000)) = true := by
    split at hd
    · next hr => rw [if_pos hr, decide_eq_true_iff]; omega
    · next hr => rw [if_neg hr, decide_eq_true_iff]; omega
  have hx := h.1
  unfold writeBody at hx
  unfold Machine.writeRows
  dsimp only
  rw [hx]
  dsimp only
  refine (if_neg (by exact Bool.false_ne_true)).trans ((if_neg (by rw [hrsv]; exact Bool.false_ne_true)).trans ((if_neg ?_).trans ((if_neg ?_).trans ?_)))
  · rw [decide_eq_false (by omega), decide_eq_false (by omega), decide_eq_false htot', hlen, bne_self_eq_false]
    exact nofun
  · rw [hk]
    exact hdest
  · rfl

/-- The rows enter the inbound path, and the send is known from then on. -/
theorem writeRows_enters {f : LWrite} {rows : List Byte} {d : Nat} {reel : Option Nat} (h : delivered s r 0x02 (writeBody f rows) x) (hrsv : f.rsv = 0)
    (h1 : 1 ≤ f.rows.toNat) (h16 : f.rows.toNat ≤ 16) (htot : f.total ≠ 0) (hlen : rows.length = 512 * f.rows.toNat) (hk : x.kiteOn f.kite.toNat = true)
    (hd : (f.dest.toNat = d ∧ d < 16384 ∧ reel = none) ∨ (f.dest.toNat = 32768 + d ∧ d < 32 ∧ reel = some d))
    (hen : ∀ q, reel = some q → ((x.kite f.kite.toNat).reel q).en = true) : ∃ rs, Machine.writeRows r f rows s =
      ({ x with lnk := { x.lnk with recvs := rs } } : State).setKite f.kite.toNat { x.kite f.kite.toNat with
        inb := (x.kite f.kite.toNat).inb ++ inbounds r.src.toNat f d reel rows } ∧
      (∀ y ∈ x.lnk.recvs, y ∈ rs) ∧ ∃ y ∈ rs, y.src = r.src.toNat ∧ y.tag = f.tag.toNat := by
  have hmod : f.dest.toNat % 0x8000 = d := by omega
  have hreel : (if 0x8000 ≤ f.dest.toNat then some (f.dest.toNat % 0x8000) else none) = reel := by
    rcases hd with ⟨hd, hlt, rfl⟩ | ⟨hd, hlt, rfl⟩
    · exact if_neg (by omega)
    · rw [if_pos (by omega), hmod]
  have hon : ¬(decide (0x8000 ≤ f.dest.toNat) && !((x.kite f.kite.toNat).reel d).en) = true := by
    rcases hd with ⟨hd, hlt, rfl⟩ | ⟨hd, hlt, rfl⟩
    · rw [decide_eq_false (by omega)]
      exact nofun
    · rw [hen d rfl, Bool.not_true, Bool.and_false]
      exact nofun
  have hwrite := writeRows_of h hrsv h1 h16 htot hlen hk (by split <;> omega)
  rw [hreel, hmod, if_neg hon] at hwrite
  dsimp only at hwrite
  by_cases hknown : (x.lnk.recvs.any fun y => y.src == r.src.toNat && y.tag == f.tag.toNat) = true
  · rw [if_pos hknown] at hwrite
    refine ⟨x.lnk.recvs, hwrite, fun y hy => hy, ?_⟩
    obtain ⟨y, hy, heq⟩ := List.any_eq_true.1 hknown
    rw [Bool.and_eq_true, beq_iff_eq, beq_iff_eq] at heq
    exact ⟨y, hy, heq⟩
  · rw [if_neg hknown] at hwrite
    exact ⟨_, hwrite, fun y hy => List.mem_append_left _ hy, _, List.mem_append_right _ List.mem_cons_self, rfl, rfl⟩

/-- Rows for a reel that is not enabled are answered. -/
theorem writeRows_disabled {f : LWrite} {rows : List Byte} (h : delivered s r 0x02 (writeBody f rows) x) (hrsv : f.rsv = 0) (h1 : 1 ≤ f.rows.toNat)
    (h16 : f.rows.toNat ≤ 16) (htot : f.total ≠ 0) (hlen : rows.length = 512 * f.rows.toNat) (hk : x.kiteOn f.kite.toNat = true)
    (hlo : 32768 ≤ f.dest.toNat) (hhi : f.dest.toNat < 32800) (hen : ((x.kite f.kite.toNat).reel (f.dest.toNat - 32768)).en = false) :
    transport s (Machine.writeRows r f rows s) := by
  have hmod : f.dest.toNat % 0x8000 = f.dest.toNat - 32768 := by omega
  rw [writeRows_of h hrsv h1 h16 htot hlen hk (by split <;> omega), hmod, hen, decide_eq_true hlo]
  refine transport_trans h.2.1 ?_
  exact lerboSend_transport _ (by decide) (by decide)

theorem writeDone_of {tag status : Nat} (h : delivered s r 0x12 (leBytes 8 tag ++ leBytes 1 status ++ leBytes 7 0) x) (h7 : status ≤ 7) :
    Machine.writeDone r tag status 0 s = x.endRemote tag status := by
  unfold Machine.writeDone
  rw [h.1]
  dsimp only
  refine (if_neg (by exact Bool.false_ne_true)).trans (if_neg ?_)
  rw [bne_self_eq_false, Bool.false_or, decide_eq_true_iff]
  omega

/-- A remote descriptor that ends alone in its channel. -/
theorem endRemote_one {tag status k ch m k2 dst : Nat} {rl c : Option Nat} {d : Desc} (hs : mapGet x.lnk.sends tag = some (k, ch))
    (hq : ((x.kite k).chan ch).queue = [d]) (hk : d.kind = .remote m k2 dst rl tag c) (h0 : d.status = 0) : x.endRemote tag status =
      { x.setKite k { x.kite k with chans := mapSet (x.kite k).chans ch { (x.kite k).chan ch with
          queue := [{ d with status := status, left := 0, next := d.nrows, waits := 0, told := c.isSome && (status == 0 || status == 2) }] } } with
        lnk := { x.lnk with sends := mapDel x.lnk.sends tag } } := by
  unfold State.endRemote
  rw [hs]
  dsimp only
  rw [hq, List.map_singleton, hk]
  dsimp only
  rw [if_pos rfl, h0, if_pos rfl]

end Handlers

end Sys2Proof.Stated
end

section
/-! SUPPORT. Yaphor messages over Lerbo, and messages in transit (R331, R337, R353). -/
namespace Sys2Proof.Stated
open Sys2Proof.Machine

section Placed
variable {s t u x : State} {r : LRx}

/-! ### Pages and manifest fragments are placed (R337) -/

/-- The kites and the module's memory stand as they did. -/
def placedKept (s t : State) : Prop := t.kites = s.kites ∧ t.pgm = s.pgm

theorem placedKept_refl (s : State) : placedKept s s := ⟨rfl, rfl⟩

theorem placedKept_trans (h : placedKept s t) (h' : placedKept t u) : placedKept s u := ⟨h'.1.trans h.1, h'.2.trans h.2⟩

theorem placedKept_ite {c : Prop} [Decidable c] (h : placedKept s t) (h' : placedKept s u) : placedKept s (if c then t else u) := by
  split
  · exact h
  · exact h'

theorem transport.placedKept (h : transport s t) : placedKept s t := ⟨h.kept.2.2.2.2.2, h.kept.2.2.2.2.1⟩

theorem answer_placedKept (s : State) (src ctx : Nat) (msg : List Byte) : placedKept s (s.answer src ctx msg) :=
  (lerboSend_transport s (by decide) (by decide)).placedKept

theorem rxManifest_placedKept (s : State) (key ctx src h seq : Nat) (y : RxStream) : placedKept s (s.rxManifest key ctx src h seq y) := by
  unfold State.rxManifest
  dsimp only
  split
  · exact answer_placedKept _ _ _ _
  · split
    · exact answer_placedKept _ _ _ _
    · split
      · exact ⟨rfl, rfl⟩
      · exact (transport_foldl (fun s _ => lerboSend_transport s (by decide) (by decide)) _ s).placedKept

/-- The answers to a message that is taken, and those to a complete manifest, change no memory. -/
theorem placed_answered {c1 c2 : Prop} [Decidable c1] [Decidable c2] {src ctx src' ctx' key ctx'' src'' h seq : Nat} {m m' : List Byte} {y : RxStream} (ht : placedKept s t) :
    placedKept s (if c2 then (if c1 then (t.answer src ctx m).answer src' ctx' m' else t.answer src ctx m).rxManifest key ctx'' src'' h seq y
      else if c1 then (t.answer src ctx m).answer src' ctx' m' else t.answer src ctx m) := by
  have h1 := placedKept_trans ht (answer_placedKept t src ctx m)
  have h2 := placedKept_ite (c := c1) (placedKept_trans h1 (answer_placedKept _ src' ctx' m')) h1
  exact placedKept_ite (placedKept_trans h2 (rxManifest_placedKept _ _ _ _ _ _ _)) h2

theorem placed_taken {P : Pgm} {X : Xpt} {y : RxStream} (h : y.dropped = false) :
    placedKept { x with pgm := P } { (if y.dropped then x else { x with pgm := P } : State) with xpt := X } := by
  rw [h]
  exact ⟨rfl, rfl⟩

theorem wellFormedPage_type {ty : Nat} {msg : List Byte} (h : wellFormedPage ty msg = true) : ty = 1 ∨ ty = 2 := by
  unfold wellFormedPage at h
  rw [Bool.and_eq_true] at h
  have h2 := h.2
  split at h2
  · exact .inl rfl
  · exact .inr rfl
  · exact nomatch h2

/-- The bytes of a page or a fragment, behind its head. -/
def pageData (msg : List Byte) : List Byte := msg.drop (if fieldBe msg 3 1 = 1 then 40 else 32)

/-- A message that its receive context takes is stored, and answered. -/
theorem rxMessage_places {src ctx : Nat} {msg : List Byte} (hen : x.xpt.rxen = true) (hctx : ctx < 64) (hwf : wellFormedPage (fieldBe msg 3 1) msg = true)
    (hfmt : fieldBe msg 3 1 = 1 → fieldBe msg 0x19 1 ∈ exportFmts)
    (hroom : fieldBe msg 3 1 = 1 → (x.rxCtx ctx).1 ≤ x.rxPlace ctx ((ctx * 2 ^ 20 + src) * 2 ^ 32 + fieldBe msg 8 4) msg ∧
      x.rxPlace ctx ((ctx * 2 ^ 20 + src) * 2 ^ 32 + fieldBe msg 8 4) msg + (pageData msg).length ≤ (x.rxCtx ctx).1 + (x.rxCtx ctx).2.2.2)
    (hend : x.rxPlace ctx ((ctx * 2 ^ 20 + src) * 2 ^ 32 + fieldBe msg 8 4) msg + (pageData msg).length ≤ hbmEnd)
    (hdrop : ∀ y, mapGet x.xpt.rxs ((ctx * 2 ^ 20 + src) * 2 ^ 32 + fieldBe msg 8 4) = some y → y.dropped = false) :
    (x.rxMessage src ctx msg).kites = x.kites ∧
      (x.rxMessage src ctx msg).pgm = x.pgm.write (x.rxPlace ctx ((ctx * 2 ^ 20 + src) * 2 ^ 32 + fieldBe msg 8 4) msg) (pageData msg) := by
  unfold State.rxMessage
  dsimp only
  rw [if_neg (by rw [hen, decide_eq_false (by omega)]; exact nofun), if_neg (by rw [hwf]; exact nofun), if_neg ?_, if_neg ?_]
  · refine (?_ : placedKept { x with pgm := x.pgm.write _ (pageData msg) } _)
    refine placed_answered (placed_taken ?_)
    cases hy : mapGet x.xpt.rxs ((ctx * 2 ^ 20 + src) * 2 ^ 32 + fieldBe msg 8 4) with
    | none => unfold mapGetD; rw [hy]; rfl
    | some y => unfold mapGetD; rw [hy]; exact hdrop y hy
  · rw [Bool.or_eq_true, Bool.and_eq_true, decide_eq_true_iff, Bool.or_eq_true, decide_eq_true_iff, decide_eq_true_iff, decide_eq_true_iff]
    rintro (⟨h1, h2 | h2⟩ | h2)
    · exact Nat.not_lt.2 (hroom h1).1 h2
    · exact Nat.not_lt.2 (hroom h1).2 h2
    · exact Nat.not_lt.2 hend h2
  · rw [Bool.and_eq_true, decide_eq_true_iff]
    rintro ⟨h1, h2⟩
    rw [List.contains_iff_mem.2 (hfmt h1)] at h2
    exact nomatch h2

end Placed

/-! ### Messages in transit (R353, R360) -/

section Transit
variable {s : State} {r : LRx}

/-- A violation leaves the port's count of uncorrectable codewords as it was, and its row. -/
theorem violate_port (s : State) (p row : Nat) : ((s.violate p row).port p).violLast = row ∧ ((s.violate p row).port p).mode = (s.port p).mode ∧
    ((s.violate p row).port p).uncAt = (s.port p).uncAt := by
  have hport : (s.log ⟨.v, uPort, evPartner 1 row, p, 0xFFFF, 0⟩).port p = s.port p := by
    unfold State.port
    rw [log_lnk]
  unfold State.violate State.violCount
  generalize s.log ⟨.v, uPort, evPartner 1 row, p, 0xFFFF, 0⟩ = u at hport
  dsimp only
  split
  · rw [portStops_self, port_setPort_self, hport]
    exact ⟨rfl, rfl, rfl⟩
  · rw [port_setPort_self, hport]
    exact ⟨rfl, rfl, rfl⟩

/-- A message that cannot go on is a violation of the peer, which the codewords it rode on do not hide. -/
theorem dropped_last {u : State} {vc len n : Nat} (h : comes s r vc len) (hu : moves s u) :
    ((((u.free1 r.port.val vc n).violate r.port.val 4).fecIn r.port.val r.corr r.unc).fill r.port.val |>.port r.port.val).violLast = 4 := by
  have hm : moves s (u.free1 r.port.val vc n) := moves_trans hu (free1_moves _ _ _ _)
  obtain ⟨hlast, hmode, hunc⟩ := violate_port (u.free1 r.port.val vc n) r.port.val 4
  have hroom := fec_room h hm
  rw [← hmode, ← hunc] at hroom
  obtain ⟨-, hfec⟩ := fecIn_keeps (corr := r.corr) hroom
  rw [((fill_moves _ _).2 _).keepsPeer.2.2.2, (hfec _).2.2.2, hlast]

theorem forward_late {p dst mtype ttl src : Nat} {body : List Byte} {vc : Nat} (hm : mtypeVc mtype = some vc) (h : ttl ≤ 1) :
    s.forward p dst mtype ttl src body = (s.free1 p vc (flitsOf body.length)).violate p 4 := by
  unfold State.forward
  dsimp only
  rw [if_pos h, hm]
  rfl

theorem forward_routed {p dst mtype ttl src : Nat} {body : List Byte} {vc : Nat} (hm : mtypeVc mtype = some vc) (h : 1 < ttl) :
    s.forward p dst mtype ttl src body =
      if (s.enqueue ⟨dst, vc, mtype, ttl - 1, src, body, flitsOf body.length, some p⟩).1 then
        (s.enqueue ⟨dst, vc, mtype, ttl - 1, src, body, flitsOf body.length, some p⟩).2
      else (s.free1 p vc (flitsOf body.length)).violate p 4 := by
  unfold State.forward
  dsimp only
  rw [if_neg (by omega), hm]
  rfl

end Transit

end Sys2Proof.Stated
end

section
/-! SUPPORT. What the transport leaves for the handlers of messages, and the messages of Table 15.4. -/
namespace Sys2Proof.Stated
open Sys2Proof.Machine

section Unmoved
variable {s x : State}

theorem transport.bridleTrain (h : transport s x) (b : Nat) : x.bridleTrain b = s.bridleTrain b := by
  unfold transport at h
  rw [h]
  rfl

theorem transport.normMod (h : transport s x) (m : Nat) : x.normMod m = s.normMod m := by
  unfold transport at h
  rw [h]
  rfl

theorem transport.fabBy (h : transport s x) (n : Nat) : x.fabBy n = s.fabBy n ∧ x.cyc = s.cyc := by
  unfold transport at h
  rw [h]
  exact ⟨rfl, rfl⟩

theorem transport.defineCheck (h : transport s x) (d : List Byte) : x.defineCheck d = s.defineCheck d := by
  unfold transport at h
  rw [h]
  rfl

theorem transport.mine (h : transport s x) (rs : List Run) : x.mine rs = s.mine rs := by
  unfold transport at h
  rw [h]
  rfl

theorem transport.deleteStatus (h : transport s x) (u : Nat) : x.deleteStatus u = s.deleteStatus u := by
  unfold transport at h
  rw [h]
  rfl

theorem transport.unitRuns (h : transport s x) (u : Nat) : x.unitRuns u = s.unitRuns u := by
  unfold transport at h
  rw [h]
  rfl

theorem transport.isServing (h : transport s x) (u : Nat) : x.isServing u = s.isServing u := by
  unfold transport at h
  rw [h]
  rfl

theorem transport.kite (h : transport s x) (k : Nat) : x.kite k = s.kite k ∧ x.kiteOn k = s.kiteOn k := by
  unfold transport at h
  rw [h]
  exact ⟨rfl, rfl⟩

theorem transport.tags (h : transport s x) : x.lnk.sends = s.lnk.sends ∧ x.lnk.recvs = s.lnk.recvs := by
  unfold transport at h
  rw [h]
  exact ⟨rfl, rfl⟩

theorem transport.receives (h : transport s x) : x.xpt = s.xpt ∧ (∀ c, x.rxCtx c = s.rxCtx c) ∧ ∀ c key msg, x.rxPlace c key msg = s.rxPlace c key msg := by
  unfold transport at h
  rw [h]
  exact ⟨rfl, fun _ => rfl, fun _ _ _ => rfl⟩

end Unmoved

section Bodies
variable {s x : State} {r : LRx} {tag cmd status ctx b amt : Nat} {d msg rows : List Byte} {f : LWrite}

theorem signal_delivered (h : arrives s r 2 8) : ∃ x, delivered s r 0x21 (leBytes 4 b ++ leBytes 4 amt) x :=
  delivered_of_arrives h (by simp only [List.length_append, leBytes_len]; omega) rfl

theorem unitReq_delivered (h : arrives s r 0 (16 + d.length)) : ∃ x, delivered s r 0x01 (leBytes 8 tag ++ leBytes 1 cmd ++ leBytes 7 0 ++ d) x :=
  delivered_of_arrives h (by simp only [List.length_append, leBytes_len]; omega) rfl

theorem unitRsp_delivered (h : arrives s r 1 16) : ∃ x, delivered s r 0x11 (leBytes 8 tag ++ leBytes 1 status ++ leBytes 7 0) x :=
  delivered_of_arrives h (by simp only [List.length_append, leBytes_len]; omega) rfl

theorem writeDone_delivered (h : arrives s r 1 16) : ∃ x, delivered s r 0x12 (leBytes 8 tag ++ leBytes 1 status ++ leBytes 7 0) x :=
  delivered_of_arrives h (by simp only [List.length_append, leBytes_len]; omega) rfl

theorem write_delivered (h : arrives s r 0 (24 + rows.length)) : ∃ x, delivered s r 0x02 (writeBody f rows) x :=
  delivered_of_arrives h (writeBody_len f rows).le rfl

theorem yaphor_delivered (h : arrives s r 3 (4 + msg.length)) : ∃ x, delivered s r 0x31 (leBytes 2 ctx ++ leBytes 2 0 ++ msg) x :=
  delivered_of_arrives h (by simp only [List.length_append, leBytes_len]; omega) rfl

theorem yaphor_of (h : delivered s r 0x31 (leBytes 2 ctx ++ leBytes 2 0 ++ msg) x) :
    Machine.yaphor r ctx 0 msg s = x.yaphorIn ⟨r.port, true, r.src.setWidth 128⟩ ctx msg := by
  unfold Machine.yaphor
  rw [h.1]
  exact (if_neg Bool.false_ne_true).trans (if_neg Bool.false_ne_true)

theorem yaphorIn_page {rx : YRx} (h : wellFormedPage (fieldBe msg 3 1) msg = true) : x.yaphorIn rx ctx msg = x.rxMessage rx.src.toNat ctx msg := by
  unfold State.yaphorIn
  rcases wellFormedPage_type h with ht | ht
  · rewrite [ht]
    rfl
  · rewrite [ht]
    rfl

theorem pageData_len (msg : List Byte) : (pageData msg).length = msg.length - (if fieldBe msg 3 1 = 1 then 40 else 32) := List.length_drop

/-- A byte of memory once a page's data is stored. -/
theorem memRead_placed {p : Pgm} {a : Nat} (h : memWf p.mem = true) (b : Nat) : memRead (p.write a (pageData msg)).mem b =
    if a ≤ b ∧ b < a + (pageData msg).length then msg.getD ((if fieldBe msg 3 1 = 1 then 40 else 32) + (b - a)) 0 else memRead p.mem b := by
  have hget : (pageData msg).getD (b - a) 0 = msg.getD ((if fieldBe msg 3 1 = 1 then 40 else 32) + (b - a)) 0 := by
    unfold pageData
    rw [List.getD_eq_getElem?_getD, List.getElem?_drop, List.getD_eq_getElem?_getD]
  by_cases hne : pageData msg = []
  · rw [hne, if_neg (by rw [List.length_nil]; omega)]
    rfl
  · rw [write_mem hne, memRead_memWrites h, hget]

theorem yaphorIn_ack {rx : YRx} (h : fieldBe msg 3 1 = 3) : x.yaphorIn rx ctx msg = Machine.ack rx msg x := by
  unfold State.yaphorIn State.fromReceiver
  rewrite [h]
  rfl

theorem lerboForward_of {mt : BitVec 8} {ok : Bool} {y : State} (h : s.lerboRx r mt.toNat msg = (ok, y)) : exec (.lerboForward r mt msg) s = .next y :=
  congrArg (fun e : Bool × State => Host.Outcome.next e.2) h

theorem beq_toNat {w : Nat} (v u : BitVec w) : (v == u) = (v.toNat == u.toNat) := by
  rw [Bool.eq_iff_iff, beq_iff_eq, beq_iff_eq, BitVec.toNat_inj]

end Bodies

/-- Settles O48: each message is delivered by the transport, and acts by its type; one in transit goes on or is dropped. -/
theorem lerboMessages : Obligations.LerboMessages := by
  unfold Obligations.LerboMessages
  intro s r
  refine ⟨fun b amt u tr ha hb hu ht hm => ?_, fun tag d tr ha hd => ?_, fun tag d ha hd hdel => ?_, fun tag d rs ha hd hu hs => ?_, fun tag d l ha hp => ?_,
    fun tag d ha hp => ?_, fun tag status o m ha h9 hun hop ht hw hm hne => ?_, fun tag status o ha h9 hun hop ht hw => ?_, fun tag status ha h9 hun => ?_,
    fun f rows d reel ha hrsv h1 h16 htot hlen hk hd hen => ?_, fun f rows ha hrsv h1 h16 htot hlen hk hlo hhi hen => ?_,
    fun tag status k ch d m k2 dst rl c ha h7 hs hq hk h0 => ?_, fun ctx msg ha hen hctx hwf hfmt hend hdrop hmem => ?_, fun ctx msg ha h3 => ?_,
    fun mt body vc hc hm hdst httl => ?_, fun mt body vc hc hm hdst httl => ?_, fun mt body vc ha hm => ?_⟩
  · obtain ⟨x, hx⟩ := signal_delivered (b := b.toNat) (amt := amt.toNat) ha
    have hbrd := hx.2.1.kept.2.2.1
    refine ⟨x, hx.2.1, congrArg Host.Outcome.next ((signalRx_of hx hb ((hx.2.1.bridleTrain _).trans hu) (by rw [hbrd]; exact ht)
      (by rw [hx.2.1.normMod]; exact hm)).trans ?_)⟩
    rw [(hx.2.1.fabBy _).1, (hx.2.1.fabBy 0).2, hbrd]
  · obtain ⟨x, hx⟩ := unitReq_delivered (tag := tag.toNat) (cmd := 1) ha
    have hbrd := hx.2.1.kept.2.2.1
    have hz := unitReq_acts hx (by decide) (by decide) (unitAct_define ((hx.2.1.defineCheck d).trans hd)) (by decide)
    rw [hx.2.1.mine, hbrd] at hz
    by_cases hmine : s.mine tr.runs = []
    · rw [if_pos hmine] at hz
      exact ⟨_, transport_trans hx.2.1 hz, congrArg Host.Outcome.next (if_pos hmine).symm⟩
    · rw [if_neg hmine] at hz
      obtain ⟨h1, h2⟩ := transport_brd hx.2.1 hz
      exact ⟨_, h1, congrArg Host.Outcome.next (h2.trans (if_neg hmine).symm)⟩
  · obtain ⟨x, hx⟩ := unitReq_delivered (tag := tag.toNat) (cmd := 5) ha
    have hbrd := hx.2.1.kept.2.2.1
    have hz := unitReq_acts hx (by decide) (by decide) (unitAct_delete hd (by rw [hx.2.1.deleteStatus, hbrd]; exact hdel)) (by decide)
    unfold State.removeTrain at hz
    rw [hbrd] at hz
    obtain ⟨h1, h2⟩ := transport_brd hx.2.1 hz
    exact ⟨_, h1, congrArg Host.Outcome.next h2⟩
  · obtain ⟨x, hx⟩ := unitReq_delivered (tag := tag.toNat) (cmd := 4) ha
    exact ⟨x, _, hx.2.1, rfl, unitReq_acts hx (by decide) (by decide)
      (unitAct_halt hd ((hx.2.1.unitRuns _).trans hu) ((hx.2.1.isServing _).trans hs)) (by decide)⟩
  · obtain ⟨x, hx⟩ := unitReq_delivered (tag := tag.toNat) (cmd := 3) ha
    exact ⟨x, _, hx.2.1, rfl, unitReq_acts hx (by decide) (by decide) (unitAct_go (by rw [hx.2.1.kept.2.2.1]; exact hp)) (by decide)⟩
  · obtain ⟨x, hx⟩ := unitReq_delivered (tag := tag.toNat) (cmd := 3) ha
    exact ⟨_, transport_trans hx.2.1 (unitReq_acts hx (by decide) (by decide) (unitAct_unprepared (by rw [hx.2.1.kept.2.2.1]; exact hp)) (by decide)), rfl⟩
  · obtain ⟨x, hx⟩ := unitRsp_delivered (tag := tag.toNat) (status := status.toNat) ha
    have hbrd := hx.2.1.kept.2.2.1
    refine ⟨x, hx.2.1, congrArg Host.Outcome.next ((unitRsp_answers hx h9 (by rw [hbrd]; exact hun) (by rw [hbrd]; exact hop) ht hw).trans ?_)⟩
    rw [hbrd, if_neg]
    rw [List.isEmpty_iff, List.filter_eq_nil_iff]
    exact fun hall => hall m hm (bne_iff_ne.2 hne)
  · obtain ⟨x, hx⟩ := unitRsp_delivered (tag := tag.toNat) (status := status.toNat) ha
    have hbrd := hx.2.1.kept.2.2.1
    have hnone : o.waiting.filter (fun m => m != r.src.toNat) = [] := by
      rw [hw, List.filter_eq_nil_iff]
      exact fun m hm => by rw [List.mem_singleton.1 hm, bne_self_eq_false]; exact nofun
    have heq := unitRsp_answers hx h9 (by rw [hbrd]; exact hun) (by rw [hbrd]; exact hop) ht (by rw [hw]; exact List.mem_singleton_self _)
    rw [hnone, if_pos List.isEmpty_nil] at heq
    refine ⟨x, hx.2.1, fun hkind => ?_, fun hkind h0 hst => ?_⟩
    · refine congrArg Host.Outcome.next (heq.trans ((unitFinish_halt (by exact hkind)).trans ?_))
      rw [hbrd]
    · subst hst
      have hworse : worse o.status (0 : BitVec 8).toNat = 0 := by rw [h0]; rfl
      refine congrArg Host.Outcome.next (heq.trans ((unitFinish_prepared (by exact hkind) (by exact hworse)).trans ?_))
      rw [hbrd, hworse, ← h0]
  · obtain ⟨x, hx⟩ := unitRsp_delivered (tag := tag.toNat) (status := status.toNat) ha
    exact ⟨_, unitRsp_stale hx h9 (by rw [hx.2.1.kept.2.2.1]; exact hun), rfl⟩
  · obtain ⟨x, hx⟩ := write_delivered (f := f) ha
    have hkite := (hx.2.1.kite f.kite.toNat).1
    obtain ⟨rs, hwrite, hall, hnew⟩ := writeRows_enters hx hrsv h1 h16 htot hlen ((hx.2.1.kite _).2.trans hk) hd (by rw [hkite]; exact hen)
    rw [hx.2.1.tags.2] at hall
    rw [hkite] at hwrite
    exact ⟨x, rs, hx.2.1, congrArg Host.Outcome.next hwrite, hall, hnew⟩
  · obtain ⟨x, hx⟩ := write_delivered (f := f) ha
    exact ⟨_, writeRows_disabled hx hrsv h1 h16 htot hlen ((hx.2.1.kite _).2.trans hk) hlo hhi (by rw [(hx.2.1.kite _).1]; exact hen), rfl⟩
  · obtain ⟨x, hx⟩ := writeDone_delivered (tag := tag.toNat) (status := status.toNat) ha
    have hkite := (hx.2.1.kite k).1
    have hone := endRemote_one (x := x) (status := status.toNat) (by rw [hx.2.1.tags.1]; exact hs) (by rw [hkite]; exact hq) hk h0
    refine ⟨_, congrArg Host.Outcome.next ((writeDone_of hx h7).trans hone), fun j hj => ?_, ?_, ?_⟩
    · exact (State.setKite_kite_ne x k j _ (fun h => hj (List.mem_singleton.2 h))).trans (hx.2.1.kite j).1
    · have hkt := State.setKite_kite_self x k { x.kite k with chans := mapSet (x.kite k).chans ch { (x.kite k).chan ch with
          queue := [{ d with status := status.toNat, left := 0, next := d.nrows, waits := 0, told := c.isSome && (status.toNat == 0 || status.toNat == 2) }] } }
      refine (congrArg (fun kt => (Kite.chan kt ch).queue) hkt).trans ?_
      unfold Kite.chan mapGetD
      rw [mapGet_mapSet_self, beq_toNat status 0, beq_toNat status 2]
      rfl
    · exact congrArg (mapDel · tag.toNat) hx.2.1.tags.1
  · refine ⟨fun h2 => if_pos h2, ?_⟩
    obtain ⟨x, hx⟩ := yaphor_delivered (ctx := ctx.toNat) ha
    obtain ⟨hxpt, hctxt, hplace⟩ := hx.2.1.receives
    have hsrc : (r.src.setWidth 128).toNat = r.src.toNat := by
      rw [BitVec.toNat_setWidth]
      exact Nat.mod_eq_of_lt (by omega)
    have hpl := rxMessage_places (x := x) (src := r.src.toNat) (by rw [hxpt]; exact hen) hctx hwf (fun h1 => (hfmt h1).1)
      (fun h1 => by rw [hctxt, hplace, pageData_len, if_pos h1]; exact (hfmt h1).2)
      (by rw [hplace, pageData_len]; exact Nat.le_trans (Nat.add_le_add_left (Nat.sub_le _ _) _) hend) (by rw [hxpt]; exact hdrop)
    obtain ⟨hkites, hpgm⟩ := hpl
    rw [hplace, hx.2.1.kept.2.2.2.2.1] at hpgm
    refine ⟨x.rxMessage r.src.toNat ctx.toNat msg, ?_, hkites.trans hx.2.1.kept.2.2.2.2.2, fun i hi => ?_, fun b hb => ?_⟩
    · exact congrArg Host.Outcome.next ((yaphor_of hx).trans ((yaphorIn_page hwf).trans (congrArg (x.rxMessage · ctx.toNat msg) hsrc)))
    · rw [hpgm, memRead_placed hmem, pageData_len, if_pos ⟨Nat.le_add_right _ _, Nat.add_lt_add_left hi _⟩, Nat.add_sub_cancel_left]
    · rw [hpgm, memRead_placed hmem, pageData_len, if_neg]
      exact fun h => hb.elim (fun h' => Nat.not_lt.2 h.1 h') fun h' => Nat.not_lt.2 h' h.2
  · obtain ⟨x, hx⟩ := yaphor_delivered (ctx := ctx.toNat) ha
    exact ⟨x, hx.2.1, congrArg Host.Outcome.next ((yaphor_of hx).trans (yaphorIn_ack h3))⟩
  · obtain ⟨owed, heq⟩ := lerboRx_comes hc hm
    have hmv := flitsTaken_moves s r
    rw [if_neg hdst, forward_routed hm httl] at heq
    refine ⟨flitsTaken s r, _, hmv.1, lerboForward_of heq, fun hok => ?_, fun hno => ?_⟩
    · have hen := moves_trans hmv (enqueue_moves (flitsTaken s r) ⟨r.dst.toNat, vc, mt.toNat, r.ttl.toNat - 1, r.src.toNat, body, flitsOf body.length, some r.port.val⟩)
      rw [if_pos hok]
      exact transport_trans hen.1 (transport_trans (fecIn_keeps (fec_room hc hen)).1 (fill_moves _ _).1)
    · rw [if_neg (by rw [hno]; exact Bool.false_ne_true)]
      exact dropped_last hc hmv
  · obtain ⟨owed, heq⟩ := lerboRx_comes hc hm
    rw [if_neg hdst, forward_late hm httl] at heq
    refine ⟨_, lerboForward_of heq, ?_⟩
    exact dropped_last hc (flitsTaken_moves s r)
  · obtain ⟨x, hx, ht, -⟩ := lerboRx_arrives ha hm
    exact ⟨x, ht, lerboForward_of hx⟩

end Sys2Proof.Stated
end

section
/-! SUPPORT. What a step boundary does besides its own count keeps the epoch, the next boundary and the step in hand (R240, R285). -/
namespace Sys2Proof.Stated
open Sys2Proof.Machine

/-! ### The epoch stands while the page manager works (R240) -/

section Epoch

theorem pgm_foldl {α : Type} {f : Pgm → α → Pgm} (hf : ∀ p x, (f p x).epoch = p.epoch) (l : List α) (p : Pgm) : (l.foldl f p).epoch = p.epoch := by
  induction l generalizing p with
  | nil => rfl
  | cons x l ih => exact (ih _).trans (hf p x)

theorem release_epoch (p : Pgm) (b : Nat) : (p.release b).epoch = p.epoch := by
  unfold Pgm.release
  split
  · rfl
  · dsimp only
    split <;> rfl

theorem dropTable_epoch (p : Pgm) (a : Nat) : (p.dropTable a).epoch = p.epoch := rfl

theorem protectFrame_epoch (p : Pgm) (a : Nat) : (p.protectFrame a).epoch = p.epoch := rfl

theorem dropEntry_epoch (p : Pgm) (k : Nat) : (p.dropEntry k).epoch = p.epoch := by
  unfold Pgm.dropEntry
  split <;> rfl

theorem makeRoom_epoch (p : Pgm) : p.makeRoom.epoch = p.epoch := by
  unfold Pgm.makeRoom
  split
  · split
    · exact dropEntry_epoch p _
    · rfl
  · rfl

theorem putEntry_epoch (p : Pgm) (k : Nat) (e : PEntry) : (p.putEntry k e).epoch = p.epoch := by
  unfold Pgm.putEntry
  dsimp only
  split
  · exact dropEntry_epoch p k
  · split
    · rfl
    · exact makeRoom_epoch p

theorem dropSome_epoch (p : Pgm) (d : Dropping) (n : Nat) : (p.dropSome d n).1.epoch = p.epoch := pgm_foldl dropTable_epoch _ p

/-- The work on one detached space, within what its issuer may still use. -/
def dropStep (bs bh : Nat) (acc : Pgm × Counts × List Dropping × Nat × Nat) (d : Dropping) : Pgm × Counts × List Dropping × Nat × Nat :=
  let (p, c, keep, s, h) := acc
  let (p, decs, n, rest) := p.dropSome d (if d.host then bh - h else bs - s)
  (p, { c with decs := c.decs ++ decs, n := c.n + n }, keep ++ rest.toList, if d.host then s else s + n, if d.host then h + n else h)

theorem dropSteps_epoch (bs bh : Nat) (l : List Dropping) (acc : Pgm × Counts × List Dropping × Nat × Nat) : (l.foldl (dropStep bs bh) acc).1.epoch = acc.1.epoch := by
  induction l generalizing acc with
  | nil => rfl
  | cons d l ih => exact (ih _).trans (dropSome_epoch acc.1 d _)

theorem drops_epoch (p : Pgm) (c : Counts) (bs bh : Nat) : (p.drops c bs bh).1.epoch = p.epoch := dropSteps_epoch bs bh p.dropping (p, c, [], 0, 0)

/-- One import that becomes visible. -/
theorem takeImports_epoch (p : Pgm) : p.takeImports.epoch = p.epoch := by
  unfold Pgm.takeImports
  refine (pgm_foldl (fun p x => ?_) _ _).trans rfl
  dsimp only
  split
  · rfl
  · refine (pgm_foldl protectFrame_epoch _ _).trans ?_
    dsimp only
    split <;> rfl

/-- One migration whose copy is complete ends. -/
def migEnds (acc : Pgm × Nat) (m : Mig) : Pgm × Nat :=
  let (p, n) := acc
  if !m.copied then acc
  else
    let p := { p with migs := p.migs.filter fun x => x.new_ != m.new_ }
    if p.migOk m then ({ p with edits := p.edits ++ [⟨.remap m.space m.va m.old m.new_, m.host⟩] }, n)
    else (p.release (m.new_ / 4096), n + 1)

theorem migEnds_epoch (acc : Pgm × Nat) (m : Mig) : (migEnds acc m).1.epoch = acc.1.epoch := by
  unfold migEnds
  dsimp only
  split
  · rfl
  · split
    · rfl
    · exact release_epoch _ _

theorem migsEnd_epoch (l : List Mig) (acc : Pgm × Nat) : (l.foldl migEnds acc).1.epoch = acc.1.epoch := by
  induction l generalizing acc with
  | nil => rfl
  | cons m l ih => exact (ih _).trans (migEnds_epoch acc m)

theorem endMigs_epoch (p : Pgm) : p.endMigs.1.epoch = p.epoch := migsEnd_epoch p.migs (p, 0)

/-- A boundary advances the epoch by one. -/
theorem boundary_epoch (p : Pgm) : p.boundary.1.epoch = (p.epoch + 1) % 2 ^ 64 := by
  unfold Pgm.boundary
  dsimp only
  refine congrArg (fun n => (n + 1) % 2 ^ 64) ?_
  refine (pgm_foldl (fun p a => (decFrame_tallies p a).1) _ _).trans ((pgm_foldl (fun p a => (incFrame_tallies p a).1) _ _).trans ?_)
  refine (applyEdits_tallies _ _).1.trans ((drops_epoch _ _ _ _).trans ((applyEdits_tallies _ _).1.trans (applyEdits_tallies _ _).1))

end Epoch

end Sys2Proof.Stated
end

section
/-! SUPPORT. The parts of a step boundary, and the epoch, the next boundary and the step in hand (R240, R273, R285, R302). -/
namespace Sys2Proof.Stated
open Sys2Proof.Machine

/-- The epoch, the count of boundaries and the step in hand stand. -/
def steady (s t : State) : Prop := t.pgm.epoch = s.pgm.epoch ∧ t.sch.bnd = s.sch.bnd ∧ t.sch.cur = s.sch.cur

section Steady
variable {s t u : State}

theorem steady_refl (s : State) : steady s s := ⟨rfl, rfl, rfl⟩

theorem steady_trans (h : steady s t) (h' : steady t u) : steady s u := ⟨h'.1.trans h.1, h'.2.1.trans h.2.1, h'.2.2.trans h.2.2⟩

theorem steady_foldl {α : Type} {f : State → α → State} (hf : ∀ s x, steady s (f s x)) (l : List α) (s : State) : steady s (l.foldl f s) := by
  induction l generalizing s with
  | nil => exact steady_refl s
  | cons x l ih => exact steady_trans (hf s x) (ih _)

theorem steady_foldl_snd {α β : Type} {f : β × State → α → β × State} (hf : ∀ acc x, steady acc.2 (f acc x).2) (l : List α) (acc : β × State) :
    steady acc.2 (l.foldl f acc).2 := by
  induction l generalizing acc with
  | nil => exact steady_refl _
  | cons x l ih => exact steady_trans (hf acc x) (ih _)

theorem steady_ite {c : Prop} [Decidable c] (h : steady s t) (h' : steady s u) : steady s (if c then t else u) := by
  split
  · exact h
  · exact h'

theorem steady_pgm {p : Pgm} (h : p.epoch = s.pgm.epoch) : steady s { s with pgm := p } := ⟨h, rfl, rfl⟩

theorem memSide.steady (h : memSide s t) : steady s t := by
  obtain ⟨hp, ht⟩ := h
  rw [ht]
  exact ⟨hp.1, rfl, rfl⟩

theorem steady_of_eq (hp : t.pgm = s.pgm) (hs : t.sch = s.sch) : steady s t := by
  unfold Stated.steady
  rw [hp, hs]
  exact ⟨rfl, rfl, rfl⟩

theorem linkOnly.steady (h : linkOnly s t) : steady s t := steady_of_eq h.kept.2.2 h.kept.1

theorem transport.steady (h : transport s t) : steady s t := steady_of_eq h.kept.2.2.2.2.1 h.kept.1

theorem eventFrame_steady (h : eventFrame s t) : steady s t := by
  unfold eventFrame at h
  rw [h]
  exact ⟨rfl, rfl, rfl⟩

theorem answers.steady (h : answers s t) : steady s t := by
  unfold answers at h
  rw [h]
  exact ⟨rfl, rfl, rfl⟩

end Steady

/-! ### Insertion into the prefix index, and what is queued for the boundary (R254, R273, R274) -/

section Insertion
variable {s : State}

theorem pageRows_steady (s : State) (a nkv psize rb nv : Nat) : steady s (s.pageRows a nkv psize rb nv).2 := by
  unfold State.pageRows
  refine steady_foldl_snd (fun acc sg => ?_) _ (some [], s)
  exact (readMem_memSide acc.2 _ _).steady

theorem pageDigests_steady (s : State) (fs : List Nat) (nkv psize rb nv : Nat) : steady s (s.pageDigests fs nkv psize rb nv).2 := by
  unfold State.pageDigests
  refine steady_foldl_snd (fun acc f => ?_) _ (some [], s)
  exact pageRows_steady acc.2 _ _ _ _ _

theorem setReq_steady (s : State) (n : Nat) (r : Req) : steady s (s.setReq n r) := ⟨rfl, rfl, rfl⟩

theorem queueProtect_epoch (p : Pgm) (f : Nat) : ((p.queue false (.inc f)).protectFrame f).epoch = p.epoch := rfl

theorem insertPage_steady (s : State) (n pg : Nat) (r : Req) (m : Model) : steady s (s.insertPage n pg r m) := by
  unfold State.insertPage
  dsimp only
  split
  · exact steady_refl s
  · next fs _ =>
    refine steady_ite (steady_refl s) ?_
    have hd := pageDigests_steady s fs m.nkv (2 ^ r.logp) m.rb (min (2 ^ r.logp) (r.length - pg * 2 ^ r.logp))
    generalize s.pageDigests fs m.nkv (2 ^ r.logp) m.rb (min (2 ^ r.logp) (r.length - pg * 2 ^ r.logp)) = x at hd
    obtain ⟨ds, v⟩ := x
    dsimp only at hd ⊢
    split
    · exact hd
    · exact steady_trans hd (steady_pgm ((pgm_foldl queueProtect_epoch fs _).trans (putEntry_epoch _ _ _)))

theorem dropReq_steady (s : State) (n : Nat) : steady s (s.dropReq n) := by
  unfold State.dropReq
  dsimp only
  refine steady_trans (steady_pgm ?_) (setReq_steady _ _ _)
  split <;> rfl

theorem insertFrom_steady (n : Nat) (m : Model) (k : Nat) (s : State) : steady s (State.insertFrom n m k s) := by
  induction k generalizing s with
  | zero => exact steady_refl s
  | succ k ih =>
    unfold State.insertFrom
    dsimp only
    split
    · exact steady_refl s
    · refine steady_ite (dropReq_steady s n) (steady_ite (steady_refl s) ?_)
      exact steady_trans (steady_trans (insertPage_steady s n _ _ m) (setReq_steady _ _ _)) (ih _)

theorem insertReady_steady (s : State) : steady s s.insertReady := by
  unfold State.insertReady
  refine steady_foldl (fun s x => steady_ite (steady_refl s) ?_) _ s
  split
  · exact insertFrom_steady _ _ _ s
  · exact dropReq_steady s _

theorem needPage_steady (s : State) (n va cls : Nat) : steady s (s.needPage n va cls) := by
  unfold State.needPage
  refine steady_ite (steady_refl s) ?_
  split
  · exact (faultSlot_memSide s n 6).steady
  · next a p ha =>
    refine steady_trans (steady_pgm ?_) (setReq_steady _ _ _)
    exact ((alloc_tallies ha).1 ▸ (undefine_tallies p a (2 ^ cls)).1 :)

theorem needCopy_steady (s : State) (n pg pos j : Nat) (r : Req) (m : Model) : steady s (s.needCopy n pg pos j r m) := by
  unfold State.needCopy
  exact steady_ite (steady_refl s) ⟨rfl, rfl, rfl⟩

theorem needPages_steady (s : State) (j : Nat) (c : Nat × Nat × Nat) : steady s (s.needPages j c) := by
  unfold State.needPages
  dsimp only
  split
  · exact steady_refl s
  · refine steady_ite (steady_refl s) ?_
    have hpages : ∀ (l : List Nat) (f cls : Nat) (r : Req) (m : Model) (s : State), steady s (l.foldl (fun s pg =>
        ((List.range m.nl).foldl (fun s l => s.needPage c.1 (pageVa c.1 l pg f) cls) s).needCopy c.1 pg c.2.1 j r m) s) :=
      fun l f cls r m s => steady_foldl (fun s pg => steady_trans (steady_foldl (fun s l => needPage_steady s _ _ _) _ s) (needCopy_steady _ _ _ _ _ _ _)) l s
    split
    · exact steady_trans (hpages _ _ _ _ _ s) (steady_foldl (fun s l => needPage_steady s _ _ _) _ _)
    · exact hpages _ _ _ _ _ s

theorem pxTrim_steady (s : State) : steady s (Machine.pxTrim s) := by
  unfold Machine.pxTrim
  generalize List.range 64 = l
  dsimp only
  refine steady_ite (steady_trans (steady_pgm rfl) (steady_foldl (fun s _ => ?_) _ _)) (steady_pgm rfl)
  split
  · exact steady_ite (steady_refl s) (steady_pgm (dropEntry_epoch s.pgm _))
  · exact steady_refl s

theorem preBoundary_steady (s : State) : steady s s.preBoundary := by
  unfold State.preBoundary
  exact steady_trans (insertReady_steady s) (steady_trans (steady_foldl (fun s c => needPages_steady s _ c) _ _) (pxTrim_steady _))

end Insertion

/-! ### The epoch boundary (R240, R449) -/

theorem readPft_steady (s : State) (fs : List Nat) : steady s (s.readPft fs) :=
  steady_foldl (fun s _ => steady_trans (deviceEcc_memSide s _).steady (checkBlock_memSide _ _).steady) fs s

theorem epochBoundary_spec (s : State) : (Machine.epochBoundary s).pgm.epoch = (s.pgm.epoch + 1) % 2 ^ 64 ∧ (Machine.epochBoundary s).sch.bnd = s.sch.bnd := by
  have hends : s.pgm.takeImports.endMigs.1.epoch = s.pgm.epoch := (endMigs_epoch _).trans (takeImports_epoch _)
  unfold Machine.epochBoundary
  generalize s.pgm.takeImports.endMigs = x at hends
  obtain ⟨p, ab⟩ := x
  dsimp only at hends ⊢
  have hlog := steady_foldl (fun s (_ : Nat) => (log_memSide s ⟨.s, uMem, evMigrateAbandoned, 0xFFFF, 0xFFFF, 0⟩).steady) (List.range ab) s
  generalize (List.range ab).foldl (fun s _ => s.log ⟨.s, uMem, evMigrateAbandoned, 0xFFFF, 0xFFFF, 0⟩) s = v at hlog
  have hb := boundary_epoch { p with nAbandon := satAdd 16 p.nAbandon ab }
  generalize ({ p with nAbandon := satAdd 16 p.nAbandon ab } : Pgm).boundary = y at hb
  obtain ⟨q, fs, k⟩ := y
  dsimp only at hb ⊢
  obtain ⟨h1, h2, -⟩ := readPft_steady { v with pgm := q } fs
  exact ⟨h1.trans (hb.trans (by rw [hends])), h2.trans hlog.2.1⟩

/-! ### Requests at a boundary (R299–R302) -/

section Requests

theorem postCancels_steady (s : State) (l : List (Nat × Nat)) (status detail : Nat) : steady s (s.postCancels l status detail) :=
  steady_foldl (fun s x => (postFor_answers s _ _ _ _).steady) l s

theorem abortManifest_pgm (s : State) (x : Stream) (e : List Byte) (status : Nat) : (s.buildManifest x e true status).2.2.pgm = s.pgm := by
  unfold State.buildManifest
  simp only [↓reduceIte, List.foldl_nil]
  split
  · have h : (s.sign (x.manifestHead e true status ++ [])).2.pgm = s.pgm := rfl
    generalize s.sign (x.manifestHead e true status ++ []) = y at h ⊢
    exact h
  · rfl

theorem stopStream_steady (s : State) (n : Nat) (st : XSt) (status : Nat) : steady s (s.stopStream n st status) := by
  refine ⟨?_, by rw [(stopStream_exportSide s n st status).sch], by rw [(stopStream_exportSide s n st status).sch]⟩
  unfold State.stopStream
  dsimp only
  split
  · rfl
  · have hm := abortManifest_pgm s (s.stream n) (s.target (s.stream n).target) (((s.req n).fault).getD status)
    generalize s.buildManifest (s.stream n) (s.target (s.stream n).target) true (((s.req n).fault).getD status) = x at hm
    obtain ⟨l, bad, u⟩ := x
    have he : u.pgm.epoch = s.pgm.epoch := congrArg Pgm.epoch hm
    dsimp only
    split
    · split
      · exact he
      · exact he
    · split
      · exact he
      · exact he

theorem ignoredReg_steady (s : State) (unit loc : Nat) : steady s (s.ignoredReg unit loc) := (log_memSide s _).steady

theorem physWrite_steady (s : State) (a : Nat) (l : List Byte) : steady s (s.physWrite a l) := by
  unfold State.physWrite
  refine steady_ite (steady_pgm (write_tallies _ _ _).1) ?_
  split
  · exact steady_ite (eventFrame_steady (State.putKite_frame s _ _).2) (ignoredReg_steady s _ _)
  · refine steady_foldl (fun s i => ?_) _ s
    have hcount : ∀ b v, steady s (Machine.brdCount b v s) :=
      fun b v => steady_ite (steady_refl s) (steady_ite (ignoredReg_steady s _ _) ⟨rfl, rfl, rfl⟩)
    have hadd : ∀ b v, steady s (Machine.brdAddW b v s) := fun b v => steady_ite ⟨rfl, rfl, rfl⟩ (steady_refl s)
    exact steady_ite (hcount _ _) (steady_ite (hadd _ _) (steady_refl s))
  · exact ignoredReg_steady s _ _

theorem voidDescs_steady (s : State) (n : Nat) : steady s (s.voidDescs n) := by
  unfold State.voidDescs
  refine steady_foldl (fun s x => ?_) _ s
  refine steady_ite (steady_refl s) (steady_foldl (fun s y => ?_) _ s)
  exact steady_ite (physWrite_steady s _ _) (steady_refl s)

theorem leave_steady (s : State) (n : Nat) : steady s (s.leave n) := by
  unfold State.leave
  exact steady_trans (voidDescs_steady s n) (steady_trans (t := { s.voidDescs n with sch := _ }) ⟨rfl, rfl, rfl⟩ (dropReq_steady _ n))

theorem endReq_steady (s : State) (n status : Nat) (st : ReqSt) : steady s (s.endReq n status st) := by
  unfold State.endReq
  dsimp only
  refine steady_trans ?_ (leave_steady _ n)
  refine steady_trans ?_ (stopStream_steady _ n .aborted status)
  refine steady_trans (complete_completes s n status).memSide.steady (steady_trans (postCancels_steady _ ((s.complete n status).req n).cancelBy 0 0) ?_)
  exact ⟨rfl, rfl, rfl⟩

theorem outcome_steady (s : State) (n : Nat) : steady s (s.outcome n) := by
  unfold State.outcome
  dsimp only
  refine steady_ite (steady_refl s) (steady_ite (steady_trans (postCancels_steady s _ 3 0xE) (setReq_steady _ _ _)) ?_)
  split
  · exact endReq_steady s n _ .faulted
  · refine steady_ite (endReq_steady s n 5 .expired) ?_
    split
    · exact steady_ite (endReq_steady s n 4 .cancelled) (steady_refl s)
    · exact steady_refl s

theorem advance_steady (s : State) (ran next : List Nat) (n : Nat) : steady s (s.advance ran next n) := by
  unfold State.advance
  exact steady_ite (setReq_steady s n _) (steady_ite (setReq_steady s n _) (steady_refl s))

theorem migrate_steady (s : State) (host : Bool) (sp va : Nat) (loft : Bool) : steady s (s.migrate host sp va loft).2 := by
  unfold State.migrate
  split
  · exact steady_refl s
  · split
    · split
      · exact steady_refl s
      · split
        · exact steady_refl s
        · split
          · exact steady_refl s
          · split
            · next ha => exact steady_pgm (alloc_tallies ha).1
            · exact steady_refl s
    · exact steady_refl s

theorem beginInsert_steady (s : State) (n : Nat) : steady s (s.beginInsert n) := by
  unfold State.beginInsert
  dsimp only
  split
  · exact dropReq_steady s n
  · refine steady_trans (steady_foldl (fun s pg => steady_foldl (fun s l => ?_) _ s) _ s) (setReq_steady _ _ _)
    split
    · exact steady_ite (steady_refl s) (migrate_steady s false n _ true)
    · exact steady_refl s

theorem finish_steady (s : State) (n : Nat) : steady s (s.finish n) := by
  unfold State.finish
  dsimp only
  refine steady_ite (steady_ite ?_ ?_) (steady_refl s)
  · exact steady_trans (setReq_steady s n _) (beginInsert_steady _ n)
  · exact steady_trans (setReq_steady s n _) (leave_steady _ n)

theorem admitReq_steady (s : State) (n : Nat) : steady s (s.admitReq n) := by
  unfold State.admitReq
  dsimp only
  split
  · exact ⟨rfl, rfl, rfl⟩
  · exact setReq_steady s n _

theorem takeCancels_steady (s : State) : steady s s.takeCancels := by
  unfold State.takeCancels
  refine steady_foldl (fun s b => ?_) _ s
  dsimp only
  refine steady_ite (steady_refl s) ?_
  split
  · exact ⟨rfl, rfl, rfl⟩
  · exact steady_refl s

theorem reqBoundary_steady (s : State) (ran next : List Nat) : steady s (s.reqBoundary ran next) := by
  unfold State.reqBoundary
  dsimp only
  refine steady_trans ?_ (steady_foldl finish_steady _ _)
  refine steady_trans ?_ (steady_foldl (fun s n => advance_steady s ran next n) _ _)
  refine steady_trans ?_ (steady_foldl outcome_steady _ _)
  refine steady_trans ?_ (steady_foldl (fun s n => steady_ite (admitReq_steady s n) (steady_refl s)) _ _)
  exact steady_trans (t := s.freeReqs) ⟨rfl, rfl, rfl⟩ (takeCancels_steady _)

theorem planCompact_steady (s : State) (c : Nat × Nat × Nat) : steady s (s.planCompact c) := by
  unfold State.planCompact
  dsimp only
  split
  · exact steady_refl s
  · exact steady_ite (steady_refl s) ⟨rfl, rfl, rfl⟩

end Requests

/-! ### What a boundary does last (R304, R305, R308, R312, R423) -/

section Last

theorem setKite_steady (s : State) (k : Nat) (kt : Kite) : steady s (s.setKite k kt) := ⟨rfl, rfl, rfl⟩

theorem noteLaunch_steady (s : State) (l : LDesc) (rs : List Run) : steady s (s.noteLaunch l rs) := by
  unfold State.noteLaunch
  exact steady_ite ⟨rfl, rfl, rfl⟩ ⟨rfl, rfl, rfl⟩

theorem startKite_steady (l : LDesc) (n nb : Nat) (s : State) (x : Nat × Nat) : steady s (startKite l n nb s x) := ⟨rfl, rfl, rfl⟩

theorem startKites_steady (l : LDesc) (n nb : Nat) (ks : List (Nat × Nat)) (s : State) : steady s (ks.foldl (startKite l n nb) s) :=
  steady_foldl (startKite_steady l n nb) ks s

theorem go_steady (s : State) (l : LDesc) : steady s (s.go l) := by
  unfold State.go
  dsimp only
  refine steady_trans ?_ (noteLaunch_steady _ l _)
  have hstart := startKites_steady l (runsN ((s.unitRuns l.unit).getD [])) (brunsN (s.unitBruns l.unit)) (s.mine ((s.unitRuns l.unit).getD [])) s
  refine steady_ite (steady_trans hstart ?_) hstart
  exact ⟨rfl, rfl, rfl⟩

theorem loadKites_steady (img : List Byte) (l : LDesc) (ks : List (Nat × Nat)) (s : State) : steady s (ks.foldl (loadKite img l) s) :=
  steady_foldl (fun s _ => setKite_steady s _ _) ks s

theorem reload_steady (s : State) (l : LDesc) : steady s (s.reload l) := by
  have hread := (readMem_memSide s l.image l.imageLen).steady
  unfold State.reload
  generalize s.readMem l.image l.imageLen = x at hread
  obtain ⟨img, bad, v⟩ := x
  exact steady_trans hread (steady_trans (loadKites_steady img l _ v) (go_steady _ l))

theorem prepare_steady (s : State) (l : LDesc) (again : Bool) : steady s (s.prepare l again).2 := by
  have hread := (readMem_memSide s l.image l.imageLen).steady
  unfold State.prepare
  dsimp only
  split
  · exact steady_refl s
  · generalize s.readMem l.image l.imageLen = x at hread
    obtain ⟨img, bad, v⟩ := x
    dsimp only at hread ⊢
    split
    · exact hread
    · exact steady_trans hread (loadKites_steady img l _ v)

theorem launchWith_steady (s : State) (l : LDesc) (again : Bool) : steady s (s.launchWith l again) := by
  unfold State.launchWith
  split
  · exact ⟨rfl, rfl, rfl⟩
  · have hp := prepare_steady s l again
    generalize s.prepare l again = x at hp
    obtain ⟨c, v⟩ := x
    refine steady_trans hp ?_
    exact steady_ite ⟨rfl, rfl, rfl⟩ (unitReqs_transport _ _ _ _ _).steady

theorem tryRelaunch_steady (s : State) : steady s s.tryRelaunch := by
  unfold State.tryRelaunch
  split
  · exact steady_refl s
  · exact steady_ite (reload_steady s _) (steady_ite (steady_refl s) (launchWith_steady s _ true))

theorem replan_steady (s : State) (j : Nat) : steady s (s.replan j) := by
  unfold State.replan
  dsimp only
  refine steady_trans ⟨rfl, rfl, rfl⟩ (steady_foldl (fun s n => ?_) _ _)
  split
  · exact ⟨rfl, rfl, rfl⟩
  · exact setReq_steady s n _

theorem recordHost_steady (s : State) (j : Nat) (l : List Byte) : steady s (s.recordHost j l) := by
  unfold State.recordHost
  refine steady_ite (steady_refl s) ?_
  have hput := (hostPut_hostOnly s (s.tel.tHost + j % 2 ^ s.tel.tLogd * 64) l).completes.memSide.steady
  generalize s.hostPut (s.tel.tHost + j % 2 ^ s.tel.tLogd * 64) l = x at hput
  obtain ⟨ok, v⟩ := x
  exact steady_ite hput (steady_trans hput ⟨rfl, rfl, rfl⟩)

theorem recordPorts_steady (s : State) (j : Nat) (l : List Byte) : steady s (s.recordPorts j l) := by
  have hlost : steady s { s with tel := { s.tel with xFail := satAdd 32 s.tel.xFail 1 } } := ⟨rfl, rfl, rfl⟩
  have hsend : ∀ m, steady s (s.enqueue m).2 := fun m => (enqueue_moves s m).1.steady
  unfold State.recordPorts
  dsimp only
  refine steady_ite (steady_refl s) (steady_ite hlost (steady_ite (steady_ite (hsend _) hlost) (steady_ite hlost ?_)))
  exact ⟨rfl, rfl, rfl⟩

theorem tickRecord_steady (s : State) (j : Nat) : steady s (s.tickRecord j) := by
  unfold State.tickRecord
  dsimp only
  refine steady_trans ?_ (recordPorts_steady _ j _)
  refine steady_trans ?_ (recordHost_steady _ j _)
  exact ⟨rfl, rfl, rfl⟩

end Last

end Sys2Proof.Stated
end

section
/-! SUPPORT. An epoch boundary with one edit, and the retirement of an epoch (R240, R241, R245). -/
namespace Sys2Proof.Stated
open Sys2Proof.Machine

section OneEdit
variable {p q : Pgm} {e : Edit} {c : Counts}

theorem budget_pos (host : Bool) : ¬budget host ≤ 0 := by
  cases host <;> decide

/-- A queue of one edit that is no DROPSPACE is taken. -/
theorem share_one (hdrop : p.dropping = []) (hed : p.edits = [e]) (hnd : e.kind.isDrop = false) : ∃ nS nH, p.share = { take := [e], nS := nS, nH := nH } := by
  have hany : ∀ o : Option Nat, o.any [].contains = false := fun o => by cases o <;> rfl
  have hwait : (({ } : Share).waits e.kind) = false := by
    unfold Share.waits
    rw [hany, Bool.false_or, List.any_eq_false]
    exact fun x _ => nofun
  have hused : ({ } : Share).used e.host = 0 := by
    unfold Share.used
    exact ite_self _
  have hsort : p.share = ({ take := [e] } : Share).count e.host := by
    unfold Pgm.share
    rw [hed, hdrop, List.foldl_cons, List.foldl_nil, List.map_nil]
    unfold Share.sort
    rw [if_neg (by rw [hwait]; exact Bool.false_ne_true), if_neg (by rw [hnd]; exact Bool.false_ne_true),
      if_neg (by rw [hany]; exact Bool.false_ne_true), if_neg (by rw [hused]; exact budget_pos _)]
    rfl
  rw [hsort]
  unfold Share.count
  split
  · exact ⟨_, _, rfl⟩
  · exact ⟨_, _, rfl⟩

theorem drops_none {n m : Nat} (h : q.dropping = []) : q.drops c n m = (q, c, 0, 0) := by
  have hq : ({ q with dropping := [] } : Pgm) = q := by rw [← h]
  unfold Pgm.drops
  rw [h]
  exact congrArg (fun q => (q, c, 0, 0)) hq

/-- The counts of frames after an edit, and the epoch that begins. -/
def counted (q : Pgm) (c : Counts) : Pgm :=
  let r := c.decs.foldl Pgm.decFrame (c.incs.foldl Pgm.incFrame { q with edits := [] })
  { r with epoch := wrapAdd 64 r.epoch 1, tlb := [] }

/-- What the boundary takes of the backlog, behind the edits of the queue (R284). -/
def takeBack (x : Share) (a : Pgm × Counts) : Pgm × Counts × Nat :=
  let back := a.1.backlog.take (7168 - x.nS)
  let b := back.foldl Pgm.applyEdit ({ a.1 with backlog := a.1.backlog.drop back.length }, a.2)
  (b.1, b.2, x.nS + back.length)

/-- What it works off of detached spaces, and the edits that were tied to them (R449). -/
def workOff (x : Share) (a : Pgm × Counts × Nat) : Pgm × Counts × List Edit :=
  let d := a.1.drops a.2.1 (7168 - a.2.2) (1024 - x.nH)
  let y := ({ x with nS := a.2.2 + d.2.2.1, nH := x.nH + d.2.2.2 }).untie d.1.dropping
  let b := y.take.foldl Pgm.applyEdit (d.1, d.2.1)
  (b.1, b.2, y.keep)

/-- The counts of frames, and the epoch that begins. -/
def closeEpoch (a : Pgm × Counts × List Edit) : Pgm × List Nat × Nat :=
  let r := a.2.1.decs.foldl Pgm.decFrame (a.2.1.incs.foldl Pgm.incFrame { a.1 with edits := a.2.2 })
  ({ r with epoch := wrapAdd 64 r.epoch 1, tlb := [] }, a.2.1.incs ++ a.2.1.decs, a.2.1.n)

theorem boundary_stages (p : Pgm) : p.boundary = closeEpoch (workOff p.share (takeBack p.share (p.share.take.foldl Pgm.applyEdit (p, {})))) := rfl

theorem takeBack_none {x : Share} (h : q.backlog = []) : takeBack x (q, c) = (q, c, x.nS) := by
  have hq : ({ q with backlog := [] } : Pgm) = q := by rw [← h]
  unfold takeBack
  dsimp only
  rw [h, List.take_nil]
  exact congrArg (fun q => (q, c, x.nS)) hq

theorem workOff_none {x : Share} {n : Nat} (h : q.dropping = []) (ht : x.tied = []) (hk : x.keep = []) : workOff x (q, c, n) = (q, c, []) := by
  have hd : ∀ bs bh, q.drops c bs bh = (q, c, 0, 0) := fun _ _ => drops_none h
  have huntie : ∀ nS nH l, ({ x with nS := nS, nH := nH } : Share).untie l = { x with nS := nS, nH := nH, take := [], tied := [] } := by
    intro nS nH l
    unfold Share.untie
    rw [ht]
    rfl
  unfold workOff
  dsimp only
  rw [hd]
  dsimp only
  rw [huntie, hk]
  rfl

/-- A boundary with one edit, and nothing else to do, applies it. -/
theorem boundary_one (hdrop : p.dropping = []) (hed : p.edits = [e]) (hnd : e.kind.isDrop = false) (happ : Pgm.applyEdit (p, {}) e = (q, c))
    (hqd : q.dropping = []) (hqb : q.backlog = []) : p.boundary = (counted q c, c.incs ++ c.decs, c.n) := by
  obtain ⟨nS, nH, hshare⟩ := share_one hdrop hed hnd
  have hone : p.share.take.foldl Pgm.applyEdit (p, {}) = (q, c) := by
    rw [hshare]
    exact happ
  rw [boundary_stages, hone, takeBack_none hqb, workOff_none hqd (by rw [hshare]) (by rw [hshare])]
  rfl

/-- What stands when a boundary finds nothing but one edit. -/
def calm (p : Pgm) : Prop := p.migs = [] ∧ p.dropping = [] ∧ p.backlog = [] ∧ p.pxNew = [] ∧ p.nAbandon < 65536 ∧ ∀ a, p.sound (pftBlock a) = true

theorem takeImports_none (h : p.pxNew = []) : p.takeImports = p := by
  have hp : ({ p with pxNew := [] } : Pgm) = p := by rw [← h]
  unfold Pgm.takeImports
  rw [h]
  exact hp

theorem endMigs_none (h : p.migs = []) : p.endMigs = (p, 0) := by
  unfold Pgm.endMigs
  rw [h]
  rfl

theorem epochBoundary_one {s : State} (hcalm : calm s.pgm) (hed : s.pgm.edits = [e]) (hnd : e.kind.isDrop = false) (happ : Pgm.applyEdit (s.pgm, {}) e = (q, c))
    (hqd : q.dropping = []) (hqb : q.backlog = []) (hs : ∀ a, (counted q c).sound (pftBlock a) = true) : (Machine.epochBoundary s).pgm = counted q c := by
  obtain ⟨hmigs, hdrop, -, hpx, hab, -⟩ := hcalm
  have hp : ({ s.pgm with nAbandon := satAdd 16 s.pgm.nAbandon 0 } : Pgm) = s.pgm := by
    have : satAdd 16 s.pgm.nAbandon 0 = s.pgm.nAbandon := by unfold satAdd; omega
    rw [this]
  unfold Machine.epochBoundary
  rw [takeImports_none hpx, endMigs_none hmigs]
  dsimp only
  rw [List.range_zero, List.foldl_nil, hp, boundary_one hdrop hed hnd happ hqd hqb]
  dsimp only
  rw [readPft_sound fun a _ => hs a]

theorem upFrame_some {fr : Nat} {f : Frame4} {g : Frame4 → Frame4} (h : mapGet p.frames (fr / 4096) = some f) :
    p.upFrame fr g = { p with frames := mapSet p.frames (fr / 4096) (g f) } := by
  unfold Pgm.upFrame
  rw [h]

theorem incFrame_some {fr : Nat} {f : Frame4} (hm : p.migs = []) (h : mapGet p.frames (fr / 4096) = some f) :
    p.incFrame fr = { p with frames := mapSet p.frames (fr / 4096) { f with refcnt := f.refcnt + 1 } } := by
  unfold Pgm.incFrame
  dsimp only
  rw [upFrame_some h]
  split
  · dsimp only
    rw [hm, List.map_nil]
  · rfl

theorem decFrame_many {fr : Nat} {f : Frame4} (h : mapGet p.frames (fr / 4096) = some f) (hc : 1 < f.refcnt) :
    p.decFrame fr = { p with frames := mapSet p.frames (fr / 4096) { f with refcnt := f.refcnt - 1 } } := by
  unfold Pgm.decFrame
  rw [upFrame_some h, if_neg (by omega)]

theorem decFrame_last {fr : Nat} {f : Frame4} (h : mapGet p.frames (fr / 4096) = some f) (hc : f.refcnt = 1) :
    p.decFrame fr = { p with frames := mapSet p.frames (fr / 4096) { f with refcnt := 0, st := .quar, qepoch := p.epoch } } := by
  unfold Pgm.decFrame
  rw [upFrame_some h, if_pos (by omega)]

end OneEdit

end Sys2Proof.Stated
end

section
/-! SUPPORT. Frames leave quarantine, and the step boundary is made (R240, R241, R245, R285). -/
namespace Sys2Proof.Stated
open Sys2Proof.Machine

section Retire
variable {s : State}

/-- What is left of a frame that leaves quarantine. -/
def left (f : Frame4) : Option Frame4 := if f.retire then some { f with st := .retired } else none

theorem release_frames {p : Pgm} (b : Nat) (h : mapWf p.frames = true) : mapWf (p.release b).frames = true ∧ (p.release b).oldest = p.oldest ∧
    ∀ k, mapGet (p.release b).frames k = if k = b then none else mapGet p.frames k := by
  unfold Pgm.release
  split
  · next hn =>
    refine ⟨h, rfl, fun k => ?_⟩
    split
    · next hk => rw [hk, hn]
    · rfl
  · dsimp only
    split
    · exact ⟨mapWf_mapDel _ _ h, rfl, fun k => mapGet_mapDel h⟩
    · exact ⟨mapWf_mapDel _ _ h, rfl, fun k => mapGet_mapDel h⟩

theorem leaveQuar_frames (b : Nat) (f : Frame4) (h : mapWf s.pgm.frames = true) : mapWf (s.leaveQuar b f).pgm.frames = true ∧
    (s.leaveQuar b f).pgm.oldest = s.pgm.oldest ∧ ∀ k, mapGet (s.leaveQuar b f).pgm.frames k = if k = b then left f else mapGet s.pgm.frames k := by
  have hset : ∀ k, mapGet (mapSet s.pgm.frames b { f with st := FrSt.retired }) k = if k = b then some { f with st := .retired } else mapGet s.pgm.frames k := by
    intro k
    split
    · next hk => rw [hk, mapGet_mapSet_self]
    · next hk => rw [mapGet_mapSet_ne _ _ _ _ hk]
  unfold State.leaveQuar left
  split
  · dsimp only
    split
    · rw [log_pgm]
      exact ⟨mapWf_mapSet _ _ _ h, rfl, hset⟩
    · exact ⟨mapWf_mapSet _ _ _ h, rfl, hset⟩
  · exact release_frames b h

theorem leaveQuars_oldest (l : List (Nat × Frame4)) (s : State) (h : mapWf s.pgm.frames = true) :
    (l.foldl (fun s x => s.leaveQuar x.1 x.2) s).pgm.oldest = s.pgm.oldest := by
  induction l generalizing s with
  | nil => rfl
  | cons x l ih =>
    obtain ⟨hwf, hold, -⟩ := leaveQuar_frames (s := s) x.1 x.2 h
    exact (ih _ hwf).trans hold

theorem leaveQuars_frames (l : List (Nat × Frame4)) (s : State) (h : mapWf s.pgm.frames = true) {k : Nat} {f : Frame4} (hk : ∀ g, (k, g) ∈ l → g = f) :
    mapGet (l.foldl (fun s x => s.leaveQuar x.1 x.2) s).pgm.frames k = if (k, f) ∈ l then left f else mapGet s.pgm.frames k := by
  induction l generalizing s with
  | nil => rfl
  | cons x l ih =>
    obtain ⟨hwf, -, hget⟩ := leaveQuar_frames (s := s) x.1 x.2 h
    refine (ih _ hwf fun g hg => hk g (List.mem_cons_of_mem _ hg)).trans ?_
    by_cases hx : k = x.1
    · have hf : x.2 = f := hk x.2 (by rw [hx]; exact List.mem_cons_self)
      rw [hget, if_pos hx, hf, ite_self, if_pos (by rw [hx, ← hf]; exact List.mem_cons_self)]
    · rw [hget, if_neg hx]
      refine if_congr ?_ rfl rfl
      rw [List.mem_cons, or_iff_right fun he => hx (congrArg Prod.fst he)]

theorem epochRetire_idle (h : s.pgm.oldestNow ≤ s.pgm.oldest) : Machine.epochRetire s = s := if_pos h

theorem epochRetire_due (h : s.pgm.oldest < s.pgm.oldestNow) (hwf : mapWf s.pgm.frames = true) :
    (Machine.epochRetire s).pgm.oldest = s.pgm.oldestNow ∧ ∀ b f, mapGet s.pgm.frames b = some f →
      mapGet (Machine.epochRetire s).pgm.frames b = if f.st = .quar ∧ f.qepoch < s.pgm.oldestNow then left f else some f := by
  have heq : Machine.epochRetire s = (s.pgm.frames.filter fun x => x.2.st == .quar && decide (x.2.qepoch < s.pgm.oldestNow)).foldl
      (fun s x => s.leaveQuar x.1 x.2) { s with pgm := { s.pgm with oldest := s.pgm.oldestNow } } := if_neg (Nat.not_le.2 h)
  have hmem : ∀ b f, (b, f) ∈ (s.pgm.frames.filter fun x => x.2.st == .quar && decide (x.2.qepoch < s.pgm.oldestNow)) ↔
      mapGet s.pgm.frames b = some f ∧ f.st = .quar ∧ f.qepoch < s.pgm.oldestNow := by
    intro b f
    rw [List.mem_filter, mapGet_iff_mem hwf, Bool.and_eq_true, beq_iff_eq, decide_eq_true_iff]
  rw [heq]
  generalize (s.pgm.frames.filter fun x => x.2.st == .quar && decide (x.2.qepoch < s.pgm.oldestNow)) = l at hmem ⊢
  refine ⟨leaveQuars_oldest l _ hwf, fun b f hf => ?_⟩
  refine (leaveQuars_frames l { s with pgm := { s.pgm with oldest := s.pgm.oldestNow } } hwf (k := b) (f := f)
    fun g hg => Option.some.inj (((hmem b g).1 hg).1.symm.trans hf)).trans ?_
  exact if_congr (by rw [hmem, and_iff_right hf]) rfl hf

end Retire

/-! ### One edit of each kind (R240) -/

section Edits
variable {p q r : Pgm} {fr : Nat} {f : Frame4}

theorem counted_inc (hm : p.migs = []) (hf : mapGet p.frames (fr / 4096) = some f) : counted p { incs := [fr], n := 1 } = { p with
    edits := [], tlb := [], frames := mapSet p.frames (fr / 4096) { f with refcnt := f.refcnt + 1 }, epoch := (p.epoch + 1) % 2 ^ 64 } :=
  congrArg (fun r : Pgm => ({ r with epoch := wrapAdd 64 r.epoch 1, tlb := [] } : Pgm)) (incFrame_some (p := { p with edits := [] }) hm hf)

theorem counted_dec (h : ({ q with edits := [] } : Pgm).decFrame fr = r) : counted q { decs := [fr], n := 1 } = { r with epoch := (r.epoch + 1) % 2 ^ 64, tlb := [] } :=
  congrArg (fun r : Pgm => ({ r with epoch := wrapAdd 64 r.epoch 1, tlb := [] } : Pgm)) h

theorem applyEdit_inc (p : Pgm) (fr : Nat) (host : Bool) : Pgm.applyEdit (p, {}) ⟨.inc fr, host⟩ = (p, { incs := [fr], n := 1 }) := rfl

theorem applyEdit_dec (p : Pgm) (fr : Nat) (host : Bool) : Pgm.applyEdit (p, {}) ⟨.dec fr, host⟩ = (p, { decs := [fr], n := 1 }) := rfl

/-- An UNMAP takes its leaf out, and its frame's count is to go down. -/
theorem applyEdit_unmap {n va : Nat} {l : Leaf} {sp : Space} {host : Bool} (hm : p.migs = []) (hn : mapGet p.spaces n = some sp)
    (hl : sp.leafAt (va - spaceBase n) = some l) : Pgm.applyEdit (p, {}) ⟨.unmap n va, host⟩ =
      ({ p with spaces := mapSet p.spaces n { sp with leaves := sp.leaves.filter fun x => x.off != l.off } }, { decs := [l.frame], n := 1 }) := by
  unfold Pgm.applyEdit
  dsimp only
  rw [hn]
  dsimp only
  rw [hl]
  unfold Pgm.spoil
  dsimp only
  rw [hm, List.map_nil]
  rfl

end Edits

/-! ### The step boundary -/

section Boundary
variable {s : State}

/-- The state once the edits, the requests and the compactions of a boundary are done. -/
def boundaryDone (s : State) : State :=
  let run := s.sch.cur.filter fun c => c.tick == s.sch.bnd
  let next := (((mapGet s.sch.plan (s.sch.bnd + 1)).map (·.chunks)).getD []).map (·.1)
  (((run.filter fun c => !c.cut).map (·.chunks)).getD []).foldl State.planCompact
    ((Machine.epochBoundary s.preBoundary).makeUsable.reqBoundary (((run.map (·.chunks)).getD []).map (·.1)) next)

/-- It is counted, and the step that ended is over. -/
def boundaryCounted (b : Nat) (gone : Bool) (u : State) : State :=
  { u with sch := { u.sch with
      bnd := b + 1, bndTb := u.pwr.tb, cur := if gone then none else u.sch.cur
      bgNow := u.sch.bgNow ++ mapGetD u.sch.bgPlan b [], bgPlan := mapDel u.sch.bgPlan b } }

/-- What a boundary does last: a relaunch, planning after lost ticks, the tick record, and the word to the members. -/
def boundaryLast (b : Nat) (u : State) : State :=
  let s := u.tryRelaunch
  let s := match s.sch.lostFrom with
    | some _ =>
      let s := s.replan (ceilDiv (s.pwr.tb + 1500000 - s.sch.t0) s.periodNs)
      { s with sch := { s.sch with lostFrom := none } }
    | none => s
  let s := if b = 0 then s else s.tickRecord (b - 1)
  if s.members.isEmpty || s.tickStart (b + 1) ≤ s.pwr.tb + 50000 || s.sch.relaunch.isSome then s else s.schedCtl 2 (b + 1) []

theorem boundaryLast_steady (b : Nat) (u : State) : steady u (boundaryLast b u) := by
  have hlost : ∀ v : State, steady v (match v.sch.lostFrom with
      | some _ =>
        let s := v.replan (ceilDiv (v.pwr.tb + 1500000 - v.sch.t0) v.periodNs)
        { s with sch := { s.sch with lostFrom := none } }
      | none => v) := by
    intro v
    split
    · exact steady_trans (replan_steady v _) ⟨rfl, rfl, rfl⟩
    · exact steady_refl v
  have hrec : ∀ v : State, steady v (if b = 0 then v else v.tickRecord (b - 1)) := fun v => steady_ite (steady_refl v) (tickRecord_steady v _)
  have hctl : ∀ v : State, steady v (if v.members.isEmpty || v.tickStart (b + 1) ≤ v.pwr.tb + 50000 || v.sch.relaunch.isSome then v else v.schedCtl 2 (b + 1) []) :=
    fun v => steady_ite (steady_refl v) (schedCtl_linkOnly v _ _ _).steady
  exact steady_trans (tryRelaunch_steady u) (steady_trans (hlost _) (steady_trans (hrec _) (hctl _)))

theorem stepBoundary_due (h : s.boundaryDue = true) : Machine.stepBoundary s =
    boundaryLast s.sch.bnd (boundaryCounted s.sch.bnd (s.sch.cur.filter fun c => c.tick == s.sch.bnd).isSome (boundaryDone s)) :=
  (if_neg (by rw [h]; exact nofun)).trans rfl

theorem boundaryDone_epoch (s : State) : (boundaryDone s).pgm.epoch = (s.pgm.epoch + 1) % 2 ^ 64 := by
  have hpre := preBoundary_steady s
  have husable : ∀ u : State, u.makeUsable.pgm.epoch = u.pgm.epoch := fun _ => rfl
  obtain ⟨hep, -⟩ := epochBoundary_spec s.preBoundary
  unfold boundaryDone
  dsimp only
  refine (steady_foldl planCompact_steady _ _).1.trans ((reqBoundary_steady _ _ _).1.trans ?_)
  exact (husable _).trans (hep.trans (by rw [hpre.1]))

theorem stepBoundary_spec (h : s.boundaryDue = true) : (Machine.stepBoundary s).sch.bnd = s.sch.bnd + 1 ∧
    (Machine.stepBoundary s).pgm.epoch = (s.pgm.epoch + 1) % 2 ^ 64 ∧ ∀ c, s.sch.cur = some c → c.tick = s.sch.bnd → (Machine.stepBoundary s).sch.cur = none := by
  rw [stepBoundary_due h]
  obtain ⟨hep, hbnd, hcur⟩ := boundaryLast_steady s.sch.bnd
    (boundaryCounted s.sch.bnd (s.sch.cur.filter fun c => c.tick == s.sch.bnd).isSome (boundaryDone s))
  refine ⟨hbnd, hep.trans (boundaryDone_epoch s), fun c hc ht => hcur.trans (if_pos ?_)⟩
  rw [hc, Option.filter_some, if_pos (beq_iff_eq.2 ht)]
  rfl

end Boundary

/-- Settles O34: nothing that a boundary does besides its own count changes the epoch, the boundaries made or the step in hand; a boundary
with one edit changes what the edit is about; and the frames that leave quarantine are those of retired epochs. -/
theorem epochBoundary : Obligations.EpochBoundary := by
  unfold Obligations.EpochBoundary
  intro s p quiet ended
  have hcalm : quiet → calm p := id
  have hsound : quiet → ∀ a, p.sound (pftBlock a) = true := fun h => h.2.2.2.2.2
  refine ⟨fun hdue => ⟨_, rfl, stepBoundary_spec hdue⟩, fun fr f host hq hed hf => ?_, fun fr f host hq hed hf hc => ?_, fun fr f host hq hed hf hc => ?_,
    fun n va l sp f host hq hed hn hl hf hc => ?_, fun hold hwf => ?_, fun hold => ?_⟩
  · have hinc := counted_inc hq.1 hf
    exact (epochBoundary_one (hcalm hq) hed rfl (applyEdit_inc p fr host) hq.2.1 hq.2.2.1 (by rw [hinc]; exact hsound hq)).trans hinc
  · have hdec := counted_dec (q := p) (decFrame_many (p := { p with edits := [] }) hf hc)
    exact (epochBoundary_one (hcalm hq) hed rfl (applyEdit_dec p fr host) hq.2.1 hq.2.2.1 (by rw [hdec]; exact hsound hq)).trans hdec
  · have hdec := counted_dec (q := p) (decFrame_last (p := { p with edits := [] }) hf hc)
    exact (epochBoundary_one (hcalm hq) hed rfl (applyEdit_dec p fr host) hq.2.1 hq.2.2.1 (by rw [hdec]; exact hsound hq)).trans hdec
  · have happ := applyEdit_unmap (host := host) hq.1 hn hl
    have hdec := counted_dec (q := { p with
      spaces := mapSet p.spaces n { sp with leaves := sp.leaves.filter fun x => x.off != l.off } }) (decFrame_many (p := { p with
      spaces := mapSet p.spaces n { sp with leaves := sp.leaves.filter fun x => x.off != l.off }, edits := [] }) hf hc)
    exact (epochBoundary_one (hcalm hq) hed rfl happ hq.2.1 hq.2.2.1 (by rw [hdec]; exact hsound hq)).trans hdec
  · obtain ⟨h1, h2⟩ := epochRetire_due hold hwf
    refine ⟨_, rfl, h1, fun b f hf => ⟨fun hst hqe hr => ?_, fun hst hqe hr => ?_, fun hk => ?_⟩⟩
    · rw [h2 b f hf, if_pos ⟨hst, hqe⟩]
      exact if_neg (by rw [hr]; exact nofun)
    · rw [h2 b f hf, if_pos ⟨hst, hqe⟩]
      exact if_pos hr
    · rw [h2 b f hf, if_neg]
      exact fun h => hk.elim (· h.1) fun h' => Nat.not_lt.2 h' h.2
  · exact congrArg Host.Outcome.next (epochRetire_idle hold)

end Sys2Proof.Stated
end
